-- ==== Sys2Proof/Word.lean ====
section
/-! DEFINITION. The word types and the plainest arithmetic on them. -/

namespace Sys2Proof

/-- A byte of memory. -/
abbrev Byte := BitVec 8

/-- A scalar register or an address (R8). -/
abbrev Word := BitVec 64

/-- The contents of a vector register (R179). -/
abbrev VWord := BitVec 512

/-- A 64-bit word from a number, wrapping modulo 2^64 (R74). -/
def w64 (n : Nat) : Word := BitVec.ofNat 64 n

/-- Bit `k` of a number. -/
def bitAt (n k : Nat) : Bool := n / 2 ^ k % 2 == 1

/-- The `len` bits from bit `lo` of a number. -/
def bitsAt (n lo len : Nat) : Nat := n / 2 ^ lo % 2 ^ len

/-- A truth value as 0 or 1. -/
def b2n (b : Bool) : Nat := if b then 1 else 0

/-- R74 `sext32`: the 64-bit sign extension of bits [31:0]. -/
def sext32 (v : Word) : Word := (v.setWidth 32).signExtend 64

end Sys2Proof
end

