-- ==== Sys2Proof/Syntax.lean ====
section
/-! DEFINITION. The instruction syntax: one constructor per row of spec/opcode_table.json.
A row with an encoding has the operand fields of that encoding (R46 to R72) as arguments; `p` is the not-ready
policy of R13.  A row without an encoding is an event of the machine (an action of a unit, a queue, the host or
the network): its arguments name the unit it happens at and the data the outside supplies. -/

namespace Sys2Proof

/-- R13: the four not-ready policies, in the order of their codes. -/
inductive Policy where
  | rt | fl | yd | br
deriving DecidableEq, Repr

/-- R13: the policy a 2-bit field names. -/
def Policy.ofBits (p : BitVec 2) : Policy :=
  match p.toNat with
  | 0 => .rt
  | 1 => .fl
  | 2 => .yd
  | _ => .br

/-- R13: the 2-bit code of a policy. -/
def Policy.bits : Policy → BitVec 2
  | .rt => 0#2
  | .fl => 1#2
  | .yd => 2#2
  | .br => 3#2

/-- R446, R447: what a configuration image says. Every setting of the module lives in such an image; the spec gives no
layout for its body. The settings here are those that no other event writes: minimum versions (kind less 1, version),
revoked keys, entries of HRT (R228), apertures (16 × endpoint + index, and two doublewords, R423), and the event masks of
the fields' trace units (R434). (Log: DESIGN CHOICE 53) -/
structure ImageConfig where
  minVersions : List (Nat × Nat) := []
  revoked : List Nat := []
  hrt : List (Nat × Nat) := []
  apertures : List (Nat × Word × Word) := []
  traceMasks : List (Nat × Nat) := []
deriving DecidableEq, Repr

/-- R322: a partner's entry of a collective as its device announces it: device, context, field, queue, minor, its words
`ox0` to `ox2`, and the elements of its source. -/
structure Partner where
  dev : Nat
  ctx : Nat
  field : Nat
  queue : Nat
  form : Nat
  ox0 : BitVec 32
  ox1 : BitVec 32
  ox2 : BitVec 32
  src : List Nat
deriving DecidableEq, Repr

/-- The instructions and events of the device, in the order of the opcode table. -/
inductive Instr where
  /-- R77. Writes the 64-bit wrapping sum of two registers. -/
  | add (b : BitVec 6) (a : BitVec 6) (d : BitVec 6)
  /-- R77. Writes the wrapping difference of two registers. -/
  | sub (b : BitVec 6) (a : BitVec 6) (d : BitVec 6)
  /-- R77. Writes the bitwise AND of two registers. -/
  | and (b : BitVec 6) (a : BitVec 6) (d : BitVec 6)
  /-- R77. Writes the bitwise OR of two registers. -/
  | or (b : BitVec 6) (a : BitVec 6) (d : BitVec 6)
  /-- R77. Writes the bitwise XOR of two registers. -/
  | xor (b : BitVec 6) (a : BitVec 6) (d : BitVec 6)
  /-- R77. Shifts a left by b[5:0]. -/
  | sll (b : BitVec 6) (a : BitVec 6) (d : BitVec 6)
  /-- R77. Shifts a logically right by b[5:0]. -/
  | srl (b : BitVec 6) (a : BitVec 6) (d : BitVec 6)
  /-- R77. Shifts a arithmetically right by b[5:0]. -/
  | sra (b : BitVec 6) (a : BitVec 6) (d : BitVec 6)
  /-- R77. Writes 1 when a is less than b as signed numbers. -/
  | slt (b : BitVec 6) (a : BitVec 6) (d : BitVec 6)
  /-- R77. Writes 1 when a is less than b as unsigned numbers. -/
  | sltu (b : BitVec 6) (a : BitVec 6) (d : BitVec 6)
  /-- R77. Writes the signed minimum. -/
  | min (b : BitVec 6) (a : BitVec 6) (d : BitVec 6)
  /-- R77. Writes the signed maximum. -/
  | max (b : BitVec 6) (a : BitVec 6) (d : BitVec 6)
  /-- R77. Writes the unsigned minimum. -/
  | minu (b : BitVec 6) (a : BitVec 6) (d : BitVec 6)
  /-- R77. Writes the unsigned maximum. -/
  | maxu (b : BitVec 6) (a : BitVec 6) (d : BitVec 6)
  /-- R77. Copies one register to another. -/
  | mv (a : BitVec 6) (d : BitVec 6)
  /-- R77. Writes the sign-extended 32-bit sum. -/
  | addw (b : BitVec 6) (a : BitVec 6) (d : BitVec 6)
  /-- R77. Writes the sign-extended 32-bit difference. -/
  | subw (b : BitVec 6) (a : BitVec 6) (d : BitVec 6)
  /-- R77. Shifts the low word left and sign-extends the result. -/
  | sllw (b : BitVec 6) (a : BitVec 6) (d : BitVec 6)
  /-- R77. Shifts the low word logically right and sign-extends the result. -/
  | srlw (b : BitVec 6) (a : BitVec 6) (d : BitVec 6)
  /-- R77. Shifts the low word arithmetically right and sign-extends the result. -/
  | sraw (b : BitVec 6) (a : BitVec 6) (d : BitVec 6)
  /-- R77. Writes (a << 1) + b. -/
  | sh1add (b : BitVec 6) (a : BitVec 6) (d : BitVec 6)
  /-- R77. Writes (a << 2) + b. -/
  | sh2add (b : BitVec 6) (a : BitVec 6) (d : BitVec 6)
  /-- R77. Writes (a << 3) + b. -/
  | sh3add (b : BitVec 6) (a : BitVec 6) (d : BitVec 6)
  /-- R77. Writes (a << 4) + b. -/
  | sh4add (b : BitVec 6) (a : BitVec 6) (d : BitVec 6)
  /-- R77. Writes an operand-extension register sign-extended to 64 bits. -/
  | lix (n : BitVec 2) (d : BitVec 6)
  /-- R77. Writes an operand-extension register zero-extended to 64 bits. -/
  | lixu (n : BitVec 2) (d : BitVec 6)
  /-- R77. Writes an operand-extension register into the upper half of d. -/
  | insh (n : BitVec 2) (d : BitVec 6)
  /-- R85. Jumps indirectly to a register target that must hold a land. -/
  | jr (a : BitVec 6)
  /-- R85. Calls an indirect register target and links to x30. -/
  | callr (a : BitVec 6)
  /-- R85. Returns to the address in x30. -/
  | ret
  /-- R86. Marks a valid indirect-branch target and executes as a no-op. -/
  | land
  /-- R87. Lowers the stack pointer by a frame size after checking stklim. -/
  | enter (l : BitVec 6) (h : BitVec 6)
  /-- R87. Allocates a frame, saves the old frame pointer in r and sets the new one. -/
  | enterFp (l : BitVec 6) (h : BitVec 6) (r : BitVec 5)
  /-- R87. Raises the stack pointer by a frame size. -/
  | leave (l : BitVec 6) (h : BitVec 6)
  /-- R87. Restores the stack pointer from the frame pointer and the frame pointer from r. -/
  | leaveFp (l : BitVec 6) (h : BitVec 6) (r : BitVec 5)
  /-- R89. Packs bit 0 of k0 to k7 into byte n of a register. -/
  | kpack (n : BitVec 3) (d : BitVec 6)
  /-- R89. Unpacks byte n of a register into bit 0 of k0 to k7. -/
  | kunpack (n : BitVec 3) (a : BitVec 6)
  /-- R78. Adds a sign-extended 12-bit immediate. -/
  | addi (i : BitVec 12) (a : BitVec 5) (d : BitVec 5)
  /-- R78. Loads a sign-extended 17-bit immediate. -/
  | li (i : BitVec 12) (j : BitVec 5) (d : BitVec 5)
  /-- R78. ANDs with a sign-extended immediate. -/
  | andi (i : BitVec 12) (a : BitVec 5) (d : BitVec 5)
  /-- R78. ORs with a sign-extended immediate. -/
  | ori (i : BitVec 12) (a : BitVec 5) (d : BitVec 5)
  /-- R78. XORs with a sign-extended immediate. -/
  | xori (i : BitVec 12) (a : BitVec 5) (d : BitVec 5)
  /-- R78. Compares with an immediate as signed numbers. -/
  | slti (i : BitVec 12) (a : BitVec 5) (d : BitVec 5)
  /-- R78. Compares with an immediate as unsigned numbers. -/
  | sltiu (i : BitVec 12) (a : BitVec 5) (d : BitVec 5)
  /-- R78. Shifts left by an immediate. -/
  | slli (s : BitVec 6) (a : BitVec 5) (d : BitVec 5)
  /-- R78. Shifts logically right by an immediate. -/
  | srli (s : BitVec 6) (a : BitVec 5) (d : BitVec 5)
  /-- R78. Shifts arithmetically right by an immediate. -/
  | srai (s : BitVec 6) (a : BitVec 5) (d : BitVec 5)
  /-- R78. Rotates right by an immediate. -/
  | rori (s : BitVec 6) (a : BitVec 5) (d : BitVec 5)
  /-- R80. Writes the low 64 bits of the product. -/
  | mul (b : BitVec 6) (a : BitVec 6) (d : BitVec 6)
  /-- R80. Writes the high half of the signed product. -/
  | mulh (b : BitVec 6) (a : BitVec 6) (d : BitVec 6)
  /-- R80. Writes the high half of the unsigned product. -/
  | mulhu (b : BitVec 6) (a : BitVec 6) (d : BitVec 6)
  /-- R80. Writes the high half of the signed-by-unsigned product. -/
  | mulhsu (b : BitVec 6) (a : BitVec 6) (d : BitVec 6)
  /-- R80. Writes the sign-extended 32-bit product. -/
  | mulw (b : BitVec 6) (a : BitVec 6) (d : BitVec 6)
  /-- R81. Writes the signed quotient with the defined zero and overflow cases. -/
  | div (b : BitVec 6) (a : BitVec 6) (d : BitVec 6)
  /-- R81. Writes the unsigned quotient. -/
  | divu (b : BitVec 6) (a : BitVec 6) (d : BitVec 6)
  /-- R81. Writes the signed remainder. -/
  | rem (b : BitVec 6) (a : BitVec 6) (d : BitVec 6)
  /-- R81. Writes the unsigned remainder. -/
  | remu (b : BitVec 6) (a : BitVec 6) (d : BitVec 6)
  /-- R81. Divides 32-bit signed operands. -/
  | divw (b : BitVec 6) (a : BitVec 6) (d : BitVec 6)
  /-- R81. Divides 32-bit unsigned operands. -/
  | divuw (b : BitVec 6) (a : BitVec 6) (d : BitVec 6)
  /-- R81. Writes the 32-bit signed remainder. -/
  | remw (b : BitVec 6) (a : BitVec 6) (d : BitVec 6)
  /-- R81. Writes the 32-bit unsigned remainder. -/
  | remuw (b : BitVec 6) (a : BitVec 6) (d : BitVec 6)
  /-- R82. Counts leading zeros. -/
  | clz (a : BitVec 6) (d : BitVec 6)
  /-- R82. Counts trailing zeros. -/
  | ctz (a : BitVec 6) (d : BitVec 6)
  /-- R82. Counts one bits. -/
  | cpop (a : BitVec 6) (d : BitVec 6)
  /-- R82. Reverses the byte order. -/
  | rev8 (a : BitVec 6) (d : BitVec 6)
  /-- R82. Reverses the bit order. -/
  | brev (a : BitVec 6) (d : BitVec 6)
  /-- R82. Writes a AND NOT b. -/
  | andn (b : BitVec 6) (a : BitVec 6) (d : BitVec 6)
  /-- R82. Writes a OR NOT b. -/
  | orn (b : BitVec 6) (a : BitVec 6) (d : BitVec 6)
  /-- R82. Writes NOT (a XOR b). -/
  | xnor (b : BitVec 6) (a : BitVec 6) (d : BitVec 6)
  /-- R82. Rotates left by b[5:0]. -/
  | rol (b : BitVec 6) (a : BitVec 6) (d : BitVec 6)
  /-- R82. Rotates right by b[5:0]. -/
  | ror (b : BitVec 6) (a : BitVec 6) (d : BitVec 6)
  /-- R82. Sets one bit. -/
  | bset (b : BitVec 6) (a : BitVec 6) (d : BitVec 6)
  /-- R82. Clears one bit. -/
  | bclr (b : BitVec 6) (a : BitVec 6) (d : BitVec 6)
  /-- R82. Inverts one bit. -/
  | binv (b : BitVec 6) (a : BitVec 6) (d : BitVec 6)
  /-- R82. Extracts one bit. -/
  | bext (b : BitVec 6) (a : BitVec 6) (d : BitVec 6)
  /-- R82. Extracts a bit field whose position and length come from b. -/
  | ext (b : BitVec 6) (a : BitVec 6) (d : BitVec 6)
  /-- R82. Sign-extends the low byte. -/
  | sextb (a : BitVec 6) (d : BitVec 6)
  /-- R82. Sign-extends the low half. -/
  | sexth (a : BitVec 6) (d : BitVec 6)
  /-- R82. Sign-extends the low word. -/
  | sextw (a : BitVec 6) (d : BitVec 6)
  /-- R83. Writes a mod 31. -/
  | mod31 (a : BitVec 6) (d : BitVec 6)
  /-- R83. Writes a div 31. -/
  | div31 (a : BitVec 6) (d : BitVec 6)
  /-- R83. Writes the scratchpad bank of byte offset a. -/
  | bankof (a : BitVec 6) (d : BitVec 6)
  /-- R83. Writes the scratchpad row of byte offset a. -/
  | rowof (a : BitVec 6) (d : BitVec 6)
  /-- R83. Writes the byte offset of bank a and row b. -/
  | spa (b : BitVec 6) (a : BitVec 6) (d : BitVec 6)
  /-- R83. Writes (a + b) mod 31 without wrap. -/
  | addm31 (b : BitVec 6) (a : BitVec 6) (d : BitVec 6)
  /-- R58. Writes a 16-bit immediate into the low half of an operand-extension register. -/
  | oxl (i : BitVec 16) (n : BitVec 2)
  /-- R58. Writes a 16-bit immediate into the high half of an operand-extension register. -/
  | oxh (i : BitVec 16) (n : BitVec 2)
  /-- R84. Branches when the registers are equal. -/
  | beq (o : BitVec 12) (b : BitVec 5) (a : BitVec 5)
  /-- R84. Branches when the registers differ. -/
  | bne (o : BitVec 12) (b : BitVec 5) (a : BitVec 5)
  /-- R84. Branches when a is less than b as signed numbers. -/
  | blt (o : BitVec 12) (b : BitVec 5) (a : BitVec 5)
  /-- R84. Branches when a is at least b as signed numbers. -/
  | bge (o : BitVec 12) (b : BitVec 5) (a : BitVec 5)
  /-- R84. Branches when a is less than b as unsigned numbers. -/
  | bltu (o : BitVec 12) (b : BitVec 5) (a : BitVec 5)
  /-- R84. Branches when a is at least b as unsigned numbers. -/
  | bgeu (o : BitVec 12) (b : BitVec 5) (a : BitVec 5)
  /-- R84. Branches when st.NR is 1. -/
  | bnr (o : BitVec 12)
  /-- R84. Branches when st.NR is 0. -/
  | brd (o : BitVec 12)
  /-- R84. Branches unconditionally within plus or minus 2,048 parcels. -/
  | j (o : BitVec 12)
  /-- R85. Links pc + 4 to x30 and branches to the J-format target. -/
  | call (o : BitVec 25)
  /-- R91. Adds two FP32 values under st.RM. -/
  | fadd (b : BitVec 6) (a : BitVec 6) (d : BitVec 6)
  /-- R91. Subtracts two FP32 values. -/
  | fsub (b : BitVec 6) (a : BitVec 6) (d : BitVec 6)
  /-- R91. Multiplies two FP32 values. -/
  | fmul (b : BitVec 6) (a : BitVec 6) (d : BitVec 6)
  /-- R91. Divides two FP32 values. -/
  | fdiv (b : BitVec 6) (a : BitVec 6) (d : BitVec 6)
  /-- R92. Writes the FP32 minimum. -/
  | fmin (b : BitVec 6) (a : BitVec 6) (d : BitVec 6)
  /-- R92. Writes the FP32 maximum. -/
  | fmax (b : BitVec 6) (a : BitVec 6) (d : BitVec 6)
  /-- R91. Writes a × b + d with one rounding. -/
  | fmadd (b : BitVec 6) (a : BitVec 6) (d : BitVec 6)
  /-- R91. Writes d − a × b with one rounding. -/
  | fmsub (b : BitVec 6) (a : BitVec 6) (d : BitVec 6)
  /-- R91. Writes the FP32 square root under the encoded mode. -/
  | fsqrt (r : BitVec 3) (a : BitVec 6) (d : BitVec 6)
  /-- R92. Combines the magnitude of a with the sign of b. -/
  | fsgnj (b : BitVec 6) (a : BitVec 6) (d : BitVec 6)
  /-- R92. Combines the magnitude of a with the inverted sign of b. -/
  | fsgnjn (b : BitVec 6) (a : BitVec 6) (d : BitVec 6)
  /-- R92. Combines the magnitude of a with the XOR of both signs. -/
  | fsgnjx (b : BitVec 6) (a : BitVec 6) (d : BitVec 6)
  /-- R92. Writes 1 when the FP32 values are equal. -/
  | feq (b : BitVec 6) (a : BitVec 6) (d : BitVec 6)
  /-- R91. Writes 1 when a is less than b. -/
  | flt (b : BitVec 6) (a : BitVec 6) (d : BitVec 6)
  /-- R91. Writes 1 when a is at most b. -/
  | fle (b : BitVec 6) (a : BitVec 6) (d : BitVec 6)
  /-- R94. Writes the one-hot class mask of an FP32 value. -/
  | fclass (a : BitVec 6) (d : BitVec 6)
  /-- R93. Converts FP32 to i32 with saturation. -/
  | ftoi (r : BitVec 3) (a : BitVec 6) (d : BitVec 6)
  /-- R93. Converts FP32 to n32. -/
  | ftou (r : BitVec 3) (a : BitVec 6) (d : BitVec 6)
  /-- R93. Converts FP32 to i64. -/
  | ftol (r : BitVec 3) (a : BitVec 6) (d : BitVec 6)
  /-- R93. Converts FP32 to n64. -/
  | ftoul (r : BitVec 3) (a : BitVec 6) (d : BitVec 6)
  /-- R93. Converts i32 to FP32. -/
  | itof (r : BitVec 3) (a : BitVec 6) (d : BitVec 6)
  /-- R93. Converts n32 to FP32. -/
  | utof (r : BitVec 3) (a : BitVec 6) (d : BitVec 6)
  /-- R93. Converts i64 to FP32. -/
  | ltof (r : BitVec 3) (a : BitVec 6) (d : BitVec 6)
  /-- R93. Converts n64 to FP32. -/
  | ultof (r : BitVec 3) (a : BitVec 6) (d : BitVec 6)
  /-- R92. Rounds FP32 to BF16. -/
  | ftobf (r : BitVec 3) (a : BitVec 6) (d : BitVec 6)
  /-- R92. Widens BF16 to FP32 exactly. -/
  | bftof (a : BitVec 6) (d : BitVec 6)
  /-- R96. Loads a sign-extended strong word in M format. -/
  | ldW (o : BitVec 12) (p : Policy) (b : BitVec 5) (d : BitVec 5)
  /-- R96. Loads a strong doubleword in M format. -/
  | ldD (o : BitVec 12) (p : Policy) (b : BitVec 5) (d : BitVec 5)
  /-- R96. Stores a strong word in M format. -/
  | stW (o : BitVec 12) (p : Policy) (b : BitVec 5) (d : BitVec 5)
  /-- R96. Stores a strong doubleword in M format. -/
  | stD (o : BitVec 12) (p : Policy) (b : BitVec 5) (d : BitVec 5)
  /-- R96. Loads a byte, half, word or doubleword, strong or weak, in MN format. -/
  | ldMn (p : Policy) (q : BitVec 1) (z : BitVec 3) (o : BitVec 5) (a : BitVec 6) (d : BitVec 6)
  /-- R96. Stores a byte, half, word or doubleword, strong or weak, in MN format. -/
  | stMn (p : Policy) (q : BitVec 1) (z : BitVec 2) (o : BitVec 5) (a : BitVec 6) (d : BitVec 6)
  /-- R252. Loads from the issuing cluster's scratchpad. -/
  | ldSp (p : Policy) (z : BitVec 3) (o : BitVec 5) (a : BitVec 6) (d : BitVec 6)
  /-- R252. Stores to the issuing cluster's scratchpad. -/
  | stSp (p : Policy) (z : BitVec 2) (o : BitVec 5) (a : BitVec 6) (d : BitVec 6)
  /-- R252. Loads from the issuing cluster's vault memory. -/
  | ldVm (p : Policy) (z : BitVec 3) (o : BitVec 5) (a : BitVec 6) (d : BitVec 6)
  /-- R252. Stores to the issuing cluster's vault memory. -/
  | stVm (p : Policy) (z : BitVec 2) (o : BitVec 5) (a : BitVec 6) (d : BitVec 6)
  /-- R256. Atomically swaps a register with memory. -/
  | amoSwap (p : Policy) (w : BitVec 1) (s : BitVec 5) (a : BitVec 6) (d : BitVec 6)
  /-- R256. Atomically compares and swaps using a register pair. -/
  | amoCas (p : Policy) (w : BitVec 1) (s : BitVec 5) (a : BitVec 6) (d : BitVec 5)
  /-- R256. Atomically adds to memory. -/
  | amoAdd (p : Policy) (w : BitVec 1) (s : BitVec 5) (a : BitVec 6) (d : BitVec 6)
  /-- R256. Atomically ANDs into memory. -/
  | amoAnd (p : Policy) (w : BitVec 1) (s : BitVec 5) (a : BitVec 6) (d : BitVec 6)
  /-- R256. Atomically ORs into memory. -/
  | amoOr (p : Policy) (w : BitVec 1) (s : BitVec 5) (a : BitVec 6) (d : BitVec 6)
  /-- R256. Atomically XORs into memory. -/
  | amoXor (p : Policy) (w : BitVec 1) (s : BitVec 5) (a : BitVec 6) (d : BitVec 6)
  /-- R256. Atomically writes the signed minimum. -/
  | amoMin (p : Policy) (w : BitVec 1) (s : BitVec 5) (a : BitVec 6) (d : BitVec 6)
  /-- R256. Atomically writes the signed maximum. -/
  | amoMax (p : Policy) (w : BitVec 1) (s : BitVec 5) (a : BitVec 6) (d : BitVec 6)
  /-- R256. Atomically writes the unsigned minimum. -/
  | amoMinu (p : Policy) (w : BitVec 1) (s : BitVec 5) (a : BitVec 6) (d : BitVec 6)
  /-- R256. Atomically writes the unsigned maximum. -/
  | amoMaxu (p : Policy) (w : BitVec 1) (s : BitVec 5) (a : BitVec 6) (d : BitVec 6)
  /-- R258. Combines an add into an update-only line. -/
  | updAdd (p : Policy) (w : BitVec 1) (a : BitVec 6) (d : BitVec 6)
  /-- R258. Combines a signed minimum into an update-only line. -/
  | updMin (p : Policy) (w : BitVec 1) (a : BitVec 6) (d : BitVec 6)
  /-- R258. Combines a signed maximum into an update-only line. -/
  | updMax (p : Policy) (w : BitVec 1) (a : BitVec 6) (d : BitVec 6)
  /-- R255. Atomically swaps a scratchpad doubleword. -/
  | amoSpSwap (p : Policy) (s : BitVec 5) (a : BitVec 6) (d : BitVec 6)
  /-- R255. Atomically compares and swaps a scratchpad doubleword. -/
  | amoSpCas (p : Policy) (s : BitVec 5) (a : BitVec 6) (d : BitVec 5)
  /-- R255. Atomically adds to a scratchpad doubleword. -/
  | amoSpAdd (p : Policy) (s : BitVec 5) (a : BitVec 6) (d : BitVec 6)
  /-- R255. Atomically swaps a vault-memory doubleword. -/
  | amoVmSwap (p : Policy) (s : BitVec 5) (a : BitVec 6) (d : BitVec 6)
  /-- R255. Atomically compares and swaps a vault-memory doubleword. -/
  | amoVmCas (p : Policy) (s : BitVec 5) (a : BitVec 6) (d : BitVec 5)
  /-- R255. Atomically adds to a vault-memory doubleword. -/
  | amoVmAdd (p : Policy) (s : BitVec 5) (a : BitVec 6) (d : BitVec 6)
  /-- R260. Completes once every earlier access is performed for the scope. -/
  | fenceS (p : Policy) (s : BitVec 5)
  /-- R261. Discards the core's L1 instruction lines and the thread's fetched parcels. -/
  | fenceI
  /-- R260. Release-stores a word at a scope. -/
  | stRelW (p : Policy) (s : BitVec 5) (a : BitVec 6) (d : BitVec 6)
  /-- R260. Release-stores a doubleword at a scope. -/
  | stRelD (p : Policy) (s : BitVec 5) (a : BitVec 6) (d : BitVec 6)
  /-- R262. Loads a full granule and leaves it full. -/
  | ldff (p : Policy) (a : BitVec 6) (d : BitVec 6)
  /-- R262. Loads a full granule and sets it empty. -/
  | ldfe (p : Policy) (a : BitVec 6) (d : BitVec 6)
  /-- R262. Stores into an empty granule, sets it full and serves its waiters. -/
  | stef (p : Policy) (a : BitVec 6) (d : BitVec 6)
  /-- R262. Stores a granule, sets it full and serves its waiters. -/
  | stff (p : Policy) (a : BitVec 6) (d : BitVec 6)
  /-- R262. Sets a granule's full-empty bit to empty. -/
  | feEmpty (a : BitVec 6)
  /-- R262. Writes 1 when a granule is full. -/
  | feTest (p : Policy) (a : BitVec 6) (d : BitVec 6)
  /-- R263. Requests a full-granule load in a place's cluster. -/
  | ldffPlace (p : Policy) (c : BitVec 6) (a : BitVec 6) (d : BitVec 6)
  /-- R264. Requests a consuming load in a place's cluster, parking when the granule is empty. -/
  | ldfePlace (p : Policy) (c : BitVec 6) (a : BitVec 6) (d : BitVec 6)
  /-- R263. Requests a store into an empty granule of a place's cluster. -/
  | stefPlace (p : Policy) (c : BitVec 6) (a : BitVec 6) (d : BitVec 6)
  /-- R263. Requests a filling store in a place's cluster. -/
  | stffPlace (p : Policy) (c : BitVec 6) (a : BitVec 6) (d : BitVec 6)
  /-- R263. Loads a raw scratchpad doubleword of a place's cluster. -/
  | ldSpDPlace (p : Policy) (c : BitVec 6) (a : BitVec 6) (d : BitVec 6)
  /-- R263. Stores a raw scratchpad doubleword of a place's cluster. -/
  | stSpDPlace (p : Policy) (c : BitVec 6) (a : BitVec 6) (d : BitVec 6)
  /-- R263. Loads a raw vault doubleword of a place's cluster. -/
  | ldVmDPlace (p : Policy) (c : BitVec 6) (a : BitVec 6) (d : BitVec 6)
  /-- R263. Stores a raw vault doubleword of a place's cluster. -/
  | stVmDPlace (p : Policy) (c : BitVec 6) (a : BitVec 6) (d : BitVec 6)
  /-- R265. Takes the thread out of its slot until an empty granule fills. -/
  | park (p : Policy) (a : BitVec 6)
  /-- R267. Pins a line in the L1 for the thread and reports success. -/
  | pin (p : Policy) (a : BitVec 6) (d : BitVec 6)
  /-- R267. Releases the thread's pin on one line. -/
  | unpin (a : BitVec 6)
  /-- R267. Releases all of the thread's pins. -/
  | unpinAll
  /-- R267. Asks for a line with no architectural effect. -/
  | pf (a : BitVec 6)
  /-- R270. Arrives at a hardware barrier instance as a release. -/
  | hbarArr (p : Policy) (n : BitVec 2) (d : BitVec 6)
  /-- R270. Waits until a hardware barrier phase has ended. -/
  | hbarWt (p : Policy) (n : BitVec 2) (a : BitVec 6) (d : BitVec 6)
  /-- R176. Arms a run of registers to await fabric values. -/
  | arm (e : BitVec 1) (n : BitVec 3) (a : BitVec 6)
  /-- R176. Disarms a run of registers and optionally advances the generation. -/
  | disarm (g : BitVec 1) (n : BitVec 3) (a : BitVec 6)
  /-- R176. Writes a sealed capability for a run of armed registers. -/
  | mint (r : BitVec 2) (n : BitVec 3) (a : BitVec 6) (d : BitVec 6)
  /-- R177. Enqueues an unacknowledged register message. -/
  | snd (p : Policy) (b : BitVec 6) (a : BitVec 6) (i : BitVec 3)
  /-- R177. Reads and consumes a register once its value has arrived. -/
  | rcv (p : Policy) (a : BitVec 6) (d : BitVec 6)
  /-- R178. Writes the fabric status word and optionally clears OWC and LAST. -/
  | fabst (c : BitVec 1) (d : BitVec 6)
  /-- R177. Sends an acknowledged register message and returns the reply code. -/
  | sndA (p : Policy) (i : BitVec 3) (b : BitVec 6) (a : BitVec 6) (d : BitVec 6)
  /-- R139. Rests the thread for n offered cycles. -/
  | yield (n : BitVec 6)
  /-- R140. Rests until a wake arrives or n offered cycles pass. -/
  | sleep (n : BitVec 6) (d : BitVec 6)
  /-- R140. Wakes a sleeping slot of the core or sets its wake latch. -/
  | wake (a : BitVec 6)
  /-- R141. Completes only when the thread's pending set is empty. -/
  | hold (p : Policy)
  /-- R142. Ends the thread once its pending set is empty. -/
  | exit
  /-- R143. Writes the issuing thread's identity. -/
  | selfid (d : BitVec 6)
  /-- R144. Writes the skip counter and optionally clears it. -/
  | rdskip (c : BitVec 1) (d : BitVec 6)
  /-- R60. Executes as a ready no-op in the hint space. -/
  | hint (p : Policy) (h : BitVec 2) (b : BitVec 6) (a : BitVec 6) (d : BitVec 6)
  /-- R147. Checks a launch descriptor and sends the request to the hint router. -/
  | launch (p : Policy) (b : BitVec 6) (a : BitVec 6)
  /-- R161. Puts a role into an empty channel. -/
  | cast (p : Policy) (b : BitVec 6) (a : BitVec 6) (c : BitVec 4)
  /-- R161. Makes the thread take the role in a channel in place of its own. -/
  | recast (p : Policy) (c : BitVec 4)
  /-- R162. Writes the binding entry of a place. -/
  | place (a : BitVec 6) (d : BitVec 6)
  /-- R162. Writes the thread's group word. -/
  | placeSelf (d : BitVec 6)
  /-- R162. Writes the cluster load register. -/
  | placeLoad (d : BitVec 6)
  /-- R192. Adds FP32 lanes. -/
  | vfadd (p : Policy) (h : BitVec 2) (b : BitVec 5) (a : BitVec 5) (d : BitVec 5)
  /-- R192. Subtracts FP32 lanes. -/
  | vfsub (p : Policy) (h : BitVec 2) (b : BitVec 5) (a : BitVec 5) (d : BitVec 5)
  /-- R192. Multiplies FP32 lanes. -/
  | vfmul (p : Policy) (h : BitVec 2) (b : BitVec 5) (a : BitVec 5) (d : BitVec 5)
  /-- R192. Writes the lanewise FP32 minimum. -/
  | vfmin (p : Policy) (h : BitVec 2) (b : BitVec 5) (a : BitVec 5) (d : BitVec 5)
  /-- R192. Writes the lanewise FP32 maximum. -/
  | vfmax (p : Policy) (h : BitVec 2) (b : BitVec 5) (a : BitVec 5) (d : BitVec 5)
  /-- R192. Clears the sign of each lane. -/
  | vfabs (p : Policy) (h : BitVec 2) (a : BitVec 5) (d : BitVec 5)
  /-- R192. Inverts the sign of each lane. -/
  | vfneg (p : Policy) (h : BitVec 2) (a : BitVec 5) (d : BitVec 5)
  /-- R192. Writes a × b + d per lane with one rounding. -/
  | vfma (p : Policy) (h : BitVec 2) (b : BitVec 5) (a : BitVec 5) (d : BitVec 5)
  /-- R192. Writes d − a × b per lane with one rounding. -/
  | vfms (p : Policy) (h : BitVec 2) (b : BitVec 5) (a : BitVec 5) (d : BitVec 5)
  /-- R192. Writes a × b + op4 per lane with one rounding. -/
  | vfma4 (p : Policy) (h : BitVec 2) (b : BitVec 5) (a : BitVec 5) (d : BitVec 5)
  /-- R192. Writes a mask of equal FP32 lanes. -/
  | vfeq (p : Policy) (h : BitVec 2) (b : BitVec 5) (a : BitVec 5) (k : BitVec 3)
  /-- R192. Writes a mask of lanes where a is less than b. -/
  | vflt (p : Policy) (h : BitVec 2) (b : BitVec 5) (a : BitVec 5) (k : BitVec 3)
  /-- R192. Writes a mask of lanes where a is at most b. -/
  | vfle (p : Policy) (h : BitVec 2) (b : BitVec 5) (a : BitVec 5) (k : BitVec 3)
  /-- R193. Adds integer lanes of the selected width. -/
  | vadd (w : BitVec 2) (p : Policy) (h : BitVec 2) (b : BitVec 5) (a : BitVec 5) (d : BitVec 5)
  /-- R193. Subtracts integer lanes. -/
  | vsub (w : BitVec 2) (p : Policy) (h : BitVec 2) (b : BitVec 5) (a : BitVec 5) (d : BitVec 5)
  /-- R193. Multiplies integer lanes, keeping the low bits. -/
  | vmul (w : BitVec 2) (p : Policy) (h : BitVec 2) (b : BitVec 5) (a : BitVec 5) (d : BitVec 5)
  /-- R193. Shifts integer lanes left. -/
  | vsll (w : BitVec 2) (p : Policy) (h : BitVec 2) (b : BitVec 5) (a : BitVec 5) (d : BitVec 5)
  /-- R193. Shifts integer lanes logically right. -/
  | vsrl (w : BitVec 2) (p : Policy) (h : BitVec 2) (b : BitVec 5) (a : BitVec 5) (d : BitVec 5)
  /-- R193. Shifts integer lanes arithmetically right. -/
  | vsra (w : BitVec 2) (p : Policy) (h : BitVec 2) (b : BitVec 5) (a : BitVec 5) (d : BitVec 5)
  /-- R193. Writes the lanewise signed minimum. -/
  | vmin (w : BitVec 2) (p : Policy) (h : BitVec 2) (b : BitVec 5) (a : BitVec 5) (d : BitVec 5)
  /-- R193. Writes the lanewise signed maximum. -/
  | vmax (w : BitVec 2) (p : Policy) (h : BitVec 2) (b : BitVec 5) (a : BitVec 5) (d : BitVec 5)
  /-- R193. Writes the lanewise unsigned minimum. -/
  | vminu (w : BitVec 2) (p : Policy) (h : BitVec 2) (b : BitVec 5) (a : BitVec 5) (d : BitVec 5)
  /-- R193. Writes the lanewise unsigned maximum. -/
  | vmaxu (w : BitVec 2) (p : Policy) (h : BitVec 2) (b : BitVec 5) (a : BitVec 5) (d : BitVec 5)
  /-- R193. ANDs vector registers. -/
  | vand (p : Policy) (h : BitVec 2) (b : BitVec 5) (a : BitVec 5) (d : BitVec 5)
  /-- R193. ORs vector registers. -/
  | vor (p : Policy) (h : BitVec 2) (b : BitVec 5) (a : BitVec 5) (d : BitVec 5)
  /-- R193. XORs vector registers. -/
  | vxor (p : Policy) (h : BitVec 2) (b : BitVec 5) (a : BitVec 5) (d : BitVec 5)
  /-- R193. Writes a AND NOT b per lane. -/
  | vandn (p : Policy) (h : BitVec 2) (b : BitVec 5) (a : BitVec 5) (d : BitVec 5)
  /-- R193. Writes a mask of equal i32 lanes. -/
  | vieq (p : Policy) (h : BitVec 2) (b : BitVec 5) (a : BitVec 5) (k : BitVec 3)
  /-- R193. Writes a mask of signed less-than lanes. -/
  | vilt (p : Policy) (h : BitVec 2) (b : BitVec 5) (a : BitVec 5) (k : BitVec 3)
  /-- R193. Writes a mask of unsigned less-than lanes. -/
  | viltu (p : Policy) (h : BitVec 2) (b : BitVec 5) (a : BitVec 5) (k : BitVec 3)
  /-- R193. Broadcasts a scalar word to every lane. -/
  | vbcast (p : Policy) (h : BitVec 2) (a : BitVec 5) (d : BitVec 5)
  /-- R193. Copies a mask register to a scalar register. -/
  | kget (p : Policy) (h : BitVec 2) (k : BitVec 3) (d : BitVec 5)
  /-- R193. Copies the low 16 bits of a scalar register to a mask register. -/
  | kset (p : Policy) (h : BitVec 2) (a : BitVec 5) (k : BitVec 3)
  /-- R194. Permutes lanes by index. -/
  | vperm (p : Policy) (h : BitVec 2) (b : BitVec 5) (a : BitVec 5) (d : BitVec 5)
  /-- R194. Permutes lanes from two sources by index. -/
  | vperm2 (p : Policy) (h : BitVec 2) (b : BitVec 5) (a : BitVec 5) (d : BitVec 5)
  /-- R194. Rotates lanes by an immediate. -/
  | vrot (p : Policy) (h : BitVec 2) (s : BitVec 4) (a : BitVec 5) (d : BitVec 5)
  /-- R194. Inserts a scalar word into one lane. -/
  | vins (p : Policy) (h : BitVec 2) (s : BitVec 4) (a : BitVec 5) (d : BitVec 5)
  /-- R194. Extracts one lane into a scalar register. -/
  | vext (p : Policy) (h : BitVec 2) (s : BitVec 4) (a : BitVec 5) (d : BitVec 5)
  /-- R194. Reduces FP32 lanes by the pairwise sum tree. -/
  | vsumF (p : Policy) (h : BitVec 2) (a : BitVec 5) (d : BitVec 5)
  /-- R194. Reduces FP32 lanes by maximum. -/
  | vmaxF (p : Policy) (h : BitVec 2) (a : BitVec 5) (d : BitVec 5)
  /-- R194. Reduces FP32 lanes by minimum. -/
  | vminF (p : Policy) (h : BitVec 2) (a : BitVec 5) (d : BitVec 5)
  /-- R194. Reduces i32 lanes by sum. -/
  | vsumI32 (p : Policy) (h : BitVec 2) (a : BitVec 5) (d : BitVec 5)
  /-- R194. Reduces i32 lanes by signed maximum. -/
  | vmaxI32 (p : Policy) (h : BitVec 2) (a : BitVec 5) (d : BitVec 5)
  /-- R194. Reduces i32 lanes by signed minimum. -/
  | vminI32 (p : Policy) (h : BitVec 2) (a : BitVec 5) (d : BitVec 5)
  /-- R194. Reduces 32 i16 lanes by sum. -/
  | vsumI16 (p : Policy) (h : BitVec 2) (a : BitVec 5) (d : BitVec 5)
  /-- R194. Reduces 64 i8 lanes by sum. -/
  | vsumI8 (p : Policy) (h : BitVec 2) (a : BitVec 5) (d : BitVec 5)
  /-- R194. Reduces 32 BF16 lanes by sum. -/
  | vsumBf (p : Policy) (h : BitVec 2) (a : BitVec 5) (d : BitVec 5)
  /-- R195. Loads 64 bytes from ordinary memory, strong. -/
  | vld (p : Policy) (h : BitVec 2) (o : BitVec 5) (a : BitVec 5) (d : BitVec 5)
  /-- R195. Loads 64 bytes from ordinary memory, weak. -/
  | vldWk (p : Policy) (h : BitVec 2) (o : BitVec 5) (a : BitVec 5) (d : BitVec 5)
  /-- R195. Stores 64 bytes to ordinary memory, strong. -/
  | vst (p : Policy) (h : BitVec 2) (o : BitVec 5) (a : BitVec 5) (d : BitVec 5)
  /-- R195. Stores 64 bytes to ordinary memory, weak. -/
  | vstWk (p : Policy) (h : BitVec 2) (o : BitVec 5) (a : BitVec 5) (d : BitVec 5)
  /-- R195. Loads 64 raw scratchpad bytes. -/
  | vldSp (p : Policy) (h : BitVec 2) (o : BitVec 5) (a : BitVec 5) (d : BitVec 5)
  /-- R195. Stores 64 raw scratchpad bytes. -/
  | vstSp (p : Policy) (h : BitVec 2) (o : BitVec 5) (a : BitVec 5) (d : BitVec 5)
  /-- R196. Loads scratchpad data decoded by its format window. -/
  | vldWin (p : Policy) (h : BitVec 2) (o : BitVec 5) (a : BitVec 5) (d : BitVec 5)
  /-- R196. Stores scratchpad data encoded by its format window. -/
  | vstWin (p : Policy) (h : BitVec 2) (o : BitVec 5) (a : BitVec 5) (d : BitVec 5)
  /-- R191. Configures a stream register with P := 0. -/
  | scfg (b : BitVec 6) (a : BitVec 6) (n : BitVec 2)
  /-- R191. Ends a stream and zeroes its register. -/
  | sclr (n : BitVec 2)
  /-- R191. Writes the number of stream elements remaining. -/
  | srem (n : BitVec 2) (d : BitVec 6)
  /-- R197. Approximates the reciprocal to 12 bits. -/
  | vrcpA (p : Policy) (h : BitVec 2) (a : BitVec 5) (d : BitVec 5)
  /-- R197. Approximates the reciprocal square root to 12 bits. -/
  | vrsqA (p : Policy) (h : BitVec 2) (a : BitVec 5) (d : BitVec 5)
  /-- R197. Refines a reciprocal approximation. -/
  | vrcpS (p : Policy) (h : BitVec 2) (b : BitVec 5) (a : BitVec 5) (d : BitVec 5)
  /-- R197. Refines a reciprocal square-root approximation. -/
  | vrsqS (p : Policy) (h : BitVec 2) (b : BitVec 5) (a : BitVec 5) (d : BitVec 5)
  /-- R197. Approximates 2 to the x to 12 bits. -/
  | vexp2A (p : Policy) (h : BitVec 2) (a : BitVec 5) (d : BitVec 5)
  /-- R197. Approximates log base 2 to 12 bits. -/
  | vlog2A (p : Policy) (h : BitVec 2) (a : BitVec 5) (d : BitVec 5)
  /-- R66. Prefixes the next V-format word to form one prefixed pair. -/
  | pfx (z : BitVec 1) (o : BitVec 5) (r : BitVec 3) (e : BitVec 1) (k : BitVec 3)
  /-- R199. Converts i32 lanes to FP32. -/
  | vcvtFI (p : Policy) (h : BitVec 2) (a : BitVec 5) (d : BitVec 5)
  /-- R199. Converts FP32 lanes to i32 with saturation. -/
  | vcvtIF (p : Policy) (h : BitVec 2) (a : BitVec 5) (d : BitVec 5)
  /-- R199. Packs two FP32 registers into BF16 lanes. -/
  | vcvtBfF (p : Policy) (h : BitVec 2) (b : BitVec 5) (a : BitVec 5) (d : BitVec 5)
  /-- R199. Widens half of the BF16 lanes to FP32. -/
  | vcvtFBf (p : Policy) (h : BitVec 2) (g : BitVec 1) (a : BitVec 5) (d : BitVec 5)
  /-- R199. Decodes a quarter of the MK8 lanes to FP32. -/
  | vcvtFMk8 (p : Policy) (h : BitVec 2) (q : BitVec 2) (a : BitVec 5) (d : BitVec 5)
  /-- R199. Packs two i32 registers into saturated i16 lanes. -/
  | vpackI16 (p : Policy) (h : BitVec 2) (b : BitVec 5) (a : BitVec 5) (d : BitVec 5)
  /-- R199. Unpacks half of the i16 lanes to i32. -/
  | vunpkI16 (p : Policy) (h : BitVec 2) (g : BitVec 1) (a : BitVec 5) (d : BitVec 5)
  /-- R199. Unpacks a quarter of the i8 lanes to i32. -/
  | vunpkI8 (p : Policy) (h : BitVec 2) (q : BitVec 2) (a : BitVec 5) (d : BitVec 5)
  /-- R200. Quantises 32 FP32 values into one BS8 scale and 32 MK8 codes. -/
  | vquant (p : Policy) (h : BitVec 2) (t : BitVec 5) (a : BitVec 4) (d : BitVec 5)
  /-- R297. Returns SERIAL when the core holds the matrix lease, otherwise requests it. -/
  | mlease (p : Policy) (d : BitVec 6)
  /-- R297. Marks the core's lease hold as released. -/
  | mrel
  /-- R298. Enqueues a write of a tile shape register. -/
  | tsh (p : Policy) (a : BitVec 6) (t : BitVec 6)
  /-- R298. Reads a tile shape register once no tsh for it is queued. -/
  | tshr (p : Policy) (t : BitVec 6) (d : BitVec 6)
  /-- R299. Enqueues a tile load from the scratchpad. -/
  | tld (p : Policy) (b : BitVec 6) (a : BitVec 6) (t : BitVec 6)
  /-- R300. Enqueues a tile store to the scratchpad. -/
  | tst (p : Policy) (b : BitVec 6) (a : BitVec 6) (t : BitVec 6)
  /-- R301. Enqueues the zeroing of a tile. -/
  | tzero (p : Policy) (t : BitVec 6)
  /-- R302. Enqueues a tile product into an accumulator. -/
  | mma (p : Policy) (b : BitVec 6) (a : BitVec 6) (f : BitVec 2) (z : BitVec 1) (c : BitVec 2)
  /-- R304. Enqueues quantisation of an accumulator into an MK8 tile. -/
  | tqnt (p : Policy) (b : BitVec 6) (u : BitVec 6) (t : BitVec 6)
  /-- R311. Enqueues a copy from virtual memory to virtual memory. -/
  | cpMm (p : Policy) (b : BitVec 5) (a : BitVec 5) (r : BitVec 1) (w : BitVec 1) (q : BitVec 3)
  /-- R311. Enqueues a copy from the scratchpad to virtual memory. -/
  | cpMs (p : Policy) (b : BitVec 5) (a : BitVec 5) (r : BitVec 1) (w : BitVec 1) (q : BitVec 3)
  /-- R311. Enqueues a copy from vault memory to virtual memory. -/
  | cpMv (p : Policy) (b : BitVec 5) (a : BitVec 5) (r : BitVec 1) (w : BitVec 1) (q : BitVec 3)
  /-- R311. Enqueues a copy from virtual memory to the scratchpad. -/
  | cpSm (p : Policy) (b : BitVec 5) (a : BitVec 5) (r : BitVec 1) (w : BitVec 1) (q : BitVec 3)
  /-- R311. Enqueues a copy within the scratchpad. -/
  | cpSs (p : Policy) (b : BitVec 5) (a : BitVec 5) (r : BitVec 1) (w : BitVec 1) (q : BitVec 3)
  /-- R311. Enqueues a copy from vault memory to the scratchpad. -/
  | cpSv (p : Policy) (b : BitVec 5) (a : BitVec 5) (r : BitVec 1) (w : BitVec 1) (q : BitVec 3)
  /-- R311. Enqueues a copy from virtual memory to vault memory. -/
  | cpVm (p : Policy) (b : BitVec 5) (a : BitVec 5) (r : BitVec 1) (w : BitVec 1) (q : BitVec 3)
  /-- R311. Enqueues a copy from the scratchpad to vault memory. -/
  | cpVs (p : Policy) (b : BitVec 5) (a : BitVec 5) (r : BitVec 1) (w : BitVec 1) (q : BitVec 3)
  /-- R311. Enqueues a copy within vault memory. -/
  | cpVv (p : Policy) (b : BitVec 5) (a : BitVec 5) (r : BitVec 1) (w : BitVec 1) (q : BitVec 3)
  /-- R318. Enqueues a gather of indexed rows into the scratchpad. -/
  | cpGth (p : Policy) (b : BitVec 5) (a : BitVec 5) (r : BitVec 1) (w : BitVec 1) (q : BitVec 3)
  /-- R318. Enqueues a scatter of scratchpad rows to indexed addresses. -/
  | cpSct (p : Policy) (b : BitVec 5) (a : BitVec 5) (r : BitVec 1) (w : BitVec 1) (q : BitVec 3)
  /-- R319. Enqueues a copy queue fence over a mask of queues. -/
  | qfCp (p : Policy) (a : BitVec 6) (q : BitVec 3)
  /-- R323. Enqueues an all-reduce sum across devices. -/
  | clAredSum (p : Policy) (b : BitVec 6) (a : BitVec 6) (q : BitVec 2)
  /-- R323. Enqueues an all-reduce maximum. -/
  | clAredMax (p : Policy) (b : BitVec 6) (a : BitVec 6) (q : BitVec 2)
  /-- R323. Enqueues an all-reduce minimum. -/
  | clAredMin (p : Policy) (b : BitVec 6) (a : BitVec 6) (q : BitVec 2)
  /-- R320. Enqueues a broadcast from the root device. -/
  | clBcst (p : Policy) (b : BitVec 6) (a : BitVec 6) (q : BitVec 2)
  /-- R320. Enqueues an all-gather across devices. -/
  | clGath (p : Policy) (b : BitVec 6) (a : BitVec 6) (q : BitVec 2)
  /-- R319. Enqueues a collective queue fence. -/
  | qfCl (p : Policy) (a : BitVec 6) (q : BitVec 2)
  /-- R283. Initialises a completion barrier with its expected count. -/
  | cbInit (p : Policy) (b : BitVec 6) (a : BitVec 6)
  /-- R283. Arrives at a completion barrier as a release. -/
  | cbArr (p : Policy) (a : BitVec 6) (d : BitVec 6)
  /-- R283. Waits until a completion barrier phase has ended. -/
  | cbWt (p : Policy) (b : BitVec 6) (a : BitVec 6) (d : BitVec 6)
  /-- R283. Clears a completion barrier's ERR and FINFO. -/
  | cbClr (p : Policy) (a : BitVec 6)
  /-- R334. Reads a special register. -/
  | mfsr (s : BitVec 6) (d : BitVec 6)
  /-- R334. Writes a special register under its rules. -/
  | mtsr (s : BitVec 6) (a : BitVec 6)
  /-- R335. Reads a context or cluster register by selector. -/
  | mfcr (a : BitVec 6) (d : BitVec 6)
  /-- R335. Writes a context or cluster register by selector, for selectors with no row of their own. -/
  | mtcr (b : BitVec 6) (a : BitVec 6)
  /-- R336. Returns from the user handler, restoring st from estat. -/
  | hret
  /-- R336. Raises the TRAP cause precisely to the context kernel. -/
  | trap (n : BitVec 6)
  /-- R332. Reads a coprocessor ring entry or ring status. -/
  | copRd (n : BitVec 2) (a : BitVec 6) (d : BitVec 6)
  /-- R331. Reissues the replay list from a sequence number. -/
  | copReplay (a : BitVec 6)
  /-- R342. Ends an outstanding fault range with a success or failure status. -/
  | fltDone (b : BitVec 6) (a : BitVec 6)
  /-- R363. Invalidates a range of pages of the issuer's own stage. -/
  | tlbInv (p : Policy) (b : BitVec 6) (a : BitVec 6)
  /-- R363. Invalidates every page of the issuer's own stage. -/
  | tlbInva (p : Policy)
  /-- R364. Translates an address and writes the result word. -/
  | tlbProbe (p : Policy) (a : BitVec 6) (d : BitVec 6)
  /-- R365. Reads the issuer's own ATP. -/
  | atpRd (d : BitVec 6)
  /-- R365. Installs a new ATP and invalidates the whole stage. -/
  | atpWr (p : Policy) (a : BitVec 6)
  /-- R389. Enters the creation of a child context. -/
  | ctxNew (p : Policy) (a : BitVec 6) (d : BitVec 6)
  /-- R389. Enters a grant of resources to a child. -/
  | ctxGrant (p : Policy) (b : BitVec 6) (a : BitVec 6)
  /-- R389. Reads a context block register. -/
  | ctxRd (s : BitVec 6) (a : BitVec 6) (d : BitVec 6)
  /-- R389. Enters a write of a context block register. -/
  | ctxWr (p : Policy) (b : BitVec 6) (a : BitVec 6) (s : BitVec 6)
  /-- R389. Enters the running of a child context. -/
  | ctxRun (p : Policy) (a : BitVec 6)
  /-- R389. Enters the stopping of a child context. -/
  | ctxStop (p : Policy) (a : BitVec 6)
  /-- R389. Enters the revocation of a child context. -/
  | ctxKill (p : Policy) (a : BitVec 6)
  /-- R377. Enters the disposal of a held thread by token. -/
  | ctxResume (p : Policy) (c : BitVec 2) (a : BitVec 6)
  /-- R389. Raises one of the context's own interrupt vectors. -/
  | ctxIntr (a : BitVec 6)
  /-- R64. Compact add. -/
  | addN (d : BitVec 5) (b : BitVec 5)
  /-- R64. Compact subtract. -/
  | subN (d : BitVec 5) (b : BitVec 5)
  /-- R64. Compact AND. -/
  | andN (d : BitVec 5) (b : BitVec 5)
  /-- R64. Compact OR. -/
  | orN (d : BitVec 5) (b : BitVec 5)
  /-- R64. Compact XOR. -/
  | xorN (d : BitVec 5) (b : BitVec 5)
  /-- R64. Compact shift left. -/
  | sllN (d : BitVec 5) (b : BitVec 5)
  /-- R64. Compact logical shift right. -/
  | srlN (d : BitVec 5) (b : BitVec 5)
  /-- R64. Compact arithmetic shift right. -/
  | sraN (d : BitVec 5) (b : BitVec 5)
  /-- R64. Compact multiply. -/
  | mulN (d : BitVec 5) (b : BitVec 5)
  /-- R64. Compact indirect jump. -/
  | jrN (b : BitVec 5)
  /-- R64. Compact indirect call linking pc + 2. -/
  | callrN (b : BitVec 5)
  /-- R64. Compact return. -/
  | retN
  /-- R65. Compact add immediate. -/
  | addiN (d : BitVec 5) (i : BitVec 6)
  /-- R65. Compact load immediate. -/
  | liN (d : BitVec 5) (i : BitVec 6)
  /-- R65. Compact shift left immediate. -/
  | slliN (d : BitVec 5) (i : BitVec 6)
  /-- R65. Compact logical shift right immediate. -/
  | srliN (d : BitVec 5) (i : BitVec 6)
  /-- R65. Compact arithmetic shift right immediate. -/
  | sraiN (d : BitVec 5) (i : BitVec 6)
  /-- R65. Compact AND immediate. -/
  | andiN (d : BitVec 5) (i : BitVec 6)
  /-- R65. Compact stack-pointer adjustment by a multiple of 16. -/
  | addiNSp (i : BitVec 6)
  /-- R65. Compact no-op. -/
  | nopN
  /-- R65. Compact doubleword load off a base register. -/
  | ldDN (d : BitVec 3) (b : BitVec 3) (u : BitVec 3) (p : Policy)
  /-- R65. Compact doubleword store off a base register. -/
  | stDN (s : BitVec 3) (b : BitVec 3) (u : BitVec 3) (p : Policy)
  /-- R65. Compact word load off a base register. -/
  | ldWN (d : BitVec 3) (b : BitVec 3) (u : BitVec 3) (p : Policy)
  /-- R65. Compact word store off a base register. -/
  | stWN (s : BitVec 3) (b : BitVec 3) (u : BitVec 3) (p : Policy)
  /-- R65. Compact doubleword load off sp. -/
  | ldDNSp (d : BitVec 3) (u : BitVec 6) (p : Policy)
  /-- R65. Compact doubleword store off sp. -/
  | stDNSp (s : BitVec 3) (u : BitVec 6) (p : Policy)
  /-- R65. Compact jump within plus or minus 1,024 parcels. -/
  | jN (o : BitVec 11)
  /-- R13. A slot sleeping under .yd wakes when all its causes clear and re-executes the instruction. -/
  | ydSleepWake (sid : Nat)
  /-- R13. A .yd sleep ends after 64 rotations and the instruction executes again. -/
  | ydSleepTimeout (sid : Nat)
  /-- R329. Once older ring entries retire, a precise trap is delivered to the handler or reflected. -/
  | preciseTrapDelivery (sid : Nat)
  /-- R184. A coprocessor fault cancels its entry and younger ones and writes the trap record at the next offered cycle. -/
  | lateFaultDelivery (sid : Nat)
  /-- R172. A pending overwrite trap is raised before the next issue with UH clear. -/
  | overwriteTrap (sid : Nat)
  /-- R375. A reflected trap saves the thread to a frame and posts an entry in the handling context's trap queue. -/
  | trapReflection (sid : Nat)
  /-- R122. Resets a core's cycle count and zeroes its core-shared registers. -/
  | coreReset (cid : Nat)
  /-- R131. A thread skipping under a hold count returns to RUN when the count is spent. -/
  | holdSkipEnd (sid : Nat)
  /-- R128. A held instruction's result is written, resolving same-cycle writes to shared registers. -/
  | heldResultWrite (sid : Nat)
  /-- R134. A line arrives in the L1 and is held for each not-ready requester. -/
  | l1LineFill (cid : Nat) (slot : Nat) (line : Nat)
  /-- R134. A held line's hold ends two rotations after arrival. -/
  | arrivalHoldExpiry (cid : Nat) (line : Nat)
  /-- R139. A yielding thread returns to RUN after its n offered cycles. -/
  | yieldEnd (sid : Nat)
  /-- R140. A sleeping thread returns to RUN with x[d] := 0 after n offered cycles. -/
  | sleepTimeout (sid : Nat)
  /-- R142. With its pending set empty, an exiting thread disarms registers, releases holds and discards state. -/
  | threadExitComplete (sid : Nat)
  /-- R157. At each rotation boundary each core credits queues and grants FREE slots by deficit. -/
  | slotArbitration
  /-- R148. The hint router takes a launch request and replies ACCEPTED, HELD or REFUSED. -/
  | launchRequest (n : Nat)
  /-- R148. The router's reply sets the issuing slot's launch latch. -/
  | launchReply (n : Nat)
  /-- R148. The router admits a held request to a freed work-buffer entry in arrival order. -/
  | launchAdmit (cl : Nat)
  /-- R159. At a boundary the thread engine sends a light thread to the core with the most FREE slots. -/
  | lightThreadMove (cl : Nat)
  /-- R159. The 320-byte light-thread message arrives and the thread resumes in its reserved slot. -/
  | lightThreadArrival (sid : Nat)
  /-- R169. A send-queue entry leaves its cluster after the permission check, or is refused PERMISSION. -/
  | messageDeparture (cid : Nat)
  /-- R169. A register message is accepted, queued, forwarded or refused at its destination. -/
  | fabricMessageArrival (far : Bool) (n : Nat) (dev : Nat) (ctx : Nat) (idx : Nat) (clock : Nat) (cap : Word) (v : Word) (ack : Bool)
  /-- R170. A reply waiting for a full inbox takes a freed entry before any message. -/
  | inboxDeferredReply (cid : Nat)
  /-- R173. The reply to an snd.a sets the send latch to DONE with its reason code. -/
  | sendReply (far : Bool) (n : Nat) (sid : Nat) (gen : Nat) (since : Nat) (code : Nat)
  /-- R173. A send latch BUSY for 65,536 cycles becomes DONE with TIMEOUT. -/
  | sendLatchTimeout (sid : Nat)
  /-- R190. A pushed stream element is performed from the stream's write buffer. -/
  | streamWriteDrain (sid : Nat)
  /-- R210. Instruction parcels arrive and the waiting slot can issue again. -/
  | l1iFill (n : Nat)
  /-- R212. The fetch unit prefetches a next or target line on its own, dropping it on any fault. -/
  | fetchPrefetch (sid : Nat) (va : Word)
  /-- R213. The parcels at pc are fetched for issue, waiting on translation or faults, or trapping. -/
  | demandFetch (sid : Nat)
  /-- R208. A store-combining entry is performed at its L2 home. -/
  | combineDrain (cid : Nat) (line : Nat)
  /-- R233. A combining entry is forced to its home 4,096 cycles after its first store. -/
  | combineAgeExpiry (cid : Nat)
  /-- R233. An L1 copy stops serving loads 8,192 cycles after its lease was granted or renewed. -/
  | leaseAgeExpiry (cid : Nat) (line : Nat)
  /-- R232. A lease renewal brings the newest data and raises the requester's clock. -/
  | leaseRenewal (cid : Nat) (slot : Nat) (line : Nat)
  /-- R232. The home grants a write time greater than every granted lease end. -/
  | writeGrant (cid : Nat) (slot : Nat) (line : Nat)
  /-- R256. The home grants an L1 exclusive ownership of a line for a narrow-scope atomic. -/
  | ownershipGrant (cid : Nat) (slot : Nat) (line : Nat)
  /-- R243. The home merges update-only lines on eviction or before serving a read. -/
  | updateMerge (cid : Nat) (line : Nat)
  /-- R99. A remote owner's reply arrives through the requester's bypass line. -/
  | remoteReply (cid : Nat) (n : Nat) (refused : Bool) (data : BitVec 512)
  /-- R425. An owner serves or refuses a line access forwarded from another device. -/
  | forwardedAccess (dev : Nat) (kind : Nat) (sys : Nat) (op : Nat) (wide : Bool) (data : BitVec 512) (mask : BitVec 64)
  /-- R345. A remote access without a reply in 2^20 cycles completes with zeros or is dropped and logged. -/
  | remoteTimeout (cid : Nat) (n : Nat)
  /-- R227. A write to VSEG starts a role change for each changed vault segment. -/
  | vsegWrite (cl : Nat) (v : Word)
  /-- R227. One segment leaves the L2 with write-back or joins vault memory zeroed. -/
  | vsegSegmentStep (cl : Nat)
  /-- R220. A write to a format window register, ignored whole when invalid. -/
  | winWrite (cl : Nat) (n : Nat) (v : Word)
  /-- R238. A write to a scope-table entry, ignored whole when invalid. -/
  | scopeEntryWrite (a : Nat) (i : Nat) (v : Word)
  /-- R268. A write to a barrier register, accepted only while ARR is 0 and valid. -/
  | hbcWrite (cl : Nat) (n : Nat) (v : Word)
  /-- R340. A write to FQB, ignored when LN is out of range or the queue is not empty. -/
  | fqbWrite (a : Nat) (v : Word)
  /-- R340. Software advances the fault-queue head to consume entries. -/
  | fqhWrite (a : Nat) (v : Word)
  /-- R347. A write to ERB, ignored when LN is out of range. -/
  | erbWrite (a : Nat) (v : Word)
  /-- R347. A write to ERC rearms the error threshold interrupt. -/
  | ercWrite (a : Nat) (v : Word)
  /-- R342. A held weak store is translated again and performed, held again or discarded. -/
  | heldStoreReplay (cl : Nat)
  /-- R254. A reply sets the request latch to DONE, PARKED or a retry cause. -/
  | requestReply (sid : Nat)
  /-- R263. The owning cluster performs a place-form request and replies. -/
  | placeRequest (n : Nat)
  /-- R264. A delivered doubleword reaches the parked issuer's awaiting register. -/
  | parkedValueDelivery (n : Nat)
  /-- R225. A freed park entry's 2-rotation reservation passes to the next refused issuer. -/
  | parkReservationExpiry (cl : Nat)
  /-- R275. A freed queue entry's 2-rotation reservation passes to the next refused issuer. -/
  | queueReservationExpiry (kind : Nat) (i : Nat) (q : Nat)
  /-- R269. When every participating cluster is done the barrier instance advances its phase. -/
  | hbarAdvance (die : Nat) (n : Nat)
  /-- R269. A done cluster's timer ends the phase with T := 1 at every cluster. -/
  | hbarTimeout (cl : Nat) (n : Nat)
  /-- R277. A queue fence is performed once the named queues' earlier entries are performed. -/
  | queueFencePerform (kind : Nat) (i : Nat) (q : Nat)
  /-- R315. A copy entry starts, reads the windows and checks every row's descriptor rules. -/
  | copyEntryStart (cl : Nat) (q : Nat)
  /-- R311. One copy row is read, converted and written, or ends the entry with an error. -/
  | copyRow (cl : Nat) (q : Nat)
  /-- R290. At a boundary the matrix lease is granted to a requesting core. -/
  | leaseGrant (cl : Nat)
  /-- R291. A lease hold ends at its limit, on release or on leaving, saving unperformed entries. -/
  | leaseHoldEnd (cl : Nat)
  /-- R291. SQP.CYC reaching 8,192 ends the hold at the next step boundary. -/
  | leaseCycleLimit (cl : Nat)
  /-- R288. A queued tsh writes its tile shape register. -/
  | tshPerform (cl : Nat)
  /-- R299. One row is loaded into a tile with its conversion. -/
  | tldRow (cl : Nat)
  /-- R300. One tile row is stored to the scratchpad with its conversion. -/
  | tstRow (cl : Nat)
  /-- R301. A tile is zeroed and its scale bytes set to 127. -/
  | tzeroPerform (cl : Nat)
  /-- R302. One K-group of four is multiplied and accumulated for the whole tile. -/
  | mmaStep (cl : Nat)
  /-- R304. One accumulator row is quantised into an MK8 tile row. -/
  | tqntRow (cl : Nat)
  /-- R322. Matching entries on several devices form one collective. -/
  | collectiveMatch (f : Nat) (q : Nat) (err : Nat) (parts : List Partner)
  /-- R323. One ring step of a collective moves or combines data in device order. -/
  | collectiveStep (f : Nat) (q : Nat)
  /-- R337. The sorter takes a fault record from a scrivener walk. -/
  | faultRecord (sid : Nat) (va : Nat) (kind : Nat)
  /-- R338. At 64 records or 4,096 cycles the sorter merges ranges and posts them. -/
  | sorterBatchClose (field : Nat)
  /-- R354. The scrivener walks all stages and fills the TLBs or sends a fault record. -/
  | scrivenerWalk (n : Nat)
  /-- R356. A TLB entry held for a not-ready requester may be evicted after 2 rotations. -/
  | tlbFillHoldExpiry (cid : Nat)
  /-- R359. An invalidation completes once every access through removed entries is performed. -/
  | invalidationComplete (n : Nat)
  /-- R380. A write to the kick page makes a live queue accept commands, or sets PEND. -/
  | kick (a : Nat) (q : Nat)
  /-- R384. One step of creating a context: check, take ASID and secret, write block. -/
  | ctxNewStep (a : Nat)
  /-- R371. Grants cores to a child and rewrites permission tables for a tenant. -/
  | cores (a : Nat)
  /-- R371. Grants or removes an address window of the child's stage. -/
  | window (a : Nat)
  /-- R371. Moves a hardware queue slot to the child. -/
  | qslot (a : Nat)
  /-- R371. Moves slot, frame and child budgets to the child. -/
  | budget (a : Nat)
  /-- R371. Maps or unmaps a queue of the target to a hardware queue slot. -/
  | map (a : Nat)
  /-- R404. Takes cores back from a child, one step per core, migrating or saving its threads. -/
  | recallMapped (a : Nat)
  /-- R384. Performs a context block register write as one step. -/
  | ctxWrStep (a : Nat)
  /-- R386. Writing CEN freezes or thaws the context's children. -/
  | cenWrite (t : Nat) (v : Word)
  /-- R374. Writing a child's FEAT clears masked bits in every descendant. -/
  | featWrite (t : Nat) (v : Word)
  /-- R369. Gives the context a new secret, invalidating earlier capabilities. -/
  | rekey (t : Nat)
  /-- R384. One run step restores a cluster; the last makes the context RUNNING. -/
  | ctxRunStep (a : Nat)
  /-- R384. One stop step freezes queues or pre-empts and saves a cluster; the last makes it FROZEN. -/
  | ctxStopStep (a : Nat)
  /-- R384. One kill step saves, releases a descendant or frees the context's resources. -/
  | ctxKillStep (a : Nat)
  /-- R386. One step of a freeze caused by a parent becoming inactive. -/
  | ctxFreezeStep (a : Nat)
  /-- R386. One step of a thaw when a context becomes active again. -/
  | ctxThawStep (a : Nat)
  /-- R377. Offers the held thread to its queue from its frame. -/
  | tokenResume (a : Nat) (token : Word)
  /-- R377. Delivers the held thread's trap to its user handler with ORG 2. -/
  | tokenDown (a : Nat) (token : Word)
  /-- R377. Posts the trap entry again to the next ancestor with a trap queue. -/
  | tokenUp (a : Nat) (token : Word)
  /-- R377. Ends the held thread and frees its frame. -/
  | tokenKill (a : Nat) (token : Word)
  /-- R391. A core stops each slot, drains results and accesses, and writes its state. -/
  | corePreempt (cid : Nat)
  /-- R398. A cluster is pre-empted, engines stopped and its save region streamed row by row. -/
  | clusterSave (t : Nat) (v : Nat)
  /-- R400. A saved cluster is restored on a free physical cluster and its threads resume. -/
  | clusterRestore (t : Nat) (v : Nat)
  /-- R401. A thread is stopped, moved to another core and a forwarding entry is set. -/
  | liveMigration (sid : Nat) (dst : Nat)
  /-- R403. An unmapped queue finishes its command, writes HEAD and frees its slot. -/
  | queueSwitchOut (a : Nat) (q : Nat)
  /-- R223. Sets every full-empty bit empty, every byte zero and tiles to reset values. -/
  | clusterReset (cl : Nat)
  /-- R412. A die-to-die flit with a bad CRC is retried, or dropped after 8 retries. -/
  | dieLinkFlitRetry (link : Nat) (tries : Nat) (n : Nat)
  /-- R421. A Morsyn Link flit with a bad CRC is resent from the replay buffer, or dropped after 8. -/
  | linkFlitRetry (port : Nat) (seq : Nat) (cl : Nat)
  /-- R422. A port that loses lock or exceeds the FEC threshold holds its flits and retrains. -/
  | portRetrain (port : Nat) (ok : Nat) (bad : Nat)
  /-- R422. A retrained port replays from the first unacknowledged flit. -/
  | portRetrainComplete (port : Nat) (lanes : Nat)
  /-- R422. After 3 failed attempts or 2^19 cycles the port goes down and its replay buffer is dropped. -/
  | portDown (port : Nat) (routes : List (Nat × Nat))
  /-- R422. Writing 0 clears a port counter. -/
  | portCounterClear (port : Nat) (off : Nat) (v : Word)
  /-- R424. A host write through an aperture is translated and acknowledged once performed for device. -/
  | hostWrite (ep : Nat) (ap : Nat) (off : Nat) (data : List Byte)
  /-- R424. A host read through an aperture returns a value no older than the home's. -/
  | hostRead (ep : Nat) (ap : Nat) (off : Nat) (len : Nat)
  /-- R415. Root firmware rewrites cluster and device permission maps after in-flight packets end. -/
  | permissionMapWrite (cl : Nat) (device : Bool) (m : BitVec 1024)
  /-- R416. Root firmware writes HBA or CQA when the instance or queue is idle. -/
  | allotmentWrite (barrier : Bool) (i : Nat) (n : Nat) (v : Nat)
  /-- R418. A way-quota entry write takes effect for allocations from the next cycle. -/
  | quotaWrite (cl : Nat) (tn : Nat) (v : Word)
  /-- R417. Writing CLR clears a utility monitor's 16 counters as one step. -/
  | umonClear (cl : Nat) (tn : Nat)
  /-- R427. Every 2^(16+P) cycles base dies copy and clear access counters and bump the sequence word. -/
  | counterSnapshot
  /-- R435. Every 2^16 cycles and at stop the context counters are published and cleared per CLR. -/
  | counterPublish (a : Nat)
  /-- R430. Writing HLT halts a core after its issued instructions and held results complete. -/
  | halt (cl : Nat) (off : Nat) (v : Word)
  /-- R430. Writing RES resumes a halted core's slots in their previous states. -/
  | debugResume (cl : Nat) (mask : Nat)
  /-- R430. A trigger from the cross-trigger network halts a cluster with CTI set. -/
  | crossTrigger (n : Nat)
  /-- R432. A matching breakpoint stops issue and takes its action. -/
  | breakpointHit (sid : Nat)
  /-- R441. A write with any bit set clears the OVC or DRC counter. -/
  | pwrsWrite (v : Word)
  /-- R442. VIN below 46.0 V steps the arithmetic clock to 0.55 GHz. -/
  | slowEntry (vin : Nat)
  /-- R442. VIN in band for 1 ms steps the clock back to 1.1 GHz. -/
  | normalReturn (vin : Nat)
  /-- R442. VIN below 40 V or below 46 V for 20 ms starts the orderly save. -/
  | saveEntry (vin : Nat) (long : Bool)
  /-- R443. VIN above 60 V for 100 µs or at 66 V disconnects the input and starts the save. -/
  | overvoltageDisconnect (vin : Nat) (long : Bool)
  /-- R442. The completed save puts HBM in self-refresh and powers down the compute dies. -/
  | saveComplete
  /-- R442. VIN in band for 1 ms in HELD restores power and the saved state. -/
  | heldRestore (vin : Nat)
  /-- R442. The exhausted hold-up store turns the module off and HBM contents are lost. -/
  | holdupSpent
  /-- R445. The shock recorder logs an acceleration above its limits while unpowered. -/
  | transportEvent (g : Nat) (ms : Nat)
  /-- R445. After a transport event, boot runs the four-step self-test before any tenant. -/
  | extendedSelfTest (clusters : List Nat) (ports : List Nat)
  /-- R447. Power-up increments the boot counter and starts the boot ROMs. -/
  | powerUp (vin : Nat)
  /-- R447. The boot ROM verifies and accepts a signed image and extends MEAS. -/
  | imageLoad (port : Option Nat) (first : List Byte) (second : List Byte) (c : ImageConfig)
  /-- R449. The secure element answers a host nonce with a signed attestation report. -/
  | attestationRequest (ep : Nat) (nonce : BitVec 256)
  /-- R190. The elements of a read stream that a pop found absent arrive and become present for the next pop. -/
  | streamElementArrival (sid : Nat) (n : Nat)
  /-- R421. The receiver's acknowledgement of a good flit reaches the sender, which frees the flit from its replay buffer. -/
  | flitAcknowledgement (port : Nat) (seq : Nat)
  /-- R419. At span bring-up the fabric manager gives the device its 10-bit device identifier. -/
  | deviceIdentifierAssignment (id : Nat) (routes : List (Nat × Nat))
deriving DecidableEq, Repr

end Sys2Proof
end

