-- ==== Sys2Proof/WellFormed.lean ====
section
/-! DEFINITION. Which instructions are well formed: the operand values that the entries of the spec leave
unassigned (R61) although they fit the fields. -/

namespace Sys2Proof

/-- R90, R67: the rounding-mode codes that are assigned: 0 to 4, and 7 for `st.RM`. -/
def legalRound (r : BitVec 3) : Bool := r != 5#3 && r != 6#3

/-- R49, R186: a 5-bit vector field names one of `v12` to `v15`. -/
def isStream (v : BitVec 5) : Bool := v.extractLsb' 2 3 == 3#3

/-- R176: the run of n + 1 registers from register a ends in a's bank. -/
def runFits (a : BitVec 6) (n : BitVec 3) : Bool := a.toNat % 32 + n.toNat ≤ 31

/-- The value constraints of the entries. `op4S` says that the prefix of a pair names a stream as its fourth
operand (R49, R67); it is false for an instruction that stands alone. -/
def Instr.wfIn (op4S : Bool) : Instr → Bool
  | .add _ _ _ => true
  | .sub _ _ _ => true
  | .and _ _ _ => true
  | .or _ _ _ => true
  | .xor _ _ _ => true
  | .sll _ _ _ => true
  | .srl _ _ _ => true
  | .sra _ _ _ => true
  | .slt _ _ _ => true
  | .sltu _ _ _ => true
  | .min _ _ _ => true
  | .max _ _ _ => true
  | .minu _ _ _ => true
  | .maxu _ _ _ => true
  | .mv _ _ => true
  | .addw _ _ _ => true
  | .subw _ _ _ => true
  | .sllw _ _ _ => true
  | .srlw _ _ _ => true
  | .sraw _ _ _ => true
  | .sh1add _ _ _ => true
  | .sh2add _ _ _ => true
  | .sh3add _ _ _ => true
  | .sh4add _ _ _ => true
  | .lix _ _ => true
  | .lixu _ _ => true
  | .insh _ _ => true
  | .jr _ => true
  | .callr _ => true
  | .ret => true
  | .land => true
  | .enter _ _ => true
  | .enterFp _ _ r => r != 28#5 && r != 31#5
  | .leave _ _ => true
  | .leaveFp _ _ _ => true
  | .kpack _ _ => true
  | .kunpack _ _ => true
  | .addi _ _ _ => true
  | .li _ _ _ => true
  | .andi _ _ _ => true
  | .ori _ _ _ => true
  | .xori _ _ _ => true
  | .slti _ _ _ => true
  | .sltiu _ _ _ => true
  | .slli _ _ _ => true
  | .srli _ _ _ => true
  | .srai _ _ _ => true
  | .rori _ _ _ => true
  | .mul _ _ _ => true
  | .mulh _ _ _ => true
  | .mulhu _ _ _ => true
  | .mulhsu _ _ _ => true
  | .mulw _ _ _ => true
  | .div _ _ _ => true
  | .divu _ _ _ => true
  | .rem _ _ _ => true
  | .remu _ _ _ => true
  | .divw _ _ _ => true
  | .divuw _ _ _ => true
  | .remw _ _ _ => true
  | .remuw _ _ _ => true
  | .clz _ _ => true
  | .ctz _ _ => true
  | .cpop _ _ => true
  | .rev8 _ _ => true
  | .brev _ _ => true
  | .andn _ _ _ => true
  | .orn _ _ _ => true
  | .xnor _ _ _ => true
  | .rol _ _ _ => true
  | .ror _ _ _ => true
  | .bset _ _ _ => true
  | .bclr _ _ _ => true
  | .binv _ _ _ => true
  | .bext _ _ _ => true
  | .ext _ _ _ => true
  | .sextb _ _ => true
  | .sexth _ _ => true
  | .sextw _ _ => true
  | .mod31 _ _ => true
  | .div31 _ _ => true
  | .bankof _ _ => true
  | .rowof _ _ => true
  | .spa _ _ _ => true
  | .addm31 _ _ _ => true
  | .oxl _ _ => true
  | .oxh _ _ => true
  | .beq _ _ _ => true
  | .bne _ _ _ => true
  | .blt _ _ _ => true
  | .bge _ _ _ => true
  | .bltu _ _ _ => true
  | .bgeu _ _ _ => true
  | .bnr _ => true
  | .brd _ => true
  | .j _ => true
  | .call _ => true
  | .fadd _ _ _ => true
  | .fsub _ _ _ => true
  | .fmul _ _ _ => true
  | .fdiv _ _ _ => true
  | .fmin _ _ _ => true
  | .fmax _ _ _ => true
  | .fmadd _ _ _ => true
  | .fmsub _ _ _ => true
  | .fsqrt r _ _ => legalRound r
  | .fsgnj _ _ _ => true
  | .fsgnjn _ _ _ => true
  | .fsgnjx _ _ _ => true
  | .feq _ _ _ => true
  | .flt _ _ _ => true
  | .fle _ _ _ => true
  | .fclass _ _ => true
  | .ftoi r _ _ => legalRound r
  | .ftou r _ _ => legalRound r
  | .ftol r _ _ => legalRound r
  | .ftoul r _ _ => legalRound r
  | .itof r _ _ => legalRound r
  | .utof r _ _ => legalRound r
  | .ltof r _ _ => legalRound r
  | .ultof r _ _ => legalRound r
  | .ftobf r _ _ => legalRound r
  | .bftof _ _ => true
  | .ldW _ _ _ _ => true
  | .ldD _ _ _ _ => true
  | .stW _ _ _ _ => true
  | .stD _ _ _ _ => true
  | .ldMn _ _ z _ _ _ => z != 7#3
  | .stMn _ _ _ _ _ _ => true
  | .ldSp _ z _ _ _ => z != 7#3
  | .stSp _ _ _ _ _ => true
  | .ldVm _ z _ _ _ => z != 7#3
  | .stVm _ _ _ _ _ => true
  | .amoSwap _ _ _ _ _ => true
  | .amoCas _ _ _ _ _ => true
  | .amoAdd _ _ _ _ _ => true
  | .amoAnd _ _ _ _ _ => true
  | .amoOr _ _ _ _ _ => true
  | .amoXor _ _ _ _ _ => true
  | .amoMin _ _ _ _ _ => true
  | .amoMax _ _ _ _ _ => true
  | .amoMinu _ _ _ _ _ => true
  | .amoMaxu _ _ _ _ _ => true
  | .updAdd _ _ _ _ => true
  | .updMin _ _ _ _ => true
  | .updMax _ _ _ _ => true
  | .amoSpSwap _ _ _ _ => true
  | .amoSpCas _ _ _ _ => true
  | .amoSpAdd _ _ _ _ => true
  | .amoVmSwap _ _ _ _ => true
  | .amoVmCas _ _ _ _ => true
  | .amoVmAdd _ _ _ _ => true
  | .fenceS _ _ => true
  | .fenceI => true
  | .stRelW _ _ _ _ => true
  | .stRelD _ _ _ _ => true
  | .ldff _ _ _ => true
  | .ldfe _ _ _ => true
  | .stef _ _ _ => true
  | .stff _ _ _ => true
  | .feEmpty _ => true
  | .feTest _ _ _ => true
  | .ldffPlace _ _ _ _ => true
  | .ldfePlace _ _ _ _ => true
  | .stefPlace _ _ _ _ => true
  | .stffPlace _ _ _ _ => true
  | .ldSpDPlace _ _ _ _ => true
  | .stSpDPlace _ _ _ _ => true
  | .ldVmDPlace _ _ _ _ => true
  | .stVmDPlace _ _ _ _ => true
  | .park _ _ => true
  | .pin _ _ _ => true
  | .unpin _ => true
  | .unpinAll => true
  | .pf _ => true
  | .hbarArr _ _ _ => true
  | .hbarWt _ _ _ _ => true
  | .arm _ n a => runFits a n
  | .disarm _ n a => runFits a n
  | .mint r n a _ => runFits a n && r != 0#2
  | .snd _ _ _ _ => true
  | .rcv _ _ _ => true
  | .fabst _ _ => true
  | .sndA _ _ _ _ _ => true
  | .yield _ => true
  | .sleep _ _ => true
  | .wake _ => true
  | .hold _ => true
  | .exit => true
  | .selfid _ => true
  | .rdskip _ _ => true
  | .hint _ _ _ _ _ => true
  | .launch _ _ _ => true
  | .cast _ _ _ _ => true
  | .recast _ _ => true
  | .place _ _ => true
  | .placeSelf _ => true
  | .placeLoad _ => true
  | .vfadd p _ b a d => (p == .rt || isStream a || isStream b || isStream d)
  | .vfsub p _ b a d => (p == .rt || isStream a || isStream b || isStream d)
  | .vfmul p _ b a d => (p == .rt || isStream a || isStream b || isStream d)
  | .vfmin p _ b a d => (p == .rt || isStream a || isStream b || isStream d)
  | .vfmax p _ b a d => (p == .rt || isStream a || isStream b || isStream d)
  | .vfabs p _ a d => (p == .rt || isStream a || isStream d)
  | .vfneg p _ a d => (p == .rt || isStream a || isStream d)
  | .vfma p _ b a d => (p == .rt || isStream a || isStream b || isStream d)
  | .vfms p _ b a d => (p == .rt || isStream a || isStream b || isStream d)
  | .vfma4 p _ b a d => (p == .rt || isStream a || isStream b || isStream d || op4S)
  | .vfeq p _ b a _ => (p == .rt || isStream a || isStream b)
  | .vflt p _ b a _ => (p == .rt || isStream a || isStream b)
  | .vfle p _ b a _ => (p == .rt || isStream a || isStream b)
  | .vadd w p _ b a d => w != 3#2 && (p == .rt || isStream a || isStream b || isStream d)
  | .vsub w p _ b a d => w != 3#2 && (p == .rt || isStream a || isStream b || isStream d)
  | .vmul w p _ b a d => w != 3#2 && (p == .rt || isStream a || isStream b || isStream d)
  | .vsll w p _ b a d => w != 3#2 && (p == .rt || isStream a || isStream b || isStream d)
  | .vsrl w p _ b a d => w != 3#2 && (p == .rt || isStream a || isStream b || isStream d)
  | .vsra w p _ b a d => w != 3#2 && (p == .rt || isStream a || isStream b || isStream d)
  | .vmin w p _ b a d => w != 3#2 && (p == .rt || isStream a || isStream b || isStream d)
  | .vmax w p _ b a d => w != 3#2 && (p == .rt || isStream a || isStream b || isStream d)
  | .vminu w p _ b a d => w != 3#2 && (p == .rt || isStream a || isStream b || isStream d)
  | .vmaxu w p _ b a d => w != 3#2 && (p == .rt || isStream a || isStream b || isStream d)
  | .vand p _ b a d => (p == .rt || isStream a || isStream b || isStream d)
  | .vor p _ b a d => (p == .rt || isStream a || isStream b || isStream d)
  | .vxor p _ b a d => (p == .rt || isStream a || isStream b || isStream d)
  | .vandn p _ b a d => (p == .rt || isStream a || isStream b || isStream d)
  | .vieq p _ b a _ => (p == .rt || isStream a || isStream b)
  | .vilt p _ b a _ => (p == .rt || isStream a || isStream b)
  | .viltu p _ b a _ => (p == .rt || isStream a || isStream b)
  | .vbcast _ _ _ _ => true
  | .kget p _ _ _ => (p == .rt)
  | .kset _ _ _ _ => true
  | .vperm p _ b a d => (p == .rt || isStream a || isStream b || isStream d)
  | .vperm2 p _ b a d => (p == .rt || isStream a || isStream b || isStream d || op4S)
  | .vrot p _ _ a d => (p == .rt || isStream a || isStream d)
  | .vins _ _ _ _ _ => true
  | .vext p _ _ a _ => (p == .rt || isStream a)
  | .vsumF p _ a _ => (p == .rt || isStream a)
  | .vmaxF p _ a _ => (p == .rt || isStream a)
  | .vminF p _ a _ => (p == .rt || isStream a)
  | .vsumI32 p _ a _ => (p == .rt || isStream a)
  | .vmaxI32 p _ a _ => (p == .rt || isStream a)
  | .vminI32 p _ a _ => (p == .rt || isStream a)
  | .vsumI16 p _ a _ => (p == .rt || isStream a)
  | .vsumI8 p _ a _ => (p == .rt || isStream a)
  | .vsumBf p _ a _ => (p == .rt || isStream a)
  | .vld _ _ _ _ _ => true
  | .vldWk _ _ _ _ _ => true
  | .vst _ _ _ _ _ => true
  | .vstWk _ _ _ _ _ => true
  | .vldSp _ _ _ _ _ => true
  | .vstSp _ _ _ _ _ => true
  | .vldWin _ _ _ _ _ => true
  | .vstWin _ _ _ _ _ => true
  | .scfg _ _ _ => true
  | .sclr _ => true
  | .srem _ _ => true
  | .vrcpA p _ a d => (p == .rt || isStream a || isStream d)
  | .vrsqA p _ a d => (p == .rt || isStream a || isStream d)
  | .vrcpS p _ b a d => (p == .rt || isStream a || isStream b || isStream d)
  | .vrsqS p _ b a d => (p == .rt || isStream a || isStream b || isStream d)
  | .vexp2A p _ a d => (p == .rt || isStream a || isStream d)
  | .vlog2A p _ a d => (p == .rt || isStream a || isStream d)
  | .pfx _ _ r e k => legalRound r && (e == 1#1 || k == 0#3)
  | .vcvtFI p _ a d => (p == .rt || isStream a || isStream d)
  | .vcvtIF p _ a d => (p == .rt || isStream a || isStream d)
  | .vcvtBfF p _ b a d => (p == .rt || isStream a || isStream b || isStream d)
  | .vcvtFBf p _ _ a d => (p == .rt || isStream a || isStream d)
  | .vcvtFMk8 p _ _ a d => (p == .rt || isStream a || isStream d)
  | .vpackI16 p _ b a d => (p == .rt || isStream a || isStream b || isStream d)
  | .vunpkI16 p _ _ a d => (p == .rt || isStream a || isStream d)
  | .vunpkI8 p _ _ a d => (p == .rt || isStream a || isStream d)
  | .vquant p _ _ a d => (p == .rt || isStream d || isStream (a ++ 0#1))
  | .mlease _ _ => true
  | .mrel => true
  | .tsh _ _ t => t.toNat ≤ 19
  | .tshr _ t _ => t.toNat ≤ 19
  | .tld _ _ _ t => t.toNat ≤ 19
  | .tst _ _ _ t => t.toNat ≤ 19
  | .tzero _ t => t.toNat ≤ 19
  | .mma _ b a f _ _ => a.toNat ≤ 15 && b.toNat ≤ 15 && f != 3#2
  | .tqnt _ _ u t => t.toNat ≤ 15 && 16 ≤ u.toNat && u.toNat ≤ 19
  | .cpMm _ _ _ _ _ _ => true
  | .cpMs _ _ _ _ _ _ => true
  | .cpMv _ _ _ _ _ _ => true
  | .cpSm _ _ _ _ _ _ => true
  | .cpSs _ _ _ _ _ _ => true
  | .cpSv _ _ _ _ _ _ => true
  | .cpVm _ _ _ _ _ _ => true
  | .cpVs _ _ _ _ _ _ => true
  | .cpVv _ _ _ _ _ _ => true
  | .cpGth _ _ _ _ _ _ => true
  | .cpSct _ _ _ _ _ _ => true
  | .qfCp _ _ _ => true
  | .clAredSum _ _ _ _ => true
  | .clAredMax _ _ _ _ => true
  | .clAredMin _ _ _ _ => true
  | .clBcst _ _ _ _ => true
  | .clGath _ _ _ _ => true
  | .qfCl _ _ _ => true
  | .cbInit _ _ _ => true
  | .cbArr _ _ _ => true
  | .cbWt _ _ _ _ => true
  | .cbClr _ _ => true
  | .mfsr s _ => s.toNat < 9
  | .mtsr s _ => s.toNat < 9
  | .mfcr _ _ => true
  | .mtcr _ _ => true
  | .hret => true
  | .trap _ => true
  | .copRd n a _ => (n.toNat < 2 || a == 0#6)
  | .copReplay _ => true
  | .fltDone _ _ => true
  | .tlbInv _ _ _ => true
  | .tlbInva _ => true
  | .tlbProbe _ _ _ => true
  | .atpRd _ => true
  | .atpWr _ _ => true
  | .ctxNew _ _ _ => true
  | .ctxGrant _ _ _ => true
  | .ctxRd s _ _ => s.toNat < 18
  | .ctxWr _ _ _ s => s.toNat < 18
  | .ctxRun _ _ => true
  | .ctxStop _ _ => true
  | .ctxKill _ _ => true
  | .ctxResume _ _ _ => true
  | .ctxIntr _ => true
  | .addN _ _ => true
  | .subN _ _ => true
  | .andN _ _ => true
  | .orN _ _ => true
  | .xorN _ _ => true
  | .sllN _ _ => true
  | .srlN _ _ => true
  | .sraN _ _ => true
  | .mulN _ _ => true
  | .jrN _ => true
  | .callrN _ => true
  | .retN => true
  | .addiN d i => !(d == 0#5 && i == 0#6)
  | .liN _ _ => true
  | .slliN _ _ => true
  | .srliN _ _ => true
  | .sraiN _ _ => true
  | .andiN _ _ => true
  | .addiNSp _ => true
  | .nopN => true
  | .ldDN _ _ _ _ => true
  | .stDN _ _ _ _ => true
  | .ldWN _ _ _ _ => true
  | .stWN _ _ _ _ => true
  | .ldDNSp _ _ _ => true
  | .stDNSp _ _ _ => true
  | .jN _ => true
  | .ydSleepWake _ => true
  | .ydSleepTimeout _ => true
  | .preciseTrapDelivery _ => true
  | .lateFaultDelivery _ => true
  | .overwriteTrap _ => true
  | .trapReflection _ => true
  | .coreReset _ => true
  | .holdSkipEnd _ => true
  | .heldResultWrite _ => true
  | .l1LineFill _ _ _ => true
  | .arrivalHoldExpiry _ _ => true
  | .yieldEnd _ => true
  | .sleepTimeout _ => true
  | .threadExitComplete _ => true
  | .slotArbitration => true
  | .launchRequest _ => true
  | .launchReply _ => true
  | .launchAdmit _ => true
  | .lightThreadMove _ => true
  | .lightThreadArrival _ => true
  | .messageDeparture _ => true
  | .fabricMessageArrival _ _ _ _ _ _ _ _ _ => true
  | .inboxDeferredReply _ => true
  | .sendReply _ _ _ _ _ _ => true
  | .sendLatchTimeout _ => true
  | .streamWriteDrain _ => true
  | .l1iFill _ => true
  | .fetchPrefetch _ _ => true
  | .demandFetch _ => true
  | .combineDrain _ _ => true
  | .combineAgeExpiry _ => true
  | .leaseAgeExpiry _ _ => true
  | .leaseRenewal _ _ _ => true
  | .writeGrant _ _ _ => true
  | .ownershipGrant _ _ _ => true
  | .updateMerge _ _ => true
  | .remoteReply _ _ _ _ => true
  | .forwardedAccess _ _ _ _ _ _ _ => true
  | .remoteTimeout _ _ => true
  | .vsegWrite _ _ => true
  | .vsegSegmentStep _ => true
  | .winWrite _ _ _ => true
  | .scopeEntryWrite _ _ _ => true
  | .hbcWrite _ _ _ => true
  | .fqbWrite _ _ => true
  | .fqhWrite _ _ => true
  | .erbWrite _ _ => true
  | .ercWrite _ _ => true
  | .heldStoreReplay _ => true
  | .requestReply _ => true
  | .placeRequest _ => true
  | .parkedValueDelivery _ => true
  | .parkReservationExpiry _ => true
  | .queueReservationExpiry _ _ _ => true
  | .hbarAdvance _ _ => true
  | .hbarTimeout _ _ => true
  | .queueFencePerform _ _ _ => true
  | .copyEntryStart _ _ => true
  | .copyRow _ _ => true
  | .leaseGrant _ => true
  | .leaseHoldEnd _ => true
  | .leaseCycleLimit _ => true
  | .tshPerform _ => true
  | .tldRow _ => true
  | .tstRow _ => true
  | .tzeroPerform _ => true
  | .mmaStep _ => true
  | .tqntRow _ => true
  | .collectiveMatch _ _ _ _ => true
  | .collectiveStep _ _ => true
  | .faultRecord _ _ _ => true
  | .sorterBatchClose _ => true
  | .scrivenerWalk _ => true
  | .tlbFillHoldExpiry _ => true
  | .invalidationComplete _ => true
  | .kick _ _ => true
  | .ctxNewStep _ => true
  | .cores _ => true
  | .window _ => true
  | .qslot _ => true
  | .budget _ => true
  | .map _ => true
  | .recallMapped _ => true
  | .ctxWrStep _ => true
  | .cenWrite _ _ => true
  | .featWrite _ _ => true
  | .rekey _ => true
  | .ctxRunStep _ => true
  | .ctxStopStep _ => true
  | .ctxKillStep _ => true
  | .ctxFreezeStep _ => true
  | .ctxThawStep _ => true
  | .tokenResume _ _ => true
  | .tokenDown _ _ => true
  | .tokenUp _ _ => true
  | .tokenKill _ _ => true
  | .corePreempt _ => true
  | .clusterSave _ _ => true
  | .clusterRestore _ _ => true
  | .liveMigration _ _ => true
  | .queueSwitchOut _ _ => true
  | .clusterReset _ => true
  | .dieLinkFlitRetry _ _ _ => true
  | .linkFlitRetry _ _ _ => true
  | .portRetrain _ _ _ => true
  | .portRetrainComplete _ _ => true
  | .portDown _ _ => true
  | .portCounterClear _ _ _ => true
  | .hostWrite _ _ _ _ => true
  | .hostRead _ _ _ _ => true
  | .permissionMapWrite _ _ _ => true
  | .allotmentWrite _ _ _ _ => true
  | .quotaWrite _ _ _ => true
  | .umonClear _ _ => true
  | .counterSnapshot => true
  | .counterPublish _ => true
  | .halt _ _ _ => true
  | .debugResume _ _ => true
  | .crossTrigger _ => true
  | .breakpointHit _ => true
  | .pwrsWrite _ => true
  | .slowEntry _ => true
  | .normalReturn _ => true
  | .saveEntry _ _ => true
  | .overvoltageDisconnect _ _ => true
  | .saveComplete => true
  | .heldRestore _ => true
  | .holdupSpent => true
  | .transportEvent _ _ => true
  | .extendedSelfTest _ _ => true
  | .powerUp _ => true
  | .imageLoad _ _ _ _ => true
  | .attestationRequest _ _ => true
  | .streamElementArrival _ _ => true
  | .flitAcknowledgement _ _ => true
  | .deviceIdentifierAssignment _ _ => true

/-- A well-formed instruction that stands alone. -/
def Instr.wf (i : Instr) : Bool := i.wfIn false

end Sys2Proof
end

