-- ==== Sys2Proof/Decode.lean ====
section
/-! DEFINITION. Decoding (R44 to R72) and encoding, both written from the formats of R46, R64 and R65 and the
opcode table.

The decoders are marked noncomputable only because Lean's compiled code has room for about 244 constructors that
carry data and the opcode table has more; Lean's kernel evaluates them like any other definition. -/

namespace Sys2Proof


/-! ### Fields of the R format -/
/-- Bits [31:25]. -/
def RFmt.minor7 (w : BitVec 32) : BitVec 7 := w.extractLsb' 25 7
/-- Bits [24:19]. -/
def RFmt.b (w : BitVec 32) : BitVec 6 := w.extractLsb' 19 6
/-- Bits [18:13]. -/
def RFmt.a (w : BitVec 32) : BitVec 6 := w.extractLsb' 13 6
/-- Bits [12:7]. -/
def RFmt.d (w : BitVec 32) : BitVec 6 := w.extractLsb' 7 6
/-- The word with the given fields. -/
def RFmt.pack (minor7 : BitVec 7) (b : BitVec 6) (a : BitVec 6) (d : BitVec 6) (major : BitVec 5) : BitVec 32 :=
  minor7 ++ b ++ a ++ d ++ major ++ 3#2

/-! ### Fields of the RP format -/
/-- Bits [31:30]. -/
def RPFmt.pol (w : BitVec 32) : BitVec 2 := w.extractLsb' 30 2
/-- Bits [29:25]. -/
def RPFmt.minor5 (w : BitVec 32) : BitVec 5 := w.extractLsb' 25 5
/-- Bits [24:19]. -/
def RPFmt.b (w : BitVec 32) : BitVec 6 := w.extractLsb' 19 6
/-- Bits [18:13]. -/
def RPFmt.a (w : BitVec 32) : BitVec 6 := w.extractLsb' 13 6
/-- Bits [12:7]. -/
def RPFmt.d (w : BitVec 32) : BitVec 6 := w.extractLsb' 7 6
/-- The word with the given fields. -/
def RPFmt.pack (pol : BitVec 2) (minor5 : BitVec 5) (b : BitVec 6) (a : BitVec 6) (d : BitVec 6) (major : BitVec 5) : BitVec 32 :=
  pol ++ minor5 ++ b ++ a ++ d ++ major ++ 3#2

/-! ### Fields of the I and B formats: the condition or function field is f3 -/
/-- Bits [31:20]. -/
def IFmt.imm12 (w : BitVec 32) : BitVec 12 := w.extractLsb' 20 12
/-- Bits [19:17]. -/
def IFmt.f3 (w : BitVec 32) : BitVec 3 := w.extractLsb' 17 3
/-- Bits [16:12]. -/
def IFmt.a5 (w : BitVec 32) : BitVec 5 := w.extractLsb' 12 5
/-- Bits [11:7]. -/
def IFmt.d5 (w : BitVec 32) : BitVec 5 := w.extractLsb' 7 5
/-- The word with the given fields. -/
def IFmt.pack (imm12 : BitVec 12) (f3 : BitVec 3) (a5 : BitVec 5) (d5 : BitVec 5) (major : BitVec 5) : BitVec 32 :=
  imm12 ++ f3 ++ a5 ++ d5 ++ major ++ 3#2

/-! ### Fields of the M format -/
/-- Bits [31:20]. -/
def MFmt.imm12 (w : BitVec 32) : BitVec 12 := w.extractLsb' 20 12
/-- Bits [19:18]. -/
def MFmt.pol18 (w : BitVec 32) : BitVec 2 := w.extractLsb' 18 2
/-- Bits [17:17]. -/
def MFmt.wbit (w : BitVec 32) : BitVec 1 := w.extractLsb' 17 1
/-- Bits [16:12]. -/
def MFmt.a5 (w : BitVec 32) : BitVec 5 := w.extractLsb' 12 5
/-- Bits [11:7]. -/
def MFmt.d5 (w : BitVec 32) : BitVec 5 := w.extractLsb' 7 5
/-- The word with the given fields. -/
def MFmt.pack (imm12 : BitVec 12) (pol18 : BitVec 2) (wbit : BitVec 1) (a5 : BitVec 5) (d5 : BitVec 5) (major : BitVec 5) : BitVec 32 :=
  imm12 ++ pol18 ++ wbit ++ a5 ++ d5 ++ major ++ 3#2

/-! ### Fields of the MN and MS formats -/
/-- Bits [31:30]. -/
def MNFmt.pol (w : BitVec 32) : BitVec 2 := w.extractLsb' 30 2
/-- Bits [29:29]. -/
def MNFmt.sbit (w : BitVec 32) : BitVec 1 := w.extractLsb' 29 1
/-- Bits [28:28]. -/
def MNFmt.qbit (w : BitVec 32) : BitVec 1 := w.extractLsb' 28 1
/-- Bits [27:25]. -/
def MNFmt.sz (w : BitVec 32) : BitVec 3 := w.extractLsb' 25 3
/-- Bits [24:24]. -/
def MNFmt.cbit (w : BitVec 32) : BitVec 1 := w.extractLsb' 24 1
/-- Bits [23:19]. -/
def MNFmt.off5 (w : BitVec 32) : BitVec 5 := w.extractLsb' 19 5
/-- Bits [18:13]. -/
def MNFmt.a (w : BitVec 32) : BitVec 6 := w.extractLsb' 13 6
/-- Bits [12:7]. -/
def MNFmt.d (w : BitVec 32) : BitVec 6 := w.extractLsb' 7 6
/-- The word with the given fields. -/
def MNFmt.pack (pol : BitVec 2) (sbit : BitVec 1) (qbit : BitVec 1) (sz : BitVec 3) (cbit : BitVec 1) (off5 : BitVec 5) (a : BitVec 6) (d : BitVec 6) (major : BitVec 5) : BitVec 32 :=
  pol ++ sbit ++ qbit ++ sz ++ cbit ++ off5 ++ a ++ d ++ major ++ 3#2

/-! ### Fields of the J format -/
/-- Bits [31:7]. -/
def JFmt.off25 (w : BitVec 32) : BitVec 25 := w.extractLsb' 7 25
/-- The word with the given fields. -/
def JFmt.pack (off25 : BitVec 25) (major : BitVec 5) : BitVec 32 :=
  off25 ++ major ++ 3#2

/-! ### Fields of the V format -/
/-- Bits [31:26]. -/
def VFmt.minor6 (w : BitVec 32) : BitVec 6 := w.extractLsb' 26 6
/-- Bits [25:24]. -/
def VFmt.pol24 (w : BitVec 32) : BitVec 2 := w.extractLsb' 24 2
/-- Bits [23:22]. -/
def VFmt.hold (w : BitVec 32) : BitVec 2 := w.extractLsb' 22 2
/-- Bits [21:17]. -/
def VFmt.vb (w : BitVec 32) : BitVec 5 := w.extractLsb' 17 5
/-- Bits [16:12]. -/
def VFmt.a5 (w : BitVec 32) : BitVec 5 := w.extractLsb' 12 5
/-- Bits [11:7]. -/
def VFmt.d5 (w : BitVec 32) : BitVec 5 := w.extractLsb' 7 5
/-- The word with the given fields. -/
def VFmt.pack (minor6 : BitVec 6) (pol24 : BitVec 2) (hold : BitVec 2) (vb : BitVec 5) (a5 : BitVec 5) (d5 : BitVec 5) (major : BitVec 5) : BitVec 32 :=
  minor6 ++ pol24 ++ hold ++ vb ++ a5 ++ d5 ++ major ++ 3#2

/-! ### Fields of the X format -/
/-- Bits [31:25]. -/
def XFmt.minor7 (w : BitVec 32) : BitVec 7 := w.extractLsb' 25 7
/-- Bits [24:9]. -/
def XFmt.imm16 (w : BitVec 32) : BitVec 16 := w.extractLsb' 9 16
/-- Bits [8:7]. -/
def XFmt.ox (w : BitVec 32) : BitVec 2 := w.extractLsb' 7 2
/-- The word with the given fields. -/
def XFmt.pack (minor7 : BitVec 7) (imm16 : BitVec 16) (ox : BitVec 2) (major : BitVec 5) : BitVec 32 :=
  minor7 ++ imm16 ++ ox ++ major ++ 3#2

/-! ### Fields of the P format -/
/-- Bits [31:20]. -/
def PFmt.zero12 (w : BitVec 32) : BitVec 12 := w.extractLsb' 20 12
/-- Bits [19:19]. -/
def PFmt.zbit (w : BitVec 32) : BitVec 1 := w.extractLsb' 19 1
/-- Bits [18:14]. -/
def PFmt.op4 (w : BitVec 32) : BitVec 5 := w.extractLsb' 14 5
/-- Bits [13:11]. -/
def PFmt.rm (w : BitVec 32) : BitVec 3 := w.extractLsb' 11 3
/-- Bits [10:10]. -/
def PFmt.me (w : BitVec 32) : BitVec 1 := w.extractLsb' 10 1
/-- Bits [9:7]. -/
def PFmt.mk (w : BitVec 32) : BitVec 3 := w.extractLsb' 7 3
/-- The word with the given fields. -/
def PFmt.pack (zero12 : BitVec 12) (zbit : BitVec 1) (op4 : BitVec 5) (rm : BitVec 3) (me : BitVec 1) (mk : BitVec 3) (major : BitVec 5) : BitVec 32 :=
  zero12 ++ zbit ++ op4 ++ rm ++ me ++ mk ++ major ++ 3#2

/-! ### Fields of the quadrant 0 -/
/-- Bits [15:11]. -/
def Q0Fmt.d (w : BitVec 16) : BitVec 5 := w.extractLsb' 11 5
/-- Bits [10:6]. -/
def Q0Fmt.b (w : BitVec 16) : BitVec 5 := w.extractLsb' 6 5
/-- Bits [5:2]. -/
def Q0Fmt.op4 (w : BitVec 16) : BitVec 4 := w.extractLsb' 2 4
/-- The parcel with the given fields. -/
def Q0Fmt.pack (d : BitVec 5) (b : BitVec 5) (op4 : BitVec 4) (q : BitVec 2) : BitVec 16 :=
  d ++ b ++ op4 ++ q

/-! ### Fields of the quadrant 1 -/
/-- Bits [15:11]. -/
def Q1Fmt.d (w : BitVec 16) : BitVec 5 := w.extractLsb' 11 5
/-- Bits [10:5]. -/
def Q1Fmt.i6 (w : BitVec 16) : BitVec 6 := w.extractLsb' 5 6
/-- Bits [4:2]. -/
def Q1Fmt.op3 (w : BitVec 16) : BitVec 3 := w.extractLsb' 2 3
/-- The parcel with the given fields. -/
def Q1Fmt.pack (d : BitVec 5) (i6 : BitVec 6) (op3 : BitVec 3) (q : BitVec 2) : BitVec 16 :=
  d ++ i6 ++ op3 ++ q

/-! ### Fields of the quadrant 2, ops 0 to 3 -/
/-- Bits [15:13]. -/
def QAFmt.d3 (w : BitVec 16) : BitVec 3 := w.extractLsb' 13 3
/-- Bits [12:10]. -/
def QAFmt.b3 (w : BitVec 16) : BitVec 3 := w.extractLsb' 10 3
/-- Bits [9:7]. -/
def QAFmt.u3 (w : BitVec 16) : BitVec 3 := w.extractLsb' 7 3
/-- Bits [6:5]. -/
def QAFmt.pol2 (w : BitVec 16) : BitVec 2 := w.extractLsb' 5 2
/-- Bits [4:2]. -/
def QAFmt.op3 (w : BitVec 16) : BitVec 3 := w.extractLsb' 2 3
/-- The parcel with the given fields. -/
def QAFmt.pack (d3 : BitVec 3) (b3 : BitVec 3) (u3 : BitVec 3) (pol2 : BitVec 2) (op3 : BitVec 3) (q : BitVec 2) : BitVec 16 :=
  d3 ++ b3 ++ u3 ++ pol2 ++ op3 ++ q

/-! ### Fields of the quadrant 2, ops 4 and 5 -/
/-- Bits [15:13]. -/
def QBFmt.d3 (w : BitVec 16) : BitVec 3 := w.extractLsb' 13 3
/-- Bits [12:7]. -/
def QBFmt.u6 (w : BitVec 16) : BitVec 6 := w.extractLsb' 7 6
/-- Bits [6:5]. -/
def QBFmt.pol2 (w : BitVec 16) : BitVec 2 := w.extractLsb' 5 2
/-- Bits [4:2]. -/
def QBFmt.op3 (w : BitVec 16) : BitVec 3 := w.extractLsb' 2 3
/-- The parcel with the given fields. -/
def QBFmt.pack (d3 : BitVec 3) (u6 : BitVec 6) (pol2 : BitVec 2) (op3 : BitVec 3) (q : BitVec 2) : BitVec 16 :=
  d3 ++ u6 ++ pol2 ++ op3 ++ q

/-! ### Fields of the quadrant 2, op 6 -/
/-- Bits [15:5]. -/
def QJFmt.off11 (w : BitVec 16) : BitVec 11 := w.extractLsb' 5 11
/-- Bits [4:2]. -/
def QJFmt.op3 (w : BitVec 16) : BitVec 3 := w.extractLsb' 2 3
/-- The parcel with the given fields. -/
def QJFmt.pack (off11 : BitVec 11) (op3 : BitVec 3) (q : BitVec 2) : BitVec 16 :=
  off11 ++ op3 ++ q

/-- Bits [6:2]: the major opcode (R46). -/
def majorOf (w : BitVec 32) : BitVec 5 := w.extractLsb' 2 5

/-- The assigned encodings of quadrant 0, before the value constraints of R61. -/
noncomputable def decodeQuadrant0 (w : BitVec 16) : Option Instr :=
  match (Q0Fmt.op4 w).toNat with
  | 1 =>
    some (.addN (Q0Fmt.d w) (Q0Fmt.b w))
  | 2 =>
    some (.subN (Q0Fmt.d w) (Q0Fmt.b w))
  | 3 =>
    some (.andN (Q0Fmt.d w) (Q0Fmt.b w))
  | 4 =>
    some (.orN (Q0Fmt.d w) (Q0Fmt.b w))
  | 5 =>
    some (.xorN (Q0Fmt.d w) (Q0Fmt.b w))
  | 6 =>
    some (.sllN (Q0Fmt.d w) (Q0Fmt.b w))
  | 7 =>
    some (.srlN (Q0Fmt.d w) (Q0Fmt.b w))
  | 8 =>
    some (.sraN (Q0Fmt.d w) (Q0Fmt.b w))
  | 9 =>
    some (.mulN (Q0Fmt.d w) (Q0Fmt.b w))
  | 10 =>
    if (Q0Fmt.d w) == 0#5 then some (.jrN (Q0Fmt.b w)) else none
  | 11 =>
    if (Q0Fmt.d w) == 0#5 then some (.callrN (Q0Fmt.b w)) else none
  | 12 =>
    if (Q0Fmt.d w) == 0#5 && (Q0Fmt.b w) == 0#5 then some (.retN) else none
  | _ => none

/-- The assigned encodings of quadrant 1, before the value constraints of R61. -/
noncomputable def decodeQuadrant1 (w : BitVec 16) : Option Instr :=
  match (Q1Fmt.op3 w).toNat with
  | 0 =>
    if (Q1Fmt.d w) == 0#5 && (Q1Fmt.i6 w) == 0#6 then some (.nopN) else
    some (.addiN (Q1Fmt.d w) (Q1Fmt.i6 w))
  | 1 =>
    some (.liN (Q1Fmt.d w) (Q1Fmt.i6 w))
  | 2 =>
    some (.slliN (Q1Fmt.d w) (Q1Fmt.i6 w))
  | 3 =>
    some (.srliN (Q1Fmt.d w) (Q1Fmt.i6 w))
  | 4 =>
    some (.sraiN (Q1Fmt.d w) (Q1Fmt.i6 w))
  | 5 =>
    some (.andiN (Q1Fmt.d w) (Q1Fmt.i6 w))
  | 6 =>
    if (Q1Fmt.d w) == 31#5 then some (.addiNSp (Q1Fmt.i6 w)) else none
  | _ => none

/-- The assigned encodings of quadrant 2, before the value constraints of R61. -/
noncomputable def decodeQuadrant2 (w : BitVec 16) : Option Instr :=
  match (QAFmt.op3 w).toNat with
  | 0 =>
    some (.ldDN (QAFmt.d3 w) (QAFmt.b3 w) (QAFmt.u3 w) (Policy.ofBits (QAFmt.pol2 w)))
  | 1 =>
    some (.stDN (QAFmt.d3 w) (QAFmt.b3 w) (QAFmt.u3 w) (Policy.ofBits (QAFmt.pol2 w)))
  | 2 =>
    some (.ldWN (QAFmt.d3 w) (QAFmt.b3 w) (QAFmt.u3 w) (Policy.ofBits (QAFmt.pol2 w)))
  | 3 =>
    some (.stWN (QAFmt.d3 w) (QAFmt.b3 w) (QAFmt.u3 w) (Policy.ofBits (QAFmt.pol2 w)))
  | 4 =>
    some (.ldDNSp (QBFmt.d3 w) (QBFmt.u6 w) (Policy.ofBits (QBFmt.pol2 w)))
  | 5 =>
    some (.stDNSp (QBFmt.d3 w) (QBFmt.u6 w) (Policy.ofBits (QBFmt.pol2 w)))
  | 6 =>
    some (.jN (QJFmt.off11 w))
  | _ => none

/-- The assigned encodings of major 0, before the value constraints of R61. -/
noncomputable def decodeMajor0 (w : BitVec 32) : Option Instr :=
  match (RFmt.minor7 w).toNat with
  | 0 =>
    some (.add (RFmt.b w) (RFmt.a w) (RFmt.d w))
  | 1 =>
    some (.sub (RFmt.b w) (RFmt.a w) (RFmt.d w))
  | 2 =>
    some (.and (RFmt.b w) (RFmt.a w) (RFmt.d w))
  | 3 =>
    some (.or (RFmt.b w) (RFmt.a w) (RFmt.d w))
  | 4 =>
    some (.xor (RFmt.b w) (RFmt.a w) (RFmt.d w))
  | 5 =>
    some (.sll (RFmt.b w) (RFmt.a w) (RFmt.d w))
  | 6 =>
    some (.srl (RFmt.b w) (RFmt.a w) (RFmt.d w))
  | 7 =>
    some (.sra (RFmt.b w) (RFmt.a w) (RFmt.d w))
  | 8 =>
    some (.slt (RFmt.b w) (RFmt.a w) (RFmt.d w))
  | 9 =>
    some (.sltu (RFmt.b w) (RFmt.a w) (RFmt.d w))
  | 10 =>
    some (.min (RFmt.b w) (RFmt.a w) (RFmt.d w))
  | 11 =>
    some (.max (RFmt.b w) (RFmt.a w) (RFmt.d w))
  | 12 =>
    some (.minu (RFmt.b w) (RFmt.a w) (RFmt.d w))
  | 13 =>
    some (.maxu (RFmt.b w) (RFmt.a w) (RFmt.d w))
  | 14 =>
    if (RFmt.b w) == 0#6 then some (.mv (RFmt.a w) (RFmt.d w)) else none
  | 16 =>
    some (.addw (RFmt.b w) (RFmt.a w) (RFmt.d w))
  | 17 =>
    some (.subw (RFmt.b w) (RFmt.a w) (RFmt.d w))
  | 18 =>
    some (.sllw (RFmt.b w) (RFmt.a w) (RFmt.d w))
  | 19 =>
    some (.srlw (RFmt.b w) (RFmt.a w) (RFmt.d w))
  | 20 =>
    some (.sraw (RFmt.b w) (RFmt.a w) (RFmt.d w))
  | 24 =>
    some (.sh1add (RFmt.b w) (RFmt.a w) (RFmt.d w))
  | 25 =>
    some (.sh2add (RFmt.b w) (RFmt.a w) (RFmt.d w))
  | 26 =>
    some (.sh3add (RFmt.b w) (RFmt.a w) (RFmt.d w))
  | 27 =>
    some (.sh4add (RFmt.b w) (RFmt.a w) (RFmt.d w))
  | 32 =>
    if (RFmt.b w) == 0#6 && (RFmt.a w).extractLsb' 2 4 == 0#4 then some (.lix ((RFmt.a w).extractLsb' 0 2) (RFmt.d w)) else none
  | 33 =>
    if (RFmt.b w) == 0#6 && (RFmt.a w).extractLsb' 2 4 == 0#4 then some (.lixu ((RFmt.a w).extractLsb' 0 2) (RFmt.d w)) else none
  | 34 =>
    if (RFmt.b w) == 0#6 && (RFmt.a w).extractLsb' 2 4 == 0#4 then some (.insh ((RFmt.a w).extractLsb' 0 2) (RFmt.d w)) else none
  | 112 =>
    if (RFmt.b w) == 0#6 && (RFmt.d w) == 0#6 then some (.jr (RFmt.a w)) else none
  | 113 =>
    if (RFmt.b w) == 0#6 && (RFmt.d w) == 0#6 then some (.callr (RFmt.a w)) else none
  | 114 =>
    if (RFmt.b w) == 0#6 && (RFmt.a w) == 0#6 && (RFmt.d w) == 0#6 then some (.ret) else none
  | 115 =>
    if (RFmt.b w) == 0#6 && (RFmt.a w) == 0#6 && (RFmt.d w) == 0#6 then some (.land) else none
  | 116 =>
    if (RFmt.d w) == 0#6 then some (.enter (RFmt.b w) (RFmt.a w)) else
    if (RFmt.d w).extractLsb' 5 1 == 1#1 then some (.enterFp (RFmt.b w) (RFmt.a w) ((RFmt.d w).extractLsb' 0 5)) else none
  | 117 =>
    if (RFmt.d w) == 0#6 then some (.leave (RFmt.b w) (RFmt.a w)) else
    if (RFmt.d w).extractLsb' 5 1 == 1#1 then some (.leaveFp (RFmt.b w) (RFmt.a w) ((RFmt.d w).extractLsb' 0 5)) else none
  | 118 =>
    if (RFmt.b w).extractLsb' 3 3 == 0#3 && (RFmt.a w) == 0#6 then some (.kpack ((RFmt.b w).extractLsb' 0 3) (RFmt.d w)) else none
  | 119 =>
    if (RFmt.b w).extractLsb' 3 3 == 0#3 && (RFmt.d w) == 0#6 then some (.kunpack ((RFmt.b w).extractLsb' 0 3) (RFmt.a w)) else none
  | _ => none

/-- The assigned encodings of major 1, before the value constraints of R61. -/
noncomputable def decodeMajor1 (w : BitVec 32) : Option Instr :=
  match (IFmt.f3 w).toNat with
  | 0 =>
    some (.addi (IFmt.imm12 w) (IFmt.a5 w) (IFmt.d5 w))
  | 1 =>
    some (.li (IFmt.imm12 w) (IFmt.a5 w) (IFmt.d5 w))
  | 2 =>
    some (.andi (IFmt.imm12 w) (IFmt.a5 w) (IFmt.d5 w))
  | 3 =>
    some (.ori (IFmt.imm12 w) (IFmt.a5 w) (IFmt.d5 w))
  | 4 =>
    some (.xori (IFmt.imm12 w) (IFmt.a5 w) (IFmt.d5 w))
  | 5 =>
    some (.slti (IFmt.imm12 w) (IFmt.a5 w) (IFmt.d5 w))
  | 6 =>
    some (.sltiu (IFmt.imm12 w) (IFmt.a5 w) (IFmt.d5 w))
  | 7 =>
    if (IFmt.imm12 w).extractLsb' 6 6 == 0#6 then some (.slli ((IFmt.imm12 w).extractLsb' 0 6) (IFmt.a5 w) (IFmt.d5 w)) else
    if (IFmt.imm12 w).extractLsb' 6 6 == 16#6 then some (.srli ((IFmt.imm12 w).extractLsb' 0 6) (IFmt.a5 w) (IFmt.d5 w)) else
    if (IFmt.imm12 w).extractLsb' 6 6 == 32#6 then some (.srai ((IFmt.imm12 w).extractLsb' 0 6) (IFmt.a5 w) (IFmt.d5 w)) else
    if (IFmt.imm12 w).extractLsb' 6 6 == 48#6 then some (.rori ((IFmt.imm12 w).extractLsb' 0 6) (IFmt.a5 w) (IFmt.d5 w)) else none
  | _ => none

/-- The assigned encodings of major 2, before the value constraints of R61. -/
noncomputable def decodeMajor2 (w : BitVec 32) : Option Instr :=
  match (RFmt.minor7 w).toNat with
  | 0 =>
    some (.mul (RFmt.b w) (RFmt.a w) (RFmt.d w))
  | 1 =>
    some (.mulh (RFmt.b w) (RFmt.a w) (RFmt.d w))
  | 2 =>
    some (.mulhu (RFmt.b w) (RFmt.a w) (RFmt.d w))
  | 3 =>
    some (.mulhsu (RFmt.b w) (RFmt.a w) (RFmt.d w))
  | 4 =>
    some (.mulw (RFmt.b w) (RFmt.a w) (RFmt.d w))
  | 8 =>
    some (.div (RFmt.b w) (RFmt.a w) (RFmt.d w))
  | 9 =>
    some (.divu (RFmt.b w) (RFmt.a w) (RFmt.d w))
  | 10 =>
    some (.rem (RFmt.b w) (RFmt.a w) (RFmt.d w))
  | 11 =>
    some (.remu (RFmt.b w) (RFmt.a w) (RFmt.d w))
  | 12 =>
    some (.divw (RFmt.b w) (RFmt.a w) (RFmt.d w))
  | 13 =>
    some (.divuw (RFmt.b w) (RFmt.a w) (RFmt.d w))
  | 14 =>
    some (.remw (RFmt.b w) (RFmt.a w) (RFmt.d w))
  | 15 =>
    some (.remuw (RFmt.b w) (RFmt.a w) (RFmt.d w))
  | _ => none

/-- The assigned encodings of major 3, before the value constraints of R61. -/
noncomputable def decodeMajor3 (w : BitVec 32) : Option Instr :=
  match (RFmt.minor7 w).toNat with
  | 0 =>
    if (RFmt.b w) == 0#6 then some (.clz (RFmt.a w) (RFmt.d w)) else none
  | 1 =>
    if (RFmt.b w) == 0#6 then some (.ctz (RFmt.a w) (RFmt.d w)) else none
  | 2 =>
    if (RFmt.b w) == 0#6 then some (.cpop (RFmt.a w) (RFmt.d w)) else none
  | 3 =>
    if (RFmt.b w) == 0#6 then some (.rev8 (RFmt.a w) (RFmt.d w)) else none
  | 4 =>
    if (RFmt.b w) == 0#6 then some (.brev (RFmt.a w) (RFmt.d w)) else none
  | 5 =>
    some (.andn (RFmt.b w) (RFmt.a w) (RFmt.d w))
  | 6 =>
    some (.orn (RFmt.b w) (RFmt.a w) (RFmt.d w))
  | 7 =>
    some (.xnor (RFmt.b w) (RFmt.a w) (RFmt.d w))
  | 8 =>
    some (.rol (RFmt.b w) (RFmt.a w) (RFmt.d w))
  | 9 =>
    some (.ror (RFmt.b w) (RFmt.a w) (RFmt.d w))
  | 10 =>
    some (.bset (RFmt.b w) (RFmt.a w) (RFmt.d w))
  | 11 =>
    some (.bclr (RFmt.b w) (RFmt.a w) (RFmt.d w))
  | 12 =>
    some (.binv (RFmt.b w) (RFmt.a w) (RFmt.d w))
  | 13 =>
    some (.bext (RFmt.b w) (RFmt.a w) (RFmt.d w))
  | 14 =>
    some (.ext (RFmt.b w) (RFmt.a w) (RFmt.d w))
  | 16 =>
    if (RFmt.b w) == 0#6 then some (.sextb (RFmt.a w) (RFmt.d w)) else none
  | 17 =>
    if (RFmt.b w) == 0#6 then some (.sexth (RFmt.a w) (RFmt.d w)) else none
  | 18 =>
    if (RFmt.b w) == 0#6 then some (.sextw (RFmt.a w) (RFmt.d w)) else none
  | 24 =>
    if (RFmt.b w) == 0#6 then some (.mod31 (RFmt.a w) (RFmt.d w)) else none
  | 25 =>
    if (RFmt.b w) == 0#6 then some (.div31 (RFmt.a w) (RFmt.d w)) else none
  | 26 =>
    if (RFmt.b w) == 0#6 then some (.bankof (RFmt.a w) (RFmt.d w)) else none
  | 27 =>
    if (RFmt.b w) == 0#6 then some (.rowof (RFmt.a w) (RFmt.d w)) else none
  | 28 =>
    some (.spa (RFmt.b w) (RFmt.a w) (RFmt.d w))
  | 29 =>
    some (.addm31 (RFmt.b w) (RFmt.a w) (RFmt.d w))
  | _ => none

/-- The assigned encodings of major 4, before the value constraints of R61. -/
noncomputable def decodeMajor4 (w : BitVec 32) : Option Instr :=
  match (XFmt.minor7 w).toNat with
  | 0 =>
    some (.oxl (XFmt.imm16 w) (XFmt.ox w))
  | 1 =>
    some (.oxh (XFmt.imm16 w) (XFmt.ox w))
  | _ => none

/-- The assigned encodings of major 5, before the value constraints of R61. -/
noncomputable def decodeMajor5 (w : BitVec 32) : Option Instr :=
  match (IFmt.f3 w).toNat with
  | 0 =>
    some (.beq (IFmt.imm12 w) (IFmt.a5 w) (IFmt.d5 w))
  | 1 =>
    some (.bne (IFmt.imm12 w) (IFmt.a5 w) (IFmt.d5 w))
  | 2 =>
    some (.blt (IFmt.imm12 w) (IFmt.a5 w) (IFmt.d5 w))
  | 3 =>
    some (.bge (IFmt.imm12 w) (IFmt.a5 w) (IFmt.d5 w))
  | 4 =>
    some (.bltu (IFmt.imm12 w) (IFmt.a5 w) (IFmt.d5 w))
  | 5 =>
    some (.bgeu (IFmt.imm12 w) (IFmt.a5 w) (IFmt.d5 w))
  | 6 =>
    if (IFmt.a5 w) == 0#5 && (IFmt.d5 w) == 0#5 then some (.bnr (IFmt.imm12 w)) else
    if (IFmt.a5 w) == 0#5 && (IFmt.d5 w) == 1#5 then some (.brd (IFmt.imm12 w)) else none
  | 7 =>
    if (IFmt.a5 w) == 0#5 && (IFmt.d5 w) == 0#5 then some (.j (IFmt.imm12 w)) else none
  | _ => none

/-- The assigned encodings of major 6, before the value constraints of R61. -/
noncomputable def decodeMajor6 (w : BitVec 32) : Option Instr :=
  some (.call (JFmt.off25 w))

/-- The assigned encodings of major 7, before the value constraints of R61. -/
noncomputable def decodeMajor7 (w : BitVec 32) : Option Instr :=
  match (RFmt.minor7 w).toNat with
  | 0 =>
    some (.fadd (RFmt.b w) (RFmt.a w) (RFmt.d w))
  | 1 =>
    some (.fsub (RFmt.b w) (RFmt.a w) (RFmt.d w))
  | 2 =>
    some (.fmul (RFmt.b w) (RFmt.a w) (RFmt.d w))
  | 3 =>
    some (.fdiv (RFmt.b w) (RFmt.a w) (RFmt.d w))
  | 4 =>
    some (.fmin (RFmt.b w) (RFmt.a w) (RFmt.d w))
  | 5 =>
    some (.fmax (RFmt.b w) (RFmt.a w) (RFmt.d w))
  | 6 =>
    some (.fmadd (RFmt.b w) (RFmt.a w) (RFmt.d w))
  | 7 =>
    some (.fmsub (RFmt.b w) (RFmt.a w) (RFmt.d w))
  | 8 =>
    if (RFmt.b w).extractLsb' 3 3 == 0#3 then some (.fsqrt ((RFmt.b w).extractLsb' 0 3) (RFmt.a w) (RFmt.d w)) else none
  | 9 =>
    some (.fsgnj (RFmt.b w) (RFmt.a w) (RFmt.d w))
  | 10 =>
    some (.fsgnjn (RFmt.b w) (RFmt.a w) (RFmt.d w))
  | 11 =>
    some (.fsgnjx (RFmt.b w) (RFmt.a w) (RFmt.d w))
  | 12 =>
    some (.feq (RFmt.b w) (RFmt.a w) (RFmt.d w))
  | 13 =>
    some (.flt (RFmt.b w) (RFmt.a w) (RFmt.d w))
  | 14 =>
    some (.fle (RFmt.b w) (RFmt.a w) (RFmt.d w))
  | 15 =>
    if (RFmt.b w) == 0#6 then some (.fclass (RFmt.a w) (RFmt.d w)) else none
  | 16 =>
    if (RFmt.b w).extractLsb' 3 3 == 0#3 then some (.ftoi ((RFmt.b w).extractLsb' 0 3) (RFmt.a w) (RFmt.d w)) else none
  | 17 =>
    if (RFmt.b w).extractLsb' 3 3 == 0#3 then some (.ftou ((RFmt.b w).extractLsb' 0 3) (RFmt.a w) (RFmt.d w)) else none
  | 18 =>
    if (RFmt.b w).extractLsb' 3 3 == 0#3 then some (.ftol ((RFmt.b w).extractLsb' 0 3) (RFmt.a w) (RFmt.d w)) else none
  | 19 =>
    if (RFmt.b w).extractLsb' 3 3 == 0#3 then some (.ftoul ((RFmt.b w).extractLsb' 0 3) (RFmt.a w) (RFmt.d w)) else none
  | 20 =>
    if (RFmt.b w).extractLsb' 3 3 == 0#3 then some (.itof ((RFmt.b w).extractLsb' 0 3) (RFmt.a w) (RFmt.d w)) else none
  | 21 =>
    if (RFmt.b w).extractLsb' 3 3 == 0#3 then some (.utof ((RFmt.b w).extractLsb' 0 3) (RFmt.a w) (RFmt.d w)) else none
  | 22 =>
    if (RFmt.b w).extractLsb' 3 3 == 0#3 then some (.ltof ((RFmt.b w).extractLsb' 0 3) (RFmt.a w) (RFmt.d w)) else none
  | 23 =>
    if (RFmt.b w).extractLsb' 3 3 == 0#3 then some (.ultof ((RFmt.b w).extractLsb' 0 3) (RFmt.a w) (RFmt.d w)) else none
  | 24 =>
    if (RFmt.b w).extractLsb' 3 3 == 0#3 then some (.ftobf ((RFmt.b w).extractLsb' 0 3) (RFmt.a w) (RFmt.d w)) else none
  | 25 =>
    if (RFmt.b w) == 0#6 then some (.bftof (RFmt.a w) (RFmt.d w)) else none
  | _ => none

/-- The assigned encodings of major 8, before the value constraints of R61. -/
noncomputable def decodeMajor8 (w : BitVec 32) : Option Instr :=
  match (MFmt.wbit w).toNat with
  | 0 =>
    some (.ldW (MFmt.imm12 w) (Policy.ofBits (MFmt.pol18 w)) (MFmt.a5 w) (MFmt.d5 w))
  | 1 =>
    some (.ldD (MFmt.imm12 w) (Policy.ofBits (MFmt.pol18 w)) (MFmt.a5 w) (MFmt.d5 w))
  | _ => none

/-- The assigned encodings of major 9, before the value constraints of R61. -/
noncomputable def decodeMajor9 (w : BitVec 32) : Option Instr :=
  match (MFmt.wbit w).toNat with
  | 0 =>
    some (.stW (MFmt.imm12 w) (Policy.ofBits (MFmt.pol18 w)) (MFmt.a5 w) (MFmt.d5 w))
  | 1 =>
    some (.stD (MFmt.imm12 w) (Policy.ofBits (MFmt.pol18 w)) (MFmt.a5 w) (MFmt.d5 w))
  | _ => none

/-- The assigned encodings of major 10, before the value constraints of R61. -/
noncomputable def decodeMajor10 (w : BitVec 32) : Option Instr :=
  if (MNFmt.sbit w) == 0#1 && (MNFmt.cbit w) == 0#1 then some (.ldMn (Policy.ofBits (MNFmt.pol w)) (MNFmt.qbit w) (MNFmt.sz w) (MNFmt.off5 w) (MNFmt.a w) (MNFmt.d w)) else
  if (MNFmt.sbit w) == 1#1 && (MNFmt.sz w).extractLsb' 2 1 == 0#1 && (MNFmt.cbit w) == 0#1 then some (.stMn (Policy.ofBits (MNFmt.pol w)) (MNFmt.qbit w) ((MNFmt.sz w).extractLsb' 0 2) (MNFmt.off5 w) (MNFmt.a w) (MNFmt.d w)) else
  if (MNFmt.sbit w) == 0#1 && (MNFmt.qbit w) == 0#1 && (MNFmt.cbit w) == 1#1 then some (.ldSp (Policy.ofBits (MNFmt.pol w)) (MNFmt.sz w) (MNFmt.off5 w) (MNFmt.a w) (MNFmt.d w)) else
  if (MNFmt.sbit w) == 1#1 && (MNFmt.qbit w) == 0#1 && (MNFmt.sz w).extractLsb' 2 1 == 0#1 && (MNFmt.cbit w) == 1#1 then some (.stSp (Policy.ofBits (MNFmt.pol w)) ((MNFmt.sz w).extractLsb' 0 2) (MNFmt.off5 w) (MNFmt.a w) (MNFmt.d w)) else
  if (MNFmt.sbit w) == 0#1 && (MNFmt.qbit w) == 1#1 && (MNFmt.cbit w) == 1#1 then some (.ldVm (Policy.ofBits (MNFmt.pol w)) (MNFmt.sz w) (MNFmt.off5 w) (MNFmt.a w) (MNFmt.d w)) else
  if (MNFmt.sbit w) == 1#1 && (MNFmt.qbit w) == 1#1 && (MNFmt.sz w).extractLsb' 2 1 == 0#1 && (MNFmt.cbit w) == 1#1 then some (.stVm (Policy.ofBits (MNFmt.pol w)) ((MNFmt.sz w).extractLsb' 0 2) (MNFmt.off5 w) (MNFmt.a w) (MNFmt.d w)) else
  none

/-- The assigned encodings of major 11, before the value constraints of R61. -/
noncomputable def decodeMajor11 (w : BitVec 32) : Option Instr :=
  match (RPFmt.minor5 w).toNat with
  | 0 | 1 =>
    if (RPFmt.b w).extractLsb' 5 1 == 0#1 then some (.amoSwap (Policy.ofBits (RPFmt.pol w)) ((RPFmt.minor5 w).extractLsb' 0 1) ((RPFmt.b w).extractLsb' 0 5) (RPFmt.a w) (RPFmt.d w)) else none
  | 2 | 3 =>
    if (RPFmt.b w).extractLsb' 5 1 == 0#1 && (RPFmt.d w).extractLsb' 0 1 == 0#1 then some (.amoCas (Policy.ofBits (RPFmt.pol w)) ((RPFmt.minor5 w).extractLsb' 0 1) ((RPFmt.b w).extractLsb' 0 5) (RPFmt.a w) ((RPFmt.d w).extractLsb' 1 5)) else none
  | 4 | 5 =>
    if (RPFmt.b w).extractLsb' 5 1 == 0#1 then some (.amoAdd (Policy.ofBits (RPFmt.pol w)) ((RPFmt.minor5 w).extractLsb' 0 1) ((RPFmt.b w).extractLsb' 0 5) (RPFmt.a w) (RPFmt.d w)) else none
  | 6 | 7 =>
    if (RPFmt.b w).extractLsb' 5 1 == 0#1 then some (.amoAnd (Policy.ofBits (RPFmt.pol w)) ((RPFmt.minor5 w).extractLsb' 0 1) ((RPFmt.b w).extractLsb' 0 5) (RPFmt.a w) (RPFmt.d w)) else none
  | 8 | 9 =>
    if (RPFmt.b w).extractLsb' 5 1 == 0#1 then some (.amoOr (Policy.ofBits (RPFmt.pol w)) ((RPFmt.minor5 w).extractLsb' 0 1) ((RPFmt.b w).extractLsb' 0 5) (RPFmt.a w) (RPFmt.d w)) else none
  | 10 | 11 =>
    if (RPFmt.b w).extractLsb' 5 1 == 0#1 then some (.amoXor (Policy.ofBits (RPFmt.pol w)) ((RPFmt.minor5 w).extractLsb' 0 1) ((RPFmt.b w).extractLsb' 0 5) (RPFmt.a w) (RPFmt.d w)) else none
  | 12 | 13 =>
    if (RPFmt.b w).extractLsb' 5 1 == 0#1 then some (.amoMin (Policy.ofBits (RPFmt.pol w)) ((RPFmt.minor5 w).extractLsb' 0 1) ((RPFmt.b w).extractLsb' 0 5) (RPFmt.a w) (RPFmt.d w)) else none
  | 14 | 15 =>
    if (RPFmt.b w).extractLsb' 5 1 == 0#1 then some (.amoMax (Policy.ofBits (RPFmt.pol w)) ((RPFmt.minor5 w).extractLsb' 0 1) ((RPFmt.b w).extractLsb' 0 5) (RPFmt.a w) (RPFmt.d w)) else none
  | 16 | 17 =>
    if (RPFmt.b w).extractLsb' 5 1 == 0#1 then some (.amoMinu (Policy.ofBits (RPFmt.pol w)) ((RPFmt.minor5 w).extractLsb' 0 1) ((RPFmt.b w).extractLsb' 0 5) (RPFmt.a w) (RPFmt.d w)) else none
  | 18 | 19 =>
    if (RPFmt.b w).extractLsb' 5 1 == 0#1 then some (.amoMaxu (Policy.ofBits (RPFmt.pol w)) ((RPFmt.minor5 w).extractLsb' 0 1) ((RPFmt.b w).extractLsb' 0 5) (RPFmt.a w) (RPFmt.d w)) else none
  | 20 | 21 =>
    if (RPFmt.b w) == 0#6 then some (.updAdd (Policy.ofBits (RPFmt.pol w)) ((RPFmt.minor5 w).extractLsb' 0 1) (RPFmt.a w) (RPFmt.d w)) else none
  | 22 | 23 =>
    if (RPFmt.b w) == 0#6 then some (.updMin (Policy.ofBits (RPFmt.pol w)) ((RPFmt.minor5 w).extractLsb' 0 1) (RPFmt.a w) (RPFmt.d w)) else none
  | 24 | 25 =>
    if (RPFmt.b w) == 0#6 then some (.updMax (Policy.ofBits (RPFmt.pol w)) ((RPFmt.minor5 w).extractLsb' 0 1) (RPFmt.a w) (RPFmt.d w)) else none
  | 26 =>
    if (RPFmt.b w).extractLsb' 5 1 == 0#1 then some (.amoSpSwap (Policy.ofBits (RPFmt.pol w)) ((RPFmt.b w).extractLsb' 0 5) (RPFmt.a w) (RPFmt.d w)) else none
  | 27 =>
    if (RPFmt.b w).extractLsb' 5 1 == 0#1 && (RPFmt.d w).extractLsb' 0 1 == 0#1 then some (.amoSpCas (Policy.ofBits (RPFmt.pol w)) ((RPFmt.b w).extractLsb' 0 5) (RPFmt.a w) ((RPFmt.d w).extractLsb' 1 5)) else none
  | 28 =>
    if (RPFmt.b w).extractLsb' 5 1 == 0#1 then some (.amoSpAdd (Policy.ofBits (RPFmt.pol w)) ((RPFmt.b w).extractLsb' 0 5) (RPFmt.a w) (RPFmt.d w)) else none
  | 29 =>
    if (RPFmt.b w).extractLsb' 5 1 == 0#1 then some (.amoVmSwap (Policy.ofBits (RPFmt.pol w)) ((RPFmt.b w).extractLsb' 0 5) (RPFmt.a w) (RPFmt.d w)) else none
  | 30 =>
    if (RPFmt.b w).extractLsb' 5 1 == 0#1 && (RPFmt.d w).extractLsb' 0 1 == 0#1 then some (.amoVmCas (Policy.ofBits (RPFmt.pol w)) ((RPFmt.b w).extractLsb' 0 5) (RPFmt.a w) ((RPFmt.d w).extractLsb' 1 5)) else none
  | 31 =>
    if (RPFmt.b w).extractLsb' 5 1 == 0#1 then some (.amoVmAdd (Policy.ofBits (RPFmt.pol w)) ((RPFmt.b w).extractLsb' 0 5) (RPFmt.a w) (RPFmt.d w)) else none
  | _ => none

/-- The assigned encodings of major 12, before the value constraints of R61. -/
noncomputable def decodeMajor12 (w : BitVec 32) : Option Instr :=
  match (RPFmt.minor5 w).toNat with
  | 0 =>
    if (RPFmt.b w).extractLsb' 5 1 == 0#1 && (RPFmt.a w) == 0#6 && (RPFmt.d w) == 0#6 then some (.fenceS (Policy.ofBits (RPFmt.pol w)) ((RPFmt.b w).extractLsb' 0 5)) else none
  | 1 =>
    if (RPFmt.pol w) == 0#2 && (RPFmt.b w) == 0#6 && (RPFmt.a w) == 0#6 && (RPFmt.d w) == 0#6 then some (.fenceI) else none
  | 2 =>
    if (RPFmt.b w).extractLsb' 5 1 == 0#1 then some (.stRelW (Policy.ofBits (RPFmt.pol w)) ((RPFmt.b w).extractLsb' 0 5) (RPFmt.a w) (RPFmt.d w)) else none
  | 3 =>
    if (RPFmt.b w).extractLsb' 5 1 == 0#1 then some (.stRelD (Policy.ofBits (RPFmt.pol w)) ((RPFmt.b w).extractLsb' 0 5) (RPFmt.a w) (RPFmt.d w)) else none
  | 4 =>
    if (RPFmt.b w) == 0#6 then some (.ldff (Policy.ofBits (RPFmt.pol w)) (RPFmt.a w) (RPFmt.d w)) else none
  | 5 =>
    if (RPFmt.b w) == 0#6 then some (.ldfe (Policy.ofBits (RPFmt.pol w)) (RPFmt.a w) (RPFmt.d w)) else none
  | 6 =>
    if (RPFmt.b w) == 0#6 then some (.stef (Policy.ofBits (RPFmt.pol w)) (RPFmt.a w) (RPFmt.d w)) else none
  | 7 =>
    if (RPFmt.b w) == 0#6 then some (.stff (Policy.ofBits (RPFmt.pol w)) (RPFmt.a w) (RPFmt.d w)) else none
  | 8 =>
    if (RPFmt.pol w) == 0#2 && (RPFmt.b w) == 0#6 && (RPFmt.d w) == 0#6 then some (.feEmpty (RPFmt.a w)) else none
  | 9 =>
    if (RPFmt.b w) == 0#6 then some (.feTest (Policy.ofBits (RPFmt.pol w)) (RPFmt.a w) (RPFmt.d w)) else none
  | 10 =>
    some (.ldffPlace (Policy.ofBits (RPFmt.pol w)) (RPFmt.b w) (RPFmt.a w) (RPFmt.d w))
  | 11 =>
    some (.ldfePlace (Policy.ofBits (RPFmt.pol w)) (RPFmt.b w) (RPFmt.a w) (RPFmt.d w))
  | 12 =>
    some (.stefPlace (Policy.ofBits (RPFmt.pol w)) (RPFmt.b w) (RPFmt.a w) (RPFmt.d w))
  | 13 =>
    some (.stffPlace (Policy.ofBits (RPFmt.pol w)) (RPFmt.b w) (RPFmt.a w) (RPFmt.d w))
  | 14 =>
    some (.ldSpDPlace (Policy.ofBits (RPFmt.pol w)) (RPFmt.b w) (RPFmt.a w) (RPFmt.d w))
  | 15 =>
    some (.stSpDPlace (Policy.ofBits (RPFmt.pol w)) (RPFmt.b w) (RPFmt.a w) (RPFmt.d w))
  | 16 =>
    some (.ldVmDPlace (Policy.ofBits (RPFmt.pol w)) (RPFmt.b w) (RPFmt.a w) (RPFmt.d w))
  | 17 =>
    some (.stVmDPlace (Policy.ofBits (RPFmt.pol w)) (RPFmt.b w) (RPFmt.a w) (RPFmt.d w))
  | 18 =>
    if (RPFmt.b w) == 0#6 && (RPFmt.d w) == 0#6 then some (.park (Policy.ofBits (RPFmt.pol w)) (RPFmt.a w)) else none
  | 19 =>
    if (RPFmt.b w) == 0#6 then some (.pin (Policy.ofBits (RPFmt.pol w)) (RPFmt.a w) (RPFmt.d w)) else none
  | 20 =>
    if (RPFmt.pol w) == 0#2 && (RPFmt.b w) == 0#6 && (RPFmt.d w) == 0#6 then some (.unpin (RPFmt.a w)) else none
  | 21 =>
    if (RPFmt.pol w) == 0#2 && (RPFmt.b w) == 0#6 && (RPFmt.a w) == 0#6 && (RPFmt.d w) == 0#6 then some (.unpinAll) else none
  | 22 =>
    if (RPFmt.pol w) == 0#2 && (RPFmt.b w) == 0#6 && (RPFmt.d w) == 0#6 then some (.pf (RPFmt.a w)) else none
  | 23 =>
    if (RPFmt.b w).extractLsb' 2 4 == 0#4 && (RPFmt.a w) == 0#6 then some (.hbarArr (Policy.ofBits (RPFmt.pol w)) ((RPFmt.b w).extractLsb' 0 2) (RPFmt.d w)) else none
  | 24 =>
    if (RPFmt.b w).extractLsb' 2 4 == 0#4 then some (.hbarWt (Policy.ofBits (RPFmt.pol w)) ((RPFmt.b w).extractLsb' 0 2) (RPFmt.a w) (RPFmt.d w)) else none
  | _ => none

/-- The assigned encodings of major 13, before the value constraints of R61. -/
noncomputable def decodeMajor13 (w : BitVec 32) : Option Instr :=
  match (RPFmt.minor5 w).toNat with
  | 0 =>
    if (RPFmt.pol w) == 0#2 && (RPFmt.b w).extractLsb' 4 2 == 0#2 && (RPFmt.d w) == 0#6 then some (.arm ((RPFmt.b w).extractLsb' 3 1) ((RPFmt.b w).extractLsb' 0 3) (RPFmt.a w)) else none
  | 1 =>
    if (RPFmt.pol w) == 0#2 && (RPFmt.b w).extractLsb' 5 1 == 0#1 && (RPFmt.b w).extractLsb' 3 1 == 0#1 && (RPFmt.d w) == 0#6 then some (.disarm ((RPFmt.b w).extractLsb' 4 1) ((RPFmt.b w).extractLsb' 0 3) (RPFmt.a w)) else none
  | 2 =>
    if (RPFmt.pol w) == 0#2 && (RPFmt.b w).extractLsb' 5 1 == 0#1 then some (.mint ((RPFmt.b w).extractLsb' 3 2) ((RPFmt.b w).extractLsb' 0 3) (RPFmt.a w) (RPFmt.d w)) else none
  | 3 =>
    if (RPFmt.d w).extractLsb' 3 3 == 0#3 then some (.snd (Policy.ofBits (RPFmt.pol w)) (RPFmt.b w) (RPFmt.a w) ((RPFmt.d w).extractLsb' 0 3)) else none
  | 4 =>
    if (RPFmt.b w) == 0#6 then some (.rcv (Policy.ofBits (RPFmt.pol w)) (RPFmt.a w) (RPFmt.d w)) else none
  | 5 =>
    if (RPFmt.pol w) == 0#2 && (RPFmt.b w) == 0#6 && (RPFmt.a w).extractLsb' 1 5 == 0#5 then some (.fabst ((RPFmt.a w).extractLsb' 0 1) (RPFmt.d w)) else none
  | 8 | 9 | 10 | 11 | 12 | 13 | 14 | 15 =>
    some (.sndA (Policy.ofBits (RPFmt.pol w)) ((RPFmt.minor5 w).extractLsb' 0 3) (RPFmt.b w) (RPFmt.a w) (RPFmt.d w))
  | _ => none

/-- The assigned encodings of major 14, before the value constraints of R61. -/
noncomputable def decodeMajor14 (w : BitVec 32) : Option Instr :=
  match (RPFmt.minor5 w).toNat with
  | 0 =>
    if (RPFmt.pol w) == 0#2 && (RPFmt.b w) == 0#6 && (RPFmt.d w) == 0#6 then some (.yield (RPFmt.a w)) else none
  | 1 =>
    if (RPFmt.pol w) == 0#2 && (RPFmt.b w) == 0#6 then some (.sleep (RPFmt.a w) (RPFmt.d w)) else none
  | 2 =>
    if (RPFmt.pol w) == 0#2 && (RPFmt.b w) == 0#6 && (RPFmt.d w) == 0#6 then some (.wake (RPFmt.a w)) else none
  | 3 =>
    if (RPFmt.b w) == 0#6 && (RPFmt.a w) == 0#6 && (RPFmt.d w) == 0#6 then some (.hold (Policy.ofBits (RPFmt.pol w))) else none
  | 4 =>
    if (RPFmt.pol w) == 0#2 && (RPFmt.b w) == 0#6 && (RPFmt.a w) == 0#6 && (RPFmt.d w) == 0#6 then some (.exit) else none
  | 5 =>
    if (RPFmt.pol w) == 0#2 && (RPFmt.b w) == 0#6 && (RPFmt.a w) == 0#6 then some (.selfid (RPFmt.d w)) else none
  | 6 =>
    if (RPFmt.pol w) == 0#2 && (RPFmt.b w) == 0#6 && (RPFmt.a w).extractLsb' 1 5 == 0#5 then some (.rdskip ((RPFmt.a w).extractLsb' 0 1) (RPFmt.d w)) else none
  | 28 | 29 | 30 | 31 =>
    some (.hint (Policy.ofBits (RPFmt.pol w)) ((RPFmt.minor5 w).extractLsb' 0 2) (RPFmt.b w) (RPFmt.a w) (RPFmt.d w))
  | _ => none

/-- The assigned encodings of major 15, before the value constraints of R61. -/
noncomputable def decodeMajor15 (w : BitVec 32) : Option Instr :=
  match (RPFmt.minor5 w).toNat with
  | 0 =>
    if (RPFmt.d w) == 0#6 then some (.launch (Policy.ofBits (RPFmt.pol w)) (RPFmt.b w) (RPFmt.a w)) else none
  | 1 =>
    if (RPFmt.d w).extractLsb' 5 1 == 1#1 && (RPFmt.d w).extractLsb' 0 1 == 0#1 then some (.cast (Policy.ofBits (RPFmt.pol w)) (RPFmt.b w) (RPFmt.a w) ((RPFmt.d w).extractLsb' 1 4)) else none
  | 2 =>
    if (RPFmt.b w) == 0#6 && (RPFmt.a w).extractLsb' 5 1 == 1#1 && (RPFmt.a w).extractLsb' 0 1 == 0#1 && (RPFmt.d w) == 0#6 then some (.recast (Policy.ofBits (RPFmt.pol w)) ((RPFmt.a w).extractLsb' 1 4)) else none
  | 3 =>
    if (RPFmt.pol w) == 0#2 && (RPFmt.b w) == 0#6 then some (.place (RPFmt.a w) (RPFmt.d w)) else none
  | 4 =>
    if (RPFmt.pol w) == 0#2 && (RPFmt.b w) == 0#6 && (RPFmt.a w) == 0#6 then some (.placeSelf (RPFmt.d w)) else none
  | 5 =>
    if (RPFmt.pol w) == 0#2 && (RPFmt.b w) == 0#6 && (RPFmt.a w) == 0#6 then some (.placeLoad (RPFmt.d w)) else none
  | _ => none

/-- The assigned encodings of major 16, before the value constraints of R61. -/
noncomputable def decodeMajor16 (w : BitVec 32) : Option Instr :=
  match (VFmt.minor6 w).toNat with
  | 0 =>
    some (.vfadd (Policy.ofBits (VFmt.pol24 w)) (VFmt.hold w) (VFmt.vb w) (VFmt.a5 w) (VFmt.d5 w))
  | 1 =>
    some (.vfsub (Policy.ofBits (VFmt.pol24 w)) (VFmt.hold w) (VFmt.vb w) (VFmt.a5 w) (VFmt.d5 w))
  | 2 =>
    some (.vfmul (Policy.ofBits (VFmt.pol24 w)) (VFmt.hold w) (VFmt.vb w) (VFmt.a5 w) (VFmt.d5 w))
  | 3 =>
    some (.vfmin (Policy.ofBits (VFmt.pol24 w)) (VFmt.hold w) (VFmt.vb w) (VFmt.a5 w) (VFmt.d5 w))
  | 4 =>
    some (.vfmax (Policy.ofBits (VFmt.pol24 w)) (VFmt.hold w) (VFmt.vb w) (VFmt.a5 w) (VFmt.d5 w))
  | 5 =>
    if (VFmt.vb w) == 0#5 then some (.vfabs (Policy.ofBits (VFmt.pol24 w)) (VFmt.hold w) (VFmt.a5 w) (VFmt.d5 w)) else none
  | 6 =>
    if (VFmt.vb w) == 0#5 then some (.vfneg (Policy.ofBits (VFmt.pol24 w)) (VFmt.hold w) (VFmt.a5 w) (VFmt.d5 w)) else none
  | 8 =>
    some (.vfma (Policy.ofBits (VFmt.pol24 w)) (VFmt.hold w) (VFmt.vb w) (VFmt.a5 w) (VFmt.d5 w))
  | 9 =>
    some (.vfms (Policy.ofBits (VFmt.pol24 w)) (VFmt.hold w) (VFmt.vb w) (VFmt.a5 w) (VFmt.d5 w))
  | 10 =>
    some (.vfma4 (Policy.ofBits (VFmt.pol24 w)) (VFmt.hold w) (VFmt.vb w) (VFmt.a5 w) (VFmt.d5 w))
  | 16 =>
    if (VFmt.d5 w).extractLsb' 3 2 == 0#2 then some (.vfeq (Policy.ofBits (VFmt.pol24 w)) (VFmt.hold w) (VFmt.vb w) (VFmt.a5 w) ((VFmt.d5 w).extractLsb' 0 3)) else none
  | 17 =>
    if (VFmt.d5 w).extractLsb' 3 2 == 0#2 then some (.vflt (Policy.ofBits (VFmt.pol24 w)) (VFmt.hold w) (VFmt.vb w) (VFmt.a5 w) ((VFmt.d5 w).extractLsb' 0 3)) else none
  | 18 =>
    if (VFmt.d5 w).extractLsb' 3 2 == 0#2 then some (.vfle (Policy.ofBits (VFmt.pol24 w)) (VFmt.hold w) (VFmt.vb w) (VFmt.a5 w) ((VFmt.d5 w).extractLsb' 0 3)) else none
  | _ => none

/-- The assigned encodings of major 17, before the value constraints of R61. -/
noncomputable def decodeMajor17 (w : BitVec 32) : Option Instr :=
  match (VFmt.minor6 w).toNat with
  | 0 | 16 | 32 =>
    some (.vadd ((VFmt.minor6 w).extractLsb' 4 2) (Policy.ofBits (VFmt.pol24 w)) (VFmt.hold w) (VFmt.vb w) (VFmt.a5 w) (VFmt.d5 w))
  | 1 | 17 | 33 =>
    some (.vsub ((VFmt.minor6 w).extractLsb' 4 2) (Policy.ofBits (VFmt.pol24 w)) (VFmt.hold w) (VFmt.vb w) (VFmt.a5 w) (VFmt.d5 w))
  | 2 | 18 | 34 =>
    some (.vmul ((VFmt.minor6 w).extractLsb' 4 2) (Policy.ofBits (VFmt.pol24 w)) (VFmt.hold w) (VFmt.vb w) (VFmt.a5 w) (VFmt.d5 w))
  | 3 | 19 | 35 =>
    some (.vsll ((VFmt.minor6 w).extractLsb' 4 2) (Policy.ofBits (VFmt.pol24 w)) (VFmt.hold w) (VFmt.vb w) (VFmt.a5 w) (VFmt.d5 w))
  | 4 | 20 | 36 =>
    some (.vsrl ((VFmt.minor6 w).extractLsb' 4 2) (Policy.ofBits (VFmt.pol24 w)) (VFmt.hold w) (VFmt.vb w) (VFmt.a5 w) (VFmt.d5 w))
  | 5 | 21 | 37 =>
    some (.vsra ((VFmt.minor6 w).extractLsb' 4 2) (Policy.ofBits (VFmt.pol24 w)) (VFmt.hold w) (VFmt.vb w) (VFmt.a5 w) (VFmt.d5 w))
  | 6 | 22 | 38 =>
    some (.vmin ((VFmt.minor6 w).extractLsb' 4 2) (Policy.ofBits (VFmt.pol24 w)) (VFmt.hold w) (VFmt.vb w) (VFmt.a5 w) (VFmt.d5 w))
  | 7 | 23 | 39 =>
    some (.vmax ((VFmt.minor6 w).extractLsb' 4 2) (Policy.ofBits (VFmt.pol24 w)) (VFmt.hold w) (VFmt.vb w) (VFmt.a5 w) (VFmt.d5 w))
  | 8 | 24 | 40 =>
    some (.vminu ((VFmt.minor6 w).extractLsb' 4 2) (Policy.ofBits (VFmt.pol24 w)) (VFmt.hold w) (VFmt.vb w) (VFmt.a5 w) (VFmt.d5 w))
  | 9 | 25 | 41 =>
    some (.vmaxu ((VFmt.minor6 w).extractLsb' 4 2) (Policy.ofBits (VFmt.pol24 w)) (VFmt.hold w) (VFmt.vb w) (VFmt.a5 w) (VFmt.d5 w))
  | 10 =>
    some (.vand (Policy.ofBits (VFmt.pol24 w)) (VFmt.hold w) (VFmt.vb w) (VFmt.a5 w) (VFmt.d5 w))
  | 11 =>
    some (.vor (Policy.ofBits (VFmt.pol24 w)) (VFmt.hold w) (VFmt.vb w) (VFmt.a5 w) (VFmt.d5 w))
  | 12 =>
    some (.vxor (Policy.ofBits (VFmt.pol24 w)) (VFmt.hold w) (VFmt.vb w) (VFmt.a5 w) (VFmt.d5 w))
  | 13 =>
    some (.vandn (Policy.ofBits (VFmt.pol24 w)) (VFmt.hold w) (VFmt.vb w) (VFmt.a5 w) (VFmt.d5 w))
  | 48 =>
    if (VFmt.d5 w).extractLsb' 3 2 == 0#2 then some (.vieq (Policy.ofBits (VFmt.pol24 w)) (VFmt.hold w) (VFmt.vb w) (VFmt.a5 w) ((VFmt.d5 w).extractLsb' 0 3)) else none
  | 49 =>
    if (VFmt.d5 w).extractLsb' 3 2 == 0#2 then some (.vilt (Policy.ofBits (VFmt.pol24 w)) (VFmt.hold w) (VFmt.vb w) (VFmt.a5 w) ((VFmt.d5 w).extractLsb' 0 3)) else none
  | 50 =>
    if (VFmt.d5 w).extractLsb' 3 2 == 0#2 then some (.viltu (Policy.ofBits (VFmt.pol24 w)) (VFmt.hold w) (VFmt.vb w) (VFmt.a5 w) ((VFmt.d5 w).extractLsb' 0 3)) else none
  | 51 =>
    if (VFmt.vb w) == 0#5 then some (.vbcast (Policy.ofBits (VFmt.pol24 w)) (VFmt.hold w) (VFmt.a5 w) (VFmt.d5 w)) else none
  | 52 =>
    if (VFmt.vb w) == 0#5 && (VFmt.a5 w).extractLsb' 3 2 == 0#2 then some (.kget (Policy.ofBits (VFmt.pol24 w)) (VFmt.hold w) ((VFmt.a5 w).extractLsb' 0 3) (VFmt.d5 w)) else none
  | 53 =>
    if (VFmt.vb w) == 0#5 && (VFmt.d5 w).extractLsb' 3 2 == 0#2 then some (.kset (Policy.ofBits (VFmt.pol24 w)) (VFmt.hold w) (VFmt.a5 w) ((VFmt.d5 w).extractLsb' 0 3)) else none
  | _ => none

/-- The assigned encodings of major 18, before the value constraints of R61. -/
noncomputable def decodeMajor18 (w : BitVec 32) : Option Instr :=
  match (VFmt.minor6 w).toNat with
  | 0 =>
    some (.vperm (Policy.ofBits (VFmt.pol24 w)) (VFmt.hold w) (VFmt.vb w) (VFmt.a5 w) (VFmt.d5 w))
  | 1 =>
    some (.vperm2 (Policy.ofBits (VFmt.pol24 w)) (VFmt.hold w) (VFmt.vb w) (VFmt.a5 w) (VFmt.d5 w))
  | 2 =>
    if (VFmt.vb w).extractLsb' 4 1 == 0#1 then some (.vrot (Policy.ofBits (VFmt.pol24 w)) (VFmt.hold w) ((VFmt.vb w).extractLsb' 0 4) (VFmt.a5 w) (VFmt.d5 w)) else none
  | 3 =>
    if (VFmt.vb w).extractLsb' 4 1 == 0#1 then some (.vins (Policy.ofBits (VFmt.pol24 w)) (VFmt.hold w) ((VFmt.vb w).extractLsb' 0 4) (VFmt.a5 w) (VFmt.d5 w)) else none
  | 4 =>
    if (VFmt.vb w).extractLsb' 4 1 == 0#1 then some (.vext (Policy.ofBits (VFmt.pol24 w)) (VFmt.hold w) ((VFmt.vb w).extractLsb' 0 4) (VFmt.a5 w) (VFmt.d5 w)) else none
  | 5 =>
    if (VFmt.vb w) == 0#5 then some (.vsumF (Policy.ofBits (VFmt.pol24 w)) (VFmt.hold w) (VFmt.a5 w) (VFmt.d5 w)) else none
  | 6 =>
    if (VFmt.vb w) == 0#5 then some (.vmaxF (Policy.ofBits (VFmt.pol24 w)) (VFmt.hold w) (VFmt.a5 w) (VFmt.d5 w)) else none
  | 7 =>
    if (VFmt.vb w) == 0#5 then some (.vminF (Policy.ofBits (VFmt.pol24 w)) (VFmt.hold w) (VFmt.a5 w) (VFmt.d5 w)) else none
  | 8 =>
    if (VFmt.vb w) == 0#5 then some (.vsumI32 (Policy.ofBits (VFmt.pol24 w)) (VFmt.hold w) (VFmt.a5 w) (VFmt.d5 w)) else none
  | 9 =>
    if (VFmt.vb w) == 0#5 then some (.vmaxI32 (Policy.ofBits (VFmt.pol24 w)) (VFmt.hold w) (VFmt.a5 w) (VFmt.d5 w)) else none
  | 10 =>
    if (VFmt.vb w) == 0#5 then some (.vminI32 (Policy.ofBits (VFmt.pol24 w)) (VFmt.hold w) (VFmt.a5 w) (VFmt.d5 w)) else none
  | 11 =>
    if (VFmt.vb w) == 0#5 then some (.vsumI16 (Policy.ofBits (VFmt.pol24 w)) (VFmt.hold w) (VFmt.a5 w) (VFmt.d5 w)) else none
  | 12 =>
    if (VFmt.vb w) == 0#5 then some (.vsumI8 (Policy.ofBits (VFmt.pol24 w)) (VFmt.hold w) (VFmt.a5 w) (VFmt.d5 w)) else none
  | 13 =>
    if (VFmt.vb w) == 0#5 then some (.vsumBf (Policy.ofBits (VFmt.pol24 w)) (VFmt.hold w) (VFmt.a5 w) (VFmt.d5 w)) else none
  | _ => none

/-- The assigned encodings of major 19, before the value constraints of R61. -/
noncomputable def decodeMajor19 (w : BitVec 32) : Option Instr :=
  match (VFmt.minor6 w).toNat with
  | 0 =>
    some (.vld (Policy.ofBits (VFmt.pol24 w)) (VFmt.hold w) (VFmt.vb w) (VFmt.a5 w) (VFmt.d5 w))
  | 1 =>
    some (.vldWk (Policy.ofBits (VFmt.pol24 w)) (VFmt.hold w) (VFmt.vb w) (VFmt.a5 w) (VFmt.d5 w))
  | 2 =>
    some (.vst (Policy.ofBits (VFmt.pol24 w)) (VFmt.hold w) (VFmt.vb w) (VFmt.a5 w) (VFmt.d5 w))
  | 3 =>
    some (.vstWk (Policy.ofBits (VFmt.pol24 w)) (VFmt.hold w) (VFmt.vb w) (VFmt.a5 w) (VFmt.d5 w))
  | 4 =>
    some (.vldSp (Policy.ofBits (VFmt.pol24 w)) (VFmt.hold w) (VFmt.vb w) (VFmt.a5 w) (VFmt.d5 w))
  | 5 =>
    some (.vstSp (Policy.ofBits (VFmt.pol24 w)) (VFmt.hold w) (VFmt.vb w) (VFmt.a5 w) (VFmt.d5 w))
  | 6 =>
    some (.vldWin (Policy.ofBits (VFmt.pol24 w)) (VFmt.hold w) (VFmt.vb w) (VFmt.a5 w) (VFmt.d5 w))
  | 7 =>
    some (.vstWin (Policy.ofBits (VFmt.pol24 w)) (VFmt.hold w) (VFmt.vb w) (VFmt.a5 w) (VFmt.d5 w))
  | _ => none

/-- The assigned encodings of major 20, before the value constraints of R61. -/
noncomputable def decodeMajor20 (w : BitVec 32) : Option Instr :=
  match (RFmt.minor7 w).toNat with
  | 0 =>
    if (RFmt.d w).extractLsb' 2 4 == 3#4 then some (.scfg (RFmt.b w) (RFmt.a w) ((RFmt.d w).extractLsb' 0 2)) else none
  | 1 =>
    if (RFmt.b w) == 0#6 && (RFmt.a w) == 0#6 && (RFmt.d w).extractLsb' 2 4 == 3#4 then some (.sclr ((RFmt.d w).extractLsb' 0 2)) else none
  | 2 =>
    if (RFmt.b w) == 0#6 && (RFmt.a w).extractLsb' 2 4 == 3#4 then some (.srem ((RFmt.a w).extractLsb' 0 2) (RFmt.d w)) else none
  | _ => none

/-- The assigned encodings of major 21, before the value constraints of R61. -/
noncomputable def decodeMajor21 (w : BitVec 32) : Option Instr :=
  match (VFmt.minor6 w).toNat with
  | 0 =>
    if (VFmt.vb w) == 0#5 then some (.vrcpA (Policy.ofBits (VFmt.pol24 w)) (VFmt.hold w) (VFmt.a5 w) (VFmt.d5 w)) else none
  | 1 =>
    if (VFmt.vb w) == 0#5 then some (.vrsqA (Policy.ofBits (VFmt.pol24 w)) (VFmt.hold w) (VFmt.a5 w) (VFmt.d5 w)) else none
  | 2 =>
    some (.vrcpS (Policy.ofBits (VFmt.pol24 w)) (VFmt.hold w) (VFmt.vb w) (VFmt.a5 w) (VFmt.d5 w))
  | 3 =>
    some (.vrsqS (Policy.ofBits (VFmt.pol24 w)) (VFmt.hold w) (VFmt.vb w) (VFmt.a5 w) (VFmt.d5 w))
  | 4 =>
    if (VFmt.vb w) == 0#5 then some (.vexp2A (Policy.ofBits (VFmt.pol24 w)) (VFmt.hold w) (VFmt.a5 w) (VFmt.d5 w)) else none
  | 5 =>
    if (VFmt.vb w) == 0#5 then some (.vlog2A (Policy.ofBits (VFmt.pol24 w)) (VFmt.hold w) (VFmt.a5 w) (VFmt.d5 w)) else none
  | _ => none

/-- The assigned encodings of major 22, before the value constraints of R61. -/
noncomputable def decodeMajor22 (w : BitVec 32) : Option Instr :=
  if (PFmt.zero12 w) == 0#12 then some (.pfx (PFmt.zbit w) (PFmt.op4 w) (PFmt.rm w) (PFmt.me w) (PFmt.mk w)) else
  none

/-- The assigned encodings of major 23, before the value constraints of R61. -/
noncomputable def decodeMajor23 (w : BitVec 32) : Option Instr :=
  match (VFmt.minor6 w).toNat with
  | 0 =>
    if (VFmt.vb w) == 0#5 then some (.vcvtFI (Policy.ofBits (VFmt.pol24 w)) (VFmt.hold w) (VFmt.a5 w) (VFmt.d5 w)) else none
  | 1 =>
    if (VFmt.vb w) == 0#5 then some (.vcvtIF (Policy.ofBits (VFmt.pol24 w)) (VFmt.hold w) (VFmt.a5 w) (VFmt.d5 w)) else none
  | 2 =>
    some (.vcvtBfF (Policy.ofBits (VFmt.pol24 w)) (VFmt.hold w) (VFmt.vb w) (VFmt.a5 w) (VFmt.d5 w))
  | 3 =>
    if (VFmt.vb w).extractLsb' 1 4 == 0#4 then some (.vcvtFBf (Policy.ofBits (VFmt.pol24 w)) (VFmt.hold w) ((VFmt.vb w).extractLsb' 0 1) (VFmt.a5 w) (VFmt.d5 w)) else none
  | 4 =>
    if (VFmt.vb w).extractLsb' 2 3 == 0#3 then some (.vcvtFMk8 (Policy.ofBits (VFmt.pol24 w)) (VFmt.hold w) ((VFmt.vb w).extractLsb' 0 2) (VFmt.a5 w) (VFmt.d5 w)) else none
  | 5 =>
    some (.vpackI16 (Policy.ofBits (VFmt.pol24 w)) (VFmt.hold w) (VFmt.vb w) (VFmt.a5 w) (VFmt.d5 w))
  | 6 =>
    if (VFmt.vb w).extractLsb' 1 4 == 0#4 then some (.vunpkI16 (Policy.ofBits (VFmt.pol24 w)) (VFmt.hold w) ((VFmt.vb w).extractLsb' 0 1) (VFmt.a5 w) (VFmt.d5 w)) else none
  | 7 =>
    if (VFmt.vb w).extractLsb' 2 3 == 0#3 then some (.vunpkI8 (Policy.ofBits (VFmt.pol24 w)) (VFmt.hold w) ((VFmt.vb w).extractLsb' 0 2) (VFmt.a5 w) (VFmt.d5 w)) else none
  | 8 =>
    if (VFmt.a5 w).extractLsb' 0 1 == 0#1 then some (.vquant (Policy.ofBits (VFmt.pol24 w)) (VFmt.hold w) (VFmt.vb w) ((VFmt.a5 w).extractLsb' 1 4) (VFmt.d5 w)) else none
  | _ => none

/-- The assigned encodings of major 24, before the value constraints of R61. -/
noncomputable def decodeMajor24 (w : BitVec 32) : Option Instr :=
  match (RPFmt.minor5 w).toNat with
  | 0 =>
    if (RPFmt.b w) == 0#6 && (RPFmt.a w) == 0#6 then some (.mlease (Policy.ofBits (RPFmt.pol w)) (RPFmt.d w)) else none
  | 1 =>
    if (RPFmt.pol w) == 0#2 && (RPFmt.b w) == 0#6 && (RPFmt.a w) == 0#6 && (RPFmt.d w) == 0#6 then some (.mrel) else none
  | 2 =>
    if (RPFmt.b w) == 0#6 then some (.tsh (Policy.ofBits (RPFmt.pol w)) (RPFmt.a w) (RPFmt.d w)) else none
  | 3 =>
    if (RPFmt.b w) == 0#6 then some (.tshr (Policy.ofBits (RPFmt.pol w)) (RPFmt.a w) (RPFmt.d w)) else none
  | 4 =>
    some (.tld (Policy.ofBits (RPFmt.pol w)) (RPFmt.b w) (RPFmt.a w) (RPFmt.d w))
  | 5 =>
    some (.tst (Policy.ofBits (RPFmt.pol w)) (RPFmt.b w) (RPFmt.a w) (RPFmt.d w))
  | 6 =>
    if (RPFmt.b w) == 0#6 && (RPFmt.a w) == 0#6 then some (.tzero (Policy.ofBits (RPFmt.pol w)) (RPFmt.d w)) else none
  | 7 =>
    if (RPFmt.d w).extractLsb' 5 1 == 0#1 then some (.mma (Policy.ofBits (RPFmt.pol w)) (RPFmt.b w) (RPFmt.a w) ((RPFmt.d w).extractLsb' 3 2) ((RPFmt.d w).extractLsb' 2 1) ((RPFmt.d w).extractLsb' 0 2)) else none
  | 8 =>
    some (.tqnt (Policy.ofBits (RPFmt.pol w)) (RPFmt.b w) (RPFmt.a w) (RPFmt.d w))
  | _ => none

/-- The assigned encodings of major 25, before the value constraints of R61. -/
noncomputable def decodeMajor25 (w : BitVec 32) : Option Instr :=
  match (RPFmt.minor5 w).toNat with
  | 0 =>
    if (RPFmt.b w).extractLsb' 0 1 == 0#1 && (RPFmt.a w).extractLsb' 0 1 == 0#1 && (RPFmt.d w).extractLsb' 5 1 == 0#1 then some (.cpMm (Policy.ofBits (RPFmt.pol w)) ((RPFmt.b w).extractLsb' 1 5) ((RPFmt.a w).extractLsb' 1 5) ((RPFmt.d w).extractLsb' 4 1) ((RPFmt.d w).extractLsb' 3 1) ((RPFmt.d w).extractLsb' 0 3)) else none
  | 1 =>
    if (RPFmt.b w).extractLsb' 0 1 == 0#1 && (RPFmt.a w).extractLsb' 0 1 == 0#1 && (RPFmt.d w).extractLsb' 5 1 == 0#1 then some (.cpMs (Policy.ofBits (RPFmt.pol w)) ((RPFmt.b w).extractLsb' 1 5) ((RPFmt.a w).extractLsb' 1 5) ((RPFmt.d w).extractLsb' 4 1) ((RPFmt.d w).extractLsb' 3 1) ((RPFmt.d w).extractLsb' 0 3)) else none
  | 2 =>
    if (RPFmt.b w).extractLsb' 0 1 == 0#1 && (RPFmt.a w).extractLsb' 0 1 == 0#1 && (RPFmt.d w).extractLsb' 5 1 == 0#1 then some (.cpMv (Policy.ofBits (RPFmt.pol w)) ((RPFmt.b w).extractLsb' 1 5) ((RPFmt.a w).extractLsb' 1 5) ((RPFmt.d w).extractLsb' 4 1) ((RPFmt.d w).extractLsb' 3 1) ((RPFmt.d w).extractLsb' 0 3)) else none
  | 3 =>
    if (RPFmt.b w).extractLsb' 0 1 == 0#1 && (RPFmt.a w).extractLsb' 0 1 == 0#1 && (RPFmt.d w).extractLsb' 5 1 == 0#1 then some (.cpSm (Policy.ofBits (RPFmt.pol w)) ((RPFmt.b w).extractLsb' 1 5) ((RPFmt.a w).extractLsb' 1 5) ((RPFmt.d w).extractLsb' 4 1) ((RPFmt.d w).extractLsb' 3 1) ((RPFmt.d w).extractLsb' 0 3)) else none
  | 4 =>
    if (RPFmt.b w).extractLsb' 0 1 == 0#1 && (RPFmt.a w).extractLsb' 0 1 == 0#1 && (RPFmt.d w).extractLsb' 5 1 == 0#1 then some (.cpSs (Policy.ofBits (RPFmt.pol w)) ((RPFmt.b w).extractLsb' 1 5) ((RPFmt.a w).extractLsb' 1 5) ((RPFmt.d w).extractLsb' 4 1) ((RPFmt.d w).extractLsb' 3 1) ((RPFmt.d w).extractLsb' 0 3)) else none
  | 5 =>
    if (RPFmt.b w).extractLsb' 0 1 == 0#1 && (RPFmt.a w).extractLsb' 0 1 == 0#1 && (RPFmt.d w).extractLsb' 5 1 == 0#1 then some (.cpSv (Policy.ofBits (RPFmt.pol w)) ((RPFmt.b w).extractLsb' 1 5) ((RPFmt.a w).extractLsb' 1 5) ((RPFmt.d w).extractLsb' 4 1) ((RPFmt.d w).extractLsb' 3 1) ((RPFmt.d w).extractLsb' 0 3)) else none
  | 6 =>
    if (RPFmt.b w).extractLsb' 0 1 == 0#1 && (RPFmt.a w).extractLsb' 0 1 == 0#1 && (RPFmt.d w).extractLsb' 5 1 == 0#1 then some (.cpVm (Policy.ofBits (RPFmt.pol w)) ((RPFmt.b w).extractLsb' 1 5) ((RPFmt.a w).extractLsb' 1 5) ((RPFmt.d w).extractLsb' 4 1) ((RPFmt.d w).extractLsb' 3 1) ((RPFmt.d w).extractLsb' 0 3)) else none
  | 7 =>
    if (RPFmt.b w).extractLsb' 0 1 == 0#1 && (RPFmt.a w).extractLsb' 0 1 == 0#1 && (RPFmt.d w).extractLsb' 5 1 == 0#1 then some (.cpVs (Policy.ofBits (RPFmt.pol w)) ((RPFmt.b w).extractLsb' 1 5) ((RPFmt.a w).extractLsb' 1 5) ((RPFmt.d w).extractLsb' 4 1) ((RPFmt.d w).extractLsb' 3 1) ((RPFmt.d w).extractLsb' 0 3)) else none
  | 8 =>
    if (RPFmt.b w).extractLsb' 0 1 == 0#1 && (RPFmt.a w).extractLsb' 0 1 == 0#1 && (RPFmt.d w).extractLsb' 5 1 == 0#1 then some (.cpVv (Policy.ofBits (RPFmt.pol w)) ((RPFmt.b w).extractLsb' 1 5) ((RPFmt.a w).extractLsb' 1 5) ((RPFmt.d w).extractLsb' 4 1) ((RPFmt.d w).extractLsb' 3 1) ((RPFmt.d w).extractLsb' 0 3)) else none
  | 9 =>
    if (RPFmt.b w).extractLsb' 0 1 == 0#1 && (RPFmt.a w).extractLsb' 0 1 == 0#1 && (RPFmt.d w).extractLsb' 5 1 == 0#1 then some (.cpGth (Policy.ofBits (RPFmt.pol w)) ((RPFmt.b w).extractLsb' 1 5) ((RPFmt.a w).extractLsb' 1 5) ((RPFmt.d w).extractLsb' 4 1) ((RPFmt.d w).extractLsb' 3 1) ((RPFmt.d w).extractLsb' 0 3)) else none
  | 10 =>
    if (RPFmt.b w).extractLsb' 0 1 == 0#1 && (RPFmt.a w).extractLsb' 0 1 == 0#1 && (RPFmt.d w).extractLsb' 5 1 == 0#1 then some (.cpSct (Policy.ofBits (RPFmt.pol w)) ((RPFmt.b w).extractLsb' 1 5) ((RPFmt.a w).extractLsb' 1 5) ((RPFmt.d w).extractLsb' 4 1) ((RPFmt.d w).extractLsb' 3 1) ((RPFmt.d w).extractLsb' 0 3)) else none
  | 11 =>
    if (RPFmt.b w) == 0#6 && (RPFmt.d w).extractLsb' 3 3 == 0#3 then some (.qfCp (Policy.ofBits (RPFmt.pol w)) (RPFmt.a w) ((RPFmt.d w).extractLsb' 0 3)) else none
  | _ => none

/-- The assigned encodings of major 26, before the value constraints of R61. -/
noncomputable def decodeMajor26 (w : BitVec 32) : Option Instr :=
  match (RPFmt.minor5 w).toNat with
  | 0 =>
    if (RPFmt.d w).extractLsb' 2 4 == 0#4 then some (.clAredSum (Policy.ofBits (RPFmt.pol w)) (RPFmt.b w) (RPFmt.a w) ((RPFmt.d w).extractLsb' 0 2)) else none
  | 1 =>
    if (RPFmt.d w).extractLsb' 2 4 == 0#4 then some (.clAredMax (Policy.ofBits (RPFmt.pol w)) (RPFmt.b w) (RPFmt.a w) ((RPFmt.d w).extractLsb' 0 2)) else none
  | 2 =>
    if (RPFmt.d w).extractLsb' 2 4 == 0#4 then some (.clAredMin (Policy.ofBits (RPFmt.pol w)) (RPFmt.b w) (RPFmt.a w) ((RPFmt.d w).extractLsb' 0 2)) else none
  | 3 =>
    if (RPFmt.d w).extractLsb' 2 4 == 0#4 then some (.clBcst (Policy.ofBits (RPFmt.pol w)) (RPFmt.b w) (RPFmt.a w) ((RPFmt.d w).extractLsb' 0 2)) else none
  | 4 =>
    if (RPFmt.d w).extractLsb' 2 4 == 0#4 then some (.clGath (Policy.ofBits (RPFmt.pol w)) (RPFmt.b w) (RPFmt.a w) ((RPFmt.d w).extractLsb' 0 2)) else none
  | 5 =>
    if (RPFmt.b w) == 0#6 && (RPFmt.d w).extractLsb' 2 4 == 0#4 then some (.qfCl (Policy.ofBits (RPFmt.pol w)) (RPFmt.a w) ((RPFmt.d w).extractLsb' 0 2)) else none
  | _ => none

/-- The assigned encodings of major 27, before the value constraints of R61. -/
noncomputable def decodeMajor27 (w : BitVec 32) : Option Instr :=
  match (RPFmt.minor5 w).toNat with
  | 0 =>
    if (RPFmt.d w) == 0#6 then some (.cbInit (Policy.ofBits (RPFmt.pol w)) (RPFmt.b w) (RPFmt.a w)) else none
  | 1 =>
    if (RPFmt.b w) == 0#6 then some (.cbArr (Policy.ofBits (RPFmt.pol w)) (RPFmt.a w) (RPFmt.d w)) else none
  | 2 =>
    some (.cbWt (Policy.ofBits (RPFmt.pol w)) (RPFmt.b w) (RPFmt.a w) (RPFmt.d w))
  | 3 =>
    if (RPFmt.b w) == 0#6 && (RPFmt.d w) == 0#6 then some (.cbClr (Policy.ofBits (RPFmt.pol w)) (RPFmt.a w)) else none
  | _ => none

/-- The assigned encodings of major 28, before the value constraints of R61. -/
noncomputable def decodeMajor28 (w : BitVec 32) : Option Instr :=
  match (RFmt.minor7 w).toNat with
  | 0 =>
    if (RFmt.a w) == 0#6 then some (.mfsr (RFmt.b w) (RFmt.d w)) else none
  | 1 =>
    if (RFmt.d w) == 0#6 then some (.mtsr (RFmt.b w) (RFmt.a w)) else none
  | 2 =>
    if (RFmt.b w) == 0#6 then some (.mfcr (RFmt.a w) (RFmt.d w)) else none
  | 3 =>
    if (RFmt.d w) == 0#6 then some (.mtcr (RFmt.b w) (RFmt.a w)) else none
  | 4 =>
    if (RFmt.b w) == 0#6 && (RFmt.a w) == 0#6 && (RFmt.d w) == 0#6 then some (.hret) else none
  | 5 =>
    if (RFmt.a w) == 0#6 && (RFmt.d w) == 0#6 then some (.trap (RFmt.b w)) else none
  | 6 =>
    if (RFmt.b w).extractLsb' 2 4 == 0#4 then some (.copRd ((RFmt.b w).extractLsb' 0 2) (RFmt.a w) (RFmt.d w)) else none
  | 7 =>
    if (RFmt.b w) == 0#6 && (RFmt.d w) == 0#6 then some (.copReplay (RFmt.a w)) else none
  | 8 =>
    if (RFmt.d w) == 0#6 then some (.fltDone (RFmt.b w) (RFmt.a w)) else none
  | _ => none

/-- The assigned encodings of major 29, before the value constraints of R61. -/
noncomputable def decodeMajor29 (w : BitVec 32) : Option Instr :=
  match (RPFmt.minor5 w).toNat with
  | 0 =>
    if (RPFmt.d w) == 0#6 then some (.tlbInv (Policy.ofBits (RPFmt.pol w)) (RPFmt.b w) (RPFmt.a w)) else none
  | 1 =>
    if (RPFmt.b w) == 0#6 && (RPFmt.a w) == 0#6 && (RPFmt.d w) == 0#6 then some (.tlbInva (Policy.ofBits (RPFmt.pol w))) else none
  | 2 =>
    if (RPFmt.b w) == 0#6 then some (.tlbProbe (Policy.ofBits (RPFmt.pol w)) (RPFmt.a w) (RPFmt.d w)) else none
  | 3 =>
    if (RPFmt.pol w) == 0#2 && (RPFmt.b w) == 0#6 && (RPFmt.a w) == 0#6 then some (.atpRd (RPFmt.d w)) else none
  | 4 =>
    if (RPFmt.b w) == 0#6 && (RPFmt.d w) == 0#6 then some (.atpWr (Policy.ofBits (RPFmt.pol w)) (RPFmt.a w)) else none
  | _ => none

/-- The assigned encodings of major 30, before the value constraints of R61. -/
noncomputable def decodeMajor30 (w : BitVec 32) : Option Instr :=
  match (RPFmt.minor5 w).toNat with
  | 0 =>
    if (RPFmt.b w) == 0#6 then some (.ctxNew (Policy.ofBits (RPFmt.pol w)) (RPFmt.a w) (RPFmt.d w)) else none
  | 1 =>
    if (RPFmt.d w) == 0#6 then some (.ctxGrant (Policy.ofBits (RPFmt.pol w)) (RPFmt.b w) (RPFmt.a w)) else none
  | 2 =>
    if (RPFmt.pol w) == 0#2 then some (.ctxRd (RPFmt.b w) (RPFmt.a w) (RPFmt.d w)) else none
  | 3 =>
    some (.ctxWr (Policy.ofBits (RPFmt.pol w)) (RPFmt.b w) (RPFmt.a w) (RPFmt.d w))
  | 4 =>
    if (RPFmt.b w) == 0#6 && (RPFmt.d w) == 0#6 then some (.ctxRun (Policy.ofBits (RPFmt.pol w)) (RPFmt.a w)) else none
  | 5 =>
    if (RPFmt.b w) == 0#6 && (RPFmt.d w) == 0#6 then some (.ctxStop (Policy.ofBits (RPFmt.pol w)) (RPFmt.a w)) else none
  | 6 =>
    if (RPFmt.b w) == 0#6 && (RPFmt.d w) == 0#6 then some (.ctxKill (Policy.ofBits (RPFmt.pol w)) (RPFmt.a w)) else none
  | 7 =>
    if (RPFmt.b w).extractLsb' 2 4 == 0#4 && (RPFmt.d w) == 0#6 then some (.ctxResume (Policy.ofBits (RPFmt.pol w)) ((RPFmt.b w).extractLsb' 0 2) (RPFmt.a w)) else none
  | 8 =>
    if (RPFmt.pol w) == 0#2 && (RPFmt.b w) == 0#6 && (RPFmt.d w) == 0#6 then some (.ctxIntr (RPFmt.a w)) else none
  | _ => none

/-- R54: the major opcode selects the table; major 31 is reserved (R61). (Log: DESIGN CHOICE 57) -/
noncomputable def decodeMajor (w : BitVec 32) : Option Instr :=
  match (majorOf w).toNat with
  | 0 => decodeMajor0 w
  | 1 => decodeMajor1 w
  | 2 => decodeMajor2 w
  | 3 => decodeMajor3 w
  | 4 => decodeMajor4 w
  | 5 => decodeMajor5 w
  | 6 => decodeMajor6 w
  | 7 => decodeMajor7 w
  | 8 => decodeMajor8 w
  | 9 => decodeMajor9 w
  | 10 => decodeMajor10 w
  | 11 => decodeMajor11 w
  | 12 => decodeMajor12 w
  | 13 => decodeMajor13 w
  | 14 => decodeMajor14 w
  | 15 => decodeMajor15 w
  | 16 => decodeMajor16 w
  | 17 => decodeMajor17 w
  | 18 => decodeMajor18 w
  | 19 => decodeMajor19 w
  | 20 => decodeMajor20 w
  | 21 => decodeMajor21 w
  | 22 => decodeMajor22 w
  | 23 => decodeMajor23 w
  | 24 => decodeMajor24 w
  | 25 => decodeMajor25 w
  | 26 => decodeMajor26 w
  | 27 => decodeMajor27 w
  | 28 => decodeMajor28 w
  | 29 => decodeMajor29 w
  | 30 => decodeMajor30 w
  | _ => none

/-- R44: quadrants 0, 1 and 2 of the compact parcels. -/
noncomputable def decodeQuadrant (w : BitVec 16) : Option Instr :=
  match (w.extractLsb' 0 2).toNat with
  | 0 => decodeQuadrant0 w
  | 1 => decodeQuadrant1 w
  | 2 => decodeQuadrant2 w
  | _ => none

/-- Keep an instruction only if its operand values are assigned (R61). -/
def keepWf (op4S : Bool) : Option Instr → Option Instr
  | some i => if i.wfIn op4S then some i else none
  | none => none

/-- A 32-bit word (bits [1:0] = 0b11), in a pair whose prefix names a stream as fourth operand or not. -/
noncomputable def decodeWordIn (op4S : Bool) (w : BitVec 32) : Option Instr :=
  if w.extractLsb' 0 2 == 3#2 then keepWf op4S (decodeMajor w) else none

/-- A 32-bit word that stands alone. -/
noncomputable def decodeWord (w : BitVec 32) : Option Instr := decodeWordIn false w

/-- A compact parcel. -/
noncomputable def decodeParcel (p : BitVec 16) : Option Instr := keepWf false (decodeQuadrant p)

/-- Why bytes are no instruction: each constructor names the case of R61 (all raise the illegal-instruction trap),
or the bytes that are missing. -/
inductive Reject where
  /-- An unassigned compact parcel. -/
  | unassignedParcel (p : BitVec 16)
  /-- A first-class parcel at an address 2 modulo 4 (R44). -/
  | misplacedWord (p : BitVec 16)
  /-- A word of major 31, of an unassigned minor, or with an unassigned field value. -/
  | unassignedWord (w : BitVec 32)
  /-- Fewer bytes than the instruction has. -/
  | tooShort
deriving DecidableEq, Repr

/-- R45 `decode_at`: what the bytes at an address hold; `aligned` says that the address is a multiple of 4.
Answers the instruction and the bytes after it, or the reason there is none. -/
noncomputable def decodeBytes (aligned : Bool) : List (BitVec 8) → Except Reject (Instr × List (BitVec 8))
  | b0 :: b1 :: rest =>
    let p : BitVec 16 := b1 ++ b0
    if p.extractLsb' 0 2 == 3#2 then
      if aligned then
        match rest with
        | b2 :: b3 :: rest' =>
          let w : BitVec 32 := b3 ++ b2 ++ p
          match decodeWord w with
          | some i => .ok (i, rest')
          | none => .error (.unassignedWord w)
        | _ => .error .tooShort
      else .error (.misplacedWord p)
    else
      match decodeParcel p with
      | some i => .ok (i, rest)
      | none => .error (.unassignedParcel p)
  | _ => .error .tooShort

/-- The bytes of a number, least significant first (R11: memory is little-endian). -/
def bytesOf (n : Nat) : Nat → List (BitVec 8)
  | 0 => []
  | k + 1 => BitVec.ofNat 8 n :: bytesOf (n / 256) k

/-- The instruction read from bits numbered as spec/opcode_table.json numbers them. -/
noncomputable def decodeTableWord (nbits w : Nat) : Option Instr :=
  match decodeBytes true (bytesOf (w % 2 ^ nbits) 8) with
  | .ok (i, _) => some i
  | .error _ => none

/-- What stands for an instruction in memory: a word, a compact parcel, or nothing for an event. -/
inductive Encoding where
  | word (w : BitVec 32)
  | parcel (p : BitVec 16)
  | event
deriving DecidableEq, Repr

/-- The encoding of an instruction, from the formats of R46, R64 and R65. -/
def encode : Instr → Encoding
  | .add b a d => .word (RFmt.pack 0#7 b a d 0#5)
  | .sub b a d => .word (RFmt.pack 1#7 b a d 0#5)
  | .and b a d => .word (RFmt.pack 2#7 b a d 0#5)
  | .or b a d => .word (RFmt.pack 3#7 b a d 0#5)
  | .xor b a d => .word (RFmt.pack 4#7 b a d 0#5)
  | .sll b a d => .word (RFmt.pack 5#7 b a d 0#5)
  | .srl b a d => .word (RFmt.pack 6#7 b a d 0#5)
  | .sra b a d => .word (RFmt.pack 7#7 b a d 0#5)
  | .slt b a d => .word (RFmt.pack 8#7 b a d 0#5)
  | .sltu b a d => .word (RFmt.pack 9#7 b a d 0#5)
  | .min b a d => .word (RFmt.pack 10#7 b a d 0#5)
  | .max b a d => .word (RFmt.pack 11#7 b a d 0#5)
  | .minu b a d => .word (RFmt.pack 12#7 b a d 0#5)
  | .maxu b a d => .word (RFmt.pack 13#7 b a d 0#5)
  | .mv a d => .word (RFmt.pack 14#7 0#6 a d 0#5)
  | .addw b a d => .word (RFmt.pack 16#7 b a d 0#5)
  | .subw b a d => .word (RFmt.pack 17#7 b a d 0#5)
  | .sllw b a d => .word (RFmt.pack 18#7 b a d 0#5)
  | .srlw b a d => .word (RFmt.pack 19#7 b a d 0#5)
  | .sraw b a d => .word (RFmt.pack 20#7 b a d 0#5)
  | .sh1add b a d => .word (RFmt.pack 24#7 b a d 0#5)
  | .sh2add b a d => .word (RFmt.pack 25#7 b a d 0#5)
  | .sh3add b a d => .word (RFmt.pack 26#7 b a d 0#5)
  | .sh4add b a d => .word (RFmt.pack 27#7 b a d 0#5)
  | .lix n d => .word (RFmt.pack 32#7 0#6 (0#4 ++ n) d 0#5)
  | .lixu n d => .word (RFmt.pack 33#7 0#6 (0#4 ++ n) d 0#5)
  | .insh n d => .word (RFmt.pack 34#7 0#6 (0#4 ++ n) d 0#5)
  | .jr a => .word (RFmt.pack 112#7 0#6 a 0#6 0#5)
  | .callr a => .word (RFmt.pack 113#7 0#6 a 0#6 0#5)
  | .ret => .word (RFmt.pack 114#7 0#6 0#6 0#6 0#5)
  | .land => .word (RFmt.pack 115#7 0#6 0#6 0#6 0#5)
  | .enter l h => .word (RFmt.pack 116#7 l h 0#6 0#5)
  | .enterFp l h r => .word (RFmt.pack 116#7 l h (1#1 ++ r) 0#5)
  | .leave l h => .word (RFmt.pack 117#7 l h 0#6 0#5)
  | .leaveFp l h r => .word (RFmt.pack 117#7 l h (1#1 ++ r) 0#5)
  | .kpack n d => .word (RFmt.pack 118#7 (0#3 ++ n) 0#6 d 0#5)
  | .kunpack n a => .word (RFmt.pack 119#7 (0#3 ++ n) a 0#6 0#5)
  | .addi i a d => .word (IFmt.pack i 0#3 a d 1#5)
  | .li i j d => .word (IFmt.pack i 1#3 j d 1#5)
  | .andi i a d => .word (IFmt.pack i 2#3 a d 1#5)
  | .ori i a d => .word (IFmt.pack i 3#3 a d 1#5)
  | .xori i a d => .word (IFmt.pack i 4#3 a d 1#5)
  | .slti i a d => .word (IFmt.pack i 5#3 a d 1#5)
  | .sltiu i a d => .word (IFmt.pack i 6#3 a d 1#5)
  | .slli s a d => .word (IFmt.pack (0#6 ++ s) 7#3 a d 1#5)
  | .srli s a d => .word (IFmt.pack (16#6 ++ s) 7#3 a d 1#5)
  | .srai s a d => .word (IFmt.pack (32#6 ++ s) 7#3 a d 1#5)
  | .rori s a d => .word (IFmt.pack (48#6 ++ s) 7#3 a d 1#5)
  | .mul b a d => .word (RFmt.pack 0#7 b a d 2#5)
  | .mulh b a d => .word (RFmt.pack 1#7 b a d 2#5)
  | .mulhu b a d => .word (RFmt.pack 2#7 b a d 2#5)
  | .mulhsu b a d => .word (RFmt.pack 3#7 b a d 2#5)
  | .mulw b a d => .word (RFmt.pack 4#7 b a d 2#5)
  | .div b a d => .word (RFmt.pack 8#7 b a d 2#5)
  | .divu b a d => .word (RFmt.pack 9#7 b a d 2#5)
  | .rem b a d => .word (RFmt.pack 10#7 b a d 2#5)
  | .remu b a d => .word (RFmt.pack 11#7 b a d 2#5)
  | .divw b a d => .word (RFmt.pack 12#7 b a d 2#5)
  | .divuw b a d => .word (RFmt.pack 13#7 b a d 2#5)
  | .remw b a d => .word (RFmt.pack 14#7 b a d 2#5)
  | .remuw b a d => .word (RFmt.pack 15#7 b a d 2#5)
  | .clz a d => .word (RFmt.pack 0#7 0#6 a d 3#5)
  | .ctz a d => .word (RFmt.pack 1#7 0#6 a d 3#5)
  | .cpop a d => .word (RFmt.pack 2#7 0#6 a d 3#5)
  | .rev8 a d => .word (RFmt.pack 3#7 0#6 a d 3#5)
  | .brev a d => .word (RFmt.pack 4#7 0#6 a d 3#5)
  | .andn b a d => .word (RFmt.pack 5#7 b a d 3#5)
  | .orn b a d => .word (RFmt.pack 6#7 b a d 3#5)
  | .xnor b a d => .word (RFmt.pack 7#7 b a d 3#5)
  | .rol b a d => .word (RFmt.pack 8#7 b a d 3#5)
  | .ror b a d => .word (RFmt.pack 9#7 b a d 3#5)
  | .bset b a d => .word (RFmt.pack 10#7 b a d 3#5)
  | .bclr b a d => .word (RFmt.pack 11#7 b a d 3#5)
  | .binv b a d => .word (RFmt.pack 12#7 b a d 3#5)
  | .bext b a d => .word (RFmt.pack 13#7 b a d 3#5)
  | .ext b a d => .word (RFmt.pack 14#7 b a d 3#5)
  | .sextb a d => .word (RFmt.pack 16#7 0#6 a d 3#5)
  | .sexth a d => .word (RFmt.pack 17#7 0#6 a d 3#5)
  | .sextw a d => .word (RFmt.pack 18#7 0#6 a d 3#5)
  | .mod31 a d => .word (RFmt.pack 24#7 0#6 a d 3#5)
  | .div31 a d => .word (RFmt.pack 25#7 0#6 a d 3#5)
  | .bankof a d => .word (RFmt.pack 26#7 0#6 a d 3#5)
  | .rowof a d => .word (RFmt.pack 27#7 0#6 a d 3#5)
  | .spa b a d => .word (RFmt.pack 28#7 b a d 3#5)
  | .addm31 b a d => .word (RFmt.pack 29#7 b a d 3#5)
  | .oxl i n => .word (XFmt.pack 0#7 i n 4#5)
  | .oxh i n => .word (XFmt.pack 1#7 i n 4#5)
  | .beq o b a => .word (IFmt.pack o 0#3 b a 5#5)
  | .bne o b a => .word (IFmt.pack o 1#3 b a 5#5)
  | .blt o b a => .word (IFmt.pack o 2#3 b a 5#5)
  | .bge o b a => .word (IFmt.pack o 3#3 b a 5#5)
  | .bltu o b a => .word (IFmt.pack o 4#3 b a 5#5)
  | .bgeu o b a => .word (IFmt.pack o 5#3 b a 5#5)
  | .bnr o => .word (IFmt.pack o 6#3 0#5 0#5 5#5)
  | .brd o => .word (IFmt.pack o 6#3 0#5 1#5 5#5)
  | .j o => .word (IFmt.pack o 7#3 0#5 0#5 5#5)
  | .call o => .word (JFmt.pack o 6#5)
  | .fadd b a d => .word (RFmt.pack 0#7 b a d 7#5)
  | .fsub b a d => .word (RFmt.pack 1#7 b a d 7#5)
  | .fmul b a d => .word (RFmt.pack 2#7 b a d 7#5)
  | .fdiv b a d => .word (RFmt.pack 3#7 b a d 7#5)
  | .fmin b a d => .word (RFmt.pack 4#7 b a d 7#5)
  | .fmax b a d => .word (RFmt.pack 5#7 b a d 7#5)
  | .fmadd b a d => .word (RFmt.pack 6#7 b a d 7#5)
  | .fmsub b a d => .word (RFmt.pack 7#7 b a d 7#5)
  | .fsqrt r a d => .word (RFmt.pack 8#7 (0#3 ++ r) a d 7#5)
  | .fsgnj b a d => .word (RFmt.pack 9#7 b a d 7#5)
  | .fsgnjn b a d => .word (RFmt.pack 10#7 b a d 7#5)
  | .fsgnjx b a d => .word (RFmt.pack 11#7 b a d 7#5)
  | .feq b a d => .word (RFmt.pack 12#7 b a d 7#5)
  | .flt b a d => .word (RFmt.pack 13#7 b a d 7#5)
  | .fle b a d => .word (RFmt.pack 14#7 b a d 7#5)
  | .fclass a d => .word (RFmt.pack 15#7 0#6 a d 7#5)
  | .ftoi r a d => .word (RFmt.pack 16#7 (0#3 ++ r) a d 7#5)
  | .ftou r a d => .word (RFmt.pack 17#7 (0#3 ++ r) a d 7#5)
  | .ftol r a d => .word (RFmt.pack 18#7 (0#3 ++ r) a d 7#5)
  | .ftoul r a d => .word (RFmt.pack 19#7 (0#3 ++ r) a d 7#5)
  | .itof r a d => .word (RFmt.pack 20#7 (0#3 ++ r) a d 7#5)
  | .utof r a d => .word (RFmt.pack 21#7 (0#3 ++ r) a d 7#5)
  | .ltof r a d => .word (RFmt.pack 22#7 (0#3 ++ r) a d 7#5)
  | .ultof r a d => .word (RFmt.pack 23#7 (0#3 ++ r) a d 7#5)
  | .ftobf r a d => .word (RFmt.pack 24#7 (0#3 ++ r) a d 7#5)
  | .bftof a d => .word (RFmt.pack 25#7 0#6 a d 7#5)
  | .ldW o p b d => .word (MFmt.pack o p.bits 0#1 b d 8#5)
  | .ldD o p b d => .word (MFmt.pack o p.bits 1#1 b d 8#5)
  | .stW o p b d => .word (MFmt.pack o p.bits 0#1 b d 9#5)
  | .stD o p b d => .word (MFmt.pack o p.bits 1#1 b d 9#5)
  | .ldMn p q z o a d => .word (MNFmt.pack p.bits 0#1 q z 0#1 o a d 10#5)
  | .stMn p q z o a d => .word (MNFmt.pack p.bits 1#1 q (0#1 ++ z) 0#1 o a d 10#5)
  | .ldSp p z o a d => .word (MNFmt.pack p.bits 0#1 0#1 z 1#1 o a d 10#5)
  | .stSp p z o a d => .word (MNFmt.pack p.bits 1#1 0#1 (0#1 ++ z) 1#1 o a d 10#5)
  | .ldVm p z o a d => .word (MNFmt.pack p.bits 0#1 1#1 z 1#1 o a d 10#5)
  | .stVm p z o a d => .word (MNFmt.pack p.bits 1#1 1#1 (0#1 ++ z) 1#1 o a d 10#5)
  | .amoSwap p w s a d => .word (RPFmt.pack p.bits (0#4 ++ w) (0#1 ++ s) a d 11#5)
  | .amoCas p w s a d => .word (RPFmt.pack p.bits (1#4 ++ w) (0#1 ++ s) a (d ++ 0#1) 11#5)
  | .amoAdd p w s a d => .word (RPFmt.pack p.bits (2#4 ++ w) (0#1 ++ s) a d 11#5)
  | .amoAnd p w s a d => .word (RPFmt.pack p.bits (3#4 ++ w) (0#1 ++ s) a d 11#5)
  | .amoOr p w s a d => .word (RPFmt.pack p.bits (4#4 ++ w) (0#1 ++ s) a d 11#5)
  | .amoXor p w s a d => .word (RPFmt.pack p.bits (5#4 ++ w) (0#1 ++ s) a d 11#5)
  | .amoMin p w s a d => .word (RPFmt.pack p.bits (6#4 ++ w) (0#1 ++ s) a d 11#5)
  | .amoMax p w s a d => .word (RPFmt.pack p.bits (7#4 ++ w) (0#1 ++ s) a d 11#5)
  | .amoMinu p w s a d => .word (RPFmt.pack p.bits (8#4 ++ w) (0#1 ++ s) a d 11#5)
  | .amoMaxu p w s a d => .word (RPFmt.pack p.bits (9#4 ++ w) (0#1 ++ s) a d 11#5)
  | .updAdd p w a d => .word (RPFmt.pack p.bits (10#4 ++ w) 0#6 a d 11#5)
  | .updMin p w a d => .word (RPFmt.pack p.bits (11#4 ++ w) 0#6 a d 11#5)
  | .updMax p w a d => .word (RPFmt.pack p.bits (12#4 ++ w) 0#6 a d 11#5)
  | .amoSpSwap p s a d => .word (RPFmt.pack p.bits 26#5 (0#1 ++ s) a d 11#5)
  | .amoSpCas p s a d => .word (RPFmt.pack p.bits 27#5 (0#1 ++ s) a (d ++ 0#1) 11#5)
  | .amoSpAdd p s a d => .word (RPFmt.pack p.bits 28#5 (0#1 ++ s) a d 11#5)
  | .amoVmSwap p s a d => .word (RPFmt.pack p.bits 29#5 (0#1 ++ s) a d 11#5)
  | .amoVmCas p s a d => .word (RPFmt.pack p.bits 30#5 (0#1 ++ s) a (d ++ 0#1) 11#5)
  | .amoVmAdd p s a d => .word (RPFmt.pack p.bits 31#5 (0#1 ++ s) a d 11#5)
  | .fenceS p s => .word (RPFmt.pack p.bits 0#5 (0#1 ++ s) 0#6 0#6 12#5)
  | .fenceI => .word (RPFmt.pack 0#2 1#5 0#6 0#6 0#6 12#5)
  | .stRelW p s a d => .word (RPFmt.pack p.bits 2#5 (0#1 ++ s) a d 12#5)
  | .stRelD p s a d => .word (RPFmt.pack p.bits 3#5 (0#1 ++ s) a d 12#5)
  | .ldff p a d => .word (RPFmt.pack p.bits 4#5 0#6 a d 12#5)
  | .ldfe p a d => .word (RPFmt.pack p.bits 5#5 0#6 a d 12#5)
  | .stef p a d => .word (RPFmt.pack p.bits 6#5 0#6 a d 12#5)
  | .stff p a d => .word (RPFmt.pack p.bits 7#5 0#6 a d 12#5)
  | .feEmpty a => .word (RPFmt.pack 0#2 8#5 0#6 a 0#6 12#5)
  | .feTest p a d => .word (RPFmt.pack p.bits 9#5 0#6 a d 12#5)
  | .ldffPlace p c a d => .word (RPFmt.pack p.bits 10#5 c a d 12#5)
  | .ldfePlace p c a d => .word (RPFmt.pack p.bits 11#5 c a d 12#5)
  | .stefPlace p c a d => .word (RPFmt.pack p.bits 12#5 c a d 12#5)
  | .stffPlace p c a d => .word (RPFmt.pack p.bits 13#5 c a d 12#5)
  | .ldSpDPlace p c a d => .word (RPFmt.pack p.bits 14#5 c a d 12#5)
  | .stSpDPlace p c a d => .word (RPFmt.pack p.bits 15#5 c a d 12#5)
  | .ldVmDPlace p c a d => .word (RPFmt.pack p.bits 16#5 c a d 12#5)
  | .stVmDPlace p c a d => .word (RPFmt.pack p.bits 17#5 c a d 12#5)
  | .park p a => .word (RPFmt.pack p.bits 18#5 0#6 a 0#6 12#5)
  | .pin p a d => .word (RPFmt.pack p.bits 19#5 0#6 a d 12#5)
  | .unpin a => .word (RPFmt.pack 0#2 20#5 0#6 a 0#6 12#5)
  | .unpinAll => .word (RPFmt.pack 0#2 21#5 0#6 0#6 0#6 12#5)
  | .pf a => .word (RPFmt.pack 0#2 22#5 0#6 a 0#6 12#5)
  | .hbarArr p n d => .word (RPFmt.pack p.bits 23#5 (0#4 ++ n) 0#6 d 12#5)
  | .hbarWt p n a d => .word (RPFmt.pack p.bits 24#5 (0#4 ++ n) a d 12#5)
  | .arm e n a => .word (RPFmt.pack 0#2 0#5 (0#2 ++ e ++ n) a 0#6 13#5)
  | .disarm g n a => .word (RPFmt.pack 0#2 1#5 (0#1 ++ g ++ 0#1 ++ n) a 0#6 13#5)
  | .mint r n a d => .word (RPFmt.pack 0#2 2#5 (0#1 ++ r ++ n) a d 13#5)
  | .snd p b a i => .word (RPFmt.pack p.bits 3#5 b a (0#3 ++ i) 13#5)
  | .rcv p a d => .word (RPFmt.pack p.bits 4#5 0#6 a d 13#5)
  | .fabst c d => .word (RPFmt.pack 0#2 5#5 0#6 (0#5 ++ c) d 13#5)
  | .sndA p i b a d => .word (RPFmt.pack p.bits (1#2 ++ i) b a d 13#5)
  | .yield n => .word (RPFmt.pack 0#2 0#5 0#6 n 0#6 14#5)
  | .sleep n d => .word (RPFmt.pack 0#2 1#5 0#6 n d 14#5)
  | .wake a => .word (RPFmt.pack 0#2 2#5 0#6 a 0#6 14#5)
  | .hold p => .word (RPFmt.pack p.bits 3#5 0#6 0#6 0#6 14#5)
  | .exit => .word (RPFmt.pack 0#2 4#5 0#6 0#6 0#6 14#5)
  | .selfid d => .word (RPFmt.pack 0#2 5#5 0#6 0#6 d 14#5)
  | .rdskip c d => .word (RPFmt.pack 0#2 6#5 0#6 (0#5 ++ c) d 14#5)
  | .hint p h b a d => .word (RPFmt.pack p.bits (7#3 ++ h) b a d 14#5)
  | .launch p b a => .word (RPFmt.pack p.bits 0#5 b a 0#6 15#5)
  | .cast p b a c => .word (RPFmt.pack p.bits 1#5 b a (1#1 ++ c ++ 0#1) 15#5)
  | .recast p c => .word (RPFmt.pack p.bits 2#5 0#6 (1#1 ++ c ++ 0#1) 0#6 15#5)
  | .place a d => .word (RPFmt.pack 0#2 3#5 0#6 a d 15#5)
  | .placeSelf d => .word (RPFmt.pack 0#2 4#5 0#6 0#6 d 15#5)
  | .placeLoad d => .word (RPFmt.pack 0#2 5#5 0#6 0#6 d 15#5)
  | .vfadd p h b a d => .word (VFmt.pack 0#6 p.bits h b a d 16#5)
  | .vfsub p h b a d => .word (VFmt.pack 1#6 p.bits h b a d 16#5)
  | .vfmul p h b a d => .word (VFmt.pack 2#6 p.bits h b a d 16#5)
  | .vfmin p h b a d => .word (VFmt.pack 3#6 p.bits h b a d 16#5)
  | .vfmax p h b a d => .word (VFmt.pack 4#6 p.bits h b a d 16#5)
  | .vfabs p h a d => .word (VFmt.pack 5#6 p.bits h 0#5 a d 16#5)
  | .vfneg p h a d => .word (VFmt.pack 6#6 p.bits h 0#5 a d 16#5)
  | .vfma p h b a d => .word (VFmt.pack 8#6 p.bits h b a d 16#5)
  | .vfms p h b a d => .word (VFmt.pack 9#6 p.bits h b a d 16#5)
  | .vfma4 p h b a d => .word (VFmt.pack 10#6 p.bits h b a d 16#5)
  | .vfeq p h b a k => .word (VFmt.pack 16#6 p.bits h b a (0#2 ++ k) 16#5)
  | .vflt p h b a k => .word (VFmt.pack 17#6 p.bits h b a (0#2 ++ k) 16#5)
  | .vfle p h b a k => .word (VFmt.pack 18#6 p.bits h b a (0#2 ++ k) 16#5)
  | .vadd w p h b a d => .word (VFmt.pack (w ++ 0#4) p.bits h b a d 17#5)
  | .vsub w p h b a d => .word (VFmt.pack (w ++ 1#4) p.bits h b a d 17#5)
  | .vmul w p h b a d => .word (VFmt.pack (w ++ 2#4) p.bits h b a d 17#5)
  | .vsll w p h b a d => .word (VFmt.pack (w ++ 3#4) p.bits h b a d 17#5)
  | .vsrl w p h b a d => .word (VFmt.pack (w ++ 4#4) p.bits h b a d 17#5)
  | .vsra w p h b a d => .word (VFmt.pack (w ++ 5#4) p.bits h b a d 17#5)
  | .vmin w p h b a d => .word (VFmt.pack (w ++ 6#4) p.bits h b a d 17#5)
  | .vmax w p h b a d => .word (VFmt.pack (w ++ 7#4) p.bits h b a d 17#5)
  | .vminu w p h b a d => .word (VFmt.pack (w ++ 8#4) p.bits h b a d 17#5)
  | .vmaxu w p h b a d => .word (VFmt.pack (w ++ 9#4) p.bits h b a d 17#5)
  | .vand p h b a d => .word (VFmt.pack 10#6 p.bits h b a d 17#5)
  | .vor p h b a d => .word (VFmt.pack 11#6 p.bits h b a d 17#5)
  | .vxor p h b a d => .word (VFmt.pack 12#6 p.bits h b a d 17#5)
  | .vandn p h b a d => .word (VFmt.pack 13#6 p.bits h b a d 17#5)
  | .vieq p h b a k => .word (VFmt.pack 48#6 p.bits h b a (0#2 ++ k) 17#5)
  | .vilt p h b a k => .word (VFmt.pack 49#6 p.bits h b a (0#2 ++ k) 17#5)
  | .viltu p h b a k => .word (VFmt.pack 50#6 p.bits h b a (0#2 ++ k) 17#5)
  | .vbcast p h a d => .word (VFmt.pack 51#6 p.bits h 0#5 a d 17#5)
  | .kget p h k d => .word (VFmt.pack 52#6 p.bits h 0#5 (0#2 ++ k) d 17#5)
  | .kset p h a k => .word (VFmt.pack 53#6 p.bits h 0#5 a (0#2 ++ k) 17#5)
  | .vperm p h b a d => .word (VFmt.pack 0#6 p.bits h b a d 18#5)
  | .vperm2 p h b a d => .word (VFmt.pack 1#6 p.bits h b a d 18#5)
  | .vrot p h s a d => .word (VFmt.pack 2#6 p.bits h (0#1 ++ s) a d 18#5)
  | .vins p h s a d => .word (VFmt.pack 3#6 p.bits h (0#1 ++ s) a d 18#5)
  | .vext p h s a d => .word (VFmt.pack 4#6 p.bits h (0#1 ++ s) a d 18#5)
  | .vsumF p h a d => .word (VFmt.pack 5#6 p.bits h 0#5 a d 18#5)
  | .vmaxF p h a d => .word (VFmt.pack 6#6 p.bits h 0#5 a d 18#5)
  | .vminF p h a d => .word (VFmt.pack 7#6 p.bits h 0#5 a d 18#5)
  | .vsumI32 p h a d => .word (VFmt.pack 8#6 p.bits h 0#5 a d 18#5)
  | .vmaxI32 p h a d => .word (VFmt.pack 9#6 p.bits h 0#5 a d 18#5)
  | .vminI32 p h a d => .word (VFmt.pack 10#6 p.bits h 0#5 a d 18#5)
  | .vsumI16 p h a d => .word (VFmt.pack 11#6 p.bits h 0#5 a d 18#5)
  | .vsumI8 p h a d => .word (VFmt.pack 12#6 p.bits h 0#5 a d 18#5)
  | .vsumBf p h a d => .word (VFmt.pack 13#6 p.bits h 0#5 a d 18#5)
  | .vld p h o a d => .word (VFmt.pack 0#6 p.bits h o a d 19#5)
  | .vldWk p h o a d => .word (VFmt.pack 1#6 p.bits h o a d 19#5)
  | .vst p h o a d => .word (VFmt.pack 2#6 p.bits h o a d 19#5)
  | .vstWk p h o a d => .word (VFmt.pack 3#6 p.bits h o a d 19#5)
  | .vldSp p h o a d => .word (VFmt.pack 4#6 p.bits h o a d 19#5)
  | .vstSp p h o a d => .word (VFmt.pack 5#6 p.bits h o a d 19#5)
  | .vldWin p h o a d => .word (VFmt.pack 6#6 p.bits h o a d 19#5)
  | .vstWin p h o a d => .word (VFmt.pack 7#6 p.bits h o a d 19#5)
  | .scfg b a n => .word (RFmt.pack 0#7 b a (3#4 ++ n) 20#5)
  | .sclr n => .word (RFmt.pack 1#7 0#6 0#6 (3#4 ++ n) 20#5)
  | .srem n d => .word (RFmt.pack 2#7 0#6 (3#4 ++ n) d 20#5)
  | .vrcpA p h a d => .word (VFmt.pack 0#6 p.bits h 0#5 a d 21#5)
  | .vrsqA p h a d => .word (VFmt.pack 1#6 p.bits h 0#5 a d 21#5)
  | .vrcpS p h b a d => .word (VFmt.pack 2#6 p.bits h b a d 21#5)
  | .vrsqS p h b a d => .word (VFmt.pack 3#6 p.bits h b a d 21#5)
  | .vexp2A p h a d => .word (VFmt.pack 4#6 p.bits h 0#5 a d 21#5)
  | .vlog2A p h a d => .word (VFmt.pack 5#6 p.bits h 0#5 a d 21#5)
  | .pfx z o r e k => .word (PFmt.pack 0#12 z o r e k 22#5)
  | .vcvtFI p h a d => .word (VFmt.pack 0#6 p.bits h 0#5 a d 23#5)
  | .vcvtIF p h a d => .word (VFmt.pack 1#6 p.bits h 0#5 a d 23#5)
  | .vcvtBfF p h b a d => .word (VFmt.pack 2#6 p.bits h b a d 23#5)
  | .vcvtFBf p h g a d => .word (VFmt.pack 3#6 p.bits h (0#4 ++ g) a d 23#5)
  | .vcvtFMk8 p h q a d => .word (VFmt.pack 4#6 p.bits h (0#3 ++ q) a d 23#5)
  | .vpackI16 p h b a d => .word (VFmt.pack 5#6 p.bits h b a d 23#5)
  | .vunpkI16 p h g a d => .word (VFmt.pack 6#6 p.bits h (0#4 ++ g) a d 23#5)
  | .vunpkI8 p h q a d => .word (VFmt.pack 7#6 p.bits h (0#3 ++ q) a d 23#5)
  | .vquant p h t a d => .word (VFmt.pack 8#6 p.bits h t (a ++ 0#1) d 23#5)
  | .mlease p d => .word (RPFmt.pack p.bits 0#5 0#6 0#6 d 24#5)
  | .mrel => .word (RPFmt.pack 0#2 1#5 0#6 0#6 0#6 24#5)
  | .tsh p a t => .word (RPFmt.pack p.bits 2#5 0#6 a t 24#5)
  | .tshr p t d => .word (RPFmt.pack p.bits 3#5 0#6 t d 24#5)
  | .tld p b a t => .word (RPFmt.pack p.bits 4#5 b a t 24#5)
  | .tst p b a t => .word (RPFmt.pack p.bits 5#5 b a t 24#5)
  | .tzero p t => .word (RPFmt.pack p.bits 6#5 0#6 0#6 t 24#5)
  | .mma p b a f z c => .word (RPFmt.pack p.bits 7#5 b a (0#1 ++ f ++ z ++ c) 24#5)
  | .tqnt p b u t => .word (RPFmt.pack p.bits 8#5 b u t 24#5)
  | .cpMm p b a r w q => .word (RPFmt.pack p.bits 0#5 (b ++ 0#1) (a ++ 0#1) (0#1 ++ r ++ w ++ q) 25#5)
  | .cpMs p b a r w q => .word (RPFmt.pack p.bits 1#5 (b ++ 0#1) (a ++ 0#1) (0#1 ++ r ++ w ++ q) 25#5)
  | .cpMv p b a r w q => .word (RPFmt.pack p.bits 2#5 (b ++ 0#1) (a ++ 0#1) (0#1 ++ r ++ w ++ q) 25#5)
  | .cpSm p b a r w q => .word (RPFmt.pack p.bits 3#5 (b ++ 0#1) (a ++ 0#1) (0#1 ++ r ++ w ++ q) 25#5)
  | .cpSs p b a r w q => .word (RPFmt.pack p.bits 4#5 (b ++ 0#1) (a ++ 0#1) (0#1 ++ r ++ w ++ q) 25#5)
  | .cpSv p b a r w q => .word (RPFmt.pack p.bits 5#5 (b ++ 0#1) (a ++ 0#1) (0#1 ++ r ++ w ++ q) 25#5)
  | .cpVm p b a r w q => .word (RPFmt.pack p.bits 6#5 (b ++ 0#1) (a ++ 0#1) (0#1 ++ r ++ w ++ q) 25#5)
  | .cpVs p b a r w q => .word (RPFmt.pack p.bits 7#5 (b ++ 0#1) (a ++ 0#1) (0#1 ++ r ++ w ++ q) 25#5)
  | .cpVv p b a r w q => .word (RPFmt.pack p.bits 8#5 (b ++ 0#1) (a ++ 0#1) (0#1 ++ r ++ w ++ q) 25#5)
  | .cpGth p b a r w q => .word (RPFmt.pack p.bits 9#5 (b ++ 0#1) (a ++ 0#1) (0#1 ++ r ++ w ++ q) 25#5)
  | .cpSct p b a r w q => .word (RPFmt.pack p.bits 10#5 (b ++ 0#1) (a ++ 0#1) (0#1 ++ r ++ w ++ q) 25#5)
  | .qfCp p a q => .word (RPFmt.pack p.bits 11#5 0#6 a (0#3 ++ q) 25#5)
  | .clAredSum p b a q => .word (RPFmt.pack p.bits 0#5 b a (0#4 ++ q) 26#5)
  | .clAredMax p b a q => .word (RPFmt.pack p.bits 1#5 b a (0#4 ++ q) 26#5)
  | .clAredMin p b a q => .word (RPFmt.pack p.bits 2#5 b a (0#4 ++ q) 26#5)
  | .clBcst p b a q => .word (RPFmt.pack p.bits 3#5 b a (0#4 ++ q) 26#5)
  | .clGath p b a q => .word (RPFmt.pack p.bits 4#5 b a (0#4 ++ q) 26#5)
  | .qfCl p a q => .word (RPFmt.pack p.bits 5#5 0#6 a (0#4 ++ q) 26#5)
  | .cbInit p b a => .word (RPFmt.pack p.bits 0#5 b a 0#6 27#5)
  | .cbArr p a d => .word (RPFmt.pack p.bits 1#5 0#6 a d 27#5)
  | .cbWt p b a d => .word (RPFmt.pack p.bits 2#5 b a d 27#5)
  | .cbClr p a => .word (RPFmt.pack p.bits 3#5 0#6 a 0#6 27#5)
  | .mfsr s d => .word (RFmt.pack 0#7 s 0#6 d 28#5)
  | .mtsr s a => .word (RFmt.pack 1#7 s a 0#6 28#5)
  | .mfcr a d => .word (RFmt.pack 2#7 0#6 a d 28#5)
  | .mtcr b a => .word (RFmt.pack 3#7 b a 0#6 28#5)
  | .hret => .word (RFmt.pack 4#7 0#6 0#6 0#6 28#5)
  | .trap n => .word (RFmt.pack 5#7 n 0#6 0#6 28#5)
  | .copRd n a d => .word (RFmt.pack 6#7 (0#4 ++ n) a d 28#5)
  | .copReplay a => .word (RFmt.pack 7#7 0#6 a 0#6 28#5)
  | .fltDone b a => .word (RFmt.pack 8#7 b a 0#6 28#5)
  | .tlbInv p b a => .word (RPFmt.pack p.bits 0#5 b a 0#6 29#5)
  | .tlbInva p => .word (RPFmt.pack p.bits 1#5 0#6 0#6 0#6 29#5)
  | .tlbProbe p a d => .word (RPFmt.pack p.bits 2#5 0#6 a d 29#5)
  | .atpRd d => .word (RPFmt.pack 0#2 3#5 0#6 0#6 d 29#5)
  | .atpWr p a => .word (RPFmt.pack p.bits 4#5 0#6 a 0#6 29#5)
  | .ctxNew p a d => .word (RPFmt.pack p.bits 0#5 0#6 a d 30#5)
  | .ctxGrant p b a => .word (RPFmt.pack p.bits 1#5 b a 0#6 30#5)
  | .ctxRd s a d => .word (RPFmt.pack 0#2 2#5 s a d 30#5)
  | .ctxWr p b a s => .word (RPFmt.pack p.bits 3#5 b a s 30#5)
  | .ctxRun p a => .word (RPFmt.pack p.bits 4#5 0#6 a 0#6 30#5)
  | .ctxStop p a => .word (RPFmt.pack p.bits 5#5 0#6 a 0#6 30#5)
  | .ctxKill p a => .word (RPFmt.pack p.bits 6#5 0#6 a 0#6 30#5)
  | .ctxResume p c a => .word (RPFmt.pack p.bits 7#5 (0#4 ++ c) a 0#6 30#5)
  | .ctxIntr a => .word (RPFmt.pack 0#2 8#5 0#6 a 0#6 30#5)
  | .addN d b => .parcel (Q0Fmt.pack d b 1#4 0#2)
  | .subN d b => .parcel (Q0Fmt.pack d b 2#4 0#2)
  | .andN d b => .parcel (Q0Fmt.pack d b 3#4 0#2)
  | .orN d b => .parcel (Q0Fmt.pack d b 4#4 0#2)
  | .xorN d b => .parcel (Q0Fmt.pack d b 5#4 0#2)
  | .sllN d b => .parcel (Q0Fmt.pack d b 6#4 0#2)
  | .srlN d b => .parcel (Q0Fmt.pack d b 7#4 0#2)
  | .sraN d b => .parcel (Q0Fmt.pack d b 8#4 0#2)
  | .mulN d b => .parcel (Q0Fmt.pack d b 9#4 0#2)
  | .jrN b => .parcel (Q0Fmt.pack 0#5 b 10#4 0#2)
  | .callrN b => .parcel (Q0Fmt.pack 0#5 b 11#4 0#2)
  | .retN => .parcel (Q0Fmt.pack 0#5 0#5 12#4 0#2)
  | .addiN d i => .parcel (Q1Fmt.pack d i 0#3 1#2)
  | .liN d i => .parcel (Q1Fmt.pack d i 1#3 1#2)
  | .slliN d i => .parcel (Q1Fmt.pack d i 2#3 1#2)
  | .srliN d i => .parcel (Q1Fmt.pack d i 3#3 1#2)
  | .sraiN d i => .parcel (Q1Fmt.pack d i 4#3 1#2)
  | .andiN d i => .parcel (Q1Fmt.pack d i 5#3 1#2)
  | .addiNSp i => .parcel (Q1Fmt.pack 31#5 i 6#3 1#2)
  | .nopN => .parcel (Q1Fmt.pack 0#5 0#6 0#3 1#2)
  | .ldDN d b u p => .parcel (QAFmt.pack d b u p.bits 0#3 2#2)
  | .stDN s b u p => .parcel (QAFmt.pack s b u p.bits 1#3 2#2)
  | .ldWN d b u p => .parcel (QAFmt.pack d b u p.bits 2#3 2#2)
  | .stWN s b u p => .parcel (QAFmt.pack s b u p.bits 3#3 2#2)
  | .ldDNSp d u p => .parcel (QBFmt.pack d u p.bits 4#3 2#2)
  | .stDNSp s u p => .parcel (QBFmt.pack s u p.bits 5#3 2#2)
  | .jN o => .parcel (QJFmt.pack o 6#3 2#2)
  | .ydSleepWake _ => .event
  | .ydSleepTimeout _ => .event
  | .preciseTrapDelivery _ => .event
  | .lateFaultDelivery _ => .event
  | .overwriteTrap _ => .event
  | .trapReflection _ => .event
  | .coreReset _ => .event
  | .holdSkipEnd _ => .event
  | .heldResultWrite _ => .event
  | .l1LineFill _ _ _ => .event
  | .arrivalHoldExpiry _ _ => .event
  | .yieldEnd _ => .event
  | .sleepTimeout _ => .event
  | .threadExitComplete _ => .event
  | .slotArbitration => .event
  | .launchRequest _ => .event
  | .launchReply _ => .event
  | .launchAdmit _ => .event
  | .lightThreadMove _ => .event
  | .lightThreadArrival _ => .event
  | .messageDeparture _ => .event
  | .fabricMessageArrival _ _ _ _ _ _ _ _ _ => .event
  | .inboxDeferredReply _ => .event
  | .sendReply _ _ _ _ _ _ => .event
  | .sendLatchTimeout _ => .event
  | .streamWriteDrain _ => .event
  | .l1iFill _ => .event
  | .fetchPrefetch _ _ => .event
  | .demandFetch _ => .event
  | .combineDrain _ _ => .event
  | .combineAgeExpiry _ => .event
  | .leaseAgeExpiry _ _ => .event
  | .leaseRenewal _ _ _ => .event
  | .writeGrant _ _ _ => .event
  | .ownershipGrant _ _ _ => .event
  | .updateMerge _ _ => .event
  | .remoteReply _ _ _ _ => .event
  | .forwardedAccess _ _ _ _ _ _ _ => .event
  | .remoteTimeout _ _ => .event
  | .vsegWrite _ _ => .event
  | .vsegSegmentStep _ => .event
  | .winWrite _ _ _ => .event
  | .scopeEntryWrite _ _ _ => .event
  | .hbcWrite _ _ _ => .event
  | .fqbWrite _ _ => .event
  | .fqhWrite _ _ => .event
  | .erbWrite _ _ => .event
  | .ercWrite _ _ => .event
  | .heldStoreReplay _ => .event
  | .requestReply _ => .event
  | .placeRequest _ => .event
  | .parkedValueDelivery _ => .event
  | .parkReservationExpiry _ => .event
  | .queueReservationExpiry _ _ _ => .event
  | .hbarAdvance _ _ => .event
  | .hbarTimeout _ _ => .event
  | .queueFencePerform _ _ _ => .event
  | .copyEntryStart _ _ => .event
  | .copyRow _ _ => .event
  | .leaseGrant _ => .event
  | .leaseHoldEnd _ => .event
  | .leaseCycleLimit _ => .event
  | .tshPerform _ => .event
  | .tldRow _ => .event
  | .tstRow _ => .event
  | .tzeroPerform _ => .event
  | .mmaStep _ => .event
  | .tqntRow _ => .event
  | .collectiveMatch _ _ _ _ => .event
  | .collectiveStep _ _ => .event
  | .faultRecord _ _ _ => .event
  | .sorterBatchClose _ => .event
  | .scrivenerWalk _ => .event
  | .tlbFillHoldExpiry _ => .event
  | .invalidationComplete _ => .event
  | .kick _ _ => .event
  | .ctxNewStep _ => .event
  | .cores _ => .event
  | .window _ => .event
  | .qslot _ => .event
  | .budget _ => .event
  | .map _ => .event
  | .recallMapped _ => .event
  | .ctxWrStep _ => .event
  | .cenWrite _ _ => .event
  | .featWrite _ _ => .event
  | .rekey _ => .event
  | .ctxRunStep _ => .event
  | .ctxStopStep _ => .event
  | .ctxKillStep _ => .event
  | .ctxFreezeStep _ => .event
  | .ctxThawStep _ => .event
  | .tokenResume _ _ => .event
  | .tokenDown _ _ => .event
  | .tokenUp _ _ => .event
  | .tokenKill _ _ => .event
  | .corePreempt _ => .event
  | .clusterSave _ _ => .event
  | .clusterRestore _ _ => .event
  | .liveMigration _ _ => .event
  | .queueSwitchOut _ _ => .event
  | .clusterReset _ => .event
  | .dieLinkFlitRetry _ _ _ => .event
  | .linkFlitRetry _ _ _ => .event
  | .portRetrain _ _ _ => .event
  | .portRetrainComplete _ _ => .event
  | .portDown _ _ => .event
  | .portCounterClear _ _ _ => .event
  | .hostWrite _ _ _ _ => .event
  | .hostRead _ _ _ _ => .event
  | .permissionMapWrite _ _ _ => .event
  | .allotmentWrite _ _ _ _ => .event
  | .quotaWrite _ _ _ => .event
  | .umonClear _ _ => .event
  | .counterSnapshot => .event
  | .counterPublish _ => .event
  | .halt _ _ _ => .event
  | .debugResume _ _ => .event
  | .crossTrigger _ => .event
  | .breakpointHit _ => .event
  | .pwrsWrite _ => .event
  | .slowEntry _ => .event
  | .normalReturn _ => .event
  | .saveEntry _ _ => .event
  | .overvoltageDisconnect _ _ => .event
  | .saveComplete => .event
  | .heldRestore _ => .event
  | .holdupSpent => .event
  | .transportEvent _ _ => .event
  | .extendedSelfTest _ _ => .event
  | .powerUp _ => .event
  | .imageLoad _ _ _ _ => .event
  | .attestationRequest _ _ => .event
  | .streamElementArrival _ _ => .event
  | .flitAcknowledgement _ _ => .event
  | .deviceIdentifierAssignment _ _ => .event

/-- The bytes of an instruction as memory holds them (R44: the first parcel at the lower address). -/
def encodeBytes (i : Instr) : List (BitVec 8) :=
  match encode i with
  | .word w => bytesOf w.toNat 4
  | .parcel p => bytesOf p.toNat 2
  | .event => []

/-- The encoding as a number, for the records that hold an instruction's word; 0 for an event. -/
def encodeNat (i : Instr) : Nat :=
  match encode i with
  | .word w => w.toNat
  | .parcel p => p.toNat
  | .event => 0

end Sys2Proof
end

