-- ==== Sys2Proof/Config.lean ====
section
/-! DEFINITION. What an implementation fixes, and the free values: values the spec gives no number for.  A free value
is an opaque constant, applied to a plain counter of State or to the operands it depends on: nothing proves what it is. -/

namespace Sys2Proof.Config

/-- R168: the keyed hash that seals a capability, of the secret and bits [63:18]. The hash is not architectural.
(Log: DESIGN CHOICE 5) -/
opaque sealOf : Nat → BitVec 46 → BitVec 18

/-- R168, R369: the secret that a context gets at its creation and at each REKEY. (Log: DESIGN CHOICE 5) -/
opaque secret : Nat → Nat

/-- A free 64-bit value, for the n-th use. (Log: DESIGN CHOICE 4) -/
opaque freeWord : Nat → Word

/-- A free byte, for the n-th use. (Log: DESIGN CHOICE 4) -/
opaque freeByte : Nat → Byte

/-- R446 to R449: the digest, signature and key functions of the secure element, which the spec names but whose
arithmetic it takes from ECDSA P-256 and SHA-256. The digest of a message of bytes. (Log: DESIGN CHOICE 6) -/
opaque digest : List Byte → BitVec 256

/-- R449: the signature of the module's identity key over a digest, the n-th that it makes. (Log: DESIGN CHOICE 6) -/
opaque sign : Nat → BitVec 256 → BitVec 512

/-- R446, R447: whether a signature over a digest verifies under the public key with an index.
(Log: DESIGN CHOICE 6) -/
opaque verify : Nat → BitVec 256 → BitVec 512 → Bool

/-- R232: how far past the reader's clock and the line's write time a granted lease reaches (the spec gives no length).
(Log: DESIGN CHOICE 8) -/
opaque leaseLength : Nat

/-- R190: elements that a stream's write buffer holds (the spec gives no number). (Log: DESIGN CHOICE 7) -/
opaque streamRoom : Nat

/-- R137, R190: the code that a progress trap reports for a push that finds no room (the spec gives none).
(Log: DESIGN CHOICE 7) -/
opaque streamFullCode : Nat

/-- See replayRoom. -/
opaque replayRoomPast : Nat

/-- R99, R248: entries of the cluster's fault-replay buffer (the spec gives no number; there is one at least).
(Log: DESIGN CHOICE 7) -/
def replayRoom : Nat := replayRoomPast + 1

/-- See requestRoom. -/
opaque requestRoomPast : Nat

/-- R98 REMOTE_FULL: entries of a core's fabric request buffer (the spec gives no number; there is one at least).
(Log: DESIGN CHOICE 7) -/
def requestRoom : Nat := requestRoomPast + 1

/-- See saveRegions. -/
opaque saveRegionsPast : Nat

/-- R399: save regions in the pool that boot firmware reserves (the spec gives no number; there is one at least).
(Log: DESIGN CHOICE 7) -/
def saveRegions : Nat := saveRegionsPast + 1

/-- R427: machine address of the counter snapshot, in the root's reserved pool. (Log: DESIGN CHOICE 7) -/
opaque snapBase : Nat

/-- R427: P, 0 to 15: the counters are copied every 2^(16 + P) cycles. (Log: DESIGN CHOICE 7) -/
opaque snapPeriod : Fin 16

/-- R434: records that a field's trace ring holds. (Log: DESIGN CHOICE 7) -/
opaque traceRoom : Nat

/-- R434: machine address of a field's trace ring, in the root's reserved pool. (Log: DESIGN CHOICE 7) -/
opaque traceBase : Nat → Nat

/-- R399: where the pool of save regions begins in machine memory, in units of a region, 4 MiB.
(Log: DESIGN CHOICE 7) -/
opaque savePool : Nat

/-- R399: machine address of a save region of the pool. (Log: DESIGN CHOICE 7) -/
def saveBase (i : Nat) : Nat := (savePool + i) % 2 ^ 17 * 2 ^ 22

end Sys2Proof.Config
end

