-- ==== Sys2Proof/Machine/Tab.lean ====
section
/-! DEFINITION. Tables: the sparse collections of the device (slots, cores, clusters, contexts, lines …), each a list
of (key, value) pairs in rising key order, with one default for the keys that are not listed. -/

namespace Sys2Proof.Machine

/-- A table from numbers to `α`. -/
abbrev Tab (α : Type) := List (Nat × α)

/-- The value listed at a key. -/
def Tab.find? {α : Type} : Tab α → Nat → Option α
  | [], _ => none
  | (k, v) :: r, n => if k = n then some v else Tab.find? r n

/-- The value at a key, or the default of the table. -/
def Tab.get {α : Type} (t : Tab α) (d : α) (n : Nat) : α := (Tab.find? t n).getD d

/-- List a value at a key, in its place. -/
def Tab.put {α : Type} : Tab α → Nat → α → Tab α
  | [], n, v => [(n, v)]
  | (k, w) :: r, n, v =>
    if k = n then (n, v) :: r
    else if n < k then (n, v) :: (k, w) :: r
    else (k, w) :: Tab.put r n v

/-- Drop every listing of a key. -/
def Tab.drop {α : Type} (t : Tab α) (n : Nat) : Tab α := t.filter (fun p => p.1 != n)

/-- Apply a function to the value at a key. -/
def Tab.upd {α : Type} (t : Tab α) (d : α) (n : Nat) (f : α → α) : Tab α := t.put n (f (t.get d n))

/-- The first element that satisfies a test, as an index. -/
def firstIdx {α : Type} (l : List α) (p : α → Bool) : Option Nat :=
  match l with
  | [] => none
  | a :: r => if p a then some 0 else (firstIdx r p).map (· + 1)

/-- Replace the elements that satisfy a test. -/
def updWhere {α : Type} (l : List α) (p : α → Bool) (f : α → α) : List α :=
  l.map (fun a => if p a then f a else a)

/-- A list without repetitions. -/
def uniq : List Nat → List Nat
  | [] => []
  | a :: r => if r.contains a then uniq r else a :: uniq r

/-- The largest of a list of numbers, 0 for none. -/
def maxOf (l : List Nat) : Nat := l.foldl max 0

/-- The numbers from 0 to n - 1. -/
def upTo (n : Nat) : List Nat := List.range n

/-- Apply a step function to each element in order. -/
def foldS {α σ : Type} (l : List α) (s : σ) (f : σ → α → σ) : σ := l.foldl f s

end Sys2Proof.Machine
end

