-- ==== Sys2Proof/Machine/State.lean ====
section
/-! DEFINITION. The state of the device, as plain data, and the machine right after reset.

Numbering: cluster `cl` is a physical cluster 0 to 1,023; core `cid` is 8 × cl + core; slot `sid` is 16 × cid + slot.
Tables list what differs from their default, so an untouched cluster, core or slot is at its reset value. -/

namespace Sys2Proof.Machine

/-! ### Threads -/

/-- R163: the arming state of a register. -/
inductive Arm where
  | unarmed | awaiting | full
deriving DecidableEq, Repr

/-- R240: a release that a write carries: the count of performed writes at its fence, the index of its scope, the core
and context of its issuer, the scope entry as the fence read it (R239), and the threads whose accesses happen before it
(R236). -/
structure Rel where
  upto : Nat
  scope : Nat
  cid : Nat
  ctx : Nat
  entry : Word := 0#64
  uids : List Nat := []
deriving DecidableEq, Repr

/-- R163, R173: the arming state, the re-arm flag, and the logical time of an arrived value, with the releases that its
sender made before it. -/
structure ArmSt where
  st : Arm := .unarmed
  re : Bool := false
  time : Nat := 0
  rels : List Rel := []
deriving DecidableEq, Repr

/-- The spaces a program addresses (R204). -/
inductive Space where
  | mem | sp | vm
deriving DecidableEq, Repr

/-- Why an instruction completes not-ready: the causes of R98, R141, R148, R161, R177, R190, R253, R283, R295, R297, R298,
R310, R362 and R389, with what their clearing depends on. -/
inductive Cause where
  | translation (va : Nat) (write : Bool)
  /-- R362: TRANSLATION of `tlb.probe`, for which the scrivener walks. -/
  | probe
  | lineAbsent (line : Nat)
  | lease (line : Nat)
  | writeGrant (line : Nat)
  | combineFull
  | faultPending (page : Nat)
  | heldStores
  | replayFull
  | remote
  | remoteFull
  | awaiting (r : BitVec 6)
  | ownership (line : Nat)
  | reply
  /-- R265: REPLY of `park`, for which no latch may be BUSY. -/
  | latches
  | empty (g : Nat)
  | granuleFull (g : Nat)
  | parkFull
  | parked (r : BitVec 6)
  /-- R254: a reply from a virtual cluster has asked to try again, for the cause with a code; the new request has not been
  answered. -/
  | retry (code vcl : Nat)
  | order (scope : Nat)
  | noFrame
  | barrier (n : Nat) (phase : Nat)
  | barrierHeld (n : Nat)
  | reconfig (cl : Nat)
  | merge (line : Nat)
  | mergeUnit (line : Nat)
  | held
  | sendFull
  | ack
  | launch
  | launchFull
  | queueUnmapped (q : Nat)
  | channelFull (c : Nat)
  | channelEmpty (c : Nat)
  | streamFull (r : Nat)
  | phase (g : Nat) (phn : Nat)
  | noLease
  | queueFull (engine : Nat) (q : Nat)
  | leaseWait
  | shapeBusy (t : Nat)
  | ctxFull
  | noHandle
deriving DecidableEq, Repr

/-- A trap waiting for its delivery (R17, R18): code, detail, the sequence number and origin of `ecause`, the address
and the status it records. -/
structure Trap where
  code : Nat
  info : Word
  seq : BitVec 8 := 0#8
  org : Nat := 0
  pc : Word
  st : Word
deriving DecidableEq, Repr

/-- R67: the fields of a `pfx` word. -/
structure Pfx where
  z : Bool
  op4 : BitVec 5
  rm : BitVec 3
  me : Bool
  maskReg : BitVec 3
deriving DecidableEq, Repr

/-- A register write of a held instruction: scalar field, vector field or mask. -/
inductive RegW where
  | x (r : BitVec 6) (v : Word)
  | v (r : BitVec 5) (v : VWord)
  | k (r : BitVec 3) (v : BitVec 16)
deriving DecidableEq, Repr

/-- R195: where a vector store goes: the scratchpad of its cluster, or a line of memory, strongly or weakly. -/
inductive StoreTo where
  | sp | strong | weak
deriving DecidableEq, Repr

/-- R185: a vector store that is performed once every older ring entry has retired: its virtual address, its address
there, and its bytes, of which an absent one is not written; `quiet` where a breakpoint matched its instruction
(R432). -/
structure LateStore where
  dest : StoreTo
  va : Nat := 0
  at_ : Nat
  bytes : List (Option Byte)
  quiet : Bool := false
deriving DecidableEq, Repr

/-- R190: an element of a stream that a pop which is not ready yet has read: its register and number, its bits, and what
reading it leaves with the thread (R240, R241). -/
structure Popped where
  reg : Nat
  e : Nat
  v : Nat
  rels : List Rel := []
  stale : List (Nat × Nat) := []
deriving DecidableEq, Repr

/-- R330, R184: an entry of the coprocessor ring; `left` counts the offered cycles up to the one
in which its results are written. -/
structure RingEntry where
  seq : BitVec 8
  word : BitVec 32
  pfx : Option Pfx
  addr : Word
  xa : Word := 0#64
  ka : BitVec 16 := 0#16
  mask : BitVec 16 := 0xFFFF#16
  left : Nat := 0
  writes : List RegW := []
  fault : Option (Nat × Word) := none
  pops : List (Nat × Nat) := []
  store : Option LateStore := none
  qsat : Nat := 0
  retired : Bool := false
deriving DecidableEq, Repr

/-- R186, R187: a stream on one of `v12` to `v15`: base, control word, the images of `ox0` to `ox2`, and the
position P. -/
structure Stream where
  base : Word
  ctl : Word
  ox0 : BitVec 32
  s1 : BitVec 32
  s2 : BitVec 32
  p : Nat := 0
deriving DecidableEq, Repr

/-- R190: bytes within one line that a push of a stream register has left in the thread's write buffer, with the releases
that they carry (R240). -/
structure Push where
  reg : Nat
  cells : List Host.Cell
  rels : List Rel := []
deriving DecidableEq, Repr

/-- R148, R173, R254: the state of a latch. -/
inductive LatchSt where
  | idle | busy | done | parked
deriving DecidableEq, Repr

/-- R148 launch latch, R173 send latch, R254 request latch: state, tag, code or cause, value (of a launch latch, the number
of the accepted launch), and the cycle in which it became BUSY. -/
structure Latch where
  st : LatchSt := .idle
  tag : Word := 0#64
  code : Nat := 0
  value : Word := 0#64
  since : Nat := 0
deriving DecidableEq, Repr

/-- R8, R126 and the further state a thread holds. -/
structure Thread where
  /-- Its number among all threads: what names it wherever it stands. -/
  uid : Nat := 0
  ctx : Nat := 0
  queue : Nat := 0
  kern : Bool := false
  mig : Bool := false
  launchId : Nat := 0
  group : Nat := 0
  gidx : Nat := 0
  pm1 : Nat := 0
  place : Nat := 0
  x : Vector Word 32 := .replicate 32 0#64
  xarm : Vector ArmSt 32 := .replicate 32 {}
  v : Vector VWord 16 := .replicate 16 0#512
  k : Vector (BitVec 16) 8 := .replicate 8 0#16
  ox : Vector (BitVec 32) 4 := .replicate 4 0#32
  pc : Word := 0#64
  nrt : Word := 0#64
  stklim : Word := 0#64
  st : Word := 0#64
  uha : Word := 0#64
  epc : Word := 0#64
  ecause : Word := 0#64
  einfo : Word := 0#64
  estat : Word := 0#64
  rtcCount : Nat := 0
  rtcTag : Word := 0#64
  ring : List RingEntry := []
  nextSeq : BitVec 8 := 0#8
  replay : List RingEntry := []
  rpc : Word := 0#64
  /-- The replay-list entry that `cop.replay` is reissuing, with its captured operands (R331). -/
  cap : Option RingEntry := none
  streams : Vector (Option Stream) 4 := .replicate 4 none
  drains : List Push := []
  /-- R190: what the pop at an address has read so far. -/
  popped : Word × List Popped := (0#64, [])
  /-- R364: of the `tlb.probe` at an address, its x[a] and the result word that the scrivener's walk for it gave. -/
  probed : Option (Word × Word × Word) := none
  skipCtr : Word := 0#64
  wakeLatch : Bool := false
  gen : BitVec 8 := 0#8
  owc : Nat := 0
  last : BitVec 4 := 0#4
  pendOv : Option (BitVec 6 × BitVec 4) := none
  ll : Latch := {}
  sl : Latch := {}
  rl : Latch := {}
  clock : Nat := 0
  /-- R232, R236: no strong load reads a copy older than this count of performed writes. -/
  strongFloor : Nat := 0
  /-- R236, R240: nor does any load read one older than this: what the thread has acquired. -/
  floor : Nat := 0
  /-- R236: its clock at its latest fence. -/
  fenceClock : Nat := 0
  /-- R240: the releases whose values its weak loads have returned, for its next fence. -/
  seen : List Rel := []
  /-- R240: its latest fence of each scope. -/
  fences : List Rel := []
  /-- R236: the threads of whose releases it has acquired one: their accesses happen before its next release. -/
  behind : List Nat := []
  /-- R241: the lines that its loads have read from copies older than the home's, and the count at the load. -/
  stale : List (Nat × Nat) := []
  prefixLatch : Option Pfx := none
  pfxWord : BitVec 32 := 0#32
  trapWait : Option Trap := none
  heavy : Bool := false
  fresh : Bool := false
  scopeAt : Option (Word × Word) := none
  failed : List Nat := []
  waits : List Nat := []
  fetched : List (Nat × BitVec 16) := []
  /-- R70, R213: the pc at which the thread waited for them. -/
  fetchedFor : Word := 0#64
  /-- R17: the address of an instruction that is executing again, and `st.NR` before its first execution. -/
  nrBefore : Option (Word × Bool) := none
  /-- R412, R345: the access at this address has been lost on a die-to-die link. -/
  lost : Option Word := none
  /-- R432: a breakpoint has matched the instruction that it issues, so that no watch does. -/
  broke : Bool := false
deriving DecidableEq, Repr

/-- Why a slot sleeps. -/
inductive SleepWhy where
  | yield
  | sleep (d : BitVec 6)
  | policy (causes : List Cause)
  | reflect (t : Trap)
deriving DecidableEq, Repr

/-- R125: the state of a slot; `run` offers issue, `skip n` passes over n offered cycles. -/
inductive SlotSt where
  | free
  | run
  | skip (n : Nat)
  | sleep (why : SleepWhy) (n : Nat)
deriving DecidableEq, Repr

/-- R206, R232: a line copy in an L1: data, write time, lease end, the cycle of its grant, the performed-write count it
is as new as, exclusive ownership, the slots that pin it and the slots it is held for with the cycle of arrival. -/
structure L1Line where
  data : BitVec 512
  wt : Nat
  leaseEnd : Nat
  granted : Nat
  asOf : Nat
  excl : Bool := false
  pins : List Nat := []
  holds : List (Nat × Nat) := []
  /-- R240: the releases that its bytes carry, by offset. -/
  rels : Tab (List Rel) := []
deriving DecidableEq, Repr

/-- R135: a bypass line: its line, the copy (`granted` is the cycle of arrival), and the address of the access that
requested it. -/
structure Bypass where
  line : Nat
  copy : L1Line
  pc : Word
deriving DecidableEq, Repr

/-- A slot of a core: its state, its queue owner QO (R155), the last generation issued in it (R167), its bypass line and
its thread. -/
structure Slot where
  st : SlotSt := .free
  qo : BitVec 8 := 0xFF#8
  gen : BitVec 8 := 0#8
  bypass : Option Bypass := none
  reserved : Bool := false
  dying : Bool := false
  /-- R391: its thread has been saved or moved, and the slot no longer counts for its context (R372). -/
  left : Bool := false
  /-- R404: its core departs from the context of its thread, which issues nothing more here. -/
  stopped : Bool := false
  th : Thread := {}
deriving DecidableEq, Repr

/-! ### Cores -/

/-- R208: an entry of the store-combining buffer: the bytes, the cycle of its first store, the slots that wrote it, and
the releases that its bytes carry (R240). -/
structure CombEntry where
  line : Nat
  bytes : List Host.Cell
  since : Nat
  writers : List Nat
  rels : Tab (List Rel) := []
deriving DecidableEq, Repr

/-- R258: a unit of an update-only line: its 8-byte index, operation kind, width bit and value. -/
structure UpdUnit where
  idx : Nat
  kind : Nat
  wide : Bool
  val : Word
  rels : List Rel := []
deriving DecidableEq, Repr

/-- R243: an update-only line and the slots that wrote to it. -/
structure UpdLine where
  line : Nat
  units : List UpdUnit
  writers : List Nat
deriving DecidableEq, Repr

/-- R169: a register-fabric message. -/
structure Msg where
  cap : Word
  idx : Nat
  value : Word
  clock : Nat
  ack : Bool
  ctx : Nat
  from_ : Nat
  fromGen : BitVec 8
  since : Nat
  /-- The sending thread, and the releases that it made before the send. -/
  uid : Nat := 0
  rels : List Rel := []
  /-- R264: a delivery of the park table, to the register `idx` of the thread of a slot. -/
  delivery : Bool := false
  /-- The thread that its identity named, once it has been looked up, and a waiter's generation as it parked. -/
  tuid : Nat := 0
  tgen : BitVec 8 := 0#8
deriving DecidableEq, Repr

/-- R170, R396: what an inbox entry holds: kind 0 message, 1 send reply, 2 request reply, 3 launch reply. -/
structure InboxEntry where
  kind : Nat
  slot : Nat
  gen : BitVec 8
  reg : BitVec 6 := 0#6
  value : Word := 0#64
  clock : Nat := 0
  code : Nat := 0
  uid : Nat := 0
  /-- Of a send reply: the cycle of the send. -/
  since : Nat := 0
  rels : List Rel := []
deriving DecidableEq, Repr

/-- R345: a forwarded access to memory elsewhere: kind 0 load, 1 store, 2 atomic, 3 update. -/
structure RemoteReq where
  kind : Nat
  slot : Nat
  gen : BitVec 8
  sys : Nat
  bytes : List Host.Cell := []
  op : Nat := 0
  wide : Bool := true
  operand : Word := 0#64
  operand2 : Word := 0#64
  since : Nat
  va : Nat := 0
  /-- The context and the thread of the access, and its address. -/
  ctx : Nat := 0
  uid : Nat := 0
  pc : Word := 0#64
  /-- R421: the packet that carries it. -/
  num : Nat := 0
deriving DecidableEq, Repr

/-- R356: a composed translation entry: ASID, first virtual page, pages, first system page, permissions, whether D was
set in every leaf, and the stamps (context, generation) of its stages; `heldUntil` is its hold for a requester. -/
structure TlbEntry where
  asid : Nat
  vpn : Nat
  pages : Nat
  spn : Nat
  r : Bool
  w : Bool
  x : Bool
  dset : Bool
  stamps : List (Nat × BitVec 32)
  /-- The kinds of use that the windows of every stage permit (R371): for another kind the entry is not used. -/
  kr : Bool := true
  kw : Bool := true
  kx : Bool := true
  heldUntil : Nat := 0
deriving DecidableEq, Repr

/-- A barrel core. (Log: DESIGN CHOICE 2) -/
structure Core where
  /-- R122: the cycles that the core has completed since its reset, and the device's cycle at that reset. -/
  cycle : Nat := 0
  start : Nat := 0
  c : Vector Word 32 := .replicate 32 0#64
  carm : Vector ArmSt 32 := .replicate 32 {}
  ctime : Vector Nat 32 := .replicate 32 0
  w : Vector VWord 16 := .replicate 16 0#512
  wtime : Vector Nat 16 := .replicate 16 0
  /-- R128: the shared registers written in this cycle (32 + n for w), each with its writer: a slot whose held instruction
  completed, 16 for the issuing instruction, 17 for an arrival. -/
  wrote : List (Nat × Nat) := []
  /-- R165: the armed registers that a write of this cycle has disarmed: 32 × slot + r, or 512 + r for a shared one. -/
  disarmed : List Nat := []
  /-- R128, R169: whether an arrival has been applied in this cycle, and those that wait for a cycle of their own. -/
  ported : Bool := false
  port : List (Nat × Msg) := []
  swl : Nat := 0
  deficit : Tab Int := []
  l1 : Tab L1Line := []
  comb : List CombEntry := []
  upd : List UpdLine := []
  grants : List (Nat × Nat × Nat) := []
  sendq : List Msg := []
  inbox : List InboxEntry := []
  deferred : List InboxEntry := []
  l1i : Tab (BitVec 512) := []
  tlb : List TlbEntry := []
  remote : List RemoteReq := []
  da : Vector Nat 16 := .replicate 16 0
  nrAt : List (Nat × Nat × Nat) := []
  halted : Bool := false
  /-- R391: the core is pre-empted: its slots issue nothing until they have been saved or moved. -/
  stopped : Bool := false
  /-- R391: its slots become FREE at the next rotation boundary; and the slots as they were saved. (Log: DEDUCED 37) -/
  emptying : Bool := false
  kept : List (Nat × Slot) := []
deriving DecidableEq, Repr

/-! ### Engines and clusters -/

/-- The thread that entered an entry, as it stood (R339): slot, generation, context, and its number. -/
structure Issuer where
  sid : Nat
  gen : BitVec 8
  ctx : Nat
  uid : Nat := 0
deriving DecidableEq, Repr

/-- R308, R318, R319: an entry of a copy queue, with its progress (next row) and the windows it read at its start. -/
structure CopyEntry where
  who : Issuer
  fence : Option Nat := none
  dst : Space
  src : Space
  idxd : Nat := 0
  few : Bool := false
  fer : Bool := false
  dbase : Word := 0#64
  dpitch : Word := 0#64
  sbase : Word := 0#64
  spitch : Word := 0#64
  ox0 : BitVec 32 := 0#32
  ox1 : BitVec 32 := 0#32
  ox2 : BitVec 32 := 0#32
  bar : BitVec 32 := 0#32
  row : Nat := 0
  wins : Option (List Word) := none
  num : Nat := 0
  /-- R274: the cycle in which it was entered. -/
  at_ : Nat := 0
  /-- R280: the page whose fault the entry waits on, and a page whose fault ended in failure. -/
  waitPage : Option Nat := none
  failedPage : Option Nat := none
deriving DecidableEq, Repr

/-- Tile commands of major 24. -/
inductive TileCmd where
  | tsh (t : Nat) (shape : Word)
  | tld (t : Nat) (o pitch : Word)
  | tst (t : Nat) (o pitch : Word)
  | tzero (t : Nat)
  | mma (fmt : Nat) (z : Bool) (c a b : Nat)
  | tqnt (t u : Nat) (scale : Nat)
deriving DecidableEq, Repr

/-- R294: an entry of the sequencer queue; `shapes` are the shapes read at its start (R289), `step` the next step. -/
structure TileEntry where
  who : Issuer
  cmd : TileCmd
  bar : BitVec 32 := 0#32
  shapes : Option (Nat × Nat × Nat) := none
  step : Nat := 0
  nstep : Nat := 0
  ck : Bool := false
deriving DecidableEq, Repr

/-- R321: an entry of a collective queue. -/
structure CollEntry where
  who : Issuer
  cl : Nat
  fence : Option Nat := none
  form : Nat := 0
  dst : Word := 0#64
  src : Word := 0#64
  ox0 : BitVec 32 := 0#32
  ox1 : BitVec 32 := 0#32
  ox2 : BitVec 32 := 0#32
  bar : BitVec 32 := 0#32
  /-- R322, R323: the partners' sources, by device, once the entry has matched. -/
  parts : Option (List (Nat × List Nat)) := none
  step : Nat := 0
  acc : List Nat := []
  num : Nat := 0
  at_ : Nat := 0
  waitPage : Option Nat := none
  failedPage : Option Nat := none
deriving DecidableEq, Repr

/-- R275: a refused issuer of a queue: slot, generation and the address of the enqueue. -/
structure Refused where
  sid : Nat
  gen : BitVec 8
  pc : Word
deriving DecidableEq, Repr

/-- R275: a queue's issuers that were refused, oldest first, and the reservations of freed entries for them (issuer,
end). -/
structure QueueCtl where
  ring : List Refused := []
  resv : List (Refused × Nat) := []
deriving DecidableEq, Repr

/-- R224, R225: a park table entry: its number among the 64, what it waits on, its waiter, and its ticket's count. -/
structure ParkEntry where
  idx : Nat := 0
  kind : Nat
  gran : Nat
  sid : Nat
  gen : BitVec 8
  reg : BitVec 6
  seqNo : BitVec 8
  frame : Nat := 0
  ctx : Nat := 0
  clock : Nat := 0
  uid : Nat := 0
deriving DecidableEq, Repr

/-- R225: an issuer that the park table has refused: how often in a row, and whether it is in the refusal ring. -/
structure ParkRefused where
  sid : Nat
  gen : BitVec 8
  count : Nat
  inRing : Bool := true
deriving DecidableEq, Repr

/-- R248: a weak store or commutative update that a fault holds: its thread, the virtual page and address, the bytes by
virtual address, the update (kind, width, value), the fault id whose end has released it for replay (R342), and its
number in the order in which stores were held. -/
structure HeldStore where
  who : Issuer
  page : Nat
  va : Nat
  bytes : List Host.Cell
  upd : Option (Nat × Bool × Word) := none
  released : Option (BitVec 32) := none
  rels : List Rel := []
  num : Nat := 0
deriving DecidableEq, Repr

/-- R254: a request on its way to a place, by its virtual cluster, to a home or an owner, or an invalidation. -/
inductive ReqOp where
  | amo (op : Nat) (wide : Bool) (sys : Nat) (d e : Word)
  | ff (form : Nat) (vcl o : Nat) (data : Word) (reg : BitVec 6)
  | raw (space : Space) (store : Bool) (vcl o : Nat) (data : Word)
  | inval (stage : Nat) (first count : Nat)
deriving DecidableEq, Repr

/-- A request with its issuer. -/
structure Req where
  who : Issuer
  op : ReqOp
  clock : Nat
  rels : List Rel := []
deriving DecidableEq, Repr

/-- R171, R402: a forwarding entry: the core, slot and generation that a thread of a context left, and the thread; the new
address is where that thread stands, so every entry of it always holds the newest. (Log: DESIGN CHOICE 66) -/
structure Forward where
  ocore : Nat
  oslot : Nat
  gen : BitVec 8
  ctx : Nat
  uid : Nat
deriving DecidableEq, Repr

/-- R148, R151: a launch in a work buffer or waiting for it. -/
structure Work where
  id : Nat
  who : Issuer
  ctx : Nat
  queue : Nat
  entry : Word
  arg : Word
  ox0 : BitVec 32
  ox1 : BitVec 32
  ox2 : BitVec 32
  clock : Nat
  next : Nat := 0
deriving DecidableEq, Repr

/-- R431: a breakpoint or a watch: first address, last address, control word. -/
structure Watch where
  lo : Word := 0#64
  hi : Word := 0#64
  ctl : Word := 0#64
deriving DecidableEq, Repr

/-- A tile: its 64 rows of 64 bytes (operand) or its 4,096 elements of 40 bits (accumulator), sparse, its scale bytes
(sparse, default 127) and its shape register. -/
structure Tile where
  rows : Tab Nat := []
  scale : Tab Nat := []
  tsh : Word := 0#64
deriving DecidableEq, Repr

/-- R290, R291, R285: the lease of the array and the sequencer's progress; `since` is the cycle from which SQP.CYC
counts. -/
structure Lease where
  holder : Option Nat := none
  lastHolder : Nat := 7
  serial : BitVec 32 := 0#32
  reqs : List Nat := []
  released : Bool := false
  cmds : Nat := 0
  since : Nat := 0
  /-- R292: the entries saved for a core, and SQP as it stood at the end of its hold. -/
  saved : Tab (List TileEntry) := []
  savedSqp : Tab Nat := []
deriving DecidableEq, Repr

/-- A cluster. (Log: DESIGN CHOICE 2) -/
structure Cluster where
  scratch : List Host.Cell := []
  fe : List Nat := []
  gtime : Tab Nat := []
  /-- R240: the releases that the last write of a granule carries. -/
  grels : Tab (List Rel) := []
  /-- R232: the largest time of a read of a granule, and of 16 bytes of vault memory. -/
  gread : Tab Nat := []
  vread : Tab Nat := []
  vault : List Host.Cell := []
  vtime : Tab Nat := []
  vrels : Tab (List Rel) := []
  win : Vector Word 8 := .replicate 8 0#64
  /-- R221: the last cycle in which a window was written, and the windows before it. -/
  winOld : Option (Nat × Vector Word 8) := none
  hbc : Vector Word 4 := .replicate 4 0#64
  hbSince : Vector (Option Nat) 4 := .replicate 4 none
  vseg : Word := 0#64
  vsegTo : Option Word := none
  park : List ParkEntry := []
  parkRefused : List ParkRefused := []
  parkResv : List (Nat × BitVec 8 × Nat) := []
  ticket : BitVec 8 := 0#8
  copyq : Vector (List CopyEntry) 8 := .replicate 8 []
  copyCtl : Vector QueueCtl 8 := .replicate 8 {}
  tileq : List TileEntry := []
  tileCtl : QueueCtl := {}
  lease : Lease := {}
  tiles : Vector Tile 20 := .replicate 20 {}
  /-- R306: how many of the array's next attempts at a step a soft error strikes. -/
  arrayBad : Nat := 0
  tlb : List TlbEntry := []
  replay : List HeldStore := []
  l2i : Tab (BitVec 512 × List (Nat × BitVec 32)) := []
  /-- R228: the lines that its L2 data slice holds, each with its way (a segment, 1 to 15). -/
  l2 : Tab Nat := []
  work : List Work := []
  waiters : List Work := []
  ptc : List Nat := []
  ptcAll : Bool := true
  ptd : List Nat := []
  ptdAll : Bool := true
  crf : Nat := 0
  cbx : BitVec 32 := 0#32
  cecc : Nat := 0
  loadReg : Word := 0x1010101010101010#64
  bp : Vector Watch 8 := .replicate 8 {}
  wp : Vector Watch 4 := .replicate 4 {}
  dmctl : Word := 0#64
  dmhits : List Nat := []
  trigSrc : Word := 0#64
  trigSkew : Nat := 0
  /-- R430: the cycle in which that trigger came. -/
  trigAt : Option Nat := none
  fwd : List Forward := []
  /-- R159: one more than the cycle at whose boundary the thread engine last moved a thread. -/
  lightAt : Nat := 0
  quota : Tab (BitVec 16) := []
  /-- R418: the last cycle in which a quota was written, and the quotas before it. -/
  quotaOld : Option (Nat × Tab (BitVec 16)) := none
  umon : Tab (List Nat) := []
  shadow : Tab (List Nat) := []
  owner : Option Nat := none
deriving DecidableEq, Repr

/-! ### Faults, contexts, the device -/

/-- R352: the kinds of an access: read, write, fetch. An atomic or update is a read and a write. -/
structure Kind where
  r : Bool := false
  w : Bool := false
  x : Bool := false
deriving DecidableEq, Repr

/-- R337: a fault record. -/
structure FaultRec where
  owner : Nat
  stage : Nat
  level : Nat
  page : Nat
  r : Bool
  w : Bool
  x : Bool
  eng : Bool
  who : Issuer
  /-- The cluster whose scrivener sent it. -/
  cl : Nat
  /-- The (context, virtual page) pairs of that cluster's accesses that wait. -/
  waits : List (Nat × Nat)
  /-- R407: the kinds of those accesses, each at its own page. -/
  asked : Kind := {}
  /-- R338: the cycle in which it came. -/
  since : Nat := 0
deriving DecidableEq, Repr

/-- R338: an outstanding range. -/
structure FaultRange where
  fid : BitVec 32
  owner : Nat
  stage : Nat
  level : Nat
  page : Nat
  npg : Nat
  nrec : Nat
  r : Bool
  w : Bool
  x : Bool
  eng : Bool
  who : Issuer
  /-- The (cluster, context, virtual page) of the accesses that wait on the range. -/
  waits : List (Nat × Nat × Nat)
  /-- `flt.done` has ended the range; its held stores are still being replayed (R342). -/
  ended : Bool := false
deriving DecidableEq, Repr

/-- A field: its fault sorter, collective engine, allotment register CQA and trace unit. (Log: DESIGN CHOICE 2) -/
structure Field where
  /-- R338: the records gathered, and a batch that is closed and waits to be posted. -/
  batch : List FaultRec := []
  closed : List FaultRec := []
  ranges : List FaultRange := []
  lastSlot : Nat := 255
  collq : Vector (List CollEntry) 4 := .replicate 4 []
  collCtl : Vector QueueCtl 4 := .replicate 4 {}
  cqa : Word := 0x80808080#64
  traceMask : Nat := 0
  trace : List (BitVec 128) := []
  /-- R434: how many of its records lie in the ring in memory. -/
  traced : Nat := 0
  tdrop : Nat := 0
deriving DecidableEq, Repr

/-- R378: what a mapped queue's slot holds of its descriptor and ring. -/
structure Queue where
  hqs : Nat := 255
  weight : Nat := 1
  tp : Word := 0#64
  sp : Word := 0#64
  stklim : Word := 0#64
  uha : Word := 0#64
  st : Word := 0#64
  kern : Bool := false
  mig : Bool := false
  rbase : Nat := 0
  rln : Nat := 0
  head : BitVec 32 := 0#32
  tail : BitVec 32 := 0#32
deriving DecidableEq, Repr

/-- R384: operations of the context engine, with their operands as read at the enqueue. -/
inductive CtxOp where
  | new (child desc : Nat)
  | grant (target desc : Nat)
  | wr (target sel : Nat) (v : Word)
  | run (target : Nat)
  | stop (target : Nat)
  | kill (target : Nat)
  | resume (token act : Nat)
  | freeze (target : Nat)
  | thaw (target : Nat)
deriving DecidableEq, Repr

/-- R384: an entry of a context-engine queue. -/
structure CtxEntry where
  who : Issuer
  op : CtxOp
  bar : BitVec 32
  xa : Word
  step : Nat := 0
  at_ : Nat := 0
  /-- The descriptor that the operation read at its first step. -/
  data : List Nat := []
  /-- R280: the page whose fault the entry waits on, and a page whose fault ended in failure. -/
  waitPage : Option Nat := none
  failedPage : Option Nat := none
deriving DecidableEq, Repr

/-- R371: a window granted to a context. -/
structure Window where
  base : Nat
  size : Nat
  r : Bool
  w : Bool
  x : Bool
deriving DecidableEq, Repr

/-- R371, R409: a virtual cluster of a context: number, physical cluster, core mask; the save region (context and virtual
cluster) that it lies in while it is saved (R397), the cores that a RECALL is taking from it (R404), and CRF of its
physical cluster as it was saved (R435). -/
structure VCluster where
  vcl : Nat
  phys : Nat
  mask : Nat
  region : Option (Nat × Nat) := none
  leaving : Nat := 0
  crf : Nat := 0
deriving DecidableEq, Repr

/-- R404: the cores of a virtual cluster that no RECALL is taking. -/
def VCluster.cores (e : VCluster) : Nat := e.mask - (e.mask &&& e.leaving)

/-- R397: a virtual cluster is saved. -/
def VCluster.saved (e : VCluster) : Bool := e.region.isSome

/-- R370: the phase of a context. -/
inductive Phase where
  | free | built | running | frozen | revoking | failed
deriving DecidableEq, Repr

/-- R375, R265, R395, R407: a thread in a save frame: frame number, slot it left, why, its trap and its state. `why`: 1
parked, 2 held by reflection, 3 in transit between slots (R159, R401: the number is 65,536 plus its destination), 4
offered at the core it left (R266), 5 offered at every core of its partition (R404). `away` is the save region of the
cluster of the slot, while that is saved (R397). -/
structure Frame where
  num : Nat
  sid : Nat
  why : Nat
  away : Option (Nat × Nat) := none
  token : Word := 0#64
  handler : Nat := 0
  trap : Option Trap := none
  qo : BitVec 8
  th : Thread
deriving DecidableEq, Repr

/-- A context (R367 to R386, R237, R335, R115, R435). -/
structure Ctx where
  parent : Option (Nat × Nat) := none
  depth : Nat := 0
  tnum : Nat := 0
  phase : Phase := .built
  act : Bool := false
  op : Nat := 0
  stepNo : Nat := 0
  lastErr : Nat := 0
  feat : BitVec 9 := 0#9
  atp : Word := 0#64
  stageGen : BitVec 32 := 0#32
  cen : Bool := true
  slots : Nat := 0
  frames : Nat := 0
  children : Nat := 0
  usedSlots : Nat := 0
  usedFrames : Nat := 0
  usedChildren : Nat := 0
  kpb : Word := 0#64
  qdb : Word := 0#64
  dbb : Word := 0#64
  dbt : Nat := 0
  tqb : Word := 0#64
  tqh : BitVec 32 := 0#32
  tqt : BitVec 32 := 0#32
  tqd : Word := 0#64
  ivb : Word := 0#64
  ipend : BitVec 64 := 0#64
  pend : BitVec 64 := 0#64
  secretNo : Nat := 0
  scopes : Vector Word 32 := .replicate 32 0#64
  /-- R239: the last cycle in which a scope entry was written, and the entries before it. -/
  scopesOld : Option (Nat × Vector Word 32) := none
  /-- R415: the devices that the root has allotted to a tenant; none where it has allotted them all. -/
  devs : Option (List Nat) := none
  fqb : Word := 0#64
  fqh : BitVec 32 := 0#32
  fqt : BitVec 32 := 0#32
  fqd : Word := 0#64
  erb : Word := 0#64
  ert : Nat := 0
  erc : Word := 0#64
  erth : Word := 0#64
  qsat : Word := 0#64
  asat : Word := 0#64
  mxe : Word := 0#64
  mck : Word := 0#64
  doc : Word := 0#64
  dopc : Word := 0#64
  pubSeq : Word := 0#64
  vcls : List VCluster := []
  windows : Tab Window := []
  qslots : List Nat := []
  queues : Tab Queue := []
  engine : List CtxEntry := []
  framesIn : List Frame := []
  handles : Tab Nat := []
deriving DecidableEq, Repr

/-- R382: what the daybook still owes for a launch: its context, queue, ring index, SEQ of ACCEPTED, groups not placed,
threads living, and whether STARTED was logged. -/
structure LaunchRec where
  ctx : Nat
  queue : Nat
  cidx : Nat
  ref : Nat
  host : Bool
  unplaced : Nat
  living : Nat
  started : Bool
deriving DecidableEq, Repr

/-- R153: a group and its place binding table. -/
structure Group where
  ctx : Nat
  binding : List Word
deriving DecidableEq, Repr

/-- R232, R240, R243: what the home of a line keeps: write time, the count of performed writes at its last one, largest
lease end granted, the core that owns it exclusively, and the releases that its bytes carry. -/
structure HomeLine where
  wt : Nat := 0
  last : Nat := 0
  maxLease : Nat := 0
  excl : Option Nat := none
  rels : Tab (List Rel) := []
deriving DecidableEq, Repr

/-- R421: what a flit carries: its number among all packets of the device, its bytes, and whether a permission map was
asked for it (R414). -/
structure Packet where
  num : Nat
  bytes : List Byte
  checked : Bool := false
deriving DecidableEq, Repr

/-- R420 to R422: a port of the Morsyn Link. -/
structure Port where
  down : Bool := false
  retraining : Bool := false
  attempts : Nat := 0
  since : Nat := 0
  lanes : Nat := 8
  sendSeq : Nat := 0
  /-- Flits not yet acknowledged: sequence number, retries, the packet. -/
  replay : List (Nat × Nat × Packet) := []
  held : List Packet := []
  /-- R422: of a port that is down: the ports that the destinations routed by it get once its flows have ended. -/
  routes : List (Nat × Nat) := []
  fecOk : Nat := 0
  fecBad : Nat := 0
  retried : Nat := 0
  dropped : Nat := 0
  retrains : Nat := 0
deriving DecidableEq, Repr

/-- R423: an aperture of a host endpoint. -/
structure Aperture where
  hi : Word := 0#64
  lo : Word := 0#64
deriving DecidableEq, Repr

/-- R423: a host access that waits on the fault of a page, or whose fault ended in failure: endpoint, aperture, offset,
the bytes of a write, and the length. -/
structure HostReq where
  ep : Nat
  ap : Nat
  off : Nat
  data : Option (List Byte)
  len : Nat
  ctx : Nat := 0
  waitPage : Option Nat := none
  failedPage : Option Nat := none
  /-- R424: of a write to memory elsewhere: the packets that must have been acknowledged. -/
  pkts : List Nat := []
deriving DecidableEq, Repr

/-- R426: an access counter record; `loc` counts the accesses that reached the homes, of which HBM served some, and `sure`
those of them that no L2 way could serve (R228, R229). -/
structure Access where
  rrd : Nat := 0
  rwr : Nat := 0
  loc : Nat := 0
  sure : Nat := 0
  last : Nat := 0
deriving DecidableEq, Repr

/-- R442: the power modes, and off. -/
inductive PMode where
  | normal | slow | save | held | off
deriving DecidableEq, Repr

/-- R441 to R449: power, the secure element and boot. (Log: DESIGN CHOICE 3) -/
structure Module where
  mode : PMode := .normal
  disconnected : Bool := false
  ovc : Nat := 0
  vin : Nat := 5400
  drc : Nat := 0
  transport : Bool := false
  testStep : Nat := 0
  testFailed : Bool := false
  testPassed : Bool := false
  bad : List Nat := []
  badPorts : List Nat := []
  boots : Nat := 1
  meas : BitVec 256 := 0#256
  minVersion : Vector Nat 4 := .replicate 4 0
  revoked : List Nat := []
  bootKind : Nat := 0
  recovery : Bool := false
  waiting : List (Nat × List Byte) := []
deriving DecidableEq, Repr

/-- R346: an array whose data carries SECDED check bits, and the unit of it that an error lies in: a line of HBM, of the
L2 slice of its home or of a core's L1, a granule of a cluster's scratchpad, 16 bytes of its vault memory, a row of a
tile. (Log: DESIGN CHOICE 67) -/
inductive EccAt where
  | hbm (line : Nat)
  | l2 (line : Nat)
  | vm (cl unit : Nat)
  | sp (cl g : Nat)
  | tile (cl t row : Nat)
  | l1 (cid line : Nat)
deriving DecidableEq, Repr

/-- R399: a save region: context and virtual cluster, the cluster image, its cores and its slots. -/
structure SaveRegion where
  ctx : Nat
  vcl : Nat
  phys : Nat
  /-- Its number in the pool. -/
  idx : Nat := 0
  image : Cluster
  cores : List (Nat × Core)
  slots : List (Nat × Slot)
  /-- R284: the collective entries entered from the cluster, each with its queue. -/
  coll : List (Nat × CollEntry) := []
deriving DecidableEq, Repr

/-- Work that the hardware owes: requests of instructions to units that act on their own, in the order made.
(Log: DESIGN CHOICE 61) -/
inductive Job where
  | walk (cid : Nat) (ctx : Nat) (va : Nat) (kind : Nat) (who : Issuer) (eng : Bool)
  | probe (who : Issuer) (va pc : Word)
  | fill (cid slot line : Nat) (pc : Word)
  | renew (cid slot line : Nat) (pc : Word)
  | grant (cid slot line : Nat)
  | own (cid slot line : Nat)
  | merge (cid line : Nat)
  | drain (cid line : Nat)
  | fetch (cid line : Nat) (stamps : List (Nat × BitVec 32))
  | fetchFar (sid : Nat) (va : Word)
  | prefetch (sid : Nat) (pc : Word)
  | request (r : Req)
  | launch (w : Work)
  | launchReply (who : Issuer) (code id cl : Nat)
  | depart (cid : Nat)
  | arrive (cl : Nat) (m : Msg)
  | reply (m : Msg) (code cl : Nat)
  | ringDrain (sid : Nat)
  | vsegStep (cl : Nat)
  | parkWake (ctx frame : Nat)
  | lightArrive (sid : Nat)
  | reflect (sid : Nat)
  | closeBatch (field : Nat)
  | replayHeld (cl : Nat)
  | kick (ctx q : Nat)
  | bell (ctx : Nat) (bell : Word) (v : Nat)
  | copyRow (cl q : Nat)
  | leaseGrant (cl : Nat)
  | tileStep (cl : Nat)
  | collStep (field q : Nat)
  | ctxStep (ctx : Nat)
  | hbar (die n : Nat)
  | trigger (a b since : Nat)
  | hostRetry
  | errorLog (ctx kind src addr : Nat) (ma : Bool) (time : Nat)
deriving DecidableEq, Repr

/-- What root firmware writes: an entry of an aperture (R423), or a register of the root's own context block (R369). -/
inductive FirmwareWrite where
  | aperture (ep ap : Nat) (hi lo : Word)
  | block (sel : Nat) (v : Word)
deriving DecidableEq, Repr

/-- What the outside, or the timing of the device, makes happen next: an event of the opcode table, or the offer of the
next cycle of a core, or the performing of the n-th job that is due; or a write of root firmware; or a soft error: in a unit of an array with check
bits, correctable or not (R346), or in the products of the matrix array's next n attempts at a step (R306).
(Log: DESIGN CHOICE 43; DESIGN CHOICE 58; DESIGN CHOICE 61) -/
inductive Act where
  | event (i : Instr)
  | offer (cid : Nat)
  | job (n : Nat)
  | upset (u : EccAt) (uncorrectable : Bool)
  | arrayUpset (cl n : Nat)
  | firmware (w : FirmwareWrite)
deriving DecidableEq, Repr

/-- The device. -/
structure State where
  slots : Tab Slot := []
  cores : Tab Core := []
  clusters : Tab Cluster := []
  fields : Tab Field := []
  ctxs : Tab Ctx := []
  groups : Tab Group := []
  launches : Tab LaunchRec := []
  cur : Nat := 0
  cycle : Nat := 0
  /-- R122, R157: the last cycle whose rotation boundaries have been acted at, and the last at which the slot arbiters
  have acted. -/
  acted : Nat := 0
  arbed : Nat := 0
  mem : List Host.Cell := []
  /-- R380: the machine doublewords, in the part of a page that a kick page has its kicks in, that writes of this cycle have
  reached. -/
  kicked : List Nat := []
  home : Tab HomeLine := []
  performed : Nat := 0
  hrt : Tab Nat := []
  hba : Tab Word := []
  hqOwner : Tab (Nat × Nat) := []
  /-- R155: the weights of the hardware queue slots, as the contexts that mapped queues to them last set them. -/
  hqWeight : Tab Nat := []
  nextLaunch : Nat := 1
  nextGroup : Nat := 0
  nextEntry : Nat := 0
  nextToken : Nat := 0
  nextThread : Nat := 1
  freeCtr : Nat := 0
  devId : Nat := 0
  ports : Tab Port := []
  route : Tab Nat := []
  apertures : Tab Aperture := []
  access : Tab Access := []
  dieLinks : Tab Nat := []
  /-- R346: units with an error that no read has met yet, and whether it is uncorrectable. -/
  ecc : List (EccAt × Bool) := []
  /-- R346: corrected errors of the HBM stacks. -/
  stackEcc : Tab Nat := []
  modl : Module := {}
  saves : List SaveRegion := []
  /-- The packets that have left the device. -/
  outbox : List Packet := []
  nextPkt : Nat := 0
  hostWaits : List HostReq := []
  agenda : List Act := []
  due : List Job := []
deriving DecidableEq, Repr

/-- Why the machine stops. -/
inductive Fault where
  /-- Raised by `step` when the module is off or in HELD and no event is scheduled: the compute dies have no power, so
  there is no next cycle until an event (power coming back) is given. Safe: the device does nothing there either. -/
  | noPower
deriving DecidableEq, Repr

/-- Why the model gives no meaning. -/
inductive Refusal where
  /-- An instruction without a meaning yet. Raised by `exec` only. Safe: nothing is claimed about it. -/
  | notModelled (mnemonic : String)
deriving DecidableEq, Repr

/-- The machine right after reset: every thread slot FREE, no context (the boot firmware creates the root, R447), every
register at its reset value, memory with nothing listed. (Log: DESIGN CHOICE 2) -/
def State.reset : State := {}

end Sys2Proof.Machine
end

