-- ==== Sys2Proof/Machine/Memory.lean ====
section
/-! DEFINITION. Byte memories in one canonical form: addresses strictly rising, no entry equal to what an unlisted
address reads as.  One form serves HBM (by machine address), the scratchpads and the vault memories (by offset). -/

namespace Sys2Proof.Machine

/-- What an address that nothing has written reads as: 0. The spec states it for the scratchpad (R223) and for vault
memory (R227); for HBM after power-on it states nothing, and 0 is a DESIGN CHOICE (log entry 1).
(Log: DESIGN CHOICE 1) -/
def Memory.empty : Byte := 0#8

/-- The byte at an address. -/
def Memory.read (m : List Host.Cell) (a : Nat) : Byte :=
  match m with
  | [] => Memory.empty
  | (k, b) :: r => if k = a then b else Memory.read r a

/-- List a byte in its place. -/
def Memory.insert (m : List Host.Cell) (a : Nat) (b : Byte) : List Host.Cell :=
  match m with
  | [] => [(a, b)]
  | (k, c) :: r =>
    if a < k then (a, b) :: (k, c) :: r
    else if a = k then (a, b) :: r
    else (k, c) :: Memory.insert r a b

/-- Drop the entry of an address. -/
def Memory.erase (m : List Host.Cell) (a : Nat) : List Host.Cell :=
  match m with
  | [] => []
  | (k, c) :: r => if k = a then Memory.erase r a else (k, c) :: Memory.erase r a

/-- Write a byte: the value of an unlisted address removes the entry. -/
def Memory.write (m : List Host.Cell) (a : Nat) (b : Byte) : List Host.Cell :=
  if b = Memory.empty then Memory.erase m a else Memory.insert m a b

/-- Write bytes at their addresses, in order. -/
def Memory.writeAll (m : List Host.Cell) : List Host.Cell → List Host.Cell
  | [] => m
  | (a, b) :: r => Memory.writeAll (Memory.write m a b) r

/-- The canonical form: every entry's address is above `lo`, addresses rise, no entry holds the unlisted value. -/
def Memory.wfFrom (lo : Nat) (m : List Host.Cell) : Bool :=
  match m with
  | [] => true
  | (k, b) :: r => lo ≤ k && b != Memory.empty && Memory.wfFrom (k + 1) r

/-- The canonical form. -/
def Memory.wf (m : List Host.Cell) : Bool := Memory.wfFrom 0 m

/-- n bytes from an address. -/
def Memory.bytes (m : List Host.Cell) (a n : Nat) : List Byte :=
  (List.range n).map (fun i => Memory.read m (a + i))

/-- R11: bytes as a number, little-endian. -/
def leNat : List Byte → Nat
  | [] => 0
  | b :: r => b.toNat + 256 * leNat r

/-- R11: the n low bytes of a number, little-endian. -/
def leBytes (v : Nat) : Nat → List Byte
  | 0 => []
  | n + 1 => BitVec.ofNat 8 v :: leBytes (v / 256) n

/-- Bytes at consecutive addresses. -/
def cellsAt (a : Nat) : List Byte → List Host.Cell
  | [] => []
  | b :: r => (a, b) :: cellsAt (a + 1) r

/-- An n-byte number from an address. -/
def Memory.nat (m : List Host.Cell) (a n : Nat) : Nat := leNat (Memory.bytes m a n)

/-- Write an n-byte number at an address. -/
def Memory.putNat (m : List Host.Cell) (a n v : Nat) : List Host.Cell := Memory.writeAll m (cellsAt a (leBytes v n))

/-- Overlay bytes of stores on bytes read from an address: the later store wins. -/
def overlay (a : Nat) (bs : List Byte) (st : List Host.Cell) : List Byte :=
  (List.range bs.length).map (fun i =>
    st.foldl (fun b c => if c.1 = a + i then c.2 else b) (bs.getD i 0#8))

end Sys2Proof.Machine
end

