-- ==== Sys2Proof/Machine/Ops.lean ====
section
/-! DEFINITION. Named operations over the state: registers, the status word, not-ready and ready outcomes, taking a
trap and returning from one, and the frame that every instruction's meaning runs in. -/

namespace Sys2Proof.Machine

/-! ### Access to the parts of the device -/

/-- The element of a vector at an index modulo its length. -/
def vrd {α : Type} {n : Nat} [NeZero n] (v : Vector α n) (i : Nat) : α :=
  v[i % n]'(Nat.mod_lt _ (Nat.pos_of_ne_zero (NeZero.ne n)))

/-- A vector with the element at an index modulo its length replaced. -/
def vwr {α : Type} {n : Nat} [NeZero n] (v : Vector α n) (i : Nat) (a : α) : Vector α n :=
  v.set (i % n) a (Nat.mod_lt _ (Nat.pos_of_ne_zero (NeZero.ne n)))

/-- The slot with a number. -/
def State.slot (s : State) (sid : Nat) : Slot := s.slots.get {} sid
/-- The core with a number. -/
def State.core (s : State) (cid : Nat) : Core := s.cores.get {} cid
/-- The cluster with a number. -/
def State.cluster (s : State) (cl : Nat) : Cluster := s.clusters.get {} cl
/-- The field with a number. -/
def State.field (s : State) (f : Nat) : Field := s.fields.get {} f
/-- The context with an ASID. -/
def State.ctx (s : State) (a : Nat) : Ctx := s.ctxs.get {} a
/-- The home's record of a line. -/
def State.homeOf (s : State) (line : Nat) : HomeLine := s.home.get {} line

/-- Change a slot. -/
def State.modSlot (s : State) (sid : Nat) (f : Slot → Slot) : State := { s with slots := s.slots.upd {} sid f }
/-- Change a core. -/
def State.modCore (s : State) (cid : Nat) (f : Core → Core) : State := { s with cores := s.cores.upd {} cid f }
/-- Change a cluster. -/
def State.modCluster (s : State) (cl : Nat) (f : Cluster → Cluster) : State :=
  { s with clusters := s.clusters.upd {} cl f }
/-- Change a field. -/
def State.modField (s : State) (n : Nat) (f : Field → Field) : State := { s with fields := s.fields.upd {} n f }
/-- Change a context. -/
def State.modCtx (s : State) (a : Nat) (f : Ctx → Ctx) : State := { s with ctxs := s.ctxs.upd {} a f }
/-- Change the home's record of a line. -/
def State.modHome (s : State) (line : Nat) (f : HomeLine → HomeLine) : State :=
  { s with home := s.home.upd {} line f }

/-- The core of a slot. (Log: DESIGN CHOICE 9) -/
def coreOf (sid : Nat) : Nat := sid / 16
/-- The cluster of a slot. (Log: DESIGN CHOICE 9) -/
def clusterOf (sid : Nat) : Nat := sid / 128
/-- A slot with a thread that has not left it. -/
def Slot.occupied (sl : Slot) : Bool := sl.st != .free && !sl.dying

/-- R205, R409: the field of a physical cluster. -/
def fieldOf (cl : Nat) : Nat := cl / 256 * 2 + cl % 16 / 8
/-- R409: the die of a physical cluster. -/
def dieOf (cl : Nat) : Nat := cl / 256

/-- The thread of a slot. -/
def State.thread (s : State) (sid : Nat) : Thread := (s.slot sid).th
/-- The issuing thread. -/
def State.th (s : State) : Thread := s.thread s.cur
/-- The issuing thread's core. -/
def State.me (s : State) : Core := s.core (coreOf s.cur)
/-- The issuing thread's cluster. -/
def State.mine (s : State) : Cluster := s.cluster (clusterOf s.cur)
/-- The issuing thread's context. -/
def State.myCtx (s : State) : Ctx := s.ctx s.th.ctx

/-- Change the thread of a slot. -/
def State.modThread (s : State) (sid : Nat) (f : Thread → Thread) : State :=
  s.modSlot sid (fun sl => { sl with th := f sl.th })
/-- Change the issuing thread. -/
def State.modTh (s : State) (f : Thread → Thread) : State := s.modThread s.cur f
/-- Change the issuing thread's core. -/
def State.modMe (s : State) (f : Core → Core) : State := s.modCore (coreOf s.cur) f
/-- Change the issuing thread's cluster. -/
def State.modMine (s : State) (f : Cluster → Cluster) : State := s.modCluster (clusterOf s.cur) f

/-- Owe a job, unless the same job is owed already. (Log: DESIGN CHOICE 61) -/
def State.owe (s : State) (j : Job) : State := if s.due.contains j then s else { s with due := s.due ++ [j] }

/-- A saturating 64-bit counter (R422, R429). -/
def sat64 (n : Nat) : Nat := min n (2 ^ 64 - 1)

/-- R420: the entry of the route table for the owner of system addresses of a SEL value, or for a device's messages.
(Log: DESIGN CHOICE 51) -/
def State.portOf (s : State) (dst : Nat) : Nat := s.route.get 0 dst

/-- R420 to R422: a packet leaves the device by its port: it is kept for replay until it is acknowledged, waits while
the port retrains, and is lost where the port is down. Destinations 0 to 1,023 are devices, 1,024 and above host
endpoints. (Log: DESIGN CHOICE 51) -/
def State.emit (s : State) (dst : Nat) (bs : List Byte) (checked : Bool := false) : State :=
  let n := s.portOf dst
  let p := s.ports.get {} n
  let pkt : Packet := { num := s.nextPkt, bytes := bs, checked := checked }
  let s : State := { s with nextPkt := s.nextPkt + 1 }
  if p.down then { s with ports := s.ports.put n { p with dropped := sat64 (p.dropped + 1) } }
  else if p.retraining then { s with ports := s.ports.put n { p with held := p.held ++ [pkt] } }
  else { s with
    outbox := s.outbox ++ [pkt],
    ports := s.ports.put n { p with sendSeq := p.sendSeq + 1, replay := p.replay ++ [(p.sendSeq, 0, pkt)] } }

/-- R349: the owner of a system address elsewhere, as a destination of the link. (Log: DESIGN CHOICE 51) -/
def ownerOf (sys : Nat) : Nat := sys / 2 ^ 45 - 1

/-- The next free value's number, counted on. (Log: DESIGN CHOICE 4) -/
def State.free (s : State) : Nat × State := (s.freeCtr, { s with freeCtr := s.freeCtr + 1 })

/-- The issuing thread as the issuer of an entry. -/
def State.issuer (s : State) : Issuer := ⟨s.cur, s.th.gen, s.th.ctx, s.th.uid⟩

/-! ### Virtual clusters (R169, R371) -/

/-- R371: the virtual cluster of a context with a number. The root holds the whole device under its own numbers.
(Log: DEDUCED 20) -/
def State.vcluster (s : State) (a v : Nat) : Option VCluster :=
  match (s.ctx a).vcls.find? (fun e => e.vcl == v) with
  | some e => some e
  | none => if (s.ctx a).depth = 0 ∧ v < 1024 then some { vcl := v, phys := v, mask := 255 } else none

/-- R169: the physical cluster of a virtual cluster of a context. -/
def State.physOf (s : State) (a v : Nat) : Option Nat := (s.vcluster a v).map (·.phys)

/-- R143: the virtual number of a physical cluster in a context. -/
def State.vclOf (s : State) (a phys : Nat) : Nat :=
  match (s.ctx a).vcls.find? (fun e => e.phys == phys && !e.saved) with
  | some e => e.vcl
  | none => phys

/-! ### Scopes and releases (R237, R239, R240) -/

/-- R237, R239: the thread of a slot is a member of the scope of a release, relative to the release's issuer. -/
def State.member (s : State) (r : Rel) (sid : Nat) : Bool :=
  match r.scope with
  | 0 => false
  | 1 => coreOf sid == r.cid
  | 2 => clusterOf sid == r.cid / 8
  | 3 => fieldOf (clusterOf sid) == fieldOf (r.cid / 8)
  | 4 | 5 => true
  | _ =>
    let base := bitsAt r.entry.toNat 0 10
    let count := bitsAt r.entry.toNat 11 11
    let stride := bitsAt r.entry.toNat 22 10
    let listed (v : Nat) : Bool :=
      v < 1024 && base ≤ v && (v - base) % stride == 0 && (v - base) / stride < count
    bitAt r.entry.toNat (32 + coreOf sid % 8) &&
      (if (s.ctx r.ctx).depth = 0 && (s.ctx r.ctx).vcls.isEmpty then listed (clusterOf sid)
       else (s.ctx r.ctx).vcls.any (fun e => e.phys == clusterOf sid && !e.saved && listed e.vcl))

/-- R240: of the releases that a value carries, those that the thread of a slot acquires by reading it. -/
def State.acquirable (s : State) (rels : List Rel) (sid : Nat) : List Rel := rels.filter (fun r => s.member r sid)

/-- R240, R236: after a read that acquires, no load reads a copy older than the releases that it has acquired, and what
happens before them happens before the thread's next release. -/
def Thread.acquire (h : Thread) (rels : List Rel) : Thread :=
  if rels.isEmpty then h
  else { h with
    floor := max h.floor (maxOf (rels.map (·.upto))), behind := uniq (rels.flatMap (·.uids) ++ h.behind) }

/-- The current thread acquires by a read. -/
def State.acquire (s : State) (rels : List Rel) : State :=
  if rels.isEmpty then s
  else
    let l := s.acquirable rels s.cur
    s.modTh (fun h => h.acquire l)

/-- The releases of a table at the units from `a` for `n`. -/
def relsAt (t : Tab (List Rel)) (a n : Nat) : List Rel :=
  if t.isEmpty then [] else (upTo n).flatMap (fun i => t.get [] (a + i))

/-- R240: remember releases seen by a weak load, each once. -/
def seeRels (l : List Rel) (new : List Rel) : List Rel :=
  new.foldl (fun l r => if l.contains r then l else r :: l) l

/-- The table after a write of units that carry releases. -/
def putRels (t : Tab (List Rel)) (units : List Nat) (rels : List Rel) : Tab (List Rel) :=
  if rels.isEmpty then (if t.isEmpty then t else units.foldl (fun t u => t.drop u) t)
  else units.foldl (fun t u => t.put u rels) t

/-! ### Status word -/

/-- R10: a bit of a status word. -/
def stBit (st : Word) (k : Nat) : Bool := st.getLsbD k

/-- R10: set a bit of a status word. -/
def stSet (st : Word) (k : Nat) (b : Bool) : Word := if b then st ||| (1#64 <<< k) else st &&& ~~~(1#64 <<< k)

/-- R10: the value that a write gives `st` (or `estat`): reserved bits stay 0, UH is read-only, and an RM of 5 to 7
leaves RM as it was. -/
def stWrite (old new : Word) : Word :=
  let base := (new &&& 0x1F0F#64) ||| (old &&& 0x80#64)
  if (new >>> 4).toNat % 8 ≥ 5 then base ||| (old &&& 0x70#64) else base ||| (new &&& 0x70#64)

/-- R10: the rounding mode code of a status word. -/
def stRM (st : Word) : Nat := bitsAt st.toNat 4 3

/-! ### Registers -/

/-- R47: a 6-bit scalar field names a core-shared register. -/
def isC (r : BitVec 6) : Bool := r.getLsbD 5

/-- R47: the register that a 5-bit scalar field names. -/
def xreg (r : BitVec 5) : BitVec 6 := 0#1 ++ r

/-- R63: the register that a 3-bit compact field names. -/
def creg (r : BitVec 3) : BitVec 6 := 1#3 ++ r

/-- R63: the register x31 and x30 and x28 of the calling rules of R85 and R87. -/
def rSP : BitVec 6 := 31#6

/-- The value of the scalar register a field names (R47). -/
def State.xr (s : State) (r : BitVec 6) : Word :=
  if isC r then vrd s.me.c r.toNat else vrd s.th.x r.toNat

/-- The arming state of the scalar register a field names (R163). -/
def State.armOf (s : State) (r : BitVec 6) : ArmSt :=
  if isC r then vrd s.me.carm r.toNat else vrd s.th.xarm r.toNat

/-- R165: a register that a write disarms, as its core numbers it. -/
def armNo (sid : Nat) (r : BitVec 6) : Nat := if isC r then 512 + r.toNat % 32 else 32 * (sid % 16) + r.toNat

/-- R165: a write to a register makes it UNARMED with RE = 0; where it was armed, its core notes it for this cycle. -/
def State.disarm (s : State) (r : BitVec 6) : State :=
  let n := armNo s.cur r
  let s := if (s.armOf r).st = .unarmed then s else s.modMe (fun k => { k with disarmed := n :: k.disarmed })
  if isC r then s.modMe (fun k => { k with carm := vwr k.carm r.toNat {} })
  else s.modTh (fun t => { t with xarm := vwr t.xarm r.toNat {} })

/-- The write of a scalar register by the current thread: the value, the register UNARMED (R165), and for a core-shared
register its logical time (R130) and its writer in this cycle (R128). (Log: DEDUCED 60) -/
def State.putX (s : State) (r : BitVec 6) (v : Word) (writer : Nat) : State :=
  let s := s.disarm r
  if isC r then
    let t := s.th.clock
    s.modMe (fun k => { k with
      c := vwr k.c r.toNat v, ctime := vwr k.ctime r.toNat t, wrote := (r.toNat % 32, writer) :: k.wrote })
  else s.modTh (fun t => { t with x := vwr t.x r.toNat v })

/-- The write of an issuing instruction to a scalar register. (Log: DEDUCED 60) -/
def State.setX (s : State) (r : BitVec 6) (v : Word) : State := s.putX r v 16

/-- The value of the vector register a field names (R47), a stream register reading as 0 here (R191). -/
def State.vr (s : State) (r : BitVec 5) : VWord :=
  if r.getLsbD 4 then vrd s.me.w r.toNat else vrd s.th.v r.toNat

/-- The write of a vector register by the current thread, whole (R129). -/
def State.putV (s : State) (r : BitVec 5) (v : VWord) (writer : Nat) : State :=
  if r.getLsbD 4 then
    let t := s.th.clock
    s.modMe (fun k => { k with
      w := vwr k.w r.toNat v, wtime := vwr k.wtime r.toNat t, wrote := (32 + r.toNat % 16, writer) :: k.wrote })
  else s.modTh (fun t => { t with v := vwr t.v r.toNat v })

/-- The write of an issuing instruction to a vector register. -/
def State.setV (s : State) (r : BitVec 5) (v : VWord) : State := s.putV r v 16

/-- The value of a mask register. -/
def State.kr (s : State) (r : BitVec 3) : BitVec 16 := vrd s.th.k r.toNat

/-- The write of a mask register. -/
def State.setK (s : State) (r : BitVec 3) (v : BitVec 16) : State :=
  s.modTh (fun t => { t with k := vwr t.k r.toNat v })

/-- The value of an operand-extension register (R9). -/
def State.oxr (s : State) (n : Nat) : BitVec 32 := vrd s.th.ox n

/-- R130, R173, R232: raise the issuing thread's clock. -/
def State.joinClock (s : State) (t : Nat) : State := s.modTh (fun h => { h with clock := max h.clock t })

/-- R130, R231, R236: a strong read that no lease dates: the clock takes the time of what it read, and no later strong
load reads a copy older than now. (Log: DEDUCED 70) -/
def State.strongRead (s : State) (t : Nat) : State :=
  let n := s.performed
  s.modTh (fun h => { h with clock := max h.clock t, strongFloor := max h.strongFloor n })

/-- R130, R231: reading a vector register: a core-shared one is read strongly. -/
def State.takeV (s : State) (r : BitVec 5) : State :=
  if r.getLsbD 4 then s.strongRead (vrd s.me.wtime r.toNat) else s

/-- Reading a scalar register at a ready outcome: a core-shared register is read strongly (R130, R231), the logical time
and the releases of an arrived value join the reader's (R173, R240), and a FULL register is consumed (R164). -/
def State.takeReg (s : State) (r : BitVec 6) : State :=
  let a := s.armOf r
  let s := if isC r then s.strongRead (vrd s.me.ctime r.toNat) else s
  if a.st = .full then
    let a' : ArmSt := { a with st := if a.re then .awaiting else .unarmed, rels := [] }
    let s := (s.strongRead a.time).acquire a.rels
    if isC r then s.modMe (fun k => { k with carm := vwr k.carm r.toNat a' })
    else s.modTh (fun h => { h with xarm := vwr h.xarm r.toNat a' })
  else s

/-- Reading scalar registers at a ready outcome, each once. (Log: DEDUCED 60) -/
def State.takeRegs (s : State) : List (BitVec 6) → State
  | [] => s
  | r :: rs => if rs.contains r then State.takeRegs s rs else State.takeRegs (s.takeReg r) rs

/-! ### The pending set -/

/-- A register as an instruction names it. -/
inductive RegN where
  | x (r : BitVec 6)
  | v (r : BitVec 5)
  | k (r : BitVec 3)
deriving DecidableEq, Repr

/-- Whether a write of a held instruction is to a named register. -/
def RegW.names : RegW → RegN → Bool
  | .x r _, .x q => r == q
  | .v r _, .v q => r == q
  | .k r _, .k q => r == q
  | _, _ => false

/-- R126, R132: the ring entry that has yet to write a named register: the pending set, register by register. -/
def Thread.pendingAt (t : Thread) (r : RegN) : Option RingEntry :=
  t.ring.find? (fun e => !e.retired && e.writes.any (·.names r))

/-- R126: whether the pending set is not empty. -/
def Thread.pendingAny (t : Thread) : Bool := t.ring.any (fun e => !e.retired && !e.writes.isEmpty)

/-- R329: whether an older ring entry has not retired. -/
def Thread.inFlight (t : Thread) : Bool := t.ring.any (fun e => !e.retired)

/-- R132: `einfo` of the hold-violation trap. -/
def holdInfo (r : RegN) (seq : BitVec 8) : Word :=
  match r with
  | .x q => w64 (q.toNat * 256 + seq.toNat)
  | .v q => w64 (2 ^ 14 + q.toNat * 256 + seq.toNat)
  | .k q => w64 (2 ^ 15 + q.toNat * 256 + seq.toNat)

/-! ### Traps (R17 to R19, R327 to R329, R375) -/

/-- R327: the trap codes. -/
def tILLEGAL := 0x01
/-- See tILLEGAL. -/
def tLANDING := 0x02
/-- See tILLEGAL. -/
def tADDRESS := 0x03
/-- See tILLEGAL. -/
def tMISALIGNED := 0x04
/-- See tILLEGAL. -/
def tACCESS := 0x05
/-- See tILLEGAL. -/
def tFETCH := 0x06
/-- See tILLEGAL. -/
def tFAILED := 0x07
/-- See tILLEGAL. -/
def tDIVZERO := 0x08
/-- See tILLEGAL. -/
def tSUBNORMAL := 0x09
/-- See tILLEGAL. -/
def tINVALID := 0x0A
/-- See tILLEGAL. -/
def tFPDIV := 0x0B
/-- See tILLEGAL. -/
def tOVERFLOW := 0x0C
/-- See tILLEGAL. -/
def tPRIVILEGE := 0x0D
/-- See tILLEGAL. -/
def tFEATURE := 0x0E
/-- See tILLEGAL. -/
def tTRAP := 0x0F
/-- See tILLEGAL. -/
def tREPLAY := 0x10
/-- See tILLEGAL. -/
def tSTACK := 0x12
/-- See tILLEGAL. -/
def tHOLD := 0x13
/-- See tILLEGAL. -/
def tPROGRESS := 0x14
/-- See tILLEGAL. -/
def tPLACE := 0x15
/-- See tILLEGAL. -/
def tDESC := 0x16
/-- See tILLEGAL. -/
def tINDEX := 0x17
/-- See tILLEGAL. -/
def tMINT := 0x18
/-- See tILLEGAL. -/
def tOVERWRITE := 0x19
/-- See tILLEGAL. -/
def tAWAITING := 0x1A
/-- See tILLEGAL. -/
def tSTREAM := 0x1B
/-- See tILLEGAL. -/
def tRETRY := 0x1C
/-- See tILLEGAL. -/
def tSCOPE := 0x1D
/-- See tILLEGAL. -/
def tBARRIER := 0x1E

/-- R327: a trap of class U may go to the user handler; PRIVILEGE and TRAP (class K) and FEATURE (class A) never do. -/
def userClass (code : Nat) : Bool := code != tPRIVILEGE && code != tFEATURE && code != tTRAP

/-- R18: the cause word. -/
def causeWord (t : Trap) : Word := w64 (t.seq.toNat * 2 ^ 24 + t.org * 2 ^ 16 + t.code)

/-- R17: write the trap record. -/
def Thread.record (h : Thread) (t : Trap) : Thread :=
  { h with epc := t.pc, ecause := causeWord t, einfo := t.info, estat := t.st }

/-- R19: the conditions for the user handler. -/
def Thread.takesTrap (h : Thread) (code : Nat) : Bool :=
  userClass code && !stBit h.st 7 && h.uha != 0#64 && !h.uha.getLsbD 0

/-- R19: enter the user handler with the record written. -/
def Thread.enterHandler (h : Thread) (t : Trap) : Thread :=
  { h.record t with
    st := stSet (stSet h.st 7 true) 0 false, pc := h.uha, prefixLatch := none, cap := none, nrBefore := none }

/-- R17, R19, R375: deliver a trap to the thread of a slot: to its user handler, or else by reflection, for which the
slot sleeps until a frame and a queue entry are free. -/
def State.deliver (s : State) (sid : Nat) (t : Trap) : State :=
  let h := s.thread sid
  if h.takesTrap t.code then
    s.modThread sid (fun h => { h.enterHandler t with heavy := true, trapWait := none })
  else
    (s.modSlot sid (fun sl => { sl with
      st := .sleep (.reflect t) 0
      th := { (if stBit sl.th.st 7 then sl.th else sl.th.record t) with
        heavy := true, trapWait := none, prefixLatch := none, cap := none } })).owe (.reflect sid)

/-- R132: pass over this offered cycle, counted. -/
def State.skipCounted (s : State) : State := s.modTh (fun h => { h with skipCtr := h.skipCtr + 1#64 })

/-- R17: `st` as it stood before the instruction at the pc: NR as before its first execution (R406 records it so).
(Log: DEDUCED 15) -/
def Thread.stBefore (h : Thread) : Word :=
  match h.nrBefore with
  | some e => if e.1 = h.pc then stSet h.st 0 e.2 else h.st
  | none => h.st

/-- R17: an instruction that completes not-ready and executes again keeps what `st.NR` was before its first execution.
(Log: DEDUCED 15) -/
def Thread.noteNr (h : Thread) : Thread :=
  { h with nrBefore := some (h.pc, stBit h.stBefore 0) }

/-- R213, R343: a fetch of the parcels about an address that a fault's failure has stopped is reported once. -/
def Thread.fetchReported (h : Thread) (va : Word) : Thread :=
  { h with failed := h.failed.filter (fun p =>
      p != (va - 2#64).toNat / 4096 && p != va.toNat / 4096 && p != (va + 2#64).toNat / 4096) }

/-- R17, R329: a precise trap of the issuing thread at its pc: delivered once every older ring entry has retired, and
until then the thread skips, counted. -/
def State.raise (s : State) (code : Nat) (info : Word) : State :=
  let s := if code = tFETCH then s.modTh (fun h => h.fetchReported info) else s
  let h := s.th
  let t : Trap := { code := code, info := info, pc := h.pc, st := h.stBefore }
  if h.inFlight then (s.modTh (fun h => { h with trapWait := some t, heavy := true, prefixLatch := none })).skipCounted
  else s.deliver s.cur t

/-- R336: return from the user handler. The replay list is emptied, `st` takes `estat` under R10 with UH clear, and the
pc the saved address. -/
def Thread.returnTrap (h : Thread) : Thread :=
  { h with replay := [], st := stSet (stWrite h.st h.estat) 7 false, pc := h.epc, prefixLatch := none,
           nrBefore := none }

/-! ### Ready and not-ready outcomes (R12 to R14) -/

/-- R14 `ready()`. -/
def Thread.ready (h : Thread) : Thread :=
  { h with st := stSet h.st 0 false, rtcCount := if h.rtcTag = h.pc then 0 else h.rtcCount, nrBefore := none }

/-- A ready outcome, with the pc on the next instruction. -/
def State.advance (s : State) (size : Nat) : State :=
  s.modTh (fun h => { h.ready with pc := h.pc + w64 size })

/-- A ready outcome that continues at an address; a taken branch clears the prefix latch (R66). -/
def State.jump (s : State) (t : Word) : State :=
  s.modTh (fun h => { h.ready with pc := t, prefixLatch := none })

/-- R14: the retry counter after a not-ready outcome at the pc. -/
def Thread.countRetry (h : Thread) : Thread :=
  if h.rtcTag = h.pc then { h with rtcCount := min (h.rtcCount + 1) 8191 }
  else { h with rtcTag := h.pc, rtcCount := 1 }

/-- R433: the delay accumulator of a cause. -/
def Cause.delay : Cause → Nat
  | .translation .. | .probe | .faultPending _ | .heldStores | .replayFull => 0
  | .reconfig _ | .empty _ | .granuleFull _ | .parkFull => 1
  | .lineAbsent _ | .lease _ | .writeGrant _ | .ownership _ | .merge _ | .mergeUnit _ => 2
  | .remote | .remoteFull => 12
  | .queueFull .. | .noLease | .leaseWait => 13
  | .awaiting _ | .sendFull | .ack | .parked _ => 14
  | _ => 15

/-- R228: the cluster whose slice is the home of a line. An entry of HRT that boot firmware has not written names the
cluster of its own number. (Log: DESIGN CHOICE 2; PRESUMED 50) -/
def State.homeSlice (s : State) (line : Nat) : Nat :=
  let i := line % 1024 ^^^ line / 1024 % 1024
  s.hrt.get i i

/-- The line that a cause names. -/
def Cause.line? : Cause → Option Nat
  | .lineAbsent l | .lease l | .writeGrant l | .ownership l | .merge l | .mergeUnit l => some l
  | _ => none

/-- R433, R205: the accumulator of a cause for the current slot: a line's home may be on another die, and a line that its
home's L2 lacks is served by its HBM stack. -/
def State.delayOf (s : State) (c : Cause) : Nat :=
  let home (l : Nat) : Nat := if dieOf (s.homeSlice l) = dieOf (clusterOf s.cur) then 2 else 3
  match c with
  | .retry _ v => if s.physOf s.th.ctx v = some (clusterOf s.cur) then 1 else 15
  | .lineAbsent l => if ((s.cluster (s.homeSlice l)).l2.find? l).isSome then home l else 4 + l / 32 % 8
  | c => match c.line? with
    | some l => home l
    | none => c.delay

/-- R433: remember a not-ready outcome of the current slot for its delay accumulator. -/
def State.noteDelay (s : State) (c : Cause) : State :=
  let n := s.delayOf c
  s.modMe (fun k => { k with nrAt := (s.cur % 16, n, k.cycle) :: k.nrAt.filter (fun e => e.1 != s.cur % 16) })

/-- R433: at the next execution of the slot's thread, add the offered cycles since its not-ready outcome. -/
def State.settleDelay (s : State) : State :=
  match s.me.nrAt.find? (fun e => e.1 == s.cur % 16) with
  | none => s
  | some e => s.modMe (fun k => { k with
      da := vwr k.da e.2.1 (min (vrd k.da e.2.1 + (k.cycle - e.2.2) / 16) (2 ^ 64 - 1)),
      nrAt := k.nrAt.filter (fun e => e.1 != s.cur % 16) })

/-! ### Translation as a lookup (R356, R358) -/

/-- R11: canonical addresses. -/
def canonical (va : Word) : Bool := ((va.setWidth 57).signExtend 64) == va

/-- R358: an entry none of whose stamps is out of date. -/
def State.stampsOk (s : State) (e : TlbEntry) : Bool := e.stamps.all (fun p => (s.ctx p.1).stageGen == p.2)

/-- The kinds by number, as jobs name them: 0 R, 1 W, 2 X, 3 R and W. -/
def Kind.ofCode (n : Nat) : Kind :=
  match n with
  | 0 => ⟨true, false, false⟩
  | 1 => ⟨false, true, false⟩
  | 2 => ⟨false, false, true⟩
  | _ => ⟨true, true, false⟩

/-- See Kind.ofCode. -/
def Kind.code (k : Kind) : Nat := if k.x then 2 else if k.w then (if k.r then 3 else 1) else 0

/-- R352, R371: an entry may serve an access of a kind: its windows permit the kind, and a write finds D recorded.
(Log: DEDUCED 33) -/
def TlbEntry.serves (e : TlbEntry) (k : Kind) : Bool :=
  (!k.r || e.kr) && (!k.x || e.kx) && (!k.w || (e.kw && e.dset))

/-- R352: an entry grants a kind. (Log: DEDUCED 33) -/
def TlbEntry.grants (e : TlbEntry) (k : Kind) : Bool := (!k.r || e.r) && (!k.w || e.w) && (!k.x || e.x)

/-- The entry of a list that translates a virtual page for an ASID and a kind of access. -/
def State.tlbFind (s : State) (l : List TlbEntry) (asid vpn : Nat) (k : Kind) : Option TlbEntry :=
  l.find? (fun e => e.asid == asid && e.vpn ≤ vpn && vpn < e.vpn + e.pages && s.stampsOk e && e.serves k)

/-- R356, R352: look an address up in the core's and the cluster's TLB. -/
def State.xlate (s : State) (cid asid va : Nat) (k : Kind) : Option TlbEntry :=
  match s.tlbFind (s.core cid).tlb asid (va / 4096) k with
  | some e => some e
  | none => s.tlbFind (s.cluster (cid / 8)).tlb asid (va / 4096) k

/-- The system address that an entry gives. -/
def TlbEntry.sys (e : TlbEntry) (va : Nat) : Nat := (e.spn + (va / 4096 - e.vpn)) * 4096 + va % 4096

/-- R349: an address of this device's HBM, as a machine address; `none` for memory that resides elsewhere. -/
def State.machineOf (s : State) (sys : Nat) : Option Nat :=
  let sel := sys / 2 ^ 45
  if sel = 0 ∨ sel = s.devId + 1 then some (sys % 2 ^ 39) else none

/-! ### Instruction bytes (R210 to R214) -/

/-- What a fetch of a parcel finds. -/
inductive Fetch where
  | got (p : BitVec 16)
  | fault
  | wait (j : Option Job)
deriving DecidableEq, Repr

/-- The parcel at an offset of a 64-byte line. -/
def parcelOf (line : BitVec 512) (off : Nat) : BitVec 16 := BitVec.ofNat 16 (line.toNat / 2 ^ (8 * (off % 64)))

/-- R213: fetch the parcel at an address for a slot: from the parcels already fetched, from the L1 instruction cache, or
not yet there. A page without execute permission, a non-canonical address and a fault ended in failure are a fetch
fault. -/
def State.fetchParcel (s : State) (sid : Nat) (va : Word) : Fetch :=
  let h := s.thread sid
  match h.fetched.find? (fun e => e.1 == va.toNat) with
  | some e => .got e.2
  | none =>
    if !canonical va then .fault
    else if h.failed.contains (va.toNat / 4096) then .fault
    else match s.xlate (coreOf sid) h.ctx va.toNat (Kind.ofCode 2) with
      | none => .wait (some (.walk (coreOf sid) h.ctx va.toNat 2 ⟨sid, h.gen, h.ctx, h.uid⟩ false))
      | some e =>
        if !e.x then .fault
        else
          match (s.core (coreOf sid)).l1i.find? (e.sys va.toNat / 64) with
          | some line => .got (parcelOf line va.toNat)
          | none => .wait (some (if (s.machineOf (e.sys va.toNat)).isSome then
              .fetch (coreOf sid) (e.sys va.toNat / 64) e.stamps else .fetchFar sid va))

/-! ### Branch targets (R69 to R72) -/

/-- R69: the kind of a taken branch. -/
inductive BrKind where
  | direct | ret | indirect
deriving DecidableEq, Repr

/-- The outcome of a target check: pass, trap, or wait for the bytes it reads. -/
inductive Target where
  | ok
  | trap (code : Nat)
  | wait (j : Option Job)
deriving DecidableEq, Repr

/-- R70 `check_target`. (Log: DEDUCED 17) -/
def State.checkTarget (s : State) (kind : BrKind) (t : Word) : Target :=
  if t.getLsbD 0 then .trap tLANDING
  else if kind = .indirect then
    if t.getLsbD 1 then .trap tLANDING
    else match s.fetchParcel s.cur t, s.fetchParcel s.cur (t + 2#64) with
      | .got p, .got q => if p == 0x0003#16 && q == 0xE600#16 then .ok else .trap tLANDING
      | .fault, _ => .trap tFETCH
      | _, .fault => .trap tFETCH
      | .wait j, _ => .wait j
      | _, .wait j => .wait j
  else if t.getLsbD 1 then
    match s.fetchParcel s.cur (t - 2#64) with
    | .got p => if p.extractLsb' 0 2 == 3#2 then .trap tLANDING else .ok
    | .fault => .trap tFETCH
    | .wait j => .wait j
  else .ok

/-- R213, R343: owe what a fetch waits for; a thread that waits for a translation waits for a fault on its page. -/
def State.oweOpt (s : State) (j : Option Job) : State :=
  match j with
  | none => s
  | some j =>
    (match j with
      | .walk _ _ va _ who _ => s.modThread who.sid (fun h => { h with
          waits := if h.waits.contains (va / 4096) then h.waits else va / 4096 :: h.waits })
      | _ => s).owe j

/-- R14 `not_ready`: the flag, the retry counter, the progress trap, and the policy's action, as one step: while the
target of `.br` waits for its bytes, nothing of it has happened (R210). (Log: DEDUCED 17) -/
def State.notReady (s : State) (causes : List Cause) (code : Nat) (p : Policy) (size : Nat) : State :=
  let s0 := s
  let st0 := s.th.st
  let s := s.noteDelay (causes.headD .reply)
  let s := s.modTh (fun h => { h.noteNr.countRetry with st := stSet h.st 0 true })
  if stBit st0 2 && s.th.rtcCount == 4096 then
    (s.modTh (fun h => { h with st := st0 })).raise tPROGRESS (w64 code)
  else match p with
    | .rt => s
    | .fl => s.modTh (fun h => { h with pc := h.pc + w64 size, nrBefore := none })
    | .yd => s.modSlot s.cur (fun sl => { sl with st := .sleep (.policy causes) 64 })
    | .br =>
      match s.checkTarget .indirect s.th.nrt with
      | .ok => s.modTh (fun h => { h with pc := h.nrt, prefixLatch := none, nrBefore := none })
      | .trap c => (s.modTh (fun h => { h with st := st0 })).raise c s.th.nrt
      | .wait j => s0.oweOpt j

/-! ### The frame of an instruction -/

/-- R373: the feature bits. -/
def fVector := 0
/-- See fVector. -/
def fMatrix := 1
/-- See fVector. -/
def fCopy := 2
/-- See fVector. -/
def fCollective := 3
/-- See fVector. -/
def fFabric := 4
/-- See fVector. -/
def fHbar := 5
/-- See fVector. -/
def fLaunch := 6
/-- See fVector. -/
def fContext := 7
/-- See fVector. -/
def fTranslation := 8

/-- How an instruction's own effect ends. -/
inductive Res where
  /-- A precise trap with its detail. -/
  | trap (code : Nat) (info : Word)
  /-- A precise trap whose finding changes other state as well. -/
  | trapAfter (f : State → State) (code : Nat) (info : Word)
  /-- Not ready, with the causes and the code of the first. -/
  | nr (causes : List Cause) (code : Nat) (s : State)
  /-- Ready; the pc goes to the next instruction. -/
  | next (s : State)
  /-- Ready; the pc goes to an address. -/
  | goto (s : State) (t : Word)
  /-- Ready, with pc, NR and the retry counter as the instruction itself left them. -/
  | own (s : State)
  /-- The thread skips this cycle, counted, and executes again (R132, R142, R342). -/
  | skip (s : State)
  /-- The thread issues nothing, uncounted, until bytes arrive (R210). -/
  | stall (s : State)

/-- What every instruction is checked for before its own traps (R328): its bits for the record, its size, its feature,
whether it is a kernel thread's, the registers it names (R132), the scalar registers it reads (R75), its policy and
the code its entry gives the cause AWAITING, and whether it ends the thread's being light (R158). For R15: `data` are
the registers read on whose value no trap of its own depends, and `early` the traps that are decided while others,
which it is given, await. (Log: DEDUCED 18) -/
structure Use where
  word : Nat
  size : Nat := 4
  feat : Option Nat := none
  kern : Bool := false
  names : List RegN := []
  reads : List (BitVec 6) := []
  pol : Option Policy := none
  awaitCode : Nat := 10
  heavy : Bool := false
  data : List (BitVec 6) := []
  early : List (BitVec 6) → State → Res := fun _ s => .skip s
  /-- R185, R231: what the instruction does must follow the thread's vector stores that still wait. -/
  after : Bool := false

/-- The frame with the registers of the data that an instruction stores, or operates with; one that addresses as well
is no such register. -/
def Use.carries (u : Use) (a : BitVec 6) (ds : List (BitVec 6)) : Use := { u with data := ds.filter (· != a) }

/-- The first named register in the pending set, with its producer. -/
def Use.pending (u : Use) (h : Thread) : Option (RegN × RingEntry) :=
  u.names.findSome? (fun r => (h.pendingAt r).map (fun e => (r, e)))

/-- The registers read that await a value (R75). -/
def Use.awaiting (u : Use) (s : State) : List (BitVec 6) := u.reads.filter (fun r => (s.armOf r).st == .awaiting)

/-- R128: a register that the threads of a core share. -/
def RegN.shared (r : RegN) : Bool := match r with | .x q => isC q | .v q => q.getLsbD 4 | .k _ => false

/-- R158: whether the instruction names a core-shared register. -/
def Use.shared (u : Use) : Bool := u.names.any RegN.shared

/-- R158: an instruction that ends the thread's being light. -/
def Use.endsLight (u : Use) : Bool :=
  u.heavy || u.shared || u.feat == some fVector || u.feat == some fMatrix || u.feat == some fCopy ||
    u.feat == some fCollective

/-- R12, R164, R173: an outcome that is not ready has consumed no register, and none has joined its time to the reader's;
it has fenced nothing (R240): all that stands as in `s0`. -/
def State.unread (s s0 : State) : State :=
  let s := s.modTh (fun h => { h with
    xarm := s0.th.xarm, clock := s0.th.clock, strongFloor := s0.th.strongFloor, floor := s0.th.floor,
    seen := s0.th.seen, fences := s0.th.fences, fenceClock := s0.th.fenceClock, stale := s0.th.stale,
    behind := s0.th.behind })
  s.modMe (fun k => { k with carm := s0.me.carm })

/-- How an outcome of the instruction's own effect changes the state. `s0` is the state before the instruction. -/
def Use.finish (u : Use) (s0 : State) : Res → State
  | .trap c i => s0.raise c i
  | .trapAfter f c i => (f s0).raise c i
  | .nr cs code s => (s.unread s0).notReady cs code (u.pol.getD .rt) u.size
  | .next s => s.advance u.size
  | .goto s t => s.jump t
  | .own s => s
  | .skip s => (s.unread s0).skipCounted
  | .stall s => s.unread s0

/-- The state in which the instruction's own effect starts: the delay settled, the light mark kept, and the registers
read taken (R130, R164). -/
def Use.start (u : Use) (s : State) : State :=
  let s := s.settleDelay
  let s := if u.endsLight then s.modTh (fun h => { h with heavy := true }) else s
  s.takeRegs u.reads

/-- R185: a vector store of the thread waits for older ring entries. -/
def Thread.lateWaits (h : Thread) : Bool := h.ring.any (fun e => !e.retired && e.store.isSome)

/-- A cause that an access before the instruction in program order is not performed. -/
def Cause.isOrder : Cause → Bool
  | .order _ => true
  | _ => false

/-- R185, R231, R247: what must follow a vector store that still waits for older ring entries does nothing before the
store has been performed or cancelled: the thread issues nothing meanwhile. Its traps, and the cause ORDER, stand.
(Log: DESIGN CHOICE 76) -/
def State.afterLate (s : State) (r : Res) : Res :=
  match r with
  | .trap .. => r
  | .trapAfter .. => r
  | .nr cs _ _ => if cs.any Cause.isOrder || !s.th.lateWaits then r else .stall s
  | _ => if s.th.lateWaits then .stall s else r

/-- The current thread's latches are as in another state: nothing has been sent. -/
def State.sentNothing (s s0 : State) : Bool := s.th.rl == s0.th.rl && s.th.sl == s0.th.sl && s.th.ll == s0.th.ll

/-- R15, R75, R97, R98, R328: an instruction with a policy some of whose sources await. A trap of its own that no awaiting
value decides precedes the not-ready outcome, and a translation that such a trap needs is asked for. Its other causes that
depend on no awaiting value are present too, but nothing is sent before every value is there. (Log: DEDUCED 18) -/
def Use.await (u : Use) (s : State) (body : State → Res) (rs : List (BitVec 6)) (p : Policy) : State :=
  let s := s.settleDelay
  match (if rs.all u.data.contains then body (u.start s) else u.early rs s) with
  | .trap c i => u.finish s (.trap c i)
  | .trapAfter f c i => u.finish s (.trapAfter f c i)
  | .nr cs code s' =>
    if !s'.sentNothing s then s.notReady (rs.map .awaiting) u.awaitCode p u.size
    else if code < u.awaitCode then u.finish s (.nr (cs ++ rs.map .awaiting) code s')
    else u.finish s (.nr (rs.map .awaiting ++ cs) u.awaitCode s')
  | _ => s.notReady (rs.map .awaiting) u.awaitCode p u.size

/-- The instruction's own effect, in its place among the thread's accesses. -/
def Use.ordered (u : Use) (s : State) (body : State → Res) : Res :=
  let r := body (u.start s)
  if u.after || u.shared then s.afterLate r else r

/-- R328, R132, R75: the checks in their order, then the instruction's own effect on the state `u.start s`.
(Log: DEDUCED 18) -/
def Use.run (u : Use) (s : State) (body : State → Res) : State :=
  if (match u.feat with | some f => !s.myCtx.feat.getLsbD f | none => false) then s.raise tFEATURE (w64 u.word)
  else if u.kern && !s.th.kern then s.raise tPRIVILEGE (w64 u.word)
  else match u.pending s.th with
    | some (r, e) => if stBit s.th.st 1 then s.raise tHOLD (holdInfo r e.seq) else s.skipCounted
    | none =>
      match u.awaiting s, u.pol with
      | [], _ => u.finish s (u.ordered s body)
      | r :: _, none => s.raise tAWAITING (w64 r.toNat)
      | rs, some p => u.await s body rs p

/-- A next state. -/
def done (s : State) : Host.Outcome State Fault Refusal := .next s

/-- The outcome of a target check as the end of a branch (R70: a trap is precise at the branch). -/
def branchTo (s : State) (kind : BrKind) (t : Word) (taken : State) : Res :=
  match s.checkTarget kind t with
  | .ok => .goto taken t
  | .trap c => .trap c t
  | .wait j => .stall (s.oweOpt j)

end Sys2Proof.Machine
end

