-- ==== Sys2Proof/Machine/Operands.lean ====
section
/-! DEFINITION. Operand forms: field extraction, extension by access width, and the bit helpers of R82. -/

namespace Sys2Proof.Machine

/-- The bits of an RP-format word. -/
def rpw (p : BitVec 2) (m5 : Nat) (b a d : BitVec 6) (major : Nat) : Nat :=
  (RPFmt.pack p (BitVec.ofNat 5 m5) b a d (BitVec.ofNat 5 major)).toNat

/-- The bits of an R-format word. -/
def rw (m7 : Nat) (b a d : BitVec 6) (major : Nat) : Nat :=
  (RFmt.pack (BitVec.ofNat 7 m7) b a d (BitVec.ofNat 5 major)).toNat

/-- The bits of a V-format word. -/
def vw (m6 : Nat) (p : Policy) (h : BitVec 2) (b a d : BitVec 5) (major : Nat) : Nat :=
  (VFmt.pack (BitVec.ofNat 6 m6) p.bits h b a d (BitVec.ofNat 5 major)).toNat

/-- The number of significant bits of a word: 64 less its leading zeros. -/
def bitLen (x : Word) : Nat := if x = 0#64 then 0 else x.toNat.log2 + 1

/-- R82 `cpop`. -/
def popCount (x : Word) : Nat := (List.range 64).foldl (fun t i => t + b2n (x.getLsbD i)) 0

/-- R82 `rev8`. -/
def revBytes (x : Word) : Word :=
  w64 ((List.range 8).foldl (fun t i => t * 256 + bitsAt x.toNat (8 * i) 8) 0)

/-- R82 `ext`: a field of a at a position and of a length that b gives; a length beyond bit 63 is cut short. -/
def extField (a b : Word) : Word :=
  let pos := bitsAt b.toNat 0 6
  let n := min (bitsAt b.toNat 8 7) (64 - pos)
  w64 (bitsAt a.toNat pos n)

/-- R52: the width in bytes of an access of code sz. -/
def szWidth (sz : Nat) : Nat := 2 ^ (sz % 4)

/-- R52: a loaded value extended by its code: 0 to 3 sign-extend, 4 to 6 zero-extend. -/
def szExtend (sz v : Nat) : Word :=
  match sz with
  | 0 => (BitVec.ofNat 8 v).signExtend 64
  | 1 => (BitVec.ofNat 16 v).signExtend 64
  | 2 => (BitVec.ofNat 32 v).signExtend 64
  | 3 => w64 v
  | 4 => w64 (v % 2 ^ 8)
  | 5 => w64 (v % 2 ^ 16)
  | _ => w64 (v % 2 ^ 32)

/-- R179: lane i of width w. -/
def lane (w : Nat) (v : VWord) (i : Nat) : Nat := bitsAt v.toNat (w * i) w

/-- R179: a vector register from its lanes of width w. -/
def ofLanes (w : Nat) (l : List Nat) : VWord :=
  BitVec.ofNat 512 (l.foldr (fun x t => t * 2 ^ w + x % 2 ^ w) 0)

/-- R179: the lanes of width w. -/
def lanes (w : Nat) (v : VWord) : List Nat := (List.range (512 / w)).map (lane w v)

/-- A w-bit number as two's complement. -/
def sval (w n : Nat) : Int := if bitAt n (w - 1) then (n % 2 ^ w : Nat) - (2 ^ w : Int) else (n % 2 ^ w : Nat)

/-- An integer as a w-bit number. -/
def ofSval (w : Nat) (n : Int) : Nat := (n % (2 ^ w : Int)).toNat

end Sys2Proof.Machine
end

