-- ==== Sys2Proof/Machine/Home.lean ====
section
/-! DEFINITION. Lines at their homes and their copies: performing writes, merges of update-only lines, fills, lease
renewals, write grants, ownership, drains of combining entries, and the trace records of these (R206 to R209, R228 to
R235, R242, R243, R434). -/

namespace Sys2Proof.Machine

/-- R434: write a trace record of a field, or count it as dropped. `low` is the record's low 51 bits.
(Log: DESIGN CHOICE 63) -/
def State.trace (s : State) (ev asid cl low : Nat) : State :=
  s.modField (fieldOf cl) (fun f =>
    if !bitAt f.traceMask ev then f
    else if f.trace.length ≥ Config.traceRoom then { f with tdrop := f.tdrop + 1 }
    else { f with trace := f.trace ++ [BitVec.ofNat 128
      (s.cycle % 2 ^ 48 * 2 ^ 80 + ev * 2 ^ 72 + asid * 2 ^ 61 + cl * 2 ^ 51 + low % 2 ^ 51)] })

/-- R426, R205: the number of the counter record of a line: its stack, then its region of the stack's memory.
(Log: PRESUMED 50) -/
def recordOf (line : Nat) : Nat := line / 32 % 8 * 32768 + line / 2 ^ 18 % 32768

/-- R417: a utility monitor's 16 counters after a lookup at a recency position, 15 for a miss. (Log: PRESUMED 50) -/
def umonCount (l : List Nat) (i : Nat) : List Nat :=
  (l.zipIdx).map (fun p => if p.2 = i then min (p.1 + 1) (2 ^ 32 - 1) else p.1)

/-- R226, R228: the segments of a cluster that are ways of its L2 data slice. -/
def Cluster.l2Ways (c : Cluster) : List Nat := (upTo 16).filter (fun i => i != 0 && !c.vseg.getLsbD i)

/-- R418: the quotas by which the lookups of a cycle allocate: those before any write of that cycle. -/
def Cluster.quotasAt (c : Cluster) (now : Nat) : Tab (BitVec 16) :=
  match c.quotaOld with
  | some (t, q) => if t = now then q else c.quota
  | none => c.quota

/-- R229: the ways in which a tenant's accesses may allocate. -/
def Cluster.waysFor (c : Cluster) (now tn : Nat) : List Nat :=
  c.l2Ways.filter (fun i => ((c.quotasAt now).get 0xFFFE#16 tn).getLsbD i)

/-- R228, R229: an access of a tenant to a line homed at a cluster: a hit in any way; otherwise the line takes one of the
ways that the tenant's quota and the data ways have in common, the first without a line of its set or else the first of
them. Where they have none in common, nothing is allocated. What a line holds stands in `mem`, whichever level keeps it,
so a write-back changes no value. (Log: PRESUMED 50) -/
def Cluster.l2Touch (c : Cluster) (now tn line : Nat) : Cluster :=
  match c.l2.find? line with
  | some _ => c
  | none =>
    let ways := c.waysFor now tn
    let held (i : Nat) : Bool := c.l2.any (fun p => p.1 % 2048 == line % 2048 && p.2 == i)
    match ways.find? (fun i => !held i), ways with
    | some i, _ => { c with l2 := c.l2.put line i }
    | none, i :: _ => { c with l2 := Tab.put (c.l2.filter (fun p => !(p.1 % 2048 == line % 2048 && p.2 == i))) line i }
    | none, [] => c

/-- R228, R229, R417, R426: an access on behalf of a context reaches the home of a line: its L2 slice, the counter record
of its region, and in a sampled set the monitor of the context's tenant. (Log: PRESUMED 50) -/
def State.lookup (s : State) (a line : Nat) : State :=
  let tn := (s.ctx a).tnum
  let now := s.cycle
  let home := s.cluster (s.homeSlice line)
  let sure := (home.l2.find? line).isNone && (home.waysFor now tn).isEmpty
  let s := s.modCluster (s.homeSlice line) (fun c => c.l2Touch now tn line)
  let s : State := { s with access := s.access.upd {} (recordOf line) (fun r => { r with
    loc := min (r.loc + 1) 65535, sure := min (r.sure + b2n sure) 65535 }) }
  let set := line % 2048
  if set % 32 ≠ 0 then s
  else s.modCluster (s.homeSlice line) (fun c =>
    let st := c.shadow.get [] (tn * 2048 + set)
    { c with
      shadow := c.shadow.put (tn * 2048 + set) ((line :: st.filter (· != line)).take 15),
      umon := c.umon.upd (List.replicate 16 0) tn (fun l => umonCount l ((firstIdx st (· == line)).getD 15)) })

/-- The 64 bytes of a line in HBM as a number. -/
def State.lineData (s : State) (line : Nat) : BitVec 512 := BitVec.ofNat 512 (Memory.nat s.mem (line * 64) 64)

/-! ### Soft errors (R346) -/

/-- R347: the SRC code of an array. -/
def EccAt.src : EccAt → Nat
  | .hbm _ => 1
  | .l2 _ => 2
  | .vm .. => 3
  | .sp .. => 4
  | .tile .. => 5
  | .l1 .. => 6

/-- R346: a corrected error is counted by the stack or the cluster that corrected it. (Log: DESIGN CHOICE 67) -/
def State.corrected (s : State) (u : EccAt) : State :=
  let count (cl : Nat) : State := s.modCluster cl (fun c => { c with cecc := min (c.cecc + 1) (2 ^ 64 - 1) })
  match u with
  | .hbm line => { s with stackEcc := s.stackEcc.upd 0 (line / 32 % 8) (· + 1) }
  | .l2 line => count (s.homeSlice line)
  | .vm cl _ => count cl
  | .sp cl _ => count cl
  | .tile cl _ _ => count cl
  | .l1 cid _ => count (cid / 8)

/-- R217, R287, R346: the unit of an uncorrectable error holds zeros from then on: ordinary data. -/
def State.zeroUnit (s : State) (u : EccAt) : State :=
  match u with
  | .hbm line | .l2 line => { s with mem := Memory.writeAll s.mem (cellsAt (line * 64) (List.replicate 64 0#8)) }
  | .vm cl n => s.modCluster cl (fun c => { c with
      vault := Memory.writeAll c.vault (cellsAt (n * 16) (List.replicate 16 0#8)) })
  | .sp cl g => s.modCluster cl (fun c => { c with
      scratch := Memory.writeAll c.scratch (cellsAt (g * 16) (List.replicate 16 0#8)) })
  | .tile cl n r => s.modCluster cl (fun c => { c with tiles := vwr c.tiles n (
      let t := vrd c.tiles n
      if n < 16 then { t with rows := t.rows.drop r, scale := (t.scale.put (2 * r) 0).put (2 * r + 1) 0 }
      else { t with rows := t.rows.filter (fun p => p.1 / 64 != r) }) })
  | .l1 cid line => s.modCore cid (fun k => { k with l1 := match k.l1.find? line with
      | some c => k.l1.put line { c with data := 0#512 }
      | none => k.l1 })

/-- R347: the ADDR of an error, with the physical cluster where the entry holds the virtual one. -/
def EccAt.errAddr (u : EccAt) (addr : Nat) : Nat :=
  match u with
  | .vm cl _ | .sp cl _ => cl * 2 ^ 54 + addr
  | .tile cl t r => cl * 2 ^ 54 + t * 64 + r
  | _ => addr

/-- R97, R217, R280, R287, R346: a unit is about to be read for a context: an error in it is corrected and counted, or it
reads as zeros, adds 1 to the context's ERC and is logged, with the address or offset that the reader used. An error of
an engine's read has KIND 5. (Log: DESIGN CHOICE 67) -/
def State.readUnit (s : State) (u : EccAt) (a addr : Nat) (eng : Bool) (ma : Bool := false) : State :=
  match s.ecc.find? (fun e => e.1 == u) with
  | none => s
  | some e =>
    let s : State := { s with ecc := s.ecc.filter (fun e => e.1 != u) }
    if e.2 then (s.zeroUnit u).owe (.errorLog a (if eng then 5 else 1) u.src (u.errAddr addr) ma s.cycle) else s.corrected u

/-- R346: the line is about to be read at its home: from the L2 slice where it lies there, and from HBM. -/
def State.readLine (s : State) (line a addr : Nat) (eng : Bool) (ma : Bool := false) : State :=
  if s.ecc.isEmpty then s
  else if ((s.cluster (s.homeSlice line)).l2.find? line).isSome then s.readUnit (.l2 line) a addr eng ma
  else s.readUnit (.hbm line) a addr eng ma

/-- R346: a write of a unit ends an error in it. (Log: DESIGN CHOICE 67) -/
def State.clearEcc (s : State) (us : List EccAt) : State :=
  if s.ecc.isEmpty then s else { s with ecc := s.ecc.filter (fun e => !us.contains e.1) }

/-- R134, R135: a slot's bypass line is a copy of a line, within its hold. -/
def Slot.bypassed (sl : Slot) (line now : Nat) : Bool :=
  sl.occupied && (match sl.bypass with | some b => b.line == line && decide (now < b.copy.granted + 32) | none => false)

/-- R134, R135: a core's copy of a line is held for a thread that asked for it. (Log: DEDUCED 64) -/
def State.heldFor (s : State) (cid line : Nat) : Bool :=
  let now := (s.core cid).cycle
  match (s.core cid).l1.find? line with
  | none => (upTo 16).any (fun i => (s.slot (16 * cid + i)).bypassed line now)
  | some c => c.holds.any (fun h => decide (now < h.2 + 32) && (s.slot (16 * cid + h.1)).occupied)

/-- Change the copies of a line in the bypass lines of a core. -/
def State.modBypass (s : State) (cid line : Nat) (f : L1Line → L1Line) : State :=
  (upTo 16).foldl (fun s i =>
    if ((s.slot (16 * cid + i)).bypass.map (·.line)) == some line then
      s.modSlot (16 * cid + i) (fun sl => { sl with bypass := sl.bypass.map (fun b => { b with copy := f b.copy }) })
    else s) s

/-- R242, R133, R134: no L1 holds a line exclusively any more, but for the core named; a core that holds the line for a
thread that asked for it keeps its ownership until then. (Log: DEDUCED 64) -/
def State.revoke (s : State) (line : Nat) (keep : Option Nat) : State :=
  match (s.homeOf line).excl with
  | none => s
  | some o =>
    if some o = keep || s.heldFor o line then s
    else
      let s := (s.modHome line (fun h => { h with excl := none })).modBypass o line (fun c => { c with excl := false })
      (s.modCore o (fun k => { k with
        l1 := match k.l1.find? line with
          | none => k.l1
          | some c => k.l1.put line { c with excl := false } })).trace 4 0 (o / 8) line

/-- R380: doublewords that writes have reached in the part of a page that a kick page has its kicks in. -/
def kickedBy (l : List Nat) (cells : List Host.Cell) : List Nat :=
  cells.foldl (fun l c => if c.1 % 4096 < 512 && !l.contains (c.1 / 8) then c.1 / 8 :: l else l) l

/-- R232, R235: perform a write of bytes of one line at its home: it gets a write time above the writer's clock, every
lease end granted and the line's last write. `who` is the core whose L1 performs it, if one does.
(Log: DESIGN CHOICE 14) -/
def State.performWrite (s : State) (line : Nat) (cells : List Host.Cell) (clock : Nat) (who : Option Nat) : State :=
  let s := s.revoke line who
  let h := s.homeOf line
  let t := max clock (max h.maxLease h.wt) + 1
  let n := s.performed + 1
  let s := if cells.isEmpty then s else s.clearEcc [.hbm line, .l2 line]
  { s.modHome line (fun h => { h with wt := t, last := n, rels := putRels h.rels (cells.map (fun c => c.1 % 64)) [] }) with
    mem := Memory.writeAll s.mem cells, performed := n, kicked := kickedBy s.kicked cells }

/-- R240: the bytes of a line that a write has just written carry releases. -/
def State.carry (s : State) (line : Nat) (cells : List Host.Cell) (rels : List Rel) : State :=
  if rels.isEmpty then s
  else s.modHome line (fun h => { h with rels := putRels h.rels (cells.map (fun c => c.1 % 64)) rels })

/-- R135: the bypass lines of a core for a line hold what its L1 would hold after a write of the core's own. -/
def State.refreshBypass (s : State) (cid line : Nat) : State :=
  let t := (s.homeOf line).wt
  let data := s.lineData line
  let n := s.performed
  let rels := (s.homeOf line).rels
  (s.modHome line (fun h => { h with maxLease := max h.maxLease t })).modBypass cid line (fun c => { c with
    data := data, wt := t, leaseEnd := t, asOf := n, rels := rels })

/-- The copy of a line that a core holds, and its bypass lines, brought up to date after a write of its own. -/
def State.refreshCopy (s : State) (cid line : Nat) : State :=
  let s := if (upTo 16).any (fun i => ((s.slot (16 * cid + i)).bypass.map (·.line)) == some line)
    then s.refreshBypass cid line else s
  match (s.core cid).l1.find? line with
  | none => s
  | some c =>
    let t := (s.homeOf line).wt
    let rels := (s.homeOf line).rels
    let s' := (s.modHome line (fun h => { h with maxLease := max h.maxLease t })).clearEcc [.l1 cid line]
    s'.modCore cid (fun k => { k with
      l1 := k.l1.put line { c with
        data := s.lineData line, wt := t, leaseEnd := t, granted := k.cycle, asOf := s.performed, rels := rels } })

/-- R258: what one unit of an update-only line does to the doubleword in memory. -/
def updApply (kind : Nat) (wide : Bool) (old val : Nat) : Nat :=
  let one (w a b : Nat) : Nat :=
    match kind with
    | 0 => (a + b) % 2 ^ w
    | 1 => if sval w a ≤ sval w b then a else b
    | _ => if sval w a ≤ sval w b then b else a
  if wide then one 64 old val
  else one 32 (old % 2 ^ 32) (val % 2 ^ 32) + 2 ^ 32 * one 32 (old / 2 ^ 32) (val / 2 ^ 32)

/-- R258: the identity of an operation. -/
def updIdentity (kind : Nat) (wide : Bool) : Nat :=
  match kind, wide with
  | 0, _ => 0
  | 1, true => 2 ^ 63 - 1
  | 1, false => (2 ^ 31 - 1) * (2 ^ 32 + 1)
  | _, true => 2 ^ 63
  | _, false => 2 ^ 31 * (2 ^ 32 + 1)

/-- R243, R346: a home merges one update-only line, unit by unit, for a context. -/
def State.mergeUnits (s : State) (line actx : Nat) : List UpdUnit → State
  | [] => s
  | u :: r =>
    let a := line * 64 + u.idx * 8
    let s := s.readLine line actx a false true
    let v := updApply u.kind u.wide (Memory.nat s.mem a 8) u.val.toNat
    let cells := cellsAt a (leBytes v 8)
    ((s.performWrite line cells 0 none).carry line cells u.rels).mergeUnits line actx r

/-- R243: a home merges the update-only line of one core, if it has one. -/
def State.mergeLine (s : State) (cid line : Nat) : State :=
  match (s.core cid).upd.find? (fun u => u.line == line) with
  | none => s
  | some u =>
    let s := s.modCore cid (fun k => { k with upd := k.upd.filter (fun u => u.line != line) })
    let a := (s.thread (u.writers.headD 0)).ctx
    let s := s.lookup a line
    ((s.mergeUnits line a u.units).refreshCopy cid line).trace 3 0 (cid / 8) line

/-- R243: before the home serves a read of a line, it merges every update-only line of it from every L1. -/
def State.mergeAll (s : State) (line : Nat) : State :=
  (s.cores.filter (fun p => p.2.upd.any (fun u => u.line == line))).foldl (fun s p => s.mergeLine p.1 line) s

/-- R208, R233: a combining entry of a core is performed at its home. -/
def State.drainComb (s : State) (cid line : Nat) : State :=
  match (s.core cid).comb.find? (fun e => e.line == line) with
  | none => s
  | some e =>
    let s := s.modCore cid (fun k => { k with comb := k.comb.filter (fun e => e.line != line) })
    let s := s.lookup (s.thread (e.writers.headD 0)).ctx line
    let s := s.performWrite line e.bytes 0 none
    let s := if e.rels.isEmpty then s else s.modHome line (fun h => { h with
      rels := e.rels.foldl (fun t p => t.put p.1 p.2) h.rels })
    s.refreshCopy cid line

/-- R190, R240: pushed bytes are performed at their home. -/
def State.performPush (s : State) (a cid : Nat) (d : Push) : State :=
  match d.cells with
  | [] => s
  | c :: _ =>
    let line := c.1 / 64
    (((s.lookup a line).performWrite line d.cells 0 none).carry line d.cells d.rels).refreshCopy cid line

/-- R190: pushed elements of the thread of a slot are performed in order. -/
def State.performDrains (s : State) (sid : Nat) : State :=
  (s.thread sid).drains.foldl (fun s d => s.performPush (s.thread sid).ctx (coreOf sid) d)
    (s.modThread sid (fun h => { h with drains := [] }))

/-- R100: before the current thread accesses a line, its own earlier weak stores to it are performed: the elements that
it has pushed, and the combining entry of its core. -/
def State.drainOwn (s : State) (line : Nat) : State :=
  let s := if s.th.drains.any (fun d => d.cells.any (fun c => c.1 / 64 == line)) then s.performDrains s.cur else s
  s.drainComb (coreOf s.cur) line

/-- R207, R134: a copy that no other access may evict: pinned, or held for a slot within two rotations. -/
def L1Line.kept (c : L1Line) (now : Nat) : Bool := !c.pins.isEmpty || c.holds.any (fun h => now < h.2 + 32)

/-- R206, R243: the ways of a line's set that lines of a core's L1 take, its update-only lines among them. -/
def Core.waysUsed (k : Core) (line : Nat) : Nat :=
  (k.l1.filter (fun p => p.1 % 64 == line % 64)).length + (k.upd.filter (fun u => u.line % 64 == line % 64)).length

/-- An L1 drops its copy of a line, and with it what it owned. -/
def State.dropCopy (s : State) (cid line : Nat) : State :=
  let s := if (s.homeOf line).excl = some cid then s.modHome line (fun h => { h with excl := none }) else s
  s.modCore cid (fun k => { k with l1 := k.l1.drop line })

/-- R134, R206, R207, R243: room in a line's set of 8 ways: a free way, or one that an eviction frees: of a copy that is
not kept, or else of an update-only line, which the home merges; none where every way is kept (R135). -/
def State.makeRoom (s : State) (cid line : Nat) : Option State :=
  let k := s.core cid
  if k.waysUsed line < 8 then some s
  else match List.find? (fun p => p.1 % 64 == line % 64 && !p.2.kept k.cycle) k.l1 with
    | some p => some (s.dropCopy cid p.1)
    | none => match k.upd.find? (fun u => u.line % 64 == line % 64) with
      | some u => some (s.mergeLine cid u.line)
      | none => none

/-- The slots of a core that wait for a line to arrive, each with the address of its access. -/
def State.askers (s : State) (cid line : Nat) : List (Nat × Word) :=
  s.due.filterMap (fun j => match j with
    | .fill c sl l pc => if c == cid && l == line then some (sl, pc) else none
    | _ => none)

/-- R134: what an arriving line answers is no longer owed. -/
def State.answered (s : State) (cid line : Nat) : State :=
  { s with due := s.due.filter (fun j => match j with
    | .fill c _ l _ => !(c == cid && l == line)
    | _ => true) }

/-- R135: a line arrives in the bypass line of a slot, for the access at `pc`. -/
def State.putBypass (s : State) (cid line : Nat) (c : L1Line) (w : Nat × Word) : State :=
  let now := (s.core cid).cycle
  s.modSlot (16 * cid + w.1) (fun sl => { sl with bypass := some ⟨line, { c with holds := [(w.1, now)] }, w.2⟩ })

/-- R134, R135, R232: the home grants a lease of a line to a core for a slot: the newest data, a lease that covers the
clocks of the slot's thread and of every other that waits for the line, and every lease that the copy had; the copy is
held in the L1 for every slot that waits for the line, or in the bypass line of each, for its access, where no way may be
evicted. (Log: DESIGN CHOICE 8) -/
def State.fillLine (s : State) (cid slot line : Nat) (pc : Word) : State :=
  let s := (s.drainComb cid line).mergeAll line
  let a := (s.thread (16 * cid + slot)).ctx
  let s := (((s.revoke line (some cid)).lookup a line).readLine line a (line * 64) false true).clearEcc [.l1 cid line]
  let h := s.homeOf line
  let k := s.core cid
  let waiting := (slot, pc) :: (s.askers cid line).filter (fun w => w.1 != slot)
  let clock (i : Nat) : Nat := max (s.thread (16 * cid + i)).clock (s.thread (16 * cid + i)).fenceClock
  let e := max (maxOf (waiting.map (fun w => clock w.1))) h.wt + Config.leaseLength
  let holds := waiting.map (fun w => (w.1, k.cycle))
  let s := (s.modHome line (fun h => { h with maxLease := max h.maxLease e })).answered cid line
  let c : L1Line := { data := s.lineData line, wt := h.wt, leaseEnd := e, granted := k.cycle, asOf := s.performed,
                      rels := h.rels }
  match k.l1.find? line with
  | some old =>
    s.modCore cid (fun k => { k with l1 := k.l1.put line { c with
      leaseEnd := max e old.leaseEnd, excl := old.excl, pins := old.pins,
      holds := holds ++ old.holds.filter (fun h => !(waiting.map (·.1)).contains h.1) } })
  | none =>
    match s.makeRoom cid line with
    | some s => s.modCore cid (fun k => { k with l1 := k.l1.put line { c with holds := holds } })
    | none => waiting.foldl (fun (s : State) w => s.putBypass cid line c w) s

/-- R232: a lease renewal: a fill that raises the clock of the slot's thread to the data's write time at least. -/
def State.renewLease (s : State) (cid slot line : Nat) (pc : Word) : State :=
  let s := s.fillLine cid slot line pc
  let t := (s.homeOf line).wt
  let s := s.modThread (16 * cid + slot) (fun h => { h with clock := max h.clock t })
  s.trace 1 (s.thread (16 * cid + slot)).ctx (cid / 8) line

/-- R232: the home gives a write time for a slot's store to a line. -/
def State.giveGrant (s : State) (cid slot line : Nat) : State :=
  let h := s.homeOf line
  let t := max (s.thread (16 * cid + slot)).clock (max h.maxLease h.wt) + 1
  let s := s.modCore cid (fun k => { k with
    grants := (slot, line, t) :: k.grants.filter (fun g => !(g.1 == slot && g.2.1 == line)) })
  s.trace 2 (s.thread (16 * cid + slot)).ctx (cid / 8) line

/-- R133: another core owns a line and holds it for a thread that asked for it. (Log: DEDUCED 64) -/
def State.ownedElsewhere (s : State) (cid line : Nat) : Bool :=
  match (s.homeOf line).excl with
  | none => false
  | some o => o != cid && s.heldFor o line

/-- R242, R256, R133, R135: the home grants a core exclusive ownership of a line: recalled from every other L1, merged,
copied, into the bypass line of the slot where every way of the set is kept. While another core holds the line for a thread
of its own, the grant waits for the request's next execution. (Log: DEDUCED 64; DESIGN CHOICE 88) -/
def State.grantOwner (s : State) (cid slot line : Nat) : State :=
  if s.ownedElsewhere cid line then s
  else
  let s := (s.revoke line (some cid)).fillLine cid slot line (s.thread (16 * cid + slot)).rtcTag
  let s := s.modHome line (fun h => { h with excl := some cid })
  match (s.core cid).l1.find? line with
  | none => s.modBypass cid line (fun c => { c with excl := true })
  | some c => s.modCore cid (fun k => { k with l1 := k.l1.put line { c with excl := true } })

/-- R233: the age limit of a copy: within it, no read returns a value older than 8,192 cycles. -/
def L1Line.fresh (c : L1Line) (now : Nat) : Bool := now < c.granted + 8192

/-- R134: a slot's hold on a line ends with its ready access. -/
def State.releaseHold (s : State) (cid slot line : Nat) : State :=
  let s := match (s.core cid).l1.find? line with
    | none => s
    | some c => s.modCore cid (fun k => { k with
        l1 := k.l1.put line { c with holds := c.holds.filter (fun h => h.1 != slot) } })
  s.modSlot (16 * cid + slot) (fun sl =>
    if (sl.bypass.map (·.line)) == some line then { sl with bypass := none } else sl)

/-- The copy of a line that may serve an access of a slot: of its core's L1, or of the slot's own bypass line within its
hold, for the access at `pc` that requested it (R135). -/
def State.copyFor (s : State) (cid slot line : Nat) (pc : Word) : Option L1Line :=
  match (s.core cid).l1.find? line with
  | some c => some c
  | none =>
    match (s.slot (16 * cid + slot)).bypass with
    | some b => if b.line == line && b.pc == pc && (s.core cid).cycle < b.copy.granted + 32 then some b.copy else none
    | none => none

/-- R346: a copy in an L1 is about to be read. -/
def State.readCopy (s : State) (cid line a addr : Nat) : State :=
  if s.ecc.isEmpty || ((s.core cid).l1.find? line).isNone then s else s.readUnit (.l1 cid line) a addr false

end Sys2Proof.Machine
end

