-- ==== Sys2Proof/Machine/Walk.lean ====
section
/-! DEFINITION. Address translation: stages, the walk and its composition, fault records, and the filling of the TLBs
(R337, R348 to R358, R371). -/

namespace Sys2Proof.Machine

/-- R348: the contexts whose stages a thread of a context has, its own first, the root last. -/
def State.lineageFrom (s : State) : Nat → Nat → List Nat
  | 0, a => [a]
  | n + 1, a =>
    match (s.ctx a).parent with
    | none => [a]
    | some (p, _) => a :: s.lineageFrom n p

/-- See lineageFrom; a context lies at most at depth 7. -/
def State.lineage (s : State) (a : Nat) : List Nat := s.lineageFrom 7 a

/-- R350: a page table entry. -/
structure Pte where
  v : Bool
  r : Bool
  w : Bool
  x : Bool
  g : Nat
  a : Bool
  d : Bool
  u : Bool
  ppn : Nat
  res : Nat
  pbmt : Nat
  n : Bool
deriving DecidableEq, Repr

/-- R350: the fields of an entry. -/
def Pte.ofNat (e : Nat) : Pte :=
  { v := bitAt e 0, r := bitAt e 1, w := bitAt e 2, x := bitAt e 3, u := bitAt e 4, g := bitsAt e 5 1, a := bitAt e 6,
    d := bitAt e 7, ppn := bitsAt e 10 44, res := bitsAt e 54 7, pbmt := bitsAt e 61 2, n := bitAt e 63 }

/-- R350: an entry with R = W = X = 0 points to the next table. -/
def Pte.pointer (p : Pte) : Bool := !p.r && !p.w && !p.x

/-- R351: the low PPN bits that a leaf of a level takes from the input, or none where the leaf's PPN is not one of the
table. The level-0 64 KiB and level-1 512 MiB leaves carry N. -/
def Pte.leafBits (p : Pte) (l : Nat) : Option Nat :=
  if p.n then
    if l = 0 ∧ p.ppn % 16 = 8 then some 4
    else if l = 1 ∧ bitsAt p.ppn 9 8 = 0x80 ∧ p.ppn % 512 = 0 then some 17
    else none
  else if p.ppn % 2 ^ (9 * l) = 0 then some (9 * l)
  else none

/-- R350: an invalid entry at a level. -/
def Pte.invalid (p : Pte) (l : Nat) : Bool :=
  !p.v || (p.w && !p.r) || p.res != 0 || p.pbmt == 3 ||
    (if p.pointer then l == 0 || p.d || p.a || p.u || p.n || p.pbmt != 0 else (p.leafBits l).isNone)

/-- What a translation through stages gives: the address, the permissions of every leaf, the kinds that every window
permits, the composed size in pages, whether the windows hold the whole of it, whether D was set in every leaf, and the
output of the first stage. -/
structure Walked where
  addr : Nat
  r : Bool := true
  w : Bool := true
  x : Bool := true
  kr : Bool := true
  kw : Bool := true
  kx : Bool := true
  pages : Nat := 2 ^ 44
  whole : Bool := true
  dset : Bool := true
  first : Nat := 0
deriving DecidableEq, Repr

/-- The end of a walk: a translation, or the stage's context, level, input page and kind of a fault (R355). -/
inductive WalkR where
  | ok (w : Walked) (s : State)
  | fault (ctx level page : Nat) (k : Kind) (s : State)
deriving DecidableEq, Repr

/-- One leaf: output, permissions, pages, D, level. -/
structure Leaf where
  out : Nat
  r : Bool
  w : Bool
  x : Bool
  pages : Nat
  d : Bool
  level : Nat
deriving DecidableEq, Repr

/-- The end of the walk of one stage; `again` where its leaf has changed since the walk read it (R352). -/
inductive LeafR where
  | ok (l : Leaf) (s : State)
  | fault (ctx level page : Nat) (k : Kind) (s : State)
  | again (l : Leaf) (s : State)
deriving DecidableEq, Repr

/-- R353: the value of a table entry of a context, as its home holds it; `e` is its address in the stage below, and `act`
the context of the access. A table that resides elsewhere gives a free value. (Log: DESIGN CHOICE 4) -/
def State.readPte (s : State) (act c e sys : Nat) : Nat × State :=
  match s.machineOf sys with
  | some m =>
    let s := ((s.mergeAll (m / 64)).lookup act (m / 64)).readLine (m / 64) c e false
    (Memory.nat s.mem m 8, s)
  | none => let p := s.free; ((Config.freeWord p.1).toNat, p.2)

/-- R352: the atomic OR of A, or of A and D, on the leaf that a walk has read as `old`; it changes nothing where the leaf
is no longer so, and the walk starts again. -/
def State.markPte (s : State) (act : Nat) (leaf : Leaf) (bits old sys : Nat) : LeafR :=
  match s.machineOf sys with
  | none => .ok leaf (s.emit (ownerOf sys) (leBytes sys 8 ++ leBytes (old ||| bits) 8))
  | some m =>
    let s := (s.mergeAll (m / 64)).lookup act (m / 64)
    if Memory.nat s.mem m 8 = old then .ok leaf (s.performWrite (m / 64) (cellsAt m (leBytes (old ||| bits) 8)) 0 none)
    else .again leaf s

/-- R354 `walk`, from a level down: `rd` translates an entry's address through the stages below, `win` says whether the
context's own windows permit a read or a write of the entry (R371), `mark` whether A and D are set (R352). -/
def walkLevels (rd : State → Nat → Kind → WalkR) (win : State → Nat → Bool → Bool) (mark : Bool) (act c a : Nat)
    (k : Kind) : Nat → Nat → State → LeafR
  | 0, _, s => .fault c 0 (a / 4096) k s
  | l + 1, t, s =>
    let e := t + 8 * bitsAt a (12 + 9 * l) 9
    if !win s e false then .fault c l (a / 4096) k s
    else
    match rd s e (Kind.ofCode 0) with
    | .fault c' l' p k' s => .fault c' l' p k' s
    | .ok w s =>
      let rp := s.readPte act c e w.addr
      let s := rp.2
      let p := Pte.ofNat rp.1
      if p.invalid l then .fault c l (a / 4096) k s
      else if p.pointer then walkLevels rd win mark act c a k l (p.ppn * 4096) s
      else
        let n := (p.leafBits l).getD 0
        let leaf : Leaf :=
          { out := (p.ppn / 2 ^ n * 2 ^ n + a / 4096 % 2 ^ n) * 4096 + a % 4096, r := p.r, w := p.w, x := p.x,
            pages := 2 ^ min n 18, d := p.d || (mark && k.w), level := l }
        if mark && (!p.a || (k.w && !p.d)) then
          if !win s e true then .fault c l (a / 4096) k s
          else
          match rd s e (Kind.ofCode 1) with
          | .fault c' l' p k' s => .fault c' l' p k' s
          | .ok w s => s.markPte act leaf (if k.w then 0xC0 else 0x40) rp.1 w.addr
        else .ok leaf s

/-- R352: the walk of a stage, which starts again where its leaf has changed, up to n times more. Only the marks of the
walk itself can change a leaf while it runs, and what they have set stays set. -/
def walkAgain (f : State → LeafR) : Nat → State → LeafR
  | 0, s => f s
  | n + 1, s =>
    match f s with
    | .again _ s => walkAgain f n s
    | r => r

/-- R371: the windows of a context that hold a page. -/
def Ctx.windowsAt (c : Ctx) (page : Nat) : List Window :=
  (c.windows.map (·.2)).filter (fun w => decide (w.base ≤ page * 4096) && decide (page * 4096 < w.base + w.size))

/-- R349: a reserved system address. -/
def sysReserved (a : Nat) : Bool :=
  let sel := a / 2 ^ 45
  sel ≥ 2047 || (sel ≤ 1024 && bitsAt a 39 6 != 0)

/-- R371: the windows of a context permit a read or a write of the page of an address that its stage produces; the root
needs none. -/
def State.inWindow (s : State) (c : Nat) (root : Bool) (e : Nat) (write : Bool) : Bool :=
  root || ((s.ctx c).windowsAt (e % 2 ^ 56 / 4096)).any (fun w => if write then w.w else w.r)

/-- R354 `translate`, from the first stage of a list to the root: `strict` asks every leaf for the permission of the
kind, as the reading of a table entry does (R355); `pend` gives the level of a fault that is pending on a page of a stage,
which stops the walk there (R353, R407). (Log: DEDUCED 33) -/
def State.walkStages (pend : State → Nat → Nat → Option Nat) (mark : Bool) (act : Nat) :
    List Nat → Bool → State → Nat → Kind → WalkR
  | [], _, s, a, _ => .ok { addr := a } s
  | c :: rest, strict, s, a, k =>
    let page := bitsAt a 12 45
    let walk (s : State) : LeafR :=
      if bitsAt (s.ctx c).atp.toNat 60 4 = 0 then
        .ok { out := a, r := true, w := true, x := true, pages := 2 ^ 44, d := true, level := 0 } s
      else
        walkLevels (fun s a k => State.walkStages pend mark act rest true s a k)
          (fun s e wr => s.inWindow c rest.isEmpty e wr) mark act c (a % 2 ^ 57) k 5
          (bitsAt (s.ctx c).atp.toNat 0 44 * 4096) s
    let leafR : LeafR :=
      match pend s c page with
      | some l => .fault c l page k s
      | none =>
        match walkAgain walk 4 s with
        | .again lf s => .ok { lf with d := false } s
        | r => r
    match leafR with
    | .fault c' l' p k' s => .fault c' l' p k' s
    | .again lf s | .ok lf s =>
      let out := lf.out % 2 ^ 56
      let ws := (s.ctx c).windowsAt (out / 4096)
      let kr := rest.isEmpty || ws.any (·.r)
      let kw := rest.isEmpty || ws.any (·.w)
      let kx := rest.isEmpty || ws.any (·.x)
      let whole := rest.isEmpty || ws.any (fun w =>
        decide (w.base ≤ out / 4096 / lf.pages * lf.pages * 4096) &&
          decide ((out / 4096 / lf.pages + 1) * lf.pages * 4096 ≤ w.base + w.size))
      if (k.r && !kr) || (k.w && !kw) || (k.x && !kx) then .fault c lf.level page k s
      else if strict && ((k.r && !lf.r) || (k.w && !lf.w) || (k.x && !lf.x)) then .fault c lf.level page k s
      else if rest.isEmpty && sysReserved out then .fault c lf.level page k s
      else
        match State.walkStages pend mark act rest strict s out k with
        | .fault c' l' p k' s => .fault c' l' p k' s
        | .ok w s => .ok { w with
            r := w.r && lf.r, w := w.w && lf.w, x := w.x && lf.x, kr := w.kr && kr, kw := w.kw && kw, kx := w.kx && kx
            pages := min w.pages lf.pages, whole := w.whole && whole, dset := w.dset && lf.d, first := out } s

/-- R354: translate an address for a context, whatever is pending: what the hardware itself does. -/
def State.translate (s : State) (mark : Bool) (ctx va : Nat) (k : Kind) : WalkR :=
  State.walkStages (fun _ _ _ => none) mark ctx (s.lineage ctx) false s (va % 2 ^ 57) k

/-- R337, R338: a range of the device not yet done, with its field, in which a page of an owner lies. -/
def FaultRange.holds (r : FaultRange) (owner stage page : Nat) : Bool :=
  !r.ended && r.owner == owner && r.stage == stage && r.page ≤ page && page < r.page + r.npg

/-- R407: a record sent by the scrivener of a cluster for a page of a stage of an owner. -/
def FaultRec.sameAs (r : FaultRec) (cl owner stage page : Nat) : Bool :=
  r.cl == cl && r.owner == owner && r.stage == stage && r.page == page

/-- R337, R353, R407: the level of the fault that is pending on a page of a context's stage, for the accesses of a
cluster: a range posted and not done, or a record of that cluster's own. -/
def State.pendingLevel (s : State) (cl c page : Nat) : Option Nat :=
  let stage := (s.ctx c).depth
  match s.fields.findSome? (fun f => (f.2.ranges.find? (fun r => r.holds c stage page)).map (·.level)) with
  | some l => some l
  | none => (((s.field (fieldOf cl)).closed ++ (s.field (fieldOf cl)).batch).find? (fun r =>
      r.sameAs cl c stage page)).map (·.level)

/-- R353, R354: translate an address for an access of a context in a cluster: the walk stops at a page with a fault
pending as at an invalid entry. -/
def State.translateFor (s : State) (cl : Nat) (mark : Bool) (ctx va : Nat) (k : Kind) : WalkR :=
  State.walkStages (fun s c page => s.pendingLevel cl c page) mark ctx (s.lineage ctx) false s (va % 2 ^ 57) k

/-- R98, R248, R407: a fault is outstanding, for the accesses of a cluster, on a virtual page of a context: on the page of
its own stage, or on one that such an access met in a stage below. -/
def State.faultPending (s : State) (cl ctx page : Nat) : Bool :=
  (s.pendingLevel cl ctx (page % 2 ^ 45)).isSome ||
  s.fields.any (fun f =>
    (f.2.closed ++ f.2.batch).any (fun r => r.cl == cl && r.waits.contains (ctx, page)) ||
    f.2.ranges.any (fun r => !r.ended && r.waits.contains (cl, ctx, page)))

/-- Add to a list what it does not hold yet. -/
def addNew {α : Type} [BEq α] (l : List α) (a : α) : List α := if l.contains a then l else l ++ [a]

/-- R337: a record enters the batch of a field. -/
def State.batchRec (s : State) (field : Nat) (r : FaultRec) : State :=
  let cyc := s.cycle
  (s.modField field (fun f => { f with batch := f.batch ++ [{ r with since := cyc }] })).owe (.closeBatch field)

/-- R352: what either of two kinds asks. -/
def Kind.both (k l : Kind) : Kind := ⟨k.r || l.r, k.w || l.w, k.x || l.x⟩

/-- R352: a kind asks nothing that another does not. -/
def Kind.within (k l : Kind) : Bool := (l.r || !k.r) && (l.w || !k.w) && (l.x || !k.x)

/-- R407: a record for the kinds of access that its cluster has not recorded yet for its page; with no new kind, the
access only waits with the record there is. (Log: DEDUCED 65) -/
def State.sendRec (s : State) (field : Nat) (r : FaultRec) : State :=
  let same (o : FaultRec) : Bool := o.sameAs r.cl r.owner r.stage r.page
  let b := ((s.field field).closed ++ (s.field field).batch).filter same
  let n : FaultRec := { r with
    r := r.r && !b.any (·.r), w := r.w && !b.any (·.w), x := r.x && !b.any (·.x) }
  if b.isEmpty || n.r || n.w || n.x then s.batchRec field n
  else
    let more (l : List FaultRec) : List FaultRec := updWhere l same (fun o => { o with
      waits := r.waits.foldl addNew o.waits, asked := o.asked.both r.asked })
    s.modField field (fun f => { f with batch := more f.batch, closed := more f.closed })

/-- R337: the sorter of a cluster's field takes a fault record, or the access joins the range that holds its page.
(Log: DEDUCED 65) -/
def State.recordFault (s : State) (cl owner level page : Nat) (k asked : Kind) (eng : Bool) (who : Issuer)
    (actx apage : Nat) : State :=
  let stage := (s.ctx owner).depth
  if s.fields.any (fun f => f.2.ranges.any (fun r => r.holds owner stage page)) then
    { s with fields := s.fields.map (fun f => (f.1, { f.2 with
        ranges := updWhere f.2.ranges (fun r => r.holds owner stage page) (fun r => { r with
          waits := addNew r.waits (cl, actx, apage) }) })) }
  else
    s.sendRec (fieldOf cl) { owner := owner, stage := stage, level := level, page := page, r := k.r, w := k.w, x := k.x,
                             eng := eng, who := who, cl := cl, waits := [(actx, apage)], asked := asked }

/-- R337, R407: an access that finds its page pending: it joins the posted range that holds the page; or it sends a record
for a kind that its cluster has not recorded yet, of the page and level recorded, and needs no walk; or, one like it waiting
already, it only waits with the record there is. (Log: DEDUCED 65) -/
def State.joinFault (s : State) (cl ctx va : Nat) (k : Kind) (eng : Bool) (who : Issuer) : State :=
  let page := va / 4096
  let stage := (s.ctx ctx).depth
  let on (r : FaultRange) : Bool := !r.ended && (r.waits.contains (cl, ctx, page) || r.holds ctx stage (page % 2 ^ 45))
  if s.fields.any (fun f => f.2.ranges.any on) then
    { s with fields := s.fields.map (fun f => (f.1, { f.2 with
        ranges := updWhere f.2.ranges on (fun r => { r with waits := addNew r.waits (cl, ctx, page) }) })) }
  else
    let b := ((s.field (fieldOf cl)).closed ++ (s.field (fieldOf cl)).batch).filter (fun r =>
      r.cl == cl && (r.waits.contains (ctx, page) || r.sameAs cl ctx stage (page % 2 ^ 45)))
    match b with
    | [] => s
    | r :: _ =>
      if b.any (fun o => o.waits.contains (ctx, page) && k.within o.asked) then s
      else s.sendRec (fieldOf cl) { r with
        r := k.r, w := k.w, x := k.x, eng := eng, who := who, waits := [(ctx, page)], asked := k }

/-- R356: the composed entry of a translation. A window that holds only a part of the page narrows it to 4 KiB. -/
def State.tlbEntry (s : State) (ctx va : Nat) (w : Walked) : TlbEntry :=
  let pages := if w.whole then min w.pages (2 ^ 18) else 1
  let vpn := va / 4096
  let spn := w.addr / 4096
  { asid := ctx, vpn := vpn - vpn % pages, pages := pages, spn := spn - vpn % pages, r := w.r, w := w.w, x := w.x,
    dset := w.dset, kr := w.kr, kw := w.kw, kx := w.kx,
    stamps := (s.lineage ctx).map (fun c => (c, (s.ctx c).stageGen)) }

/-- R356: put an entry into a TLB of n entries; the oldest that is not held makes room, and where all are held it does not
enter. -/
def tlbPut (n : Nat) (now : Nat) (l : List TlbEntry) (e : TlbEntry) : List TlbEntry :=
  let l := l.filter (fun o => !(o.asid == e.asid && o.vpn == e.vpn && o.kr == e.kr && o.kw == e.kw && o.kx == e.kx))
  if l.length < n then e :: l
  else
    match firstIdx l.reverse (fun o => o.heldUntil ≤ now) with
    | some i => e :: (l.reverse.eraseIdx i).reverse
    | none => l

/-- R356: fill the TLBs of a core and its cluster. -/
def State.fillTlb (s : State) (cid ctx va : Nat) (w : Walked) : State :=
  let e := s.tlbEntry ctx va w
  let s := s.modCore cid (fun k => { k with tlb := tlbPut 48 k.cycle k.tlb { e with heldUntil := k.cycle + 32 } })
  s.modCluster (cid / 8) (fun c => { c with tlb := tlbPut 2048 0 c.tlb e })

/-- R358, R363: an entry of a page that an invalidation has put out of use stands in a TLB of a core: the invalidation is
the cause of the next walk. -/
def State.invalidated (s : State) (cid ctx page : Nat) : Bool :=
  ((s.core cid).tlb ++ (s.cluster (cid / 8)).tlb).any (fun e =>
    e.asid == ctx && e.vpn ≤ page && page < e.vpn + e.pages && !s.stampsOk e)

/-- R337, R354: the scrivener of a cluster walks for an access, and fills the TLBs or sends a fault record. A page with
a fault pending waits for `flt.done`. The end of an invalidation is a release towards the accesses whose walks it causes
(R363). -/
def State.scrivenerWalk (s : State) (cid ctx va : Nat) (k : Kind) (who : Issuer) (eng : Bool) : State :=
  if s.faultPending (cid / 8) ctx (va / 4096) then s.joinFault (cid / 8) ctx va k eng who
  else
    match s.translateFor (cid / 8) true ctx va k with
    | .ok w s =>
      let n := if s.invalidated cid ctx (va / 4096) then s.performed else 0
      let s := s.fillTlb cid ctx va w
      if eng then s else s.modThread who.sid (fun h => { h with
        waits := h.waits.filter (· != va / 4096), floor := max h.floor n })
    | .fault c l p k' s => s.recordFault (cid / 8) c l p k' k eng who ctx (va / 4096)

end Sys2Proof.Machine
end

