-- ==== Sys2Proof/Machine/MemOps.lean ====
section
/-! DEFINITION. Accesses of a thread to ordinary memory, scratchpad and vault memory, fence conditions, the request
latch, and watches (R95 to R100, R206 to R209, R223 to R227, R231 to R254, R345, R429 to R432). -/

namespace Sys2Proof.Machine

/-! ### Halting (R430 to R432) -/

/-- R430: a halt of the cluster with ENG = 1 stops its engines at their boundaries. -/
def State.enginesHalted (s : State) (cl : Nat) : Bool :=
  bitAt (s.cluster cl).dmctl.toNat 18 && [0, 1, 2, 3, 4, 5, 6, 7].any (fun i => (s.core (8 * cl + i)).halted)

/-- R430: halt a core. -/
def State.haltCore (s : State) (cid : Nat) : State := s.modCore cid (fun k => { k with halted := true })

/-- R430: halt the eight cores of a cluster. -/
def State.haltCluster (s : State) (cl : Nat) : State := (upTo 8).foldl (fun s i => s.haltCore (8 * cl + i)) s

/-- R430: a trigger from cluster `a` reaches cluster `b`, `skew` cycles later. (Log: DEDUCED 46) -/
def State.triggerAt (s : State) (a b skew : Nat) : State :=
  if !bitAt (s.cluster b).dmctl.toNat 16 then s
  else
    let src := (s.cluster b).trigSrc.toNat
    let a' := if bitAt src 63 && (s.cluster b).trigAt == some s.cycle then min a (src % 1024) else a
    (s.modCluster b (fun c => { c with trigSrc := w64 (2 ^ 63 + a'), trigSkew := skew % 2 ^ 32, trigAt := some s.cycle })).haltCluster b

/-- R430: a local trigger of a cluster goes out when CTO is set, to every cluster with CTI set. -/
def State.raiseTrigger (s : State) (a : Nat) : State :=
  if bitAt (s.cluster a).dmctl.toNat 17 then
    (s.clusters.filter (fun p => p.1 != a && bitAt p.2.dmctl.toNat 16)).foldl (fun s p =>
      s.owe (.trigger a p.1 s.cycle)) s
  else s

/-- R431: the action of a breakpoint or watch of the current slot's cluster. (Log: DESIGN CHOICE 63) -/
def State.debugAct (s : State) (act pc : Nat) : State :=
  let cl := clusterOf s.cur
  let core := coreOf s.cur % 8
  let s := s.modCluster cl (fun c => { c with
    dmhits := if c.dmhits.contains core then c.dmhits else core :: c.dmhits })
  match act with
  | 0 => s.haltCore (coreOf s.cur)
  | 1 => (s.haltCluster cl).raiseTrigger cl
  | 2 =>
    match s.translate false s.th.ctx pc {} with
    | .ok w _ => s.trace 9 s.th.ctx cl (w.addr / 64)
    | .fault .. => s.trace 9 s.th.ctx cl 0
  | _ => s

/-- R431: an armed control word for the current thread's ASID. -/
def Watch.armed (w : Watch) (asid : Nat) : Bool :=
  bitAt w.ctl.toNat 31 && (bitAt w.ctl.toNat 28 || bitsAt w.ctl.toNat 17 11 == asid)

/-- R432: the lowest watch, armed for the current thread and a kind of access, whose range meets a test; none where a
breakpoint has matched the instruction. -/
def State.watchIf (s : State) (va : Nat) (isLoad isStore : Bool) (hit : Nat → Nat → Bool) : State :=
  if s.th.broke then s
  else match s.mine.wp.toList.find? (fun w => w.armed s.th.ctx &&
      ((isLoad && bitAt w.ctl.toNat 16) || (isStore && bitAt w.ctl.toNat 15)) && hit w.lo.toNat w.hi.toNat) with
  | some w => s.debugAct (bitsAt w.ctl.toNat 29 2) va
  | none => s

/-- R432: an access of the current thread that completes ready touches bytes va to va + n - 1. -/
def State.watch (s : State) (va n : Nat) (isLoad isStore : Bool) : State :=
  s.watchIf va isLoad isStore (fun lo hi => decide (va ≤ hi) && decide (lo ≤ va + n - 1))

/-- R432: a store of the current thread that completes ready writes bytes, given by their addresses from `m`, which is the
place of the virtual address `va`. -/
def State.watchStore (s : State) (va m : Nat) (cells : List Host.Cell) : State :=
  s.watchIf va false true (fun lo hi => cells.any (fun c => decide (lo ≤ va + (c.1 - m)) && decide (va + (c.1 - m) ≤ hi)))

/-! ### Results of an access -/

/-- How an access ends. -/
inductive Acc (α : Type) where
  /-- A precise trap. -/
  | trap (code : Nat) (info : Word)
  /-- R343: the fault that the access waited on ended in failure. -/
  | failed (page : Nat) (va : Word)
  /-- Not ready. -/
  | nr (cs : List Cause) (s : State)
  /-- Done. -/
  | ok (v : α) (s : State)

/-- R253: the codes of the causes of majors 8 to 12; R98's are the first ten. -/
def Cause.memCode : Cause → Nat
  | .translation .. | .probe => 1
  | .lineAbsent _ => 2
  | .lease _ => 3
  | .writeGrant _ => 4
  | .combineFull => 5
  | .faultPending _ | .heldStores => 6
  | .replayFull => 7
  | .remote => 8
  | .remoteFull => 9
  | .awaiting _ => 10
  | .ownership _ => 11
  | .reply | .latches => 12
  | .empty _ => 13
  | .granuleFull _ => 14
  | .parkFull => 15
  | .parked _ => 16
  | .order _ => 17
  | .noFrame => 18
  | .barrier .. => 19
  | .barrierHeld _ => 20
  | .reconfig _ => 21
  | .merge _ | .mergeUnit _ => 22
  | .retry c _ => c
  | _ => 0

/-- The end of an instruction whose access ended so; `code` gives the codes of its table of causes. -/
def Acc.res {α : Type} (a : Acc α) (code : Cause → Nat) (f : α → State → Res) : Res :=
  match a with
  | .trap c i => .trap c i
  | .failed page va =>
    .trapAfter (fun s => s.modTh (fun h => { h with failed := h.failed.filter (· != page) })) tFAILED va
  | .nr cs s => .nr cs (code (cs.headD .reply)) s
  | .ok v s => f v s

/-- One access after another. -/
def Acc.bind {α β : Type} (a : Acc α) (f : α → State → Acc β) : Acc β :=
  match a with
  | .trap c i => .trap c i
  | .failed p va => .failed p va
  | .nr cs s => .nr cs s
  | .ok v s => f v s

/-- R15: an access, and another that its causes do not hide: a trap of either stops both. -/
def Acc.both {α β γ : Type} (a : Acc α) (g : State → Acc β) (f : α → β → γ) : Acc γ :=
  match a with
  | .trap c i => .trap c i
  | .failed p va => .failed p va
  | .nr cs s' =>
    match g s' with
    | .trap c i => .trap c i
    | .failed p va => .failed p va
    | .nr cs' s'' => .nr (cs ++ cs') s''
    | .ok _ _ => .nr cs s'
  | .ok v s' => (g s').bind (fun w s'' => .ok (f v w) s'')

/-! ### Where a thread stands -/

/-- A thread, by its number, wherever it stands: in a slot, in a save frame, or saved with its core or cluster. -/
def State.modUid (s : State) (uid : Nat) (f : Thread → Thread) : State :=
  let saved (l : List (Nat × Slot)) : List (Nat × Slot) :=
    l.map (fun p => if p.2.th.uid == uid then (p.1, { p.2 with th := f p.2.th }) else p)
  match List.find? (fun p => p.2.occupied && p.2.th.uid == uid) s.slots with
  | some p => s.modThread p.1 f
  | none => { s with
      ctxs := s.ctxs.map (fun c => (c.1, { c.2 with
        framesIn := updWhere c.2.framesIn (fun q => q.th.uid == uid) (fun q => { q with th := f q.th }) })),
      cores := s.cores.map (fun k => (k.1, { k.2 with kept := saved k.2.kept })),
      saves := s.saves.map (fun g => { g with slots := saved g.slots }) }

/-- Every thread that satisfies a test, wherever it stands. -/
def State.modThreads (s : State) (p : Thread → Bool) (f : Thread → Thread) : State :=
  let on (l : List (Nat × Slot)) : List (Nat × Slot) :=
    l.map (fun q => if q.2.occupied && p q.2.th then (q.1, { q.2 with th := f q.2.th }) else q)
  { s with
    slots := on s.slots,
    ctxs := s.ctxs.map (fun c => (c.1, { c.2 with
      framesIn := updWhere c.2.framesIn (fun q => p q.th) (fun q => { q with th := f q.th }) })),
    cores := s.cores.map (fun k => (k.1, { k.2 with kept := on k.2.kept })),
    saves := s.saves.map (fun g => { g with slots := on g.slots }) }

/-! ### Resolving an address (R96, R97) -/

/-- R248, R250: the current thread has a held store to a page, in whichever cluster it issued it. -/
def State.heldOn (s : State) (page : Nat) : Bool :=
  s.clusters.any (fun p => p.2.replay.any (fun h => h.who.uid == s.th.uid && h.page == page))

/-- R248: a fault is outstanding on a page for the current thread. -/
def State.pending (s : State) (page : Nat) : Bool := s.faultPending (clusterOf s.cur) s.th.ctx page

/-- R407: the current thread finds a page pending. -/
def State.joinPage (s : State) (va : Nat) (k : Kind) : State :=
  s.joinFault (clusterOf s.cur) s.th.ctx va k false s.issuer

/-- R342: the release that a store held behind the current thread's held stores to a page shares with them. -/
def State.heldMark (s : State) (page : Nat) : Option (BitVec 32) :=
  if s.pending page then none
  else s.clusters.findSome? (fun p =>
    (p.2.replay.find? (fun h => h.who.uid == s.th.uid && h.page == page)).bind (·.released))

/-- R249, R250: the current thread has a held store, in whichever cluster it issued it. -/
def State.holding (s : State) : Bool := s.clusters.any (fun p => p.2.replay.any (fun h => h.who.uid == s.th.uid))

/-- R343: the current thread waits on the fault of a page. -/
def State.waitOn (s : State) (page : Nat) : State :=
  s.modTh (fun h => { h with waits := if h.waits.contains page then h.waits else page :: h.waits })

/-- R96, R97: a translation of the page of an access is present and does not permit it. -/
def State.denied (s : State) (va : Nat) (k : Kind) : Bool :=
  match s.xlate (coreOf s.cur) s.th.ctx va k with
  | some e => !e.grants k
  | none => false

/-- R96, R97: the translation of the page of an access. -/
def State.resolvePage (s : State) (va : Word) (k : Kind) : Acc TlbEntry :=
  let page := va.toNat / 4096
  if s.denied va.toNat k then .trap tACCESS va
  else if s.th.failed.contains page then .failed page va
  else if s.pending page || s.heldOn page then .nr [.faultPending page] ((s.waitOn page).joinPage va.toNat k)
  else match s.xlate (coreOf s.cur) s.th.ctx va.toNat k with
    | none => .nr [.translation va.toNat k.w]
        ((s.waitOn page).owe (.walk (coreOf s.cur) s.th.ctx va.toNat k.code s.issuer false))
    | some e => .ok e (if s.th.waits.contains page
        then s.modTh (fun h => { h with waits := h.waits.filter (· != page) }) else s)

/-- R96: the checks of an address: canonical, aligned, translated, permitted. -/
def State.resolve (s : State) (va : Word) (align : Nat) (k : Kind) : Acc TlbEntry :=
  if !canonical va then .trap tADDRESS va
  else if va.toNat % align ≠ 0 then .trap tMISALIGNED va
  else s.resolvePage va k

/-- R258: the current thread has written to an update-only line. -/
def State.ownUpdate (s : State) (line : Nat) : Bool :=
  s.me.upd.any (fun u => u.line == line && u.writers.contains s.cur)

/-- R258: not ready while an update-only line of a line is merged. -/
def State.mergeNr {α : Type} (s : State) (line : Nat) : Acc α := .nr [.merge line] (s.owe (.merge (coreOf s.cur) line))

/-- The bytes from an offset of a line copy, as a number. -/
def lineBytes (d : BitVec 512) (off n : Nat) : Nat := d.toNat / 2 ^ (8 * (off % 64)) % 2 ^ (8 * n)

/-- R232: perform a strong store at its home now; it follows the thread's fences (R240). (Log: DESIGN CHOICE 14) -/
def State.performStrong (s : State) (va m : Nat) (cells : List Host.Cell) : State :=
  let line := m / 64
  let cid := coreOf s.cur
  let rels := s.th.fences
  let s := ((s.performWrite line cells s.th.clock (some cid)).carry line cells rels).lookup s.th.ctx line
  let t := (s.homeOf line).wt
  ((s.modTh (fun h => { h with clock := max h.clock t })).refreshCopy cid line).watchStore va m cells

/-- The bytes of a store that are present, from an address. -/
def presentCells (bs : List (Option Byte)) (a : Nat) : List Host.Cell :=
  (bs.zipIdx).filterMap (fun p => p.1.map (fun b => (a + p.2, b)))

/-- R232: the largest time of a write or read of a granule of a scratchpad. -/
def Cluster.spTime (c : Cluster) (g : Nat) : Nat := max (c.gtime.get 0 g) (c.gread.get 0 g)

/-- R232: the largest time of a write or read of 16 bytes of vault memory. -/
def Cluster.vmTime (c : Cluster) (g : Nat) : Nat := max (c.vtime.get 0 g) (c.vread.get 0 g)

/-- R232: the table of read times after a read of units at a time. -/
def readAt (tb : Tab Nat) (gs : List Nat) (t : Nat) : Tab Nat := gs.foldl (fun tb g => tb.put g (max t (tb.get 0 g))) tb

/-- The granules that n bytes from an offset touch. -/
def granules (o n : Nat) : List Nat := (upTo ((o + n - 1) / 16 - o / 16 + 1)).map (fun i => o / 16 + i)

/-- R231, R232, R236: a strong store of the current thread to units of a bank at a time: no later strong load of the thread
reads a copy older than now. -/
def State.wroteBank (s : State) (t : Nat) : State :=
  let n := s.performed
  s.modTh (fun h => { h with clock := t, strongFloor := max h.strongFloor n })

/-- R252, R231: the bytes of a strong store to a cluster's scratchpad; each granule gets a write time above the clock and
above the times of its reads (R232), and carries the thread's releases (R240). -/
def State.spPut (s : State) (cl o n : Nat) (cells : List Host.Cell) : State :=
  let gs := granules o n
  let rels := s.th.fences
  let t := max s.th.clock (maxOf (gs.map (fun g => (s.cluster cl).spTime g))) + 1
  let s := (s.clearEcc (gs.map (.sp cl))).modCluster cl (fun c => { c with
    scratch := Memory.writeAll c.scratch cells, gtime := gs.foldl (fun tb g => tb.put g t) c.gtime,
    grels := putRels c.grels gs rels })
  s.wroteBank t

/-! ### Pages that reside elsewhere (R99, R100, R209, R345) -/

/-- The request of the current thread to the owner of a page elsewhere. -/
def State.remoteReq (s : State) (kind sys va : Nat) : RemoteReq :=
  { kind := kind, slot := s.cur % 16, gen := s.th.gen, sys := sys, since := s.me.cycle, va := va, ctx := s.th.ctx,
    uid := s.th.uid, pc := s.th.pc }

/-- R421: what a flit carries of a request for memory elsewhere. (Log: DESIGN CHOICE 51) -/
def RemoteReq.packet (r : RemoteReq) : List Byte :=
  leBytes (r.kind + r.op * 4 + b2n r.wide * 2 ^ 7) 1 ++ leBytes r.sys 7 ++ leBytes r.operand.toNat 8 ++
    leBytes r.operand2.toNat 8 ++ r.bytes.map (·.2)

/-- R420, R421, R345: a core's request for memory elsewhere leaves by the port of the owner, and waits at the core for its
reply. (Log: DESIGN CHOICE 51) -/
def State.askRemote (s : State) (cid : Nat) (r : RemoteReq) : State :=
  let n := s.nextPkt
  (s.emit (ownerOf r.sys) r.packet).modCore cid (fun k => { k with remote := k.remote ++ [{ r with num := n }] })

/-- A load of a page elsewhere: served by the slot's bypass line, or asked of the owner. `keep`: it is one of several that
complete together (R190). -/
def State.remoteLoad (s : State) (sys va n : Nat) (keep : Bool := false) : Acc Nat :=
  let line := sys / 64
  let slot := s.cur % 16
  match s.copyFor (coreOf s.cur) slot line s.th.pc with
  | some c => .ok (lineBytes c.data sys n) (if keep then s else (s.releaseHold (coreOf s.cur) slot line).watch va n true false)
  | none =>
    if s.me.remote.any (fun r => r.kind == 0 && r.slot == slot && r.uid == s.th.uid && r.sys / 64 == line && r.pc == s.th.pc)
    then .nr [.remote] s
    else
      .nr [.remote] (s.askRemote (coreOf s.cur) (s.remoteReq 0 sys va))

/-- R100: what an own store or update to a page elsewhere makes of the line as the slot asked for it earlier: it is to be
asked for again. -/
def State.forgetRemote (s : State) (line : Nat) : State :=
  let slot := s.cur % 16
  let s := s.modMe (fun k => { k with
    remote := k.remote.filter (fun r => !(r.kind == 0 && r.slot == slot && r.sys / 64 == line)) })
  s.modSlot s.cur (fun sl => if (sl.bypass.map (·.line)) == some line then { sl with bypass := none } else sl)

/-- A store or update to a page elsewhere: an entry of the core's request buffer. -/
def State.remoteStore (s : State) (r : RemoteReq) : Acc Unit :=
  if s.me.remote.length ≥ Config.requestRoom then .nr [.remoteFull] s
  else .ok () ((s.forgetRemote (r.sys / 64)).askRemote (coreOf s.cur) r)

/-- R100: the line of a reply to a load, as the load's own thread sees it: with the stores and updates that it sent before
the load and that the owner has not acknowledged. -/
def RemoteReq.over (r : RemoteReq) (d : BitVec 512) : BitVec 512 :=
  let bs := leBytes d.toNat 64
  let base := r.sys / 64 * 64
  match r.kind with
  | 1 => BitVec.ofNat 512 (leNat (overlay base bs r.bytes))
  | 3 =>
    let o := r.sys % 64 / 8 * 8
    let old := leNat ((bs.drop o).take 8)
    let half := 2 ^ (8 * (r.sys % 8))
    let v :=
      if r.wide then updApply r.op true old r.operand.toNat
      else
        let w := updApply r.op false (old / half % 2 ^ 32) (r.operand.toNat % 2 ^ 32) % 2 ^ 32
        old - old / half % 2 ^ 32 * half + w * half
    BitVec.ofNat 512 (leNat (overlay base bs (cellsAt (base + o) (leBytes v 8))))
  | _ => d

/-! ### Loads and stores -/

/-- R232 to R236: a copy may serve a load of the current thread: it lies within the age limit, it is no older than what
the thread has acquired, and a strong load's clock lies within its lease; a lease that has been granted to the slot and
is held for it raises the clock (R133). Since its last fence, a weak load may miss nothing that precedes the fence in the
memory order. (Log: DEDUCED 70) -/
def State.usable (s : State) (c : L1Line) (strong : Bool) : Bool :=
  let h := s.th
  c.fresh s.me.cycle && decide (h.floor ≤ c.asOf) &&
    (if strong then
      (decide (c.wt ≤ h.clock) || c.holds.any (fun p => p.1 == s.cur % 16 && decide (s.me.cycle < p.2 + 32))) && decide (h.clock ≤ c.leaseEnd) &&
        decide (h.strongFloor ≤ c.asOf)
     else decide (h.fenceClock ≤ c.leaseEnd))

/-- R232, R240, R241: what a load from a copy leaves with the current thread: a strong one has joined the copy's time, and
acquires; a weak one remembers the releases that it has seen; and either, whether the home holds a newer value. -/
def State.loaded (s : State) (c : L1Line) (m n : Nat) (strong : Bool) : State :=
  let rels := relsAt c.rels (m % 64) n
  let k := s.performed
  let s := if c.asOf < (s.homeOf (m / 64)).last
    then s.modTh (fun h => { h with stale := (m / 64, k) :: h.stale.filter (·.1 != m / 64) }) else s
  if strong then
    (s.modTh (fun h => { h with clock := max h.clock c.wt, strongFloor := max h.strongFloor c.asOf })).acquire rels
  else
    let new := s.acquirable rels s.cur
    if new.isEmpty then s else s.modTh (fun h => { h with seen := seeRels h.seen new })

/-- R96, R98, R232 to R234: a load of n bytes within one line, from a machine address. -/
def State.loadLocal (s : State) (va m n : Nat) (strong : Bool) (keep : Bool := false) : Acc Nat :=
  let line := m / 64
  let cid := coreOf s.cur
  let slot := s.cur % 16
  let pc := s.th.pc
  if s.ownUpdate line then .nr [.merge line] (s.owe (.fill cid slot line pc))
  else
    let s := s.drainOwn line
    match s.copyFor cid slot line pc with
    | none => .nr [.lineAbsent line] (s.owe (.fill cid slot line pc))
    | some c =>
      if !s.usable c strong then
        if strong then .nr [.lease line] (s.owe (.renew cid slot line pc))
        else .nr [.lineAbsent line] (s.owe (.fill cid slot line pc))
      else
        let s := s.readCopy cid line s.th.ctx va
        let c := (s.copyFor cid slot line pc).getD c
        let s := if keep then s else (s.releaseHold cid slot line).watch va n true false
        .ok (lineBytes c.data m n) (s.loaded c m n strong)

/-- R96: a load of n bytes within one line, for an address that its checks have passed. -/
def State.loadAt (s : State) (va : Word) (n : Nat) (strong : Bool) (e : TlbEntry) (keep : Bool := false) : Acc Nat :=
  match s.machineOf (e.sys va.toNat) with
  | none => s.remoteLoad (e.sys va.toNat) va.toNat n keep
  | some m => s.loadLocal va.toNat m n strong keep

/-- R96: a load. -/
def State.loadMem (s : State) (va : Word) (n align : Nat) (strong : Bool) (keep : Bool := false) : Acc Nat :=
  (s.resolve va align (Kind.ofCode 0)).bind (fun e s => s.loadAt va n strong e keep)

/-- R99: a store of bytes to a page elsewhere. -/
def State.storeRemote (s : State) (va sys : Nat) (bs : List (Option Byte)) : Acc Unit :=
  (s.remoteStore { s.remoteReq 1 sys va with bytes := presentCells bs sys }).bind (fun _ s =>
    .ok () (s.watchStore va sys (presentCells bs sys)))

/-- R98, R232: a strong store within one line, once its address is resolved. One whose packet has been lost is dropped
(R412, R345). -/
def State.storeAt (s : State) (va : Word) (bs : List (Option Byte)) (e : TlbEntry) : Acc Unit :=
  let sys := e.sys va.toNat
  match s.machineOf sys with
  | none => s.storeRemote va.toNat sys bs
  | some m =>
    let line := m / 64
    let cid := coreOf s.cur
    let slot := s.cur % 16
    if s.ownUpdate line then s.mergeNr line
    else
      let s := s.drainOwn line
      if s.me.grants.any (fun g => g.1 == slot && g.2.1 == line) then
        let s := s.modMe (fun k => { k with grants := k.grants.filter (fun g => !(g.1 == slot && g.2.1 == line)) })
        .ok () (s.performStrong va.toNat m (presentCells bs m))
      else if s.th.lost = some s.th.pc then .ok () (s.modTh (fun h => { h with lost := none }))
      else .nr [.writeGrant line] (s.owe (.grant cid slot line))

/-- R96: a strong store of bytes; an absent byte is not written (R195). -/
def State.storeStrong (s : State) (va : Word) (bs : List (Option Byte)) (align : Nat) : Acc Unit :=
  (s.resolve va align (Kind.ofCode 1)).bind (fun e s => s.storeAt va bs e)

/-- R208: the combining entry after a store of bytes by a slot: the bytes carry the releases of its thread. -/
def CombEntry.add (e : CombEntry) (c : Nat) (cells : List Host.Cell) (rels : List Rel) : CombEntry :=
  { e with
    bytes := e.bytes.filter (fun b => !cells.any (fun q => q.1 == b.1)) ++ cells,
    writers := if e.writers.contains c then e.writers else c :: e.writers,
    rels := putRels e.rels (cells.map (fun q => q.1 % 64)) rels }

/-- R208: a weak store enters the core's combining buffer. -/
def State.combine (s : State) (va m : Nat) (cells : List Host.Cell) : Acc Unit :=
  let line := m / 64
  let cid := coreOf s.cur
  let c := s.cur
  let rels := s.th.fences
  let s := if s.th.drains.any (fun d => d.cells.any (fun c => c.1 / 64 == line)) then s.performDrains s.cur else s
  if s.me.comb.any (fun e => e.line == line) then
    .ok () ((s.modMe (fun k => { k with
      comb := updWhere k.comb (fun e => e.line == line) (fun e => e.add c cells rels) })).watchStore va m cells)
  else if s.me.comb.length < 16 then
    .ok () ((s.modMe (fun k => { k with
      comb := k.comb ++ [({ line := line, bytes := [], since := k.cycle, writers := [] } : CombEntry).add c cells rels]
      })).watchStore va m cells)
  else .nr [.combineFull] (match s.me.comb with | e :: _ => s.owe (.drain cid e.line) | [] => s)

/-- R432: a held store of bytes, or a held update of n bytes, is an access that completes ready. -/
def State.watchHeld (s : State) (va n : Nat) (bytes : List Host.Cell) : State :=
  if bytes.isEmpty then s.watch va n false true else s.watchStore va va bytes

/-- R99, R248: the current thread's weak store or update to a page with a fault pending is held, and waits no more (R343). -/
def State.hold (s : State) (va n : Nat) (bytes : List Host.Cell) (upd : Option (Nat × Bool × Word)) (k : Kind) : Acc Unit :=
  if s.mine.replay.length ≥ Config.replayRoom then .nr [.replayFull] s
  else
    let page := va / 4096
    let next := s.nextEntry
    let h : HeldStore := { who := s.issuer, page := page, va := va, bytes := bytes, upd := upd,
                           released := s.heldMark page, rels := s.th.fences, num := next }
    let s := ((({ s with nextEntry := next + 1 } : State).modMine (fun c => { c with replay := c.replay ++ [h] })).joinPage va k)
    .ok () ((s.modTh (fun h => { h with waits := h.waits.filter (· != page) })).watchHeld va n bytes)

/-- R98, R99, R208, R248: a weak store of bytes. -/
def State.storeWeak (s : State) (va : Word) (bs : List (Option Byte)) (align : Nat) : Acc Unit :=
  let page := va.toNat / 4096
  if !canonical va then .trap tADDRESS va
  else if va.toNat % align ≠ 0 then .trap tMISALIGNED va
  else if s.denied va.toNat (Kind.ofCode 1) then .trap tACCESS va
  else if s.pending page || s.heldOn page then
    s.hold va.toNat bs.length (presentCells bs va.toNat) none (Kind.ofCode 1)
  else
    (s.resolvePage va (Kind.ofCode 1)).bind (fun e s =>
      let sys := e.sys va.toNat
      match s.machineOf sys with
      | none => s.storeRemote va.toNat sys bs
      | some m => if s.ownUpdate (m / 64) then s.mergeNr (m / 64) else s.combine va.toNat m (presentCells bs m))

/-- R96: a scalar store of the low n bytes of a value, strong or weak. -/
def State.storeMem (s : State) (va : Word) (n v : Nat) (strong : Bool) : Acc Unit :=
  let bs := (leBytes v n).map some
  if strong then s.storeStrong va bs n else s.storeWeak va bs n

/-! ### Scratchpad and vault memory (R215, R217, R223, R226, R227, R252) -/

/-- R215: usable bytes of a scratchpad. -/
def spLimit : Nat := 819200

/-- R226, R227: the size of the vault memory of a cluster. -/
def Cluster.vmSize (c : Cluster) : Nat := 131072 * popCount (c.vseg &&& 0xFFFE#64)

/-- R217, R227, R346: units are about to be read for a context. -/
def State.readUnits (s : State) (l : List EccAt) (a addr : Nat) (eng : Bool) : State :=
  if s.ecc.isEmpty then s else l.foldl (fun s u => s.readUnit u a addr eng) s

/-- R231, R240: a strong read of units of a bank, with the times of their last writes and the releases these carry. -/
def State.joinBank (s : State) (times : Tab Nat) (rels : Tab (List Rel)) (gs : List Nat) : State :=
  (s.strongRead (maxOf (gs.map (fun g => times.get 0 g)))).acquire (if rels.isEmpty then [] else
    gs.flatMap (fun g => rels.get [] g))

/-- R252, R231: a strong load of n bytes of a cluster's scratchpad. -/
def State.spLoad (s : State) (cl o n : Nat) : Nat × State :=
  let gs := granules o n
  let s := s.readUnits (gs.map (.sp cl)) s.th.ctx o false
  let t := s.joinBank (s.cluster cl).gtime (s.cluster cl).grels gs
  (Memory.nat (s.cluster cl).scratch o n, t.modCluster cl (fun c => { c with gread := readAt c.gread gs t.th.clock }))

/-- R252, R231: a strong store of bytes to a cluster's scratchpad. -/
def State.spStore (s : State) (cl o n : Nat) (cells : List Host.Cell) : State := s.spPut cl o n cells

/-- R227, R231: a strong load of vault memory. -/
def State.vmLoad (s : State) (cl o n : Nat) : Nat × State :=
  let gs := granules o n
  let s := s.readUnits (gs.map (.vm cl)) s.th.ctx o false
  let t := s.joinBank (s.cluster cl).vtime (s.cluster cl).vrels gs
  (Memory.nat (s.cluster cl).vault o n, t.modCluster cl (fun c => { c with vread := readAt c.vread gs t.th.clock }))

/-- R227, R231: a strong store to vault memory. -/
def State.vmStore (s : State) (cl o n : Nat) (cells : List Host.Cell) : State :=
  let gs := granules o n
  let rels := s.th.fences
  let t := max s.th.clock (maxOf (gs.map (fun g => (s.cluster cl).vmTime g))) + 1
  let s := (s.clearEcc (gs.map (.vm cl))).modCluster cl (fun c => { c with
    vault := Memory.writeAll c.vault cells, vtime := gs.foldl (fun tb g => tb.put g t) c.vtime,
    vrels := putRels c.vrels gs rels })
  s.wroteBank t

/-! ### Vector stores that wait for older ring entries (R185) -/

/-- R185, R195, R208: perform a vector store of the current thread whose older ring entries have retired; a weak one for
which the combining buffer has no room waits on. -/
def State.performLate (s : State) (d : LateStore) : Bool × State :=
  let cells := presentCells d.bytes d.at_
  let loud := s.th.broke
  let end_ (s : State) : State := s.modTh (fun h => { h with broke := loud })
  let s := s.modTh (fun h => { h with broke := d.quiet })
  match d.dest with
  | .sp => (true, end_ (s.spPut (clusterOf s.cur) d.at_ d.bytes.length cells))
  | .strong => (true, end_ ((s.modMe (fun k => { k with
      grants := k.grants.filter (fun g => !(g.1 == s.cur % 16 && g.2.1 == d.at_ / 64)) })).performStrong d.va d.at_ cells))
  | .weak => match s.combine d.va d.at_ cells with
    | .ok _ s => (true, end_ s)
    | .nr _ s => (false, end_ s)
    | _ => (false, end_ s)

/-! ### Scopes, fences, releases (R239 to R241, R249, R260) -/

/-- R239: the scope entries that the first executions of a cycle read: those before any write of that cycle. -/
def Ctx.scopesAt (c : Ctx) (now : Nat) : Vector Word 32 :=
  match c.scopesOld with
  | some (t, l) => if t = now then l else c.scopes
  | none => c.scopes

/-- R237, R239: the scope entry with an index, as the current thread's context has it. -/
def State.scopeEntry (s : State) (idx : Nat) : Word :=
  if idx < 6 then 0x8000000000000000#64 else vrd (s.myCtx.scopesAt s.cycle) idx

/-- R239: read a scope entry; none when V = 0. -/
def State.scopeRead (s : State) (idx : Nat) : Option State :=
  let e := s.scopeEntry idx
  if e.getLsbD 63 then some (s.modTh (fun h => { h with scopeAt := some (h.pc, e) })) else none

/-- R239: the scope entry that an instruction names: read at its first execution and kept for its next ones. -/
def State.scopeCheck (s : State) (idx : Nat) : Option State :=
  match s.th.scopeAt with
  | some (pc, _) => if pc == s.th.pc && s.th.rtcTag == s.th.pc && stBit s.th.st 0 then some s else s.scopeRead idx
  | none => s.scopeRead idx

/-- R241: the core's copy of a line that a weak load has read is still older than the home was at the load.
(Log: DEDUCED 68) -/
def State.staleAt (s : State) (p : Nat × Nat) : Bool :=
  match s.me.l1.find? p.1 with
  | some c => decide (c.asOf < p.2)
  | none => false

/-- R236: what the slots have written happens before the current thread's next release: it has written itself, or has
acquired a release of one that has. -/
def State.precedes (s : State) (writers : List Nat) : Bool :=
  writers.any (fun w => w == s.cur || s.th.behind.contains (s.thread w).uid)

/-- Owe the drains, merges and fills that make the accesses before the current thread's fence performed for `device`. -/
def State.oweOrder (s : State) : State :=
  let cid := coreOf s.cur
  let pc := s.th.pc
  let s := (s.me.comb.filter (fun e => s.precedes e.writers)).foldl (fun s e => s.owe (.drain cid e.line)) s
  let s := (s.me.upd.filter (fun u => s.precedes u.writers)).foldl (fun s u => s.owe (.merge cid u.line)) s
  let s := (s.th.stale.filter s.staleAt).foldl (fun s p => s.owe (.fill cid (s.cur % 16) p.1 pc)) s
  if s.th.drains.isEmpty then s else s.owe (.ringDrain s.cur)

/-- R240, R241, R243, R236: an access before a fence of the current thread is not yet performed for its scope. An atomic that is still on
its way is not earlier than its own next execution (R256). -/
def State.unordered (s : State) (scope : Nat) : Bool :=
  scope != 0 &&
  (!s.th.drains.isEmpty || s.th.lateWaits ||
   (scope != 1 &&
     (s.me.comb.any (fun e => s.precedes e.writers) || s.me.upd.any (fun u => s.precedes u.writers) ||
       s.th.stale.any s.staleAt)) ||
   (scope == 5 && s.cores.any (fun p => p.2.remote.any (fun r =>
     (r.uid == s.th.uid || s.th.behind.contains r.uid) && r.kind != 0 && !(r.kind == 2 && r.pc == s.th.pc)))))

/-- R240: two releases of one thread whose scope is the same. -/
def Rel.sameScope (q r : Rel) : Bool := q.scope == r.scope && q.cid == r.cid && q.ctx == r.ctx && q.entry == r.entry

/-- R236, R240: a fence of the current thread that completes: its later writes carry it, it acquires what its weak loads
have seen of the threads that its scope contains, and its later loads follow its earlier strong accesses. -/
def State.fenced (s : State) (scope : Nat) : State :=
  let r : Rel := { upto := s.performed, scope := scope, cid := coreOf s.cur, ctx := s.th.ctx,
                   entry := match s.th.scopeAt with | some p => p.2 | none => s.scopeEntry scope,
                   uids := addNew s.th.behind s.th.uid }
  let got := s.th.seen.filter (fun q => s.member r (16 * q.cid))
  s.modTh (fun h => { (h.acquire got) with
    fences := r :: h.fences.filter (fun q => !q.sameScope r), seen := h.seen.filter (fun q => !got.contains q),
    stale := if scope = 1 then h.stale else [], floor := max (h.acquire got).floor h.strongFloor,
    fenceClock := max h.fenceClock h.clock })

/-- R240, R249: the conditions of `fence.s`: the causes present, or the fence's own effect. -/
def State.fence (s : State) (scope : Nat) : Acc Unit :=
  if scope = 0 then .ok () s
  else if s.holding then .nr (.heldStores :: (if s.unordered scope then [.order scope] else [])) s.oweOrder
  else if s.unordered scope then .nr [.order scope] s.oweOrder
  else .ok () (s.fenced scope)

/-- R249, R260, R256: the release of an atomic or of a release store: what a fault holds delays it in every scope. -/
def State.releaseFence (s : State) (scope : Nat) : Acc Unit :=
  if scope = 0 && s.holding then .nr [.heldStores] s.oweOrder else s.fence scope

/-- R244, R250: the earlier accesses of the thread of a slot are performed for `device` now, but for those that a fault
holds: the release of an enqueue. -/
def State.drainAll (s : State) (sid : Nat) : State :=
  let cid := coreOf sid
  let s := (s.core cid).comb.foldl (fun s e => if e.writers.contains sid then s.drainComb cid e.line else s) s
  (s.core cid).upd.foldl (fun s u => if u.writers.contains sid then s.mergeLine cid u.line else s) s

/-- R246, R250, R342: a thread observes that others have completed, and acquires all that has been performed. -/
def State.acquireAll (s : State) (sid : Nat) : State :=
  let n := s.performed
  s.modThread sid (fun h => { h with floor := max h.floor n })

/-! ### The request latch (R254) -/

/-- R254: the codes of a latch's cause: the retry codes of R253, and the two refusals of a DONE latch. -/
def cADDRESS : Nat := 101
/-- See cADDRESS. -/
def cRETRY : Nat := 102

/-- R254: the virtual cluster that a request of a place form goes to. -/
def ReqOp.dest : ReqOp → Nat
  | .ff _ v _ _ _ | .raw _ _ v _ _ => v
  | _ => 0

/-- R254 `request`: `info` is the offset that a refusal's trap reports, `d` the register that a parked load awaits. -/
def State.request (s : State) (code : Cause → Nat) (d : Option (BitVec 6)) (op : ReqOp) (info : Word)
    (finish : Word → State → State) : Res :=
  let l := s.th.rl
  let idle (s : State) : State := s.modTh (fun h => { h with rl := { h.rl with st := .idle, code := 0 } })
  if l.st = .busy then .nr [.reply] (code .reply) s
  else if l.tag = s.th.pc ∧ l.st = .done then
    if l.code = cADDRESS then .trapAfter idle tADDRESS info
    else if l.code = cRETRY then .trapAfter idle tRETRY info
    else .next (finish l.value (idle s))
  else if l.tag = s.th.pc ∧ l.st = .parked then
    match d with
    | some r => if (s.armOf r).st = .awaiting then .nr [.parked r] (code (.parked r)) s else .next (idle s)
    | none => .next (idle s)
  else
    let c : Cause := if l.st = .idle ∧ l.tag = s.th.pc ∧ l.code ≠ 0 then .retry l.code op.dest else .reply
    let r : Req := { who := s.issuer, op := op, clock := s.th.clock, rels := s.th.fences }
    let s := (s.modTh (fun h => { h with rl := { h.rl with st := .busy, tag := h.pc, code := 0 } })).owe (.request r)
    .nr [c] (code c) s

end Sys2Proof.Machine
end

