-- ==== Sys2Proof/Machine/CtxOps.lean ====
section
/-! DEFINITION. What the hardware does on behalf of a context: virtual clusters, permission maps, reads and writes of a
context's own memory, the daybook, interrupts, errors, doorbells, and save frames (R143, R169, R340 to R347, R371, R382,
R383, R392 to R395, R409, R414). -/

namespace Sys2Proof.Machine

/-! ### Virtual clusters and identities -/

/-- R371: a context holds a core. -/
def State.holdsCore (s : State) (a cid : Nat) : Bool :=
  match (s.ctx a).vcls.find? (fun e => e.phys == cid / 8 && !e.saved) with
  | some e => bitAt e.cores (cid % 8)
  | none => (s.ctx a).depth == 0

/-- R143: the identity of a slot for a context, as `selfid` gives it. -/
def State.selfWord (s : State) (a sid : Nat) : Nat :=
  s.devId * 2 ^ 17 + s.vclOf a (clusterOf sid) * 2 ^ 7 + coreOf sid % 8 * 16 + sid % 16

/-- R414: the permission map of a cluster permits another cluster. -/
def State.permits (s : State) (cl dst : Nat) : Bool :=
  cl == dst || (s.cluster cl).ptcAll || (s.cluster cl).ptc.contains dst

/-- R414: the permission map of a cluster permits a device. -/
def State.permitsDev (s : State) (cl dev : Nat) : Bool := (s.cluster cl).ptdAll || (s.cluster cl).ptd.contains dev

/-- R409: mesh coordinates of a cluster: die, row and column of its die's 16 by 16 mesh. (Log: DESIGN CHOICE 9) -/
def meshHops (a b : Nat) : Nat :=
  let row (c : Nat) := c % 256 / 16 + c / 512 * 16
  let col (c : Nat) := c % 16 + c / 256 % 2 * 16
  (max (row a) (row b) - min (row a) (row b)) + (max (col a) (col b) - min (col a) (col b))

/-- R416: the allotment register of the barrier instances of a die. -/
def State.hbaOf (s : State) (die : Nat) : Word := s.hba.get 0x80808080#64 die

/-- R416: a context holds entry n of an allotment register. -/
def State.holdsAllot (s : State) (a : Nat) (reg : Word) (n : Nat) : Bool :=
  bitAt reg.toNat (8 * n + 7) && bitsAt reg.toNat (8 * n) 6 == (s.ctx a).tnum

/-! ### A context's own memory -/

/-- Bytes within one page, written by the hardware into a context's space; none where the page does not translate with
W. Bytes of a page that resides elsewhere go to its owner. Releases that the write performs go with it. -/
def State.ctxWrite (s : State) (a va : Nat) (bs : List Byte) (rels : List Rel := []) : Option State :=
  match s.translate true a va (Kind.ofCode 1) with
  | .fault .. => none
  | .ok w s =>
    if !w.w then none
    else match s.machineOf w.addr with
      | none => some (s.emit (ownerOf w.addr) (leBytes w.addr 8 ++ bs))
      | some m => some (((upTo (m % 64 / 64 + (m % 64 + bs.length + 63) / 64)).foldl (fun s i =>
          let line := m / 64 + i
          let cells := (cellsAt m bs).filter (fun c => c.1 / 64 == line)
          if cells.isEmpty then s else ((s.lookup a line).performWrite line cells 0 none).carry line cells rels) s))

/-- Bytes within one page, read by the hardware from a context's space; a page that resides elsewhere gives free
values. (Log: DESIGN CHOICE 4) -/
def State.ctxRead (s : State) (a va n : Nat) : Option (List Byte × State) :=
  match s.translate true a va (Kind.ofCode 0) with
  | .fault .. => none
  | .ok w s =>
    if !w.r then none
    else match s.machineOf w.addr with
      | none =>
        let f := s.freeCtr
        some ((upTo n).map (fun i => Config.freeByte (f + i)), { s with freeCtr := f + n })
      | some m =>
        let s := (upTo ((m % 64 + n + 63) / 64)).foldl (fun (s : State) i =>
          ((s.mergeAll (m / 64 + i)).lookup a (m / 64 + i)).readLine (m / 64 + i) a va true) s
        some (Memory.bytes s.mem m n, s)

/-- A number of n bytes from a context's space. -/
def State.ctxNat (s : State) (a va n : Nat) : Option (Nat × State) := (s.ctxRead a va n).map (fun p => (leNat p.1, p.2))

/-! ### Rings of a context -/

/-- R340: base and size of a ring register. -/
def ringBase (r : Word) : Nat := r.toNat / 4096 * 4096
/-- See ringBase. -/
def ringLn (r : Word) : Nat := bitsAt r.toNat 0 5
/-- R340: an LN in its range. -/
def lnOk (n : Nat) : Bool := 6 ≤ n && n ≤ 16

/-- R382: write a daybook entry and advance DBT; SEQ counts from 1. A daybook page that does not translate loses the
entry's bytes, and DBT advances all the same. (Log: DEDUCED 30) -/
def State.daybook (s : State) (a ev q cidx detail ref : Nat) : State :=
  let c := s.ctx a
  let ln := ringLn c.dbb
  let v := ref % 2 ^ 64 + detail % 2 ^ 32 * 2 ^ 64 + cidx % 2 ^ 32 * 2 ^ 96 + q * 2 ^ 130 + ev * 2 ^ 136
    + s.cycle % 2 ^ 48 * 2 ^ 144 + (c.dbt + 1) * 2 ^ 192
  let s' := if lnOk ln then
      (s.ctxWrite a (ringBase c.dbb + 32 * (c.dbt % 2 ^ ln)) (leBytes v 32)).getD s
    else s
  s'.modCtx a (fun c => { c with dbt := c.dbt + 1 })

/-- R383: deliver an interrupt of an active context, or latch it. -/
def State.interrupt (s : State) (a v : Nat) : State :=
  if !(s.ctx a).act then s.modCtx a (fun c => { c with ipend := c.ipend ||| (1#64 <<< (v % 64)) })
  else match s.ctxNat a ((s.ctx a).ivb.toNat / 1024 * 1024 + 16 * (v % 64)) 16 with
    | none => s
    | some (e, s) =>
      if bitAt e 63 then (s.ctxWrite a (e / 2 ^ 64) (leBytes (e % 2 ^ 32) 4)).getD s else s

/-- R347: add n to ERC, and raise the threshold interrupt when an increment makes it equal to TH. (Log: DEDUCED 28) -/
def State.countErrors (s : State) (a n : Nat) : State :=
  let c := s.ctx a
  let old := c.erc.toNat
  let th := c.erth.toNat % 2 ^ 32
  let s := s.modCtx a (fun c => { c with erc := c.erc + w64 n })
  if bitAt c.erth.toNat 63 && decide (old < th) && decide (th ≤ old + n) then
    s.interrupt a (bitsAt c.erth.toNat 56 6)
  else s

/-- R347: log an entry of the error ring. (Log: DEDUCED 30) -/
def State.logError (s : State) (a src kind addr : Nat) (ma : Bool := false) (time : Option Nat := none) : State :=
  let c := s.ctx a
  let ln := ringLn c.erb
  if !lnOk ln then s
  else
    let v := addr % 2 ^ 64 + time.getD s.cycle % 2 ^ 47 * 2 ^ 64 + b2n ma * 2 ^ 111 + kind * 2 ^ 112 + src * 2 ^ 120
    let s' := (s.ctxWrite a (ringBase c.erb + 16 * (c.ert % 2 ^ ln)) (leBytes v 16)).getD s
    s'.modCtx a (fun c => { c with ert := c.ert + 1 })

/-! ### Granules set full (R223, R224, R225, R264) -/

/-- R225: after an entry of the park table is freed, it is reserved for the oldest refused issuer without one. -/
def State.reservePark (s : State) (cl : Nat) : State :=
  let t := s.cycle + 32
  s.modCluster cl (fun c =>
    match c.parkRefused.find? (fun r => r.inRing && !c.parkResv.any (fun v => v.1 == r.sid && v.2.1 == r.gen)) with
    | some r => { c with parkResv := c.parkResv ++ [(r.sid, r.gen, t)] }
    | none => c)

/-- R264 `serve`: the entries on a granule, in the order entered, while it is full. -/
def State.serveFrom (s : State) (cl g : Nat) : List ParkEntry → State
  | [] => s
  | e :: r =>
    if e.gran ≠ g then s.serveFrom cl g r
    else if !(s.cluster cl).fe.contains g then s
    else
      let s := if e.kind = 1 then s.owe (.parkWake e.ctx e.frame)
        else
          let s := s.readUnits [.sp cl g] e.ctx (16 * g) false
          let m : Msg := {
            cap := 0#64, idx := e.reg.toNat, value := w64 (Memory.nat (s.cluster cl).scratch (16 * g) 8),
            clock := (s.cluster cl).gtime.get 0 g, rels := (s.cluster cl).grels.get [] g, ack := false, ctx := e.ctx,
            from_ := 128 * cl, fromGen := 0#8, since := s.cycle, delivery := true, tuid := e.uid, tgen := e.gen }
          (s.modCluster cl (fun c => { c with fe := c.fe.filter (· != g) })).owe (.arrive cl m)
      let s := s.modCluster cl (fun c => { c with park := c.park.erase e })
      (s.reservePark cl).serveFrom cl g r

/-- R264: serve the park table for a granule. -/
def State.serve (s : State) (cl g : Nat) : State := s.serveFrom cl g (s.cluster cl).park

/-- R262 `stff`, at a bank: write the doubleword, set the granule full, serve its waiters. -/
def State.fillGranule (s : State) (cl g v clock : Nat) (rels : List Rel := []) : State :=
  let s := (s.clearEcc [.sp cl g]).modCluster cl (fun c => { c with
    scratch := Memory.putNat c.scratch (16 * g) 8 v,
    grels := putRels c.grels [g] rels,
    gtime := c.gtime.put g (max clock (c.spTime g) + 1),
    fe := if c.fe.contains g then c.fe else g :: c.fe })
  s.serve cl g

/-- R340, R341: ring a doorbell register of a context with a value: a release of what the hardware has written. While its
virtual cluster is saved the access asks to be retried (R398). -/
def State.doorbell (s : State) (a : Nat) (bell : Word) (v : Nat) : State :=
  if !bitAt bell.toNat 63 then s
  else match s.vcluster a (bitsAt bell.toNat 16 10) with
    | none => s
    | some e =>
      let g := bitsAt bell.toNat 0 16
      if g ≥ 51200 then s
      else if e.saved then s.owe (.bell a bell v)
      else s.fillGranule e.phys g v 0 [{ upto := s.performed, scope := 4, cid := 8 * e.phys, ctx := a }]

/-! ### Save frames (R392 to R395) -/

/-- R393: a stream register's image. -/
def Stream.image (t : Stream) : Nat :=
  t.base.toNat + t.ctl.toNat * 2 ^ 64 + t.ox0.toNat * 2 ^ 128 + t.s1.toNat * 2 ^ 160 + t.s2.toNat * 2 ^ 192
    + t.p % 2 ^ 64 * 2 ^ 256

/-- R393: a stream from its image. -/
def Stream.ofImage (n : Nat) : Stream :=
  { base := w64 n, ctl := w64 (n / 2 ^ 64), ox0 := BitVec.ofNat 32 (n / 2 ^ 128), s1 := BitVec.ofNat 32 (n / 2 ^ 160),
    s2 := BitVec.ofNat 32 (n / 2 ^ 192), p := bitsAt n 256 64 }

/-- R178: the fabric status word. -/
def Thread.fabricWord (t : Thread) : Nat := t.owc % 2 ^ 32 + t.gen.toNat * 2 ^ 32 + t.last.toNat * 2 ^ 40

/-- R162: the group word. -/
def Thread.groupWord (t : Thread) : Nat := t.place % 64 + t.pm1 % 64 * 64 + t.gidx * 2 ^ 16

/-- A latch in 16 bytes: tag, then state and code. The spec gives the place of a latch and not its bits.
(Log: DESIGN CHOICE 45) -/
def Latch.image (l : Latch) : Nat :=
  let st := match l.st with | .idle => 0 | .busy => 1 | .done => 2 | .parked => 3
  l.tag.toNat + (st + l.code * 256) * 2 ^ 64

/-- R330: a prefix, where there is one, in 16 bits. (Log: DESIGN CHOICE 45) -/
def pfxImage (p : Option Pfx) : Nat :=
  match p with
  | none => 0
  | some p => 1 + b2n p.z * 2 + b2n p.me * 4 + p.maskReg.toNat * 2 ^ 3 + p.rm.toNat * 2 ^ 6 + p.op4.toNat * 2 ^ 9

/-- See pfxImage. -/
def pfxOfImage (n : Nat) : Option Pfx :=
  if !bitAt n 0 then none
  else some { z := bitAt n 1, me := bitAt n 2, maskReg := BitVec.ofNat 3 (bitsAt n 3 3), rm := BitVec.ofNat 3 (bitsAt n 6 3),
              op4 := BitVec.ofNat 5 (bitsAt n 9 5) }

/-- R330: a ring entry in 32 bytes: address, scalar operand, word, prefix, sequence number, and the masks of its prefix and
its operand. (Log: DESIGN CHOICE 45) -/
def RingEntry.image (e : RingEntry) : Nat :=
  e.addr.toNat + e.xa.toNat * 2 ^ 64 + e.word.toNat * 2 ^ 128 + pfxImage e.pfx * 2 ^ 160 + e.seq.toNat * 2 ^ 176
    + e.mask.toNat * 2 ^ 184 + e.ka.toNat * 2 ^ 200

/-- R330: the entry of a replay list that an image gives. -/
def RingEntry.ofImage (n : Nat) : RingEntry :=
  { addr := w64 n, xa := w64 (n / 2 ^ 64), word := BitVec.ofNat 32 (n / 2 ^ 128), pfx := pfxOfImage (bitsAt n 160 16),
    seq := BitVec.ofNat 8 (n / 2 ^ 176), mask := BitVec.ofNat 16 (n / 2 ^ 184), ka := BitVec.ofNat 16 (n / 2 ^ 200) }

/-- Words of w bytes side by side. -/
def packWords (w : Nat) (l : List Nat) : Nat := l.foldr (fun x t => t * 2 ^ (8 * w) + x % 2 ^ (8 * w)) 0

/-- R393: the 64 bytes of a vector register of a slot frame. -/
def Thread.vecImage (t : Thread) (i : Nat) : Nat :=
  if i < 12 then (vrd t.v i).toNat
  else match vrd t.streams (i - 12) with
    | some st => st.image
    | none => (vrd t.v i).toNat

/-- A mask of the registers that satisfy a test. -/
def armMask (l : List ArmSt) (p : ArmSt → Bool) : Nat :=
  (l.zipIdx).foldl (fun n a => n + (if p a.1 then 2 ^ a.2 else 0)) 0

/-- R393: the 1,344 bytes of a slot frame. -/
def Thread.slotFrame (t : Thread) : List Byte :=
  leBytes (packWords 8 (t.x.toList.map (·.toNat))) 256 ++
  leBytes (packWords 64 ((upTo 16).map t.vecImage)) 1024 ++
  leBytes (packWords 2 (t.k.toList.map (·.toNat))) 16 ++
  leBytes (packWords 4 (t.ox.toList.map (·.toNat))) 16 ++
  leBytes (packWords 8 [t.pc.toNat, t.nrt.toNat, t.st.toNat, t.uha.toNat]) 32

/-- R394: the 704 bytes of the extension; `st` is the state of the slot to resume, 0 for RUN.
(Log: DESIGN CHOICE 45) -/
def Thread.extension (t : Thread) (qo : BitVec 8) (st : Nat := 0) : List Byte :=
  let sm := (t.streams.toList.zipIdx).foldl (fun n p => n + (if p.1.isSome then 2 ^ p.2 else 0)) 0
  leBytes (packWords 8 [t.stklim.toNat, t.rtcCount, t.rtcTag.toNat, 0]) 32 ++
  leBytes (packWords 8 [t.epc.toNat, t.ecause.toNat, t.einfo.toNat, t.estat.toNat]) 32 ++
  leBytes (packWords 4 [armMask t.xarm.toList (·.st != .unarmed), armMask t.xarm.toList (·.st == .full),
    armMask t.xarm.toList (·.re), 0]) 16 ++
  leBytes (packWords 8 [t.skipCtr.toNat, t.fabricWord]) 16 ++
  leBytes t.ll.image 16 ++ leBytes t.sl.image 16 ++ leBytes (t.rl.image + t.rl.value.toNat * 2 ^ 128) 32 ++
  leBytes (sm + t.replay.length * 2 ^ 4 + (match t.replay with | e :: _ => e.seq.toNat | [] => 0) * 2 ^ 16
    + t.nextSeq.toNat * 2 ^ 24 + t.rpc.toNat * 2 ^ 64) 16 ++
  leBytes (packWords 8 [t.groupWord, qo.toNat + t.gen.toNat * 2 ^ 8 + b2n t.wakeLatch * 2 ^ 16 + st * 2 ^ 17]) 16 ++
  leBytes (packWords 32 (t.replay.map RingEntry.image)) 512

/-- A word of 8 bytes of a frame. -/
def frameWord (b : List Byte) (off : Nat) : Word := w64 (leNat ((b.drop off).take 8))

/-- R395: a thread as its frame in memory now gives it: the parts that the spec lays out to the bit come from the
bytes, the rest from the thread as it was saved. (Log: DESIGN CHOICE 45) -/
def Thread.ofFrame (t : Thread) (b : List Byte) : Thread :=
  let arm (off i : Nat) : Bool := bitAt (leNat ((b.drop off).take 4)) i
  let sm := leNat ((b.drop 0x5E0).take 1)
  let img (i : Nat) : Nat := leNat ((b.drop (0x100 + 64 * i)).take 64)
  let ring := (frameWord b 0x5E0).toNat
  let group := (frameWord b 0x5F0).toNat
  { t with
    x := Vector.ofFn (fun i : Fin 32 => frameWord b (8 * i.val)),
    v := Vector.ofFn (fun i : Fin 16 =>
      if i.val ≥ 12 && bitAt sm (i.val - 12) then 0#512 else BitVec.ofNat 512 (img i.val)),
    streams := Vector.ofFn (fun i : Fin 4 =>
      if bitAt sm i.val then some (Stream.ofImage (img (12 + i.val))) else none),
    k := Vector.ofFn (fun i : Fin 8 => BitVec.ofNat 16 (leNat ((b.drop (0x500 + 2 * i.val)).take 2))),
    ox := Vector.ofFn (fun i : Fin 4 => BitVec.ofNat 32 (leNat ((b.drop (0x510 + 4 * i.val)).take 4))),
    pc := frameWord b 0x520, nrt := frameWord b 0x528, st := frameWord b 0x530 &&& 0x1FFF#64, uha := frameWord b 0x538,
    stklim := frameWord b 0x540, rtcCount := (frameWord b 0x548).toNat % 8192, rtcTag := frameWord b 0x550,
    epc := frameWord b 0x560, ecause := frameWord b 0x568 &&& 0xFFFFFFFF#64, einfo := frameWord b 0x570,
    estat := frameWord b 0x578 &&& 0x1FFF#64,
    xarm := Vector.ofFn (fun i : Fin 32 =>
      { st := if !arm 0x580 i.val then .unarmed else if arm 0x584 i.val then .full else .awaiting,
        re := arm 0x588 i.val, time := (vrd t.xarm i.val).time }),
    skipCtr := frameWord b 0x590,
    owc := (frameWord b 0x598).toNat % 2 ^ 32, last := BitVec.ofNat 4 ((frameWord b 0x598).toNat / 2 ^ 40),
    nextSeq := BitVec.ofNat 8 (ring / 2 ^ 24), rpc := frameWord b 0x5E8,
    replay := (upTo (min 16 (bitsAt ring 4 5))).map (fun i => RingEntry.ofImage (leNat ((b.drop (0x600 + 32 * i)).take 32))),
    place := group % 64, pm1 := bitsAt group 6 6, gidx := group / 2 ^ 16,
    wakeLatch := bitAt (frameWord b 0x5F8).toNat 16 }

/-- R392: the first byte of the context tail of a core in its cluster's scratchpad. -/
def tailBase (core : Nat) : Nat := 16 * (51200 + 1536 * core)

/-- R395: the address of a save frame of a context. -/
def Ctx.frameAddr (c : Ctx) (i : Nat) : Nat := c.qdb.toNat / 4096 * 4096 + 4096 + 2048 * i

/-- R253, R372: the lowest free save frame of a context. -/
def Ctx.freeFrame (c : Ctx) : Option Nat :=
  if c.frames ≤ c.usedFrames then none
  else (upTo c.frames).find? (fun i => !c.framesIn.any (fun f => f.num == i))

/-- R395, R375, R265: put a thread into a save frame of its context, its bytes written under QDB; none where no frame is
free. A frame that does not translate with W fails the step with LASTERR 1. -/
def State.toFrame (s : State) (a : Nat) (f : Frame) : Option State :=
  match s.ctxWrite a ((s.ctx a).frameAddr f.num) (f.th.slotFrame ++ f.th.extension f.qo) with
  | none => none
  | some s => some (s.modCtx a (fun c => { c with framesIn := c.framesIn ++ [f], usedFrames := c.usedFrames + 1 }))

/-- R395: the bytes of a frame follow what is done to its thread. -/
def State.writeFrame (s : State) (a : Nat) (f : Frame) : State :=
  (s.ctxWrite a ((s.ctx a).frameAddr f.num) (f.th.slotFrame ++ f.th.extension f.qo)).getD s

/-- Free a save frame. -/
def State.dropFrame (s : State) (a num : Nat) : State :=
  s.modCtx a (fun c => { c with
    framesIn := c.framesIn.filter (fun f => f.num != num), usedFrames := c.usedFrames - 1 })

/-- R395: the thread of a frame as its bytes in memory stand. -/
def State.frameThread (s : State) (a : Nat) (f : Frame) : Thread × State :=
  match s.ctxRead a ((s.ctx a).frameAddr f.num) 2048 with
  | some (b, s) => (f.th.ofFrame b, s)
  | none => (f.th, s)

/-! ### Slots that end -/

/-- R250: every access of the thread of a slot is performed for `device`, but for stores that a fault holds. -/
def State.settle (s : State) (sid : Nat) : State := (s.performDrains sid).drainAll sid

/-- R134, R207: a thread's pins, holds and bypass line are released. -/
def State.releaseLines (s : State) (sid : Nat) : State :=
  let s := s.modCore (coreOf sid) (fun k => { k with
    l1 := k.l1.map (fun p => (p.1, { p.2 with
      pins := p.2.pins.filter (· != sid % 16), holds := p.2.holds.filter (fun h => h.1 != sid % 16) })) })
  s.modSlot sid (fun sl => { sl with bypass := none })

/-- R142, R265: the thread has left: its slot becomes FREE at the next rotation boundary. -/
def State.vacate (s : State) (sid : Nat) : State :=
  s.modSlot sid (fun sl => { sl with dying := true, th := { sl.th with pc := 0#64, ring := [], trapWait := none } })

end Sys2Proof.Machine
end

