-- ==== Sys2Proof/Machine/Fp.lean ====
section
/-! DEFINITION. Number formats and arithmetic (R101 to R118): exact values, one rounding, the exception steps of
R91, MK8, and the reduction tree. -/

namespace Sys2Proof.Machine

/-- A binary floating-point format (R104): exponent bits, fraction bits; the bias is 127 in all three formats. -/
structure Fmt where
  fb : Nat
deriving DecidableEq, Repr

/-- R104: FP32. -/
def fp32 : Fmt := ⟨23⟩
/-- R104: BF16. -/
def bf16 : Fmt := ⟨7⟩
/-- R104: A40. -/
def a40 : Fmt := ⟨31⟩

/-- The exponent field of all ones, in place. -/
def Fmt.infBits (f : Fmt) : Nat := 255 * 2 ^ f.fb
/-- The sign bit, in place. -/
def Fmt.signBit (f : Fmt) : Nat := 2 ^ (f.fb + 8)
/-- R105: the canonical quiet NaN of the format. -/
def Fmt.qnan (f : Fmt) : Nat := 255 * 2 ^ f.fb + 2 ^ (f.fb - 1)
/-- The exponent of the lowest subnormal bit: 1 - bias - fraction width (R104). -/
def Fmt.qmin (f : Fmt) : Int := -126 - (f.fb : Int)

/-- A decoded value: a NaN, an infinity, or a sign and an exact magnitude m × 2^e. -/
inductive FV where
  | nan (signalling : Bool)
  | inf (neg : Bool)
  | fin (neg : Bool) (m : Nat) (e : Int)
deriving DecidableEq, Repr

/-- R104: the value that the bits of a format have. -/
def Fmt.decode (f : Fmt) (n : Nat) : FV :=
  let neg := bitAt n (f.fb + 8)
  let ex := bitsAt n f.fb 8
  let fr := bitsAt n 0 f.fb
  if ex = 255 then
    if fr = 0 then .inf neg else .nan (!bitAt n (f.fb - 1))
  else if ex = 0 then .fin neg fr f.qmin
  else .fin neg (2 ^ f.fb + fr) (f.qmin + ex - 1)

/-- R104: a subnormal operand: exponent field zero, fraction not zero. -/
def Fmt.isSub (f : Fmt) (n : Nat) : Bool := bitsAt n f.fb 8 == 0 && bitsAt n 0 f.fb != 0

/-- Zero of the operand's own sign. -/
def Fmt.flush (f : Fmt) (n : Nat) : Nat := if bitAt n (f.fb + 8) then f.signBit else 0

/-- The sign bit of a result. -/
def Fmt.sgn (f : Fmt) (neg : Bool) : Nat := if neg then f.signBit else 0

/-- R10, R108: the rounding modes, by code. -/
inductive RMode where
  | rne | rtz | rdn | rup | rmm
deriving DecidableEq, Repr

/-- R10: the mode that a code names. No write of `st` brings the codes 5 to 7 (R10); where a template or a frame does,
rounding is to nearest even. (Log: DESIGN CHOICE 74) -/
def RMode.ofCode (n : Nat) : RMode :=
  match n with
  | 1 => .rtz
  | 2 => .rdn
  | 3 => .rup
  | 4 => .rmm
  | _ => .rne

/-- R108: whether the magnitude is rounded up, from the parity of the quotient and the place of the remainder
against half (`lt`, `eq`, `gt`, with `exact` for no remainder). -/
def RMode.up (r : RMode) (neg odd exact : Bool) (c : Ordering) : Bool :=
  if exact then false else
  match r with
  | .rne => c == .gt || (c == .eq && odd)
  | .rtz => false
  | .rdn => neg
  | .rup => !neg
  | .rmm => c == .gt || c == .eq

/-- m × 2^e (with `sticky` for a further non-zero part below) as a multiple of 2^q, rounded.  A caller that sets
`sticky` supplies at least two bits below the last one kept. -/
def roundAt (r : RMode) (neg : Bool) (m : Nat) (e : Int) (sticky : Bool) (q : Int) : Nat :=
  if q ≤ e then
    let k := m * 2 ^ (e - q).toNat
    if r.up neg (k % 2 == 1) (!sticky) .lt then k + 1 else k
  else
    let sh := (q - e).toNat
    let k := m / 2 ^ sh
    let rem := 2 * (m % 2 ^ sh) + (if sticky then 1 else 0)
    let c := compare rem (2 ^ sh)
    if r.up neg (k % 2 == 1) (rem == 0) c then k + 1 else k

/-- R108 `round(v, fmt, mode)`: one rounding of ±m × 2^e to the format; the second part says that it overflowed. -/
def Fmt.round (f : Fmt) (r : RMode) (neg : Bool) (m : Nat) (e : Int) (sticky : Bool) : Nat × Bool :=
  if m = 0 then (f.sgn neg, false) else
  let q := max (e + (m.log2 : Int) - (f.fb : Int)) f.qmin
  let k := roundAt r neg m e sticky q
  let bits := (q - f.qmin).toNat * 2 ^ f.fb + k
  if bits ≥ f.infBits then
    let toInf := match r with
      | .rne | .rmm => true
      | .rtz => false
      | .rdn => neg
      | .rup => !neg
    (f.sgn neg + (if toInf then f.infBits else f.infBits - 1), true)
  else (f.sgn neg + bits, false)

/-- The exact result of an operation, before it is rounded. -/
inductive Ex where
  | bits (n : Nat)
  | num (neg : Bool) (m : Nat) (e : Int) (sticky : Bool)
  | divZero (neg : Bool)
deriving DecidableEq, Repr

/-- R10, R183: the status fields an FP instruction reads, and its rounding mode. -/
structure FpEnv where
  dnm : Bool
  fve : Bool
  fze : Bool
  foe : Bool
  mode : RMode
deriving DecidableEq, Repr

/-- What a lane does: its default result, and the step of R91 that stops it with its trap enabled, if any: step
number, operand index and the operand's bits. -/
structure FOut where
  res : Nat
  stop : Option (Nat × Nat × Nat)
deriving DecidableEq, Repr

/-- The first subnormal operand, with its index. -/
def firstSub (f : Fmt) : List Nat → Nat → Option (Nat × Nat)
  | [], _ => none
  | a :: r, i => if f.isSub a then some (i, a) else firstSub f r (i + 1)

/-- R91 steps 3 and 4: round the exact result of a lane. -/
def Ex.finish (f : Fmt) (v : FpEnv) : Ex → FOut
  | .bits n => ⟨n, none⟩
  | .divZero neg => ⟨f.sgn neg + f.infBits, if v.fze then some (3, 0, 0) else none⟩
  | .num neg m e sticky =>
    let p := f.round v.mode neg m e sticky
    ⟨p.1, if p.2 && v.foe then some (4, 0, 0) else none⟩

/-- R91: the steps of an arithmetic instruction whose operands have format `fi` and whose result has format `fo`:
subnormal operands, invalid operation, then the exact result and its rounding. -/
def fpOp (fi fo : Fmt) (v : FpEnv) (ops : List Nat) (invalid : List FV → Bool) (invRes : Nat)
    (exact : List FV → Ex) : FOut :=
  match (if v.dnm then none else firstSub fi ops 0) with
  | some (i, a) => ⟨0, some (1, i, a)⟩
  | none =>
    let vs := ops.map (fun a => fi.decode (if fi.isSub a then fi.flush a else a))
    if vs.any (fun x => x == .nan true) || invalid vs then
      ⟨invRes, if v.fve then some (2, 0, 0) else none⟩
    else (exact vs).finish fo v

/-- Whether any operand is a NaN. -/
def anyNan (vs : List FV) : Bool := vs.any (fun x => match x with | .nan _ => true | _ => false)

/-- The exact sum of two finite values; an exact zero has the sign of IEEE 754-2019 for the mode. -/
def exSum (r : RMode) (n1 : Bool) (m1 : Nat) (e1 : Int) (n2 : Bool) (m2 : Nat) (e2 : Int) : Ex :=
  let e := min e1 e2
  let s1 : Int := (m1 * 2 ^ (e1 - e).toNat : Nat)
  let s2 : Int := (m2 * 2 ^ (e2 - e).toNat : Nat)
  let s := (if n1 then -s1 else s1) + (if n2 then -s2 else s2)
  if s = 0 then .num (if n1 == n2 then n1 else r == .rdn) 0 0 false
  else .num (s < 0) s.natAbs e false

/-- a + b. -/
def exAdd (f : Fmt) (r : RMode) : List FV → Ex
  | [.inf n, .inf _] => .bits (f.sgn n + f.infBits)
  | [.inf n, .fin ..] => .bits (f.sgn n + f.infBits)
  | [.fin .., .inf n] => .bits (f.sgn n + f.infBits)
  | [.fin n1 m1 e1, .fin n2 m2 e2] => exSum r n1 m1 e1 n2 m2 e2
  | _ => .bits f.qnan

/-- ∞ - ∞. -/
def invAdd : List FV → Bool
  | [.inf a, .inf b] => a != b
  | _ => false

/-- A value with its sign inverted. -/
def FV.negate : FV → FV
  | .inf n => .inf (!n)
  | .fin n m e => .fin (!n) m e
  | x => x

/-- The exact product of two values, as a value (0 × ∞ is a NaN). -/
def FV.mul : FV → FV → FV
  | .fin n1 m1 e1, .fin n2 m2 e2 => .fin (n1 != n2) (m1 * m2) (e1 + e2)
  | .inf n1, .inf n2 => .inf (n1 != n2)
  | .inf n1, .fin n2 m2 _ => if m2 = 0 then .nan false else .inf (n1 != n2)
  | .fin n1 m1 _, .inf n2 => if m1 = 0 then .nan false else .inf (n1 != n2)
  | _, _ => .nan false

/-- 0 × ∞. -/
def invMul (a b : FV) : Bool :=
  match a, b with
  | .inf _, .fin _ m _ => m == 0
  | .fin _ m _, .inf _ => m == 0
  | _, _ => false

/-- A value to be rounded. -/
def FV.toEx (f : Fmt) : FV → Ex
  | .nan _ => .bits f.qnan
  | .inf n => .bits (f.sgn n + f.infBits)
  | .fin n m e => .num n m e false

/-- The square root, rounded down, by bits from `k` to 0. -/
def isqrtAux (n : Nat) : Nat → Nat → Nat
  | 0, r => if (r + 1) * (r + 1) ≤ n then r + 1 else r
  | k + 1, r =>
    let t := r + 2 ^ (k + 1)
    isqrtAux n k (if t * t ≤ n then t else r)

/-- The square root, rounded down. -/
def isqrt (n : Nat) : Nat := isqrtAux n (n.log2 / 2 + 1) 0

/-- The arithmetic of FP32 (and of BF16 reductions) that R90 and R192 name. -/
inductive FOp where
  | add | sub | mul | div | min | max | madd | msub | sqrt | eq | lt | le
deriving DecidableEq, Repr

/-- a ÷ b. -/
def exDiv (f : Fmt) : List FV → Ex
  | [.fin n1 m1 e1, .fin n2 m2 e2] =>
    if m2 = 0 then (if m1 = 0 then .bits f.qnan else .divZero (n1 != n2))
    else
      let q := m1 * 2 ^ 80 / m2
      .num (n1 != n2) q (e1 - e2 - 80) (m1 * 2 ^ 80 % m2 != 0)
  | [.inf n1, .fin n2 _ _] => .bits (f.sgn (n1 != n2) + f.infBits)
  | [.fin n1 _ _, .inf n2] => .bits (f.sgn (n1 != n2))
  | _ => .bits f.qnan

/-- 0 ÷ 0 and ∞ ÷ ∞. -/
def invDiv : List FV → Bool
  | [.fin _ m1 _, .fin _ m2 _] => m1 == 0 && m2 == 0
  | [.inf _, .inf _] => true
  | _ => false

/-- The square root of m × 2^e with at least 40 significant bits. -/
def exSqrtMag (m : Nat) (e : Int) : Ex :=
  let m' := if e % 2 = 0 then m else 2 * m
  let e' := if e % 2 = 0 then e else e - 1
  let n := m' * 2 ^ 100
  let s := isqrt n
  .num false s (e' / 2 - 50) (s * s != n)

/-- √a. -/
def exSqrt (f : Fmt) : List FV → Ex
  | [.fin n m e] => if m = 0 then .bits (f.sgn n) else exSqrtMag m e
  | [.inf false] => .bits f.infBits
  | _ => .bits f.qnan

/-- The square root of a value below -0. -/
def invSqrt : List FV → Bool
  | [.fin n m _] => n && m != 0
  | [.inf n] => n
  | _ => false

/-- The signed numerators of two finite values over a common power of two. -/
def common (n1 : Bool) (m1 : Nat) (e1 : Int) (n2 : Bool) (m2 : Nat) (e2 : Int) : Int × Int :=
  let e := min e1 e2
  let s1 : Int := (m1 * 2 ^ (e1 - e).toNat : Nat)
  let s2 : Int := (m2 * 2 ^ (e2 - e).toNat : Nat)
  (if n1 then -s1 else s1, if n2 then -s2 else s2)

/-- Order of two values that are no NaN, with -0 equal to +0. -/
def FV.cmp : FV → FV → Ordering
  | .fin n1 m1 e1, .fin n2 m2 e2 => let p := common n1 m1 e1 n2 m2 e2; compare p.1 p.2
  | .inf a, .inf b => if a == b then .eq else if a then .lt else .gt
  | .inf a, _ => if a then .lt else .gt
  | _, .inf b => if b then .gt else .lt
  | _, _ => .eq

/-- The sign of a value. -/
def FV.neg : FV → Bool
  | .inf n => n
  | .fin n _ _ => n
  | .nan _ => false

/-- R92: `fmin` orders -0 below +0. -/
def fpLess (a b : FV) : Bool :=
  match a.cmp b with
  | .lt => true
  | .eq => a.neg && !b.neg
  | .gt => false

/-- R92: the result of `fmin` or `fmax` on the operands as read (after R91 step 1). -/
def minMaxBits (f : Fmt) (isMax : Bool) (a b : Nat) : Nat :=
  let fl := fun n => if f.isSub n then f.flush n else n
  let va := f.decode (fl a); let vb := f.decode (fl b)
  match va, vb with
  | .nan _, .nan _ => f.qnan
  | .nan _, _ => fl b
  | _, .nan _ => fl a
  | _, _ =>
    let aFirst := if isMax then !fpLess va vb else !fpLess vb va
    if aFirst then fl a else fl b

/-- R91, R92: one lane of a floating-point operation of one format. The operands stand in the order a, b, d. -/
def fpLane (f : Fmt) (v : FpEnv) (op : FOp) (ops : List Nat) : FOut :=
  let none' : List FV → Bool := fun _ => false
  match op, ops with
  | .add, [a, b] => fpOp f f v [a, b] invAdd f.qnan (exAdd f v.mode)
  | .sub, [a, b] =>
    fpOp f f v [a, b] (fun l => match l with | [x, y] => invAdd [x, y.negate] | _ => false) f.qnan
      (fun l => match l with | [x, y] => exAdd f v.mode [x, y.negate] | _ => .bits f.qnan)
  | .mul, [a, b] =>
    fpOp f f v [a, b] (fun l => match l with | [x, y] => invMul x y | _ => false) f.qnan
      (fun l => match l with | [x, y] => (x.mul y).toEx f | _ => .bits f.qnan)
  | .div, [a, b] => fpOp f f v [a, b] invDiv f.qnan (exDiv f)
  | .madd, [a, b, d] =>
    fpOp f f v [a, b, d]
      (fun l => match l with
        | [x, y, z] => invMul x y || (!anyNan [x, y, z] && invAdd [x.mul y, z])
        | _ => false) f.qnan
      (fun l => match l with | [x, y, z] => exAdd f v.mode [x.mul y, z] | _ => .bits f.qnan)
  | .msub, [a, b, d] =>
    fpOp f f v [a, b, d]
      (fun l => match l with
        | [x, y, z] => invMul x y || (!anyNan [x, y, z] && invAdd [(x.mul y).negate, z])
        | _ => false) f.qnan
      (fun l => match l with | [x, y, z] => exAdd f v.mode [(x.mul y).negate, z] | _ => .bits f.qnan)
  | .sqrt, [a] => fpOp f f v [a] invSqrt f.qnan (exSqrt f)
  | .min, [a, b] => fpOp f f v [a, b] none' (minMaxBits f false a b) (fun _ => .bits (minMaxBits f false a b))
  | .max, [a, b] => fpOp f f v [a, b] none' (minMaxBits f true a b) (fun _ => .bits (minMaxBits f true a b))
  | .eq, [a, b] =>
    fpOp f f v [a, b] none' 0
      (fun l => match l with
        | [x, y] => .bits (if anyNan l then 0 else b2n (x.cmp y == .eq))
        | _ => .bits 0)
  | .lt, [a, b] =>
    fpOp f f v [a, b] anyNan 0 (fun l => match l with | [x, y] => .bits (b2n (x.cmp y == .lt)) | _ => .bits 0)
  | .le, [a, b] =>
    fpOp f f v [a, b] anyNan 0 (fun l => match l with | [x, y] => .bits (b2n (x.cmp y != .gt)) | _ => .bits 0)
  | _, _ => ⟨0, none⟩

/-- m × 2^e rounded to an integer by the mode. -/
def roundInt (r : RMode) (neg : Bool) (m : Nat) (e : Int) : Int :=
  let k : Int := roundAt r neg m e false 0
  if neg then -k else k

/-- R93: an FP32 value to an integer of the range lo to hi, saturating; the first part says that it was invalid. -/
def toIntSat (r : RMode) (lo hi : Int) : FV → Bool × Int
  | .nan _ => (true, hi)
  | .inf n => (true, if n then lo else hi)
  | .fin n m e =>
    let k := roundInt r n m e
    if k < lo then (true, lo) else if k > hi then (true, hi) else (false, k)

/-- R93: one lane of a conversion to an integer; the result is the integer modulo 2^64. -/
def fpToInt (f : Fmt) (v : FpEnv) (lo hi : Int) (a : Nat) : FOut :=
  match (if v.dnm then none else firstSub f [a] 0) with
  | some (i, x) => ⟨0, some (1, i, x)⟩
  | none =>
    let p := toIntSat v.mode lo hi (f.decode (if f.isSub a then f.flush a else a))
    ⟨(p.2 % (2 ^ 64 : Int)).toNat, if p.1 && v.fve then some (2, 0, 0) else none⟩

/-- R93: an integer to FP32 by the mode; it never overflows. -/
def intToFp (f : Fmt) (r : RMode) (n : Int) : Nat :=
  if n = 0 then 0 else (f.round r (n < 0) n.natAbs 0 false).1

/-- R92, R107: FP32 to BF16 under the steps 1, 2 and 4 of R91. -/
def fpToBf (v : FpEnv) (a : Nat) : FOut :=
  fpOp fp32 bf16 v [a] (fun _ => false) bf16.qnan
    (fun l => match l with | [x] => x.toEx bf16 | _ => .bits 0)

/-- R107: BF16 to FP32, exact: the 16 bits followed by 16 zero bits. -/
def bfToFp (a : Nat) : Nat := a % 2 ^ 16 * 2 ^ 16

/-- R94: the class mask. -/
def fclassMask (a : Nat) : Nat :=
  match fp32.decode a with
  | .inf true => 1
  | .inf false => 2 ^ 7
  | .nan true => 2 ^ 8
  | .nan false => 2 ^ 9
  | .fin n m _ =>
    if m = 0 then (if n then 2 ^ 3 else 2 ^ 4)
    else if fp32.isSub a then (if n then 2 ^ 2 else 2 ^ 5)
    else if n then 2 ^ 1 else 2 ^ 6

/-- R107, R106: a value of any format into another, one rounding by the mode, no trap. -/
def FV.into (f : Fmt) (r : RMode) : FV → Nat
  | .nan _ => f.qnan
  | .inf n => f.sgn n + f.infBits
  | .fin n m e => (f.round r n m e false).1

/-! ### MK8 and block scales -/

/-- R109: the magnitude of a body, in units of 2^-17. -/
def mk8Mag (b : Nat) : Nat :=
  if b ≥ 64 then (64 + b % 64) * 2 ^ 11
  else if b ≥ 32 then (16 + b % 16) * 2 ^ (if bitAt b 4 then 14 else 12)
  else if b ≥ 16 then
    (4 + b % 4) * 2 ^ (match b / 4 % 4 with | 0 => 12 | 1 => 13 | 2 => 17 | _ => 18)
  else if b ≥ 8 then (if bitAt b 2 then 2 ^ (21 + b % 4) else 2 ^ (10 + b % 4))
  else if b ≥ 4 then 2 ^ (match b % 4 with | 0 => 8 | 1 => 9 | 2 => 25 | _ => 26)
  else if b ≥ 2 then (if bitAt b 0 then 2 ^ 27 else 2 ^ 7)
  else if b = 1 then 2 ^ 6
  else 0

/-- R109 `decode_mk8`: void is a NaN. -/
def decodeMk8 (c : Nat) : FV :=
  if c % 256 = 128 then .nan false
  else .fin (bitAt c 7) (mk8Mag (c % 128)) (-17)

/-- R112: an element under its block scale. -/
def scaledMk8 (c s : Nat) : FV :=
  if s = 255 then .nan false
  else match decodeMk8 c with
    | .fin n m e => .fin n m (e + s - 127)
    | x => x

/-- R111: of two magnitudes (code and magnitude) the one nearer to m × 2^e; on a tie the code with bit 0 clear, or
the smaller magnitude where the codes agree in bit 0. -/
def mk8Nearer (m : Nat) (e : Int) (a b : Nat) : Nat :=
  let q := min e (-17)
  let x : Int := (m * 2 ^ (e - q).toNat : Nat)
  let da := ((mk8Mag a * 2 ^ (-17 - q).toNat : Nat) - x : Int).natAbs
  let db := ((mk8Mag b * 2 ^ (-17 - q).toNat : Nat) - x : Int).natAbs
  if da < db then a else if db < da then b
  else if a % 2 = b % 2 then (if mk8Mag a ≤ mk8Mag b then a else b)
  else if a % 2 = 0 then a else b

/-- Whether m × 2^e exceeds 1,024. -/
def over1024 (m : Nat) (e : Int) : Bool :=
  if 10 ≤ e then m * 2 ^ (e - 10).toNat > 1 else m > 2 ^ (10 - e).toNat

/-- R111 `encode_mk8`: the code and the saturation indication. -/
def encodeMk8 : FV → Nat × Bool
  | .nan _ => (128, false)
  | .inf n => ((if n then 128 else 0) + 3, true)
  | .fin n m e =>
    let sg := if n && m != 0 then 128 else 0
    if over1024 m e then (sg + 3, true)
    else
      let c := (List.range 128).foldl (mk8Nearer m e) 0
      if c = 0 then (0, false) else (sg + c, false)

/-- A value times a power of two. -/
def FV.scale (k : Int) : FV → FV
  | .fin n m e => .fin n m (e + k)
  | x => x

/-- R114 `exceeds`: some finite source scales above 1,024. -/
def blockExceeds (xs : List FV) (s : Nat) : Bool :=
  xs.any (fun x => match x with | .fin _ m e => over1024 m (e + 127 - s) | _ => false)

/-- R114: the scale after at most `k` raises. -/
def raiseScale (xs : List FV) : Nat → Nat → Nat
  | 0, s => s
  | k + 1, s => if s < 254 && blockExceeds xs s then raiseScale xs k (s + 1) else s

/-- R114 `quantise_block`: the scale, the codes, and the number of saturated elements. -/
def quantiseBlock (xs : List FV) (t : Nat) : Nat × List Nat × Nat :=
  if t = 255 then (255, xs.map (fun _ => 128), 0)
  else
    let s := raiseScale xs 3 t
    let r := xs.map (fun x => encodeMk8 (x.scale (127 - s)))
    (s, r.map (·.1), (r.filter (·.2)).length)

/-! ### Sums -/

/-- R117: the exact value of a group of products. -/
def groupValue (ps : List FV) : FV :=
  if anyNan ps then .nan false
  else
    let pos := ps.any (· == .inf false)
    let neg := ps.any (· == .inf true)
    if pos && neg then .nan false
    else if pos then .inf false
    else if neg then .inf true
    else
      let e := ps.foldl (fun q p => match p with | .fin _ _ e => min q e | _ => q) (0 : Int)
      let s := ps.foldl (fun (t : Int) p => match p with
        | .fin n m k => let x : Int := (m * 2 ^ (k - e).toNat : Nat); if n then t - x else t + x
        | _ => t) 0
      if s = 0 then .fin (ps.all (fun p => match p with | .fin n m _ => n && m == 0 | _ => false)) 0 0
      else .fin (s < 0) s.natAbs e

/-- R106, R116: one step of an A40 accumulator: the group is rounded, then added, then rounded. -/
def a40Step (c : Nat) (ps : List FV) : Nat :=
  let g := (groupValue ps).into a40 .rne
  match exAdd a40 .rne [a40.decode c, a40.decode g] with
  | .bits n => if invAdd [a40.decode c, a40.decode g] then a40.qnan else n
  | .num n m e st => (a40.round .rne n m e st).1
  | .divZero _ => a40.qnan

/-- R103: an `i40` element as an integer. -/
def i40Val (c : Nat) : Int := if c ≥ 2 ^ 39 then (c : Int) - 2 ^ 40 else c

/-- R103 `clamp_i40`: the element and whether it saturated. -/
def i40Clamp (n : Int) : Nat × Bool :=
  if n > 2 ^ 39 - 1 then (2 ^ 39 - 1, true)
  else if n < -(2 ^ 39 : Int) then (2 ^ 39, true)
  else ((n % (2 ^ 40 : Int)).toNat, false)

/-- Split a list into consecutive runs of n. -/
def chunks {α : Type} (n : Nat) : Nat → List α → List (List α)
  | 0, _ => []
  | k + 1, l => if l.isEmpty then [] else l.take n :: chunks n k (l.drop n)

/-- R118: one level of the reduction tree; an absent input passes the other unchanged. -/
def treeLevel {α : Type} (op : α → α → α) : List (Option α) → List (Option α)
  | some a :: some b :: r => some (op a b) :: treeLevel op r
  | some a :: none :: r => some a :: treeLevel op r
  | none :: x :: r => x :: treeLevel op r
  | [a] => [a]
  | [] => []

/-- R118: the tree over 2^k lanes; `none` when every lane is absent. -/
def tree {α : Type} (op : α → α → α) : Nat → List (Option α) → Option α
  | 0, l => l.headD none
  | k + 1, l => tree op k (treeLevel op l)

/-! ### The approximations of R197 -/

/-- R197 `round12`: 12 significant bits to nearest even with an unbounded exponent, then FP32. The first part of the
result says that the magnitude reached 2^128. -/
def round12 (neg : Bool) (m : Nat) (e : Int) (sticky : Bool) : Bool × Nat :=
  if m = 0 then (false, fp32.sgn neg) else
  let q := e + (m.log2 : Int) - 11
  let k := roundAt .rne neg m e sticky q
  let top := q + (k.log2 : Int)
  if top ≥ 128 then (true, fp32.sgn neg + fp32.infBits)
  else (false, (fp32.round .rne neg k q false).1)

/-- The fixed-point fraction bits used for 2^x and log2 x. -/
def sfuBits : Nat := 200

/-- 2^f for f given by its fraction bits (most significant first), in fixed point: multiply by 2^(2^-k) for each set
bit. -/
def exp2Frac : List Bool → Nat → Nat → Nat
  | [], _, acc => acc
  | b :: r, c, acc => exp2Frac r (isqrt (c * 2 ^ sfuBits)) (if b then acc * c / 2 ^ sfuBits else acc)

/-- The fraction bits of log2 of a fixed-point number in [1, 2), by repeated squaring. -/
def log2Frac : Nat → Nat → Nat → Nat
  | 0, _, acc => acc
  | k + 1, x, acc =>
    let y := x * x / 2 ^ sfuBits
    if y ≥ 2 ^ (sfuBits + 1) then log2Frac k (y / 2) (2 * acc + 1) else log2Frac k y (2 * acc)

/-- R197, R198 `vexp2.a` of a finite operand: overflow and the result. (Log: UNVERIFIED 59) -/
def exp2Approx (n : Bool) (m : Nat) (e : Int) : Bool × Nat :=
  if m = 0 then (false, 0x3F800000) else
  let x : Int := if e ≥ 0 then (if e > 9 then 2 ^ 9 * 2 ^ 80 else (m * 2 ^ e.toNat * 2 ^ 80 : Nat))
    else ((m * 2 ^ 80 / 2 ^ (-e).toNat : Nat) : Int)
  let x := if n then -x else x
  let i := x / 2 ^ 80
  let fr := (x % 2 ^ 80).toNat
  let sticky := e < -80 && m % 2 ^ ((-e).toNat - 80) != 0
  if i ≥ 128 then (true, fp32.infBits)
  else if i < -400 then (false, 0)
  else if fr = 0 && !sticky then round12 false 1 i false
  else if fr = 0 then round12 false (2 ^ 60 + 1) (i - 60) true
  else
    let p := exp2Frac ((List.range 80).map (fun k => bitAt fr (79 - k))) (isqrt (2 * 2 ^ sfuBits * 2 ^ sfuBits)) (2 ^ sfuBits)
    round12 false p (i - sfuBits) true

/-- R197, R198 `vlog2.a` of a positive normal operand. (Log: UNVERIFIED 59) -/
def log2Approx (m : Nat) (e : Int) : Nat :=
  let l := m.log2
  let i := e + (l : Int)
  let fr := log2Frac 80 (m * 2 ^ sfuBits / 2 ^ l) 0
  let v := i * 2 ^ 80 + fr
  if v = 0 && m = 2 ^ l then 0
  else (round12 (v < 0) v.natAbs (-80) (m != 2 ^ l)).2

/-- R197, R198 `vrcp.a` of a finite non-zero operand. -/
def rcpApprox (n : Bool) (m : Nat) (e : Int) : Bool × Nat :=
  round12 n (2 ^ 80 / m) (-e - 80) (2 ^ 80 % m != 0)

/-- R197, R198 `vrsq.a` of a positive operand. -/
def rsqApprox (m : Nat) (e : Int) : Bool × Nat :=
  let m' := if e % 2 = 0 then m else 2 * m
  let e' := if e % 2 = 0 then e else e - 1
  let s := isqrt (2 ^ 200 / m')
  round12 false s (-(e' / 2) - 100) (s * s * m' != 2 ^ 200)

end Sys2Proof.Machine
end

