-- ==== Sys2Proof/Machine/Flags.lean ====
section
/-! DEFINITION. The results whose corner cases the spec fixes (R80, R81), and the floating-point environment that the
status word gives (R10, R90, R183). -/

namespace Sys2Proof.Machine

/-- R80: bits [127:64] of the exact product, each operand read as signed or unsigned. -/
def mulHigh (sa sb : Bool) (x y : Word) : Word :=
  let p := (if sa then x.toInt else x.toNat) * (if sb then y.toInt else y.toNat)
  BitVec.ofInt 64 (p / 2 ^ 64)

/-- R81: the signed quotient: all ones for a zero divisor, the minimum for the minimum divided by -1. -/
def divS (x y : Word) : Word := if y = 0#64 then BitVec.allOnes 64 else BitVec.ofInt 64 (x.toInt.tdiv y.toInt)
/-- R81: the unsigned quotient. -/
def divU (x y : Word) : Word := if y = 0#64 then BitVec.allOnes 64 else w64 (x.toNat / y.toNat)
/-- R81: the signed remainder, with the sign of the dividend. -/
def remS (x y : Word) : Word := if y = 0#64 then x else BitVec.ofInt 64 (x.toInt.tmod y.toInt)
/-- R81: the unsigned remainder. -/
def remU (x y : Word) : Word := if y = 0#64 then x else w64 (x.toNat % y.toNat)
/-- R81 on 32 bits: see divS. -/
def divS32 (x y : BitVec 32) : BitVec 32 :=
  if y = 0#32 then BitVec.allOnes 32 else BitVec.ofInt 32 (x.toInt.tdiv y.toInt)
/-- R81 on 32 bits: see divU. -/
def divU32 (x y : BitVec 32) : BitVec 32 := if y = 0#32 then BitVec.allOnes 32 else BitVec.ofNat 32 (x.toNat / y.toNat)
/-- R81 on 32 bits: see remS. -/
def remS32 (x y : BitVec 32) : BitVec 32 := if y = 0#32 then x else BitVec.ofInt 32 (x.toInt.tmod y.toInt)
/-- R81 on 32 bits: see remU. -/
def remU32 (x y : BitVec 32) : BitVec 32 := if y = 0#32 then x else BitVec.ofNat 32 (x.toNat % y.toNat)
/-- R81: the divisor of a word form is zero. -/
def lowZero (y : Word) : Bool := y.setWidth 32 == 0#32

/-- R90: the rounding mode that a 3-bit field selects: 0 to 4 by code, 7 for `st.RM`. -/
def modeOf (st : Word) (r : Nat) : RMode := RMode.ofCode (if r = 7 then stRM st else r)

/-- R91, R183: the environment that a status word gives. -/
def fpEnv (st : Word) (r : Nat) : FpEnv :=
  { dnm := stBit st 3, fve := stBit st 10, fze := stBit st 11, foe := stBit st 12, mode := modeOf st r }

/-- R91: the trap code of a step: subnormal operand, invalid, division by zero, overflow. -/
def stepCode (n : Nat) : Nat :=
  match n with
  | 1 => 0x09
  | 2 => 0x0A
  | 3 => 0x0B
  | _ => 0x0C

end Sys2Proof.Machine
end

