-- ==== Sys2Proof/Machine/Scalar.lean ====
section
/-! DEFINITION. Scalar integer instructions, branches, frames and their compact forms (R73 to R89, R63 to R65). -/

namespace Sys2Proof.Machine

/-- The frame of a scalar instruction: the registers it reads and the one it writes (R73: sources are read first). -/
def scalarUse (reads : List (BitVec 6)) (d : List (BitVec 6)) (size : Nat := 4) : Use :=
  { word := 0, size := size, names := (reads ++ d).map .x, reads := reads }

/-- d := f(a, b). -/
def opRRR (f : Word → Word → Word) (b a d : BitVec 6) (s : State) (size : Nat := 4) : State :=
  (scalarUse [a, b] [d] size).run s (fun s => .next (s.setX d (f (s.xr a) (s.xr b))))

/-- d := f(a). -/
def opRR (f : Word → Word) (a d : BitVec 6) (s : State) (size : Nat := 4) : State :=
  (scalarUse [a] [d] size).run s (fun s => .next (s.setX d (f (s.xr a))))

/-- d := f(a) with private registers, for the immediate forms (R78). -/
def opImm (f : Word → Word) (a d : BitVec 5) (s : State) (size : Nat := 4) : State :=
  opRR f (xreg a) (xreg d) s size

/-- R81: a division or remainder; a zero divisor with DZE set traps with the dividend register as detail. -/
def opDiv (f : Word → Word → Word) (zero : Word → Bool) (b a d : BitVec 6) (s : State) : State :=
  (scalarUse [a, b] [d]).run s (fun s =>
    if zero (s.xr b) && stBit s.th.st 9 then .trap tDIVZERO (s.xr a)
    else .next (s.setX d (f (s.xr a) (s.xr b))))


/-- R77 `add`. -/
def execAdd (b a d : BitVec 6) (s : State) : Host.Outcome State Fault Refusal :=
  done (opRRR (fun x y => x + y) b a d s)

/-- R77 `sub`. -/
def execSub (b a d : BitVec 6) (s : State) : Host.Outcome State Fault Refusal :=
  done (opRRR (fun x y => x - y) b a d s)

/-- R77 `and`. -/
def execAnd (b a d : BitVec 6) (s : State) : Host.Outcome State Fault Refusal :=
  done (opRRR (fun x y => x &&& y) b a d s)

/-- R77 `or`. -/
def execOr (b a d : BitVec 6) (s : State) : Host.Outcome State Fault Refusal :=
  done (opRRR (fun x y => x ||| y) b a d s)

/-- R77 `xor`. -/
def execXor (b a d : BitVec 6) (s : State) : Host.Outcome State Fault Refusal :=
  done (opRRR (fun x y => x ^^^ y) b a d s)

/-- R77 `sll`. -/
def execSll (b a d : BitVec 6) (s : State) : Host.Outcome State Fault Refusal :=
  done (opRRR (fun x y => x <<< (y.toNat % 64)) b a d s)

/-- R77 `srl`. -/
def execSrl (b a d : BitVec 6) (s : State) : Host.Outcome State Fault Refusal :=
  done (opRRR (fun x y => x >>> (y.toNat % 64)) b a d s)

/-- R77 `sra`. -/
def execSra (b a d : BitVec 6) (s : State) : Host.Outcome State Fault Refusal :=
  done (opRRR (fun x y => x.sshiftRight (y.toNat % 64)) b a d s)

/-- R77 `slt`. -/
def execSlt (b a d : BitVec 6) (s : State) : Host.Outcome State Fault Refusal :=
  done (opRRR (fun x y => w64 (b2n (x.slt y))) b a d s)

/-- R77 `sltu`. -/
def execSltu (b a d : BitVec 6) (s : State) : Host.Outcome State Fault Refusal :=
  done (opRRR (fun x y => w64 (b2n (x.ult y))) b a d s)

/-- R77 `min`. -/
def execMin (b a d : BitVec 6) (s : State) : Host.Outcome State Fault Refusal :=
  done (opRRR (fun x y => if x.slt y then x else y) b a d s)

/-- R77 `max`. -/
def execMax (b a d : BitVec 6) (s : State) : Host.Outcome State Fault Refusal :=
  done (opRRR (fun x y => if x.slt y then y else x) b a d s)

/-- R77 `minu`. -/
def execMinu (b a d : BitVec 6) (s : State) : Host.Outcome State Fault Refusal :=
  done (opRRR (fun x y => if x.ult y then x else y) b a d s)

/-- R77 `maxu`. -/
def execMaxu (b a d : BitVec 6) (s : State) : Host.Outcome State Fault Refusal :=
  done (opRRR (fun x y => if x.ult y then y else x) b a d s)

/-- R77 `addw`. -/
def execAddw (b a d : BitVec 6) (s : State) : Host.Outcome State Fault Refusal :=
  done (opRRR (fun x y => sext32 (x + y)) b a d s)

/-- R77 `subw`. -/
def execSubw (b a d : BitVec 6) (s : State) : Host.Outcome State Fault Refusal :=
  done (opRRR (fun x y => sext32 (x - y)) b a d s)

/-- R77 `sllw`. -/
def execSllw (b a d : BitVec 6) (s : State) : Host.Outcome State Fault Refusal :=
  done (opRRR (fun x y => sext32 (x <<< (y.toNat % 32))) b a d s)

/-- R77 `srlw`. -/
def execSrlw (b a d : BitVec 6) (s : State) : Host.Outcome State Fault Refusal :=
  done (opRRR (fun x y => sext32 (((x.setWidth 32) >>> (y.toNat % 32)).setWidth 64)) b a d s)

/-- R77 `sraw`. -/
def execSraw (b a d : BitVec 6) (s : State) : Host.Outcome State Fault Refusal :=
  done (opRRR (fun x y => ((x.setWidth 32).sshiftRight (y.toNat % 32)).signExtend 64) b a d s)

/-- R77 `sh1add`. -/
def execSh1add (b a d : BitVec 6) (s : State) : Host.Outcome State Fault Refusal :=
  done (opRRR (fun x y => (x <<< 1) + y) b a d s)

/-- R77 `sh2add`. -/
def execSh2add (b a d : BitVec 6) (s : State) : Host.Outcome State Fault Refusal :=
  done (opRRR (fun x y => (x <<< 2) + y) b a d s)

/-- R77 `sh3add`. -/
def execSh3add (b a d : BitVec 6) (s : State) : Host.Outcome State Fault Refusal :=
  done (opRRR (fun x y => (x <<< 3) + y) b a d s)

/-- R77 `sh4add`. -/
def execSh4add (b a d : BitVec 6) (s : State) : Host.Outcome State Fault Refusal :=
  done (opRRR (fun x y => (x <<< 4) + y) b a d s)

/-- R80 `mul`. -/
def execMul (b a d : BitVec 6) (s : State) : Host.Outcome State Fault Refusal :=
  done (opRRR (fun x y => x * y) b a d s)

/-- R80 `mulh`. -/
def execMulh (b a d : BitVec 6) (s : State) : Host.Outcome State Fault Refusal :=
  done (opRRR (mulHigh true true) b a d s)

/-- R80 `mulhu`. -/
def execMulhu (b a d : BitVec 6) (s : State) : Host.Outcome State Fault Refusal :=
  done (opRRR (mulHigh false false) b a d s)

/-- R80 `mulhsu`. -/
def execMulhsu (b a d : BitVec 6) (s : State) : Host.Outcome State Fault Refusal :=
  done (opRRR (mulHigh true false) b a d s)

/-- R80 `mulw`. -/
def execMulw (b a d : BitVec 6) (s : State) : Host.Outcome State Fault Refusal :=
  done (opRRR (fun x y => sext32 (x * y)) b a d s)

/-- R82 `andn`. -/
def execAndn (b a d : BitVec 6) (s : State) : Host.Outcome State Fault Refusal :=
  done (opRRR (fun x y => x &&& ~~~y) b a d s)

/-- R82 `orn`. -/
def execOrn (b a d : BitVec 6) (s : State) : Host.Outcome State Fault Refusal :=
  done (opRRR (fun x y => x ||| ~~~y) b a d s)

/-- R82 `xnor`. -/
def execXnor (b a d : BitVec 6) (s : State) : Host.Outcome State Fault Refusal :=
  done (opRRR (fun x y => ~~~(x ^^^ y)) b a d s)

/-- R82 `rol`. -/
def execRol (b a d : BitVec 6) (s : State) : Host.Outcome State Fault Refusal :=
  done (opRRR (fun x y => x.rotateLeft (y.toNat % 64)) b a d s)

/-- R82 `ror`. -/
def execRor (b a d : BitVec 6) (s : State) : Host.Outcome State Fault Refusal :=
  done (opRRR (fun x y => x.rotateRight (y.toNat % 64)) b a d s)

/-- R82 `bset`. -/
def execBset (b a d : BitVec 6) (s : State) : Host.Outcome State Fault Refusal :=
  done (opRRR (fun x y => x ||| (1#64 <<< (y.toNat % 64))) b a d s)

/-- R82 `bclr`. -/
def execBclr (b a d : BitVec 6) (s : State) : Host.Outcome State Fault Refusal :=
  done (opRRR (fun x y => x &&& ~~~(1#64 <<< (y.toNat % 64))) b a d s)

/-- R82 `binv`. -/
def execBinv (b a d : BitVec 6) (s : State) : Host.Outcome State Fault Refusal :=
  done (opRRR (fun x y => x ^^^ (1#64 <<< (y.toNat % 64))) b a d s)

/-- R82 `bext`. -/
def execBext (b a d : BitVec 6) (s : State) : Host.Outcome State Fault Refusal :=
  done (opRRR (fun x y => (x >>> (y.toNat % 64)) &&& 1#64) b a d s)

/-- R82 `ext`. -/
def execExt (b a d : BitVec 6) (s : State) : Host.Outcome State Fault Refusal :=
  done (opRRR (extField) b a d s)

/-- R83 `spa`. -/
def execSpa (b a d : BitVec 6) (s : State) : Host.Outcome State Fault Refusal :=
  done (opRRR (fun x y => w64 ((y.toNat % 2048 * 31 + x.toNat % 31) * 16)) b a d s)

/-- R83 `addm31`. -/
def execAddm31 (b a d : BitVec 6) (s : State) : Host.Outcome State Fault Refusal :=
  done (opRRR (fun x y => w64 ((x.toNat + y.toNat) % 31)) b a d s)

/-- R77 `mv`. -/
def execMv (a d : BitVec 6) (s : State) : Host.Outcome State Fault Refusal :=
  done (opRR (fun x => x) a d s)

/-- R82 `clz`. -/
def execClz (a d : BitVec 6) (s : State) : Host.Outcome State Fault Refusal :=
  done (opRR (fun x => w64 (64 - bitLen x)) a d s)

/-- R82 `ctz`. -/
def execCtz (a d : BitVec 6) (s : State) : Host.Outcome State Fault Refusal :=
  done (opRR (fun x => w64 (64 - bitLen x.reverse)) a d s)

/-- R82 `cpop`. -/
def execCpop (a d : BitVec 6) (s : State) : Host.Outcome State Fault Refusal :=
  done (opRR (fun x => w64 (popCount x)) a d s)

/-- R82 `rev8`. -/
def execRev8 (a d : BitVec 6) (s : State) : Host.Outcome State Fault Refusal :=
  done (opRR (revBytes) a d s)

/-- R82 `brev`. -/
def execBrev (a d : BitVec 6) (s : State) : Host.Outcome State Fault Refusal :=
  done (opRR (fun x => x.reverse) a d s)

/-- R82 `sextb`. -/
def execSextb (a d : BitVec 6) (s : State) : Host.Outcome State Fault Refusal :=
  done (opRR (fun x => (x.setWidth 8).signExtend 64) a d s)

/-- R82 `sexth`. -/
def execSexth (a d : BitVec 6) (s : State) : Host.Outcome State Fault Refusal :=
  done (opRR (fun x => (x.setWidth 16).signExtend 64) a d s)

/-- R82 `sextw`. -/
def execSextw (a d : BitVec 6) (s : State) : Host.Outcome State Fault Refusal :=
  done (opRR (sext32) a d s)

/-- R83 `mod31`. -/
def execMod31 (a d : BitVec 6) (s : State) : Host.Outcome State Fault Refusal :=
  done (opRR (fun x => w64 (x.toNat % 31)) a d s)

/-- R83 `div31`. -/
def execDiv31 (a d : BitVec 6) (s : State) : Host.Outcome State Fault Refusal :=
  done (opRR (fun x => w64 (x.toNat / 31)) a d s)

/-- R83 `bankof`. -/
def execBankof (a d : BitVec 6) (s : State) : Host.Outcome State Fault Refusal :=
  done (opRR (fun x => w64 (x.toNat / 16 % 31)) a d s)

/-- R83 `rowof`. -/
def execRowof (a d : BitVec 6) (s : State) : Host.Outcome State Fault Refusal :=
  done (opRR (fun x => w64 (x.toNat / 16 / 31)) a d s)

/-- R80, R81 `div`. -/
def execDiv (b a d : BitVec 6) (s : State) : Host.Outcome State Fault Refusal :=
  done (opDiv (divS) (· == 0#64) b a d s)

/-- R80, R81 `divu`. -/
def execDivu (b a d : BitVec 6) (s : State) : Host.Outcome State Fault Refusal :=
  done (opDiv (divU) (· == 0#64) b a d s)

/-- R80, R81 `rem`. -/
def execRem (b a d : BitVec 6) (s : State) : Host.Outcome State Fault Refusal :=
  done (opDiv (remS) (· == 0#64) b a d s)

/-- R80, R81 `remu`. -/
def execRemu (b a d : BitVec 6) (s : State) : Host.Outcome State Fault Refusal :=
  done (opDiv (remU) (· == 0#64) b a d s)

/-- R80, R81 `divw`. -/
def execDivw (b a d : BitVec 6) (s : State) : Host.Outcome State Fault Refusal :=
  done (opDiv (fun x y => (divS32 (x.setWidth 32) (y.setWidth 32)).signExtend 64) lowZero b a d s)

/-- R80, R81 `divuw`. -/
def execDivuw (b a d : BitVec 6) (s : State) : Host.Outcome State Fault Refusal :=
  done (opDiv (fun x y => (divU32 (x.setWidth 32) (y.setWidth 32)).signExtend 64) lowZero b a d s)

/-- R80, R81 `remw`. -/
def execRemw (b a d : BitVec 6) (s : State) : Host.Outcome State Fault Refusal :=
  done (opDiv (fun x y => (remS32 (x.setWidth 32) (y.setWidth 32)).signExtend 64) lowZero b a d s)

/-- R80, R81 `remuw`. -/
def execRemuw (b a d : BitVec 6) (s : State) : Host.Outcome State Fault Refusal :=
  done (opDiv (fun x y => (remU32 (x.setWidth 32) (y.setWidth 32)).signExtend 64) lowZero b a d s)

/-- R78 `addi`. -/
def execAddi (i : BitVec 12) (a d : BitVec 5) (s : State) : Host.Outcome State Fault Refusal :=
  done (opImm (fun x => x + i.signExtend 64) a d s)

/-- R78 `andi`. -/
def execAndi (i : BitVec 12) (a d : BitVec 5) (s : State) : Host.Outcome State Fault Refusal :=
  done (opImm (fun x => x &&& i.signExtend 64) a d s)

/-- R78 `ori`. -/
def execOri (i : BitVec 12) (a d : BitVec 5) (s : State) : Host.Outcome State Fault Refusal :=
  done (opImm (fun x => x ||| i.signExtend 64) a d s)

/-- R78 `xori`. -/
def execXori (i : BitVec 12) (a d : BitVec 5) (s : State) : Host.Outcome State Fault Refusal :=
  done (opImm (fun x => x ^^^ i.signExtend 64) a d s)

/-- R78 `slti`. -/
def execSlti (i : BitVec 12) (a d : BitVec 5) (s : State) : Host.Outcome State Fault Refusal :=
  done (opImm (fun x => w64 (b2n (x.slt (i.signExtend 64)))) a d s)

/-- R78 `sltiu`. -/
def execSltiu (i : BitVec 12) (a d : BitVec 5) (s : State) : Host.Outcome State Fault Refusal :=
  done (opImm (fun x => w64 (b2n (x.ult (i.signExtend 64)))) a d s)

/-- R78 `slli`. -/
def execSlli (k : BitVec 6) (a d : BitVec 5) (s : State) : Host.Outcome State Fault Refusal :=
  done (opImm (fun x => x <<< k.toNat) a d s)

/-- R78 `srli`. -/
def execSrli (k : BitVec 6) (a d : BitVec 5) (s : State) : Host.Outcome State Fault Refusal :=
  done (opImm (fun x => x >>> k.toNat) a d s)

/-- R78 `srai`. -/
def execSrai (k : BitVec 6) (a d : BitVec 5) (s : State) : Host.Outcome State Fault Refusal :=
  done (opImm (fun x => x.sshiftRight k.toNat) a d s)

/-- R78 `rori`. -/
def execRori (k : BitVec 6) (a d : BitVec 5) (s : State) : Host.Outcome State Fault Refusal :=
  done (opImm (fun x => x.rotateRight k.toNat) a d s)

/-- R78 `li`: the 17-bit value imm12 then field a, sign-extended. -/
def execLi (i : BitVec 12) (j d : BitVec 5) (s : State) : Host.Outcome State Fault Refusal :=
  done ((scalarUse [] [xreg d]).run s (fun s => .next (s.setX (xreg d) ((i ++ j : BitVec 17).signExtend 64))))

/-- R77 `lix`. -/
def execLix (n : BitVec 2) (d : BitVec 6) (s : State) : Host.Outcome State Fault Refusal :=
  done ((scalarUse [] [d]).run s (fun s => .next (s.setX d ((s.oxr n.toNat).signExtend 64))))

/-- R77 `lixu`. -/
def execLixu (n : BitVec 2) (d : BitVec 6) (s : State) : Host.Outcome State Fault Refusal :=
  done ((scalarUse [] [d]).run s (fun s => .next (s.setX d ((s.oxr n.toNat).setWidth 64))))

/-- R77 `insh`: it reads d, whose low half it keeps. -/
def execInsh (n : BitVec 2) (d : BitVec 6) (s : State) : Host.Outcome State Fault Refusal :=
  done ((scalarUse [d] [d]).run s (fun s => .next (s.setX d (s.oxr n.toNat ++ (s.xr d).setWidth 32))))

/-- R58 `oxl`: bits [15:0] of an operand-extension register. -/
def execOxl (i : BitVec 16) (n : BitVec 2) (s : State) : Host.Outcome State Fault Refusal :=
  done ((scalarUse [] []).run s (fun s => .next (s.modTh (fun h => { h with
    ox := vwr h.ox n.toNat ((vrd h.ox n.toNat).extractLsb' 16 16 ++ i) }))))

/-- R58 `oxh`: bits [31:16] of an operand-extension register. -/
def execOxh (i : BitVec 16) (n : BitVec 2) (s : State) : Host.Outcome State Fault Refusal :=
  done ((scalarUse [] []).run s (fun s => .next (s.modTh (fun h => { h with
    ox := vwr h.ox n.toNat (i ++ (vrd h.ox n.toNat).extractLsb' 0 16) }))))

/-! ### Branches, jumps and landing (R84 to R86) -/

/-- R84: a conditional branch by parcels; not taken, the pc goes on. -/
def opBranch (taken : State → Bool) (o : Word) (reads : List (BitVec 6)) (s : State) (size : Nat := 4) : State :=
  (scalarUse reads [] size).run s (fun s' =>
    if taken s' then branchTo s' .direct (s.th.pc + (o <<< 1)) s' else .next s')

/-- R84 `beq`. -/
def execBeq (o : BitVec 12) (b a : BitVec 5) (s : State) : Host.Outcome State Fault Refusal :=
  done (opBranch (fun s => let x := s.xr (xreg a); let y := s.xr (xreg b); x == y) (o.signExtend 64) [xreg a, xreg b] s)

/-- R84 `bne`. -/
def execBne (o : BitVec 12) (b a : BitVec 5) (s : State) : Host.Outcome State Fault Refusal :=
  done (opBranch (fun s => let x := s.xr (xreg a); let y := s.xr (xreg b); x != y) (o.signExtend 64) [xreg a, xreg b] s)

/-- R84 `blt`. -/
def execBlt (o : BitVec 12) (b a : BitVec 5) (s : State) : Host.Outcome State Fault Refusal :=
  done (opBranch (fun s => let x := s.xr (xreg a); let y := s.xr (xreg b); x.slt y) (o.signExtend 64) [xreg a, xreg b] s)

/-- R84 `bge`. -/
def execBge (o : BitVec 12) (b a : BitVec 5) (s : State) : Host.Outcome State Fault Refusal :=
  done (opBranch (fun s => let x := s.xr (xreg a); let y := s.xr (xreg b); !x.slt y) (o.signExtend 64) [xreg a, xreg b] s)

/-- R84 `bltu`. -/
def execBltu (o : BitVec 12) (b a : BitVec 5) (s : State) : Host.Outcome State Fault Refusal :=
  done (opBranch (fun s => let x := s.xr (xreg a); let y := s.xr (xreg b); x.ult y) (o.signExtend 64) [xreg a, xreg b] s)

/-- R84 `bgeu`. -/
def execBgeu (o : BitVec 12) (b a : BitVec 5) (s : State) : Host.Outcome State Fault Refusal :=
  done (opBranch (fun s => let x := s.xr (xreg a); let y := s.xr (xreg b); !x.ult y) (o.signExtend 64) [xreg a, xreg b] s)

/-- R84 `bnr`: taken when NR stands. -/
def execBnr (o : BitVec 12) (s : State) : Host.Outcome State Fault Refusal :=
  done (opBranch (fun s => stBit s.th.st 0) (o.signExtend 64) [] s)

/-- R84 `brd`: taken when NR does not stand. -/
def execBrd (o : BitVec 12) (s : State) : Host.Outcome State Fault Refusal :=
  done (opBranch (fun s => !stBit s.th.st 0) (o.signExtend 64) [] s)

/-- R84 `j`. -/
def execJ (o : BitVec 12) (s : State) : Host.Outcome State Fault Refusal :=
  done (opBranch (fun _ => true) (o.signExtend 64) [] s)

/-- R85 `call`: the link to x30, then the branch. -/
def execCall (o : BitVec 25) (s : State) : Host.Outcome State Fault Refusal :=
  done ((scalarUse [] [30#6]).run s (fun s' =>
    branchTo s' .direct (s.th.pc + (o.signExtend 64 <<< 1)) (s'.setX 30#6 (s.th.pc + 4#64))))

/-- R85: an indirect jump through a register, with or without a link to x30. -/
def opJump (link : Bool) (a : BitVec 6) (s : State) (size : Nat := 4) : State :=
  (scalarUse [a] (if link then [30#6] else []) size).run s (fun s' =>
    branchTo s' .indirect (s'.xr a) (if link then s'.setX 30#6 (s.th.pc + w64 size) else s'))

/-- R85: the return to x30. -/
def opRet (s : State) (size : Nat := 4) : State :=
  (scalarUse [30#6] [] size).run s (fun s' => branchTo s' .ret (s'.xr 30#6) s')

/-- R85 `jr`. -/
def execJr (a : BitVec 6) (s : State) : Host.Outcome State Fault Refusal := done (opJump false a s)

/-- R85 `callr`. -/
def execCallr (a : BitVec 6) (s : State) : Host.Outcome State Fault Refusal := done (opJump true a s)

/-- R85 `ret`. -/
def execRet (s : State) : Host.Outcome State Fault Refusal := done (opRet s)

/-- R86 `land`: a ready no-op. -/
def execLand (s : State) : Host.Outcome State Fault Refusal := done ((scalarUse [] []).run s .next)

/-! ### Frames and predicate bytes (R87 to R89) -/

/-- R87: the frame size: field a then field b, times 16. -/
def frameSize (l h : BitVec 6) : Word := ((h ++ l : BitVec 12).setWidth 64) <<< 4

/-- R87, R88 `enter`, `enter.fp`: the stack-limit check, then the frame. -/
def opEnter (l h : BitVec 6) (fp : Option (BitVec 5)) (s : State) : State :=
  let regs := match fp with | none => [rSP] | some _ => [rSP, 28#6]
  let dsts := match fp with | none => [rSP] | some r => [rSP, 28#6, xreg r]
  (scalarUse regs dsts).run s (fun s =>
    let sp := s.xr rSP; let new := sp - frameSize l h
    if s.th.stklim != 0#64 && (new.ult s.th.stklim || sp.ult (frameSize l h)) then .trap tSTACK new
    else match fp with
      | none => .next (s.setX rSP new)
      | some r => .next (((s.setX (xreg r) (s.xr 28#6)).setX 28#6 new).setX rSP new))

/-- R87, R88 `leave`, `leave.fp`. -/
def opLeave (l h : BitVec 6) (fp : Option (BitVec 5)) (s : State) : State :=
  let regs := match fp with | none => [rSP] | some r => [28#6, xreg r]
  let dsts := match fp with | none => [rSP] | some _ => [rSP, 28#6]
  (scalarUse regs dsts).run s (fun s =>
    match fp with
    | none => .next (s.setX rSP (s.xr rSP + frameSize l h))
    | some r =>
      let v := s.xr (xreg r); let old := s.xr 28#6
      .next ((s.setX rSP (old + frameSize l h)).setX 28#6 v))

/-- R87 `enter`. -/
def execEnter (l h : BitVec 6) (s : State) : Host.Outcome State Fault Refusal := done (opEnter l h none s)
/-- R87 `enter.fp`. -/
def execEnterFp (l h : BitVec 6) (r : BitVec 5) (s : State) : Host.Outcome State Fault Refusal := done (opEnter l h (some r) s)
/-- R87 `leave`. -/
def execLeave (l h : BitVec 6) (s : State) : Host.Outcome State Fault Refusal := done (opLeave l h none s)
/-- R87 `leave.fp`. -/
def execLeaveFp (l h : BitVec 6) (r : BitVec 5) (s : State) : Host.Outcome State Fault Refusal := done (opLeave l h (some r) s)

/-- The eight masks, for the registers that `kpack` and `kunpack` name. -/
def allMasks : List RegN := (List.range 8).map (fun i => .k (BitVec.ofNat 3 i))

/-- R89 `kpack`: bit 0 of each mask into byte n of d; the other bits of d stay. -/
def execKpack (n : BitVec 3) (d : BitVec 6) (s : State) : Host.Outcome State Fault Refusal :=
  done (({ scalarUse [d] [d] with names := .x d :: allMasks }).run s (fun s =>
    let byte := (List.range 8).foldl (fun t i => t + (b2n ((s.kr (BitVec.ofNat 3 i)).getLsbD 0)) * 2 ^ i) 0
    .next (s.setX d ((s.xr d &&& ~~~(0xFF#64 <<< (8 * n.toNat))) ||| (w64 byte <<< (8 * n.toNat))))))

/-- R89 `kunpack`: byte n of a into bit 0 of each mask; bits [15:1] of each stay. -/
def execKunpack (n : BitVec 3) (a : BitVec 6) (s : State) : Host.Outcome State Fault Refusal :=
  done (({ scalarUse [a] [] with names := .x a :: allMasks }).run s (fun s =>
    .next ((List.range 8).foldl (fun t i =>
      let k := BitVec.ofNat 3 i
      t.setK k ((t.kr k &&& 0xFFFE#16) ||| (if (s.xr a).getLsbD (8 * n.toNat + i) then 1#16 else 0#16))) s)))

/-! ### Compact forms (R63 to R65): the 32-bit equivalents with size 2 -/

/-- R64 `add.n`. -/
def execAddN (d b : BitVec 5) (s : State) : Host.Outcome State Fault Refusal :=
  done (opRRR (fun x y => x + y) (xreg b) (xreg d) (xreg d) s 2)

/-- R64 `sub.n`. -/
def execSubN (d b : BitVec 5) (s : State) : Host.Outcome State Fault Refusal :=
  done (opRRR (fun x y => x - y) (xreg b) (xreg d) (xreg d) s 2)

/-- R64 `and.n`. -/
def execAndN (d b : BitVec 5) (s : State) : Host.Outcome State Fault Refusal :=
  done (opRRR (fun x y => x &&& y) (xreg b) (xreg d) (xreg d) s 2)

/-- R64 `or.n`. -/
def execOrN (d b : BitVec 5) (s : State) : Host.Outcome State Fault Refusal :=
  done (opRRR (fun x y => x ||| y) (xreg b) (xreg d) (xreg d) s 2)

/-- R64 `xor.n`. -/
def execXorN (d b : BitVec 5) (s : State) : Host.Outcome State Fault Refusal :=
  done (opRRR (fun x y => x ^^^ y) (xreg b) (xreg d) (xreg d) s 2)

/-- R64 `sll.n`. -/
def execSllN (d b : BitVec 5) (s : State) : Host.Outcome State Fault Refusal :=
  done (opRRR (fun x y => x <<< (y.toNat % 64)) (xreg b) (xreg d) (xreg d) s 2)

/-- R64 `srl.n`. -/
def execSrlN (d b : BitVec 5) (s : State) : Host.Outcome State Fault Refusal :=
  done (opRRR (fun x y => x >>> (y.toNat % 64)) (xreg b) (xreg d) (xreg d) s 2)

/-- R64 `sra.n`. -/
def execSraN (d b : BitVec 5) (s : State) : Host.Outcome State Fault Refusal :=
  done (opRRR (fun x y => x.sshiftRight (y.toNat % 64)) (xreg b) (xreg d) (xreg d) s 2)

/-- R64 `mul.n`. -/
def execMulN (d b : BitVec 5) (s : State) : Host.Outcome State Fault Refusal :=
  done (opRRR (fun x y => x * y) (xreg b) (xreg d) (xreg d) s 2)

/-- R64 `jr.n`. -/
def execJrN (b : BitVec 5) (s : State) : Host.Outcome State Fault Refusal := done (opJump false (xreg b) s 2)
/-- R64 `callr.n`. -/
def execCallrN (b : BitVec 5) (s : State) : Host.Outcome State Fault Refusal := done (opJump true (xreg b) s 2)
/-- R64 `ret.n`. -/
def execRetN (s : State) : Host.Outcome State Fault Refusal := done (opRet s 2)
/-- R65 `addi.n`. -/
def execAddiN (d : BitVec 5) (i : BitVec 6) (s : State) : Host.Outcome State Fault Refusal :=
  done (opImm (fun x => x + i.signExtend 64) d d s 2)
/-- R65 `li.n`. -/
def execLiN (d : BitVec 5) (i : BitVec 6) (s : State) : Host.Outcome State Fault Refusal :=
  done ((scalarUse [] [xreg d] 2).run s (fun s => .next (s.setX (xreg d) (i.signExtend 64))))
/-- R65 `slli.n`. -/
def execSlliN (d : BitVec 5) (i : BitVec 6) (s : State) : Host.Outcome State Fault Refusal := done (opImm (fun x => x <<< i.toNat) d d s 2)
/-- R65 `srli.n`. -/
def execSrliN (d : BitVec 5) (i : BitVec 6) (s : State) : Host.Outcome State Fault Refusal := done (opImm (fun x => x >>> i.toNat) d d s 2)
/-- R65 `srai.n`. -/
def execSraiN (d : BitVec 5) (i : BitVec 6) (s : State) : Host.Outcome State Fault Refusal := done (opImm (fun x => x.sshiftRight i.toNat) d d s 2)
/-- R65 `andi.n`. -/
def execAndiN (d : BitVec 5) (i : BitVec 6) (s : State) : Host.Outcome State Fault Refusal :=
  done (opImm (fun x => x &&& i.signExtend 64) d d s 2)
/-- R65 `addi.n sp, sp`: the immediate times 16. -/
def execAddiNSp (i : BitVec 6) (s : State) : Host.Outcome State Fault Refusal :=
  done (opImm (fun x => x + (i.signExtend 64 <<< 4)) 31#5 31#5 s 2)
/-- R65 `nop.n`: the parcel 0x0001, which is `addi.n x0, x0, 0`: the same instruction, so it reads x0 as that does. -/
def execNopN (s : State) : Host.Outcome State Fault Refusal := done (opImm (fun x => x) 0#5 0#5 s 2)
/-- R65 `j.n`. -/
def execJN (o : BitVec 11) (s : State) : Host.Outcome State Fault Refusal :=
  done (opBranch (fun _ => true) (o.signExtend 64) [] s 2)

end Sys2Proof.Machine
end

