-- ==== Sys2Proof/Machine/Fabric.lean ====
section
/-! DEFINITION. The register fabric: arming, capabilities, sends, the path of a message, inboxes, and the instructions
of major 13 (R163 to R178, R396, R397). -/

namespace Sys2Proof.Machine

/-! ### Where a thread is (R167, R402) -/

/-- Where a thread is: in a slot, in a frame of a context, saved with its core (R391) or with its cluster (R398), or
nowhere. -/
inductive Loc where
  | slot (sid : Nat)
  | frame (c : Nat) (f : Frame)
  | kept (sid : Nat)
  | saved (g : SaveRegion) (sid : Nat)
  | gone
deriving DecidableEq, Repr

/-- Where the thread with a number is: what an identity, a reply, a delivery or a wake finds (R172, R177, R402). -/
def State.whereIs (s : State) (uid : Nat) : Loc :=
  match List.find? (fun p => p.2.occupied && p.2.th.uid == uid) s.slots with
  | some p => .slot p.1
  | none =>
    match s.ctxs.findSome? (fun c => (c.2.framesIn.find? (fun f => f.th.uid == uid)).map (fun f => (c.1, f))) with
    | some (c, f) => .frame c f
    | none =>
      match s.cores.findSome? (fun k => (k.2.kept.find? (fun p => p.2.th.uid == uid)).map (fun p => 16 * k.1 + p.1)) with
      | some sid => .kept sid
      | none =>
        match s.saves.findSome? (fun g => (g.slots.find? (fun q => q.2.occupied && q.2.th.uid == uid)).map (fun q =>
            (g, 128 * g.phys + q.1))) with
        | some (g, sid) => .saved g sid
        | none => .gone

/-- The thread of a place. -/
def State.threadAt (s : State) : Loc → Option Thread
  | .slot sid => some (s.thread sid)
  | .frame _ f => some f.th
  | .kept sid => ((s.core (coreOf sid)).kept.find? (fun p => p.1 == sid % 16)).map (fun p => p.2.th)
  | .saved g sid => (g.slots.find? (fun p => p.1 == sid % 128)).map (fun p => p.2.th)
  | .gone => none

/-- R169, R402: the forwarding entry of a list for an identity of a context. -/
def forwardFor (l : List Forward) (a core slot : Nat) (gen : BitVec 8) : Option Nat :=
  (l.find? (fun f => f.ocore == core && f.oslot == slot && f.gen == gen && f.ctx == a)).map (·.uid)

/-- The save region with a key. -/
def State.regionOf (s : State) (k : Nat × Nat) : Option SaveRegion := s.saves.find? (fun g => g.ctx == k.1 && g.vcl == k.2)

/-- R167, R169: the thread that an identity of a context names at its virtual cluster: by a forwarding entry, in its slot,
in a frame, or saved with its core, and with its cluster where that is saved. -/
def State.named (s : State) (a : Nat) (e : VCluster) (core slot : Nat) (gen : BitVec 8) : Option Nat :=
  let sid := 128 * e.phys + 16 * core + slot
  let mine (h : Thread) : Bool := h.gen == gen && h.ctx == a
  let framed : Option Nat := ((s.ctx a).framesIn.find? (fun f =>
    f.sid == sid && f.away == e.region && f.th.gen == gen)).map (fun f => f.th.uid)
  match e.region with
  | none =>
    (forwardFor (s.cluster e.phys).fwd a core slot gen).or
      (if (s.slot sid).occupied && mine (s.thread sid) then some (s.thread sid).uid
       else framed.or (((s.core (coreOf sid)).kept.find? (fun p => p.1 == slot && mine p.2.th)).map (fun p => p.2.th.uid)))
  | some k => (s.regionOf k).bind (fun g =>
    (forwardFor g.image.fwd a core slot gen).or
      (((g.slots.find? (fun q => q.1 == 16 * core + slot && q.2.occupied && mine q.2.th)).map (fun q => q.2.th.uid)).or
        (if g.phys == e.phys then framed else none)))

/-- R167, R169: that thread, while it has the generation of the identity. -/
def State.liveOf (s : State) (a : Nat) (e : VCluster) (core slot : Nat) (gen : BitVec 8) : Option Nat :=
  (s.named a e core slot gen).filter (fun u => match s.threadAt (s.whereIs u) with
    | some h => h.gen == gen
    | none => false)

/-- R395: a thread is changed wherever it stands: where it is in a frame, as the bytes of the frame now give it. -/
def State.modAway (s : State) (uid : Nat) (f : Thread → Thread) : State :=
  match s.whereIs uid with
  | .frame c q =>
    if q.num < 65536 then
      let r := s.frameThread c q
      let q := { q with th := f r.1 }
      ((r.2.modCtx c (fun k => { k with framesIn := updWhere k.framesIn (fun o => o.num == q.num) (fun _ => q) }))).writeFrame c q
    else s.modUid uid f
  | _ => s.modUid uid f

/-! ### Replies and latches -/

/-- R254, R396: what a reply to a request does to the request latch. Codes: 0 DONE, 1 PARKED, 2 retry EMPTY, 3 retry
GRANULE_FULL, 4 retry PARK_FULL, 5 retry RECONFIG, 6 refused ADDRESS, 7 refused RETRY_LIMIT. -/
def Latch.requestReply (l : Latch) (code : Nat) (v : Word) : Latch :=
  match code with
  | 0 => { l with st := .done, code := 0, value := v }
  | 1 => { l with st := .parked, code := 0 }
  | 2 => { l with st := .idle, code := 13 }
  | 3 => { l with st := .idle, code := 14 }
  | 4 => { l with st := .idle, code := 15 }
  | 5 => { l with st := .idle, code := 21 }
  | 6 => { l with st := .done, code := cADDRESS }
  | _ => { l with st := .done, code := cRETRY }

/-- R148: what the router's reply does to the launch latch: 0 ACCEPTED, with the launch's number, 1 HELD, 2 REFUSED. -/
def Latch.launchReply (l : Latch) (code : Nat) (id : Word) : Latch :=
  match code with
  | 0 => { l with st := .done, code := 0, value := id }
  | 1 => { l with code := 2 }
  | _ => { l with st := .idle, code := 0 }

/-- R173: the reply to an `snd.a`: DONE with the reason, unless the latch has timed out or belongs to another send. -/
def Latch.sendReply (l : Latch) (since code : Nat) : Latch :=
  if l.st = .busy ∧ l.since = since then { l with st := .done, code := code } else l

/-- What an inbox entry that is a reply does to its thread's latch; a request reply brings the time of what was read or
written (R231). -/
def Thread.takeReply (h : Thread) (e : InboxEntry) : Thread :=
  match e.kind with
  | 1 => { h with sl := h.sl.sendReply e.since e.code }
  | 2 => { h with rl := if h.rl.st = .busy then h.rl.requestReply e.code e.value else h.rl, clock := max h.clock e.clock }
  | _ => { h with ll := if h.ll.st = .busy then h.ll.launchReply e.code e.value else h.ll }

/-- A reply reaches the thread of a slot, which acquires what it read (R240). -/
def State.takeReply (s : State) (sid : Nat) (e : InboxEntry) : State :=
  let s := s.modThread sid (fun h => h.takeReply e)
  if e.rels.isEmpty then s
  else
    let l := s.acquirable e.rels sid
    s.modThread sid (fun h => h.acquire l)

/-- R396: an inbox entry keeps bits [47:9] of its clock, rounded up. -/
def InboxEntry.kept (e : InboxEntry) : InboxEntry := { e with clock := (e.clock + 511) / 512 * 512 }

/-- R170: an entry for a core's inbox, or, for a reply that finds it full, to wait at the cluster. -/
def Core.inboxPut (k : Core) (e : InboxEntry) : Core :=
  if k.inbox.length < 48 ∧ k.deferred = [] then { k with inbox := k.inbox ++ [e.kept] }
  else { k with deferred := k.deferred ++ [e] }

/-- See Core.inboxPut. -/
def State.inboxPut (s : State) (cid : Nat) (e : InboxEntry) : State := s.modCore cid (fun k => k.inboxPut e)

/-- R170: waiting replies take the entries that an inbox has freed. -/
def Core.fillInbox (k : Core) : Core :=
  let n := 48 - k.inbox.length
  { k with inbox := k.inbox ++ (k.deferred.take n).map InboxEntry.kept, deferred := k.deferred.drop n }

/-- R397: a core of a save region. -/
def SaveRegion.core (g : SaveRegion) (core : Nat) : Core := ((g.cores.find? (fun c => c.1 == core)).map (·.2)).getD {}

/-- R396: the image of an inbox entry. -/
def InboxEntry.image (e : InboxEntry) : Nat :=
  e.code % 16 + e.reg.toNat * 2 ^ 4 + e.slot % 16 * 2 ^ 10 + e.kind * 2 ^ 14 + 2 ^ 16 + e.gen.toNat * 2 ^ 17
    + (e.clock + 511) / 512 % 2 ^ 39 * 2 ^ 25 + e.value.toNat * 2 ^ 64

/-- R392, R396: the inbox of a core in its context tail. -/
def Core.inboxImage (k : Core) : List Byte := leBytes (packWords 16 (k.inbox.map InboxEntry.image)) 768

/-- R399: bytes are written to the pool of save regions, line by line. -/
def State.poolWrite (s : State) (a : Nat) (b : List Byte) : State :=
  (upTo ((a % 64 + b.length + 63) / 64)).foldl (fun (s : State) i =>
    s.performWrite (a / 64 + i) ((cellsAt a b).filter (fun c => c.1 / 64 == a / 64 + i)) 0 none) s

/-- R397: change a core of a save region, whose inbox image follows. -/
def State.modSaved (s : State) (k : Nat × Nat) (core : Nat) (f : Core → Core) : State :=
  let s : State := { s with saves := updWhere s.saves (fun q => q.ctx == k.1 && q.vcl == k.2) (fun q => { q with
      cores := updWhere q.cores (fun c => c.1 == core) (fun c => (c.1, f c.2)) }) }
  match s.regionOf k with
  | none => s
  | some g => s.poolWrite (Config.saveBase g.idx + tailBase core + 16 * 1424) (g.core core).inboxImage

/-- R170, R397: the home core of a slot, in its save region where its cluster is saved. -/
def State.homeCore (s : State) (away : Option (Nat × Nat)) (sid : Nat) : Core :=
  match away.bind s.regionOf with
  | some g => g.core (coreOf sid % 8)
  | none => s.core (coreOf sid)

/-- See State.homeCore. -/
def State.modHomeCore (s : State) (away : Option (Nat × Nat)) (sid : Nat) (f : Core → Core) : State :=
  match away with
  | some k => s.modSaved k (coreOf sid % 8) f
  | none => s.modCore (coreOf sid) f

/-- R170: where the home core of a thread is that stands in no slot: its save region, and the slot it left. -/
def Loc.home : Loc → Option (Option (Nat × Nat) × Nat)
  | .frame _ f => some (f.away, f.sid)
  | .kept sid => some (none, sid)
  | .saved g sid => some (some (g.ctx, g.vcl), sid)
  | .slot _ | .gone => none

/-- R170, R254, R148, R173: a reply for a thread: to its latch, or to the inbox of the core it left. -/
def State.replyTo (s : State) (uid : Nat) (e : InboxEntry) : State :=
  match s.whereIs uid with
  | .slot sid => s.takeReply sid e
  | l => match l.home with
    | some (k, sid) => s.modHomeCore k sid (fun c => c.inboxPut { e with uid := uid, slot := sid % 16 })
    | none => s

/-! ### Arrival (R169 to R172) -/

/-- R169: a refusal that a cluster counts. -/
def State.countCrf (s : State) (cl : Nat) : State := s.modCluster cl (fun c => { c with crf := c.crf + 1 })

/-- R173: the reply to an `snd.a`. -/
def State.ackReply (s : State) (cl : Nat) (m : Msg) (code : Nat) : State := if m.ack then s.owe (.reply m code cl) else s

/-- R434: the target identity of a message in a trace record: DEV, VCL, CORE and SLOT, then GEN, then the reason of a
refusal in bits [3:0]. (Log: DESIGN CHOICE 63) -/
def Msg.traceId (m : Msg) (why : Nat) : Nat :=
  (bitsAt m.cap.toNat 37 27 * 2 ^ 8 + bitsAt m.cap.toNat 20 8) * 2 ^ 4 + why

/-- R169, R434: what became of a message at a cluster: the trace record, and the reply of an acknowledged one.
(Log: DESIGN CHOICE 63) -/
def State.answerMsg (s : State) (cl : Nat) (m : Msg) (code : Nat) : State :=
  (if code = 0 ∨ code = 10 then s.trace 5 m.ctx cl (m.traceId 0)
   else s.trace 6 m.ctx cl (m.traceId code)).ackReply cl m code

/-- R172: an overwrite event at a thread. -/
def Thread.overwritten (h : Thread) (r : BitVec 6) (why : Nat) : Thread :=
  let w := BitVec.ofNat 4 why
  { h with owc := min (h.owc + 1) (2 ^ 32 - 1), last := w, pendOv := if stBit h.st 8 then some (r, w) else
      h.pendOv.map (fun _ => (r, w)) }

/-- R165, R128: a write to an armed register of a slot fell in this cycle. -/
def State.wroteNow (s : State) (sid : Nat) (r : BitVec 6) : Bool :=
  (s.core (coreOf sid)).disarmed.contains (armNo sid r)

/-- R169 `apply`: the reason code, and the state after it. -/
def State.applyMsg (s : State) (sid : Nat) (r : BitVec 6) (v : Word) (t : Nat) (rels : List Rel) : Nat × State :=
  let a := if isC r then vrd (s.core (coreOf sid)).carm r.toNat else vrd (s.thread sid).xarm r.toNat
  let refuse (why : Nat) : Nat × State := (why, s.modThread sid (fun h => h.overwritten r why))
  if s.wroteNow sid r then refuse 7
  else match a.st with
    | .unarmed => refuse 1
    | .full => refuse 2
    | .awaiting =>
      let a' : ArmSt := { a with st := .full, time := t, rels := rels }
      (0, if isC r then
          s.modCore (coreOf sid) (fun k => { k with
            c := vwr k.c r.toNat v, carm := vwr k.carm r.toNat a', ctime := vwr k.ctime r.toNat t,
            wrote := (r.toNat % 32, 17) :: k.wrote })
        else s.modThread sid (fun h => { h with x := vwr h.x r.toNat v, xarm := vwr h.xarm r.toNat a' }))

/-- R128, R169: the fabric port of a core applies one arrival in a cycle; another waits for a cycle of its own. -/
def State.portApply (s : State) (cl sid : Nat) (m : Msg) (f : State → State) : State :=
  let k := s.core (coreOf sid)
  if k.ported || !k.port.isEmpty then s.modCore (coreOf sid) (fun k => { k with port := k.port ++ [(cl, m)] })
  else (f s).modCore (coreOf sid) (fun k => { k with ported := true })

/-- R166: a field of a capability. -/
def capBits (c : Word) (lo n : Nat) : Nat := bitsAt c.toNat lo n

/-- R168: the seal of bits [63:18] under a context's secret. (Log: DESIGN CHOICE 5) -/
def State.sealFor (s : State) (ctx : Nat) (c : Word) : BitVec 18 :=
  Config.sealOf (Config.secret (s.ctx ctx).secretNo) (c.extractLsb' 18 46)

/-- R166, R169: what a message does: its register and the inbox entry that holds it for a thread in no slot. -/
def Msg.entry (m : Msg) (slot : Nat) (gen : BitVec 8) (uid : Nat) : InboxEntry :=
  { kind := 0, slot := slot % 16, gen := gen, value := m.value, clock := m.clock, uid := uid, rels := m.rels,
    reg := if m.delivery then BitVec.ofNat 6 m.idx else BitVec.ofNat 6 (capBits m.cap 31 6 + m.idx) }

/-- R169: the rights that a message asks of its capability; a delivery of the hardware needs none (R264). -/
def Msg.rights (m : Msg) : Bool := m.delivery || (if m.ack then m.cap.getLsbD 18 else m.cap.getLsbD 19)

/-- R169, R170, R397: a message for a live thread that is in no slot: refused for want of rights, held in the inbox of its
home core, which may be saved, or refused where that is full. -/
def State.arriveOut (s : State) (away : Option (Nat × Nat)) (sid : Nat) (gen : BitVec 8) (m : Msg) : State :=
  let e := m.entry sid gen m.tuid
  let cl := clusterOf sid
  let k := s.homeCore away sid
  if !m.rights then (s.modAway m.tuid (fun h => h.overwritten e.reg 5)).answerMsg cl m 5
  else if m.delivery || (decide (k.inbox.length < 48) && k.deferred.isEmpty) then
    (s.modHomeCore away sid (fun c => c.inboxPut e)).answerMsg cl m 10
  else (s.countCrf cl).answerMsg cl m 6

/-- R169, R171, R402: a message whose identity names a live thread reaches that thread where it stands now. `cl` is the
cluster that held the identity. (Log: DESIGN CHOICE 66) -/
def State.reach (s : State) (cl : Nat) (m : Msg) : State :=
  let gen := if m.delivery then m.tgen else BitVec.ofNat 8 (capBits m.cap 20 8)
  match s.whereIs m.tuid with
  | .slot sid =>
    let r := (m.entry sid gen 0).reg
    if !m.rights then (s.modThread sid (fun h => h.overwritten r 5)).answerMsg (clusterOf sid) m 5
    else s.portApply cl sid m (fun s =>
      let p := s.applyMsg sid r m.value m.clock m.rels
      p.2.answerMsg (clusterOf sid) m p.1)
  | l => match l.home with
    | some (k, sid) => s.arriveOut k sid gen m
    | none => (s.countCrf cl).answerMsg cl m 4

/-- R169 `arrive`, R264: a message at its destination. A message that finds no cluster is counted where it arrived: at its
sender's. (Log: DESIGN CHOICE 69; DEDUCED 92) -/
def State.arrive (s : State) (cl : Nat) (m : Msg) : State :=
  if m.delivery then
    match s.threadAt (s.whereIs m.tuid) with
    | some h => if h.gen == m.tgen then s.reach cl m else (s.countCrf cl).answerMsg cl m 4
    | none => (s.countCrf cl).answerMsg cl m 4
  else if (s.ctxs.find? m.ctx).isNone then (s.countCrf cl).answerMsg cl m 8
  else match s.vcluster m.ctx (capBits m.cap 44 10) with
    | none => (s.countCrf cl).answerMsg cl m 3
    | some e =>
      if s.sealFor m.ctx m.cap != m.cap.extractLsb' 0 18 then (s.countCrf e.phys).answerMsg e.phys m 3
      else match s.liveOf m.ctx e (capBits m.cap 41 3) (capBits m.cap 37 4) (BitVec.ofNat 8 (capBits m.cap 20 8)) with
        | some u => s.reach e.phys { m with tuid := u }
        | none => (s.countCrf e.phys).answerMsg e.phys m 4

/-- R128, R169: the port of a core applies the oldest arrival that waits for a cycle. -/
def State.portStep (s : State) (cid : Nat) : State :=
  match (s.core cid).port with
  | [] => s
  | (cl, m) :: r =>
    let k := s.core cid
    let s := (s.modCore cid (fun k => { k with port := [], ported := false })).reach cl m
    s.modCore cid (fun k' => { k' with port := r ++ k'.port, ported := k'.ported || k.ported })

/-- R171: before a thread leaves its core, the arrivals that wait at the port of the core are applied. -/
def State.flushPort (s : State) (cid : Nat) : State :=
  let n := (s.core cid).port.length
  (upTo n).foldl (fun (s : State) _ => s.portStep cid) s

/-- R169: the oldest message of a core's send queue leaves its cluster, or is refused PERMISSION there. A message for
another device leaves this one, with its clock and its sender's context (R173, R419). (Log: DESIGN CHOICE 69) -/
def State.depart (s : State) (cid : Nat) : State :=
  match (s.core cid).sendq with
  | [] => s
  | m :: r =>
    let s := s.modCore cid (fun k => { k with sendq := r })
    let s := if r.isEmpty then s else s.owe (.depart cid)
    let cl := cid / 8
    let dev := capBits m.cap 54 10
    if dev ≠ s.devId then
      if s.permitsDev cl dev then
        s.emit dev (leBytes m.cap.toNat 8 ++ leBytes m.idx 1 ++ leBytes m.value.toNat 8 ++ leBytes m.clock 6 ++
          leBytes (b2n m.ack) 1 ++ leBytes m.ctx 2) true
      else (s.countCrf cl).answerMsg cl m 9
    else match s.physOf m.ctx (capBits m.cap 44 10) with
      | none => s.owe (.arrive cl m)
      | some dst => if s.permits cl dst then s.owe (.arrive dst m) else (s.countCrf cl).answerMsg cl m 9

/-- R171, R250: before a thread leaves its core, the messages that it has sent leave the send queue of the core. -/
def State.flushSends (s : State) (sid : Nat) : State :=
  let cid := coreOf sid
  let u := (s.thread sid).uid
  (s.core cid).sendq.foldl (fun (s : State) _ =>
    if (s.core cid).sendq.any (fun m => m.uid == u) then s.depart cid else s) s

/-- Entries that are not of a thread. -/
def Core.forgetInbox (k : Core) (uid : Nat) : Core :=
  Core.fillInbox { k with
    inbox := k.inbox.filter (fun e => e.uid != uid), deferred := k.deferred.filter (fun e => e.uid != uid) }

/-- R170: the inbox entries of a returning thread, and the replies that still wait for one, are applied in arrival order,
without reply. `home` is the slot of the core whose inbox holds them, which may be saved (R397). -/
def State.applyInbox (s : State) (away : Option (Nat × Nat)) (home sid uid : Nat) : State :=
  let k := s.homeCore away home
  let es := (k.inbox ++ k.deferred).filter (fun e => e.uid == uid)
  (es.foldl (fun s e =>
    if e.kind = 0 then (s.applyMsg sid e.reg e.value e.clock e.rels).2 else s.takeReply sid e)
      (s.modHomeCore away home (fun k => k.forgetInbox uid)))

/-- R396: the inbox entries of a thread that ends are discarded without count. -/
def State.dropInbox (s : State) (away : Option (Nat × Nat)) (home uid : Nat) : State :=
  s.modHomeCore away home (fun k => k.forgetInbox uid)

/-! ### The instructions of major 13 -/

/-- The frame of a fabric instruction. -/
def fabUse (word : Nat) (names reads : List (BitVec 6)) (pol : Option Policy := none) : Use :=
  { word := word, feat := some fFabric, names := names.map .x, reads := reads, pol := pol, awaitCode := 4 }

/-- R176: the n + 1 registers of a run. -/
def runRegs (a : BitVec 6) (n : BitVec 3) : List (BitVec 6) := (upTo (n.toNat + 1)).map (fun i => a + BitVec.ofNat 6 i)

/-- Change the arming state of a register. -/
def State.modArm (s : State) (r : BitVec 6) (f : ArmSt → ArmSt) : State :=
  if isC r then s.modMe (fun k => { k with carm := vwr k.carm r.toNat (f (vrd k.carm r.toNat)) })
  else s.modTh (fun h => { h with xarm := vwr h.xarm r.toNat (f (vrd h.xarm r.toNat)) })

/-- R176 `arm`, `arm.re`. -/
def execArm (e : BitVec 1) (n : BitVec 3) (a : BitVec 6) (s : State) : Host.Outcome State Fault Refusal :=
  done ((fabUse (rpw 0#2 0 (0#2 ++ e ++ n) a 0#6 13) (runRegs a n) []).run s (fun s =>
    .next ((runRegs a n).foldl (fun s r => s.modArm r (fun t =>
      { t with st := if t.st = .unarmed then .awaiting else t.st, re := e == 1#1 })) s)))

/-- R167: advance a thread's generation with its slot's. -/
def State.advanceGen (s : State) (sid : Nat) : State :=
  s.modSlot sid (fun sl => { sl with gen := sl.gen + 1#8, th := { sl.th with gen := sl.gen + 1#8 } })

/-- R176 `disarm`, `disarm.gen`. -/
def execDisarm (g : BitVec 1) (n : BitVec 3) (a : BitVec 6) (s : State) : Host.Outcome State Fault Refusal :=
  done ((fabUse (rpw 0#2 1 (0#1 ++ g ++ 0#1 ++ n) a 0#6 13) (runRegs a n) []).run s (fun s =>
    let s := (runRegs a n).foldl (fun s r => s.modArm r (fun t => { t with st := .unarmed, re := false })) s
    .next (if g == 1#1 then s.advanceGen s.cur else s)))

/-- R166: the capability of the issuing thread for a run, with its rights, sealed. -/
def State.capability (s : State) (a : BitVec 6) (n : BitVec 3) (r : BitVec 2) : Word :=
  let c := w64 (s.selfWord s.th.ctx s.cur * 2 ^ 37 + a.toNat * 2 ^ 31 + n.toNat * 2 ^ 28 + s.th.gen.toNat * 2 ^ 20
    + r.toNat * 2 ^ 18)
  c ||| (s.sealFor s.th.ctx c).setWidth 64

/-- R176 `mint`. -/
def execMint (r : BitVec 2) (n : BitVec 3) (a d : BitVec 6) (s : State) : Host.Outcome State Fault Refusal :=
  done ((fabUse (rpw 0#2 2 (0#1 ++ r ++ n) a d 13) (runRegs a n ++ [d]) []).run s (fun s =>
    match (runRegs a n).find? (fun q => (s.armOf q).st == .unarmed) with
    | some q => .trap tMINT (w64 q.toNat)
    | none => .next (s.setX d (s.capability a n r))))

/-- R173: a send entry is free for the issuing slot. -/
def State.sendRoom (s : State) : Bool :=
  decide (s.me.sendq.length < 16) && decide ((s.me.sendq.filter (fun m => m.from_ == s.cur)).length < 2)

/-- R177, R249, R15: the causes, beside AWAITING and ACK, for which a send is not ready, and the code of the first. -/
def State.sendCauses (s : State) : Option (List Cause × Nat) :=
  match s.sendRoom, s.holding with
  | true, false => none
  | false, h => some (.sendFull :: (if h then [.heldStores] else []), 1)
  | true, true => some ([.heldStores], 3)

/-- R177 `enqueue`. -/
def State.enqueueMsg (s : State) (cap : Word) (i : Nat) (v : Word) (ack : Bool) : State :=
  let m : Msg := { cap := cap, idx := i, value := v, clock := s.th.clock, ack := ack, ctx := s.th.ctx, from_ := s.cur,
                   fromGen := s.th.gen, since := s.cycle, uid := s.th.uid, rels := s.th.fences }
  (s.modMe (fun k => { k with sendq := k.sendq ++ [m] })).owe (.depart (coreOf s.cur))

/-- R177 `snd`. -/
def execSnd (p : Policy) (b a : BitVec 6) (i : BitVec 3) (s : State) : Host.Outcome State Fault Refusal :=
  done (({ fabUse (rpw p.bits 3 b a (0#3 ++ i) 13) [a, b] [a, b] (some p) with after := true } : Use).run s (fun s =>
    let cap := s.xr a
    if i.toNat > capBits cap 28 3 then .trap tINDEX cap
    else match s.sendCauses with
    | some r => .nr r.1 r.2 s
    | none => .next (s.enqueueMsg cap i.toNat (s.xr b) false)))

/-- R177 `snd.a`. -/
def execSndA (p : Policy) (i : BitVec 3) (b a d : BitVec 6) (s : State) : Host.Outcome State Fault Refusal :=
  done (({ fabUse (rpw p.bits (8 + i.toNat) b a d 13) [a, b, d] [a, b] (some p) with after := true } : Use).run s (fun s =>
    let cap := s.xr a
    let l := s.th.sl
    if l.st = .busy then .nr [.ack] 2 s
    else if l.st = .done ∧ l.tag = s.th.pc then
      .next ((s.modTh (fun h => { h with sl := { h.sl with st := .idle } })).setX d (w64 l.code))
    else if i.toNat > capBits cap 28 3 then .trap tINDEX cap
    else match s.sendCauses with
    | some r => .nr r.1 r.2 s
    | none =>
      let n := s.cycle
      let s := s.enqueueMsg cap i.toNat (s.xr b) true
      .nr [.ack] 2 (s.modTh (fun h => { h with sl := { h.sl with st := .busy, tag := h.pc, code := 0, since := n } }))))

/-- R177 `rcv`. -/
def execRcv (p : Policy) (a d : BitVec 6) (s : State) : Host.Outcome State Fault Refusal :=
  done ((fabUse (rpw p.bits 4 0#6 a d 13) [a, d] [a] (some p)).run s (fun s => .next (s.setX d (s.xr a))))

/-- R178 `fabst`, `fabst.clr`. -/
def execFabst (c : BitVec 1) (d : BitVec 6) (s : State) : Host.Outcome State Fault Refusal :=
  done ((fabUse (rpw 0#2 5 0#6 (0#5 ++ c) d 13) [d] []).run s (fun s =>
    let w := w64 s.th.fabricWord
    let s := if c == 1#1 then s.modTh (fun h => { h with owc := 0, last := 0#4 }) else s
    .next (s.setX d w)))

/-! ### Events -/

/-- MESSAGE_DEPARTURE (R169): the oldest message of a core's send queue leaves. -/
def execMessageDeparture (cid : Nat) (s : State) : Host.Outcome State Fault Refusal := done (s.depart cid)

/-- R419: the number that stands for the sender of a message from another device. (Log: DEDUCED 62) -/
def farSid (dev : Nat) : Nat := 2 ^ 20 + dev

/-- R168, R169: a message that a thread of a context on another device of the span has sent arrives here.
(Log: DEDUCED 62; DESIGN CHOICE 69) -/
def State.arriveFar (s : State) (dev : Nat) (m : Msg) : State :=
  s.arrive ((s.physOf m.ctx (capBits m.cap 44 10)).getD 0) { m with from_ := farSid dev, since := s.cycle }

/-- R171: the thread that a message is for, as its identity now names it. -/
def State.targetOf (s : State) (m : Msg) : Option Nat :=
  if m.delivery then some m.tuid
  else (s.vcluster m.ctx (capBits m.cap 44 10)).bind (fun e =>
    s.named m.ctx e (capBits m.cap 41 3) (capBits m.cap 37 4) (BitVec.ofNat 8 (capBits m.cap 20 8)))

/-- R410: the packet by which a job travels: its class, and the clusters that it leaves and is bound for. A memory access
goes to the home of its line, an access to a place to its cluster, a message to the cluster of its identity. -/
def State.wayOf (s : State) (j : Job) : Option (Nat × Nat × Nat) :=
  let home (cid line : Nat) : Option (Nat × Nat × Nat) := some (0, cid / 8, s.homeSlice line)
  match j with
  | .fill cid _ line _ | .renew cid _ line _ | .grant cid _ line | .own cid _ line | .merge cid line | .drain cid line =>
    home cid line
  | .request r => match r.op with
    | .amo _ _ m _ _ => home (coreOf r.who.sid) (m / 64)
    | .ff _ v _ _ _ => (s.physOf r.who.ctx v).map (fun d => (0, clusterOf r.who.sid, d))
    | .raw _ _ v _ _ => (s.physOf r.who.ctx v).map (fun d => (0, clusterOf r.who.sid, d))
    | .inval .. => none
  | .reply m _ cl => if m.from_ ≥ farSid 0 then none else some (1, cl, clusterOf m.from_)
  | .launchReply who _ _ cl => some (1, cl, clusterOf who.sid)
  | .arrive cl m => if m.from_ ≥ farSid 0 then none else some (2, clusterOf m.from_, cl)
  | .launch w => (s.physOf w.ctx (bitsAt w.ox2.toNat 0 10)).map (fun d => (3, clusterOf w.who.sid, d))
  | _ => none

/-- R171: messages of one sending thread to one target thread, by whatever identities and from wherever. -/
def State.sameWay (s : State) (i j : Job) : Bool :=
  (match s.wayOf i with | some w => s.wayOf j == some w | none => false) ||
  (match i, j with
    | .arrive _ m, .arrive _ n => !m.delivery && !n.delivery && m.uid == n.uid && m.from_ < farSid 0 && n.from_ < farSid 0 &&
        (match s.targetOf m with | some u => s.targetOf n == some u | none => false)
    | _, _ => false)

/-- R171, R410: the job that may be performed when the n-th is asked for: of the packets that arrive in the order sent,
the first. -/
def State.firstOfWay (s : State) (n : Nat) : Nat :=
  match s.due[n]? with
  | some j => (firstIdx s.due (fun o => o == j || s.sameWay o j)).getD n
  | none => n

/-- The job that may be performed when the n-th is asked for, and the state in which it is owed no more. -/
def State.takeJob (s : State) (n : Nat) : Option (Job × State) :=
  (s.due[s.firstOfWay n]?).map (fun j => (j, { s with due := s.due.eraseIdx (s.firstOfWay n) }))

/-- FABRIC_MESSAGE_ARRIVAL (R169): the n-th message on its way arrives, but never ahead of an earlier one of its sender to
its target (R171), or, with `far`, one that another device sent. -/
def execFabricMessageArrival (far : Bool) (n dev ctx idx clock : Nat) (cap v : Word) (ack : Bool) (s : State) :
    Host.Outcome State Fault Refusal :=
  if far then
    done (s.arriveFar dev { cap := cap, idx := idx % 8, value := v, clock := clock, ack := ack, ctx := ctx, from_ := 0,
                            fromGen := 0#8, since := 0 })
  else match s.takeJob n with
    | some (.arrive cl m, s') => done (if m.delivery then s else s'.arrive cl m)
    | _ => done s

/-- INBOX_DEFERRED_REPLY (R170): waiting replies take freed inbox entries. -/
def execInboxDeferredReply (cid : Nat) (s : State) : Host.Outcome State Fault Refusal := done (s.modCore cid Core.fillInbox)

/-- R173: an `snd.a` reply reaches its sender; the sender of a message from another device lies there. -/
def State.sendReply (s : State) (m : Msg) (code : Nat) : State :=
  if m.from_ ≥ farSid 0 then s.emit (m.from_ - farSid 0) (leBytes m.cap.toNat 8 ++ leBytes code 1)
  else s.replyTo m.uid { kind := 1, slot := m.from_ % 16, gen := m.fromGen, code := code, since := m.since }

/-- R173: the thread that sent to another device from a slot in a cycle: the one whose send latch stands so. -/
def State.senderOf (s : State) (sid since : Nat) : Nat :=
  let waits (h : Thread) : Bool := h.sl.st == .busy && h.sl.since == since
  let here : List Thread := (s.slots.filter (fun p => p.2.occupied && waits p.2.th)).map (·.2.th)
  let out : List Thread := s.ctxs.flatMap (fun c => (c.2.framesIn.filter (fun f => f.sid == sid && waits f.th)).map (·.th))
  let saved : List Thread := s.saves.flatMap (fun g => (g.slots.filter (fun p =>
    p.2.occupied && 128 * g.phys + p.1 == sid && waits p.2.th)).map (·.2.th))
  let kept : List Thread := ((s.core (coreOf sid)).kept.filter (fun p => p.1 == sid % 16 && waits p.2.th)).map (·.2.th)
  let first : List Thread := if waits (s.thread sid) && (s.slot sid).occupied then [s.thread sid] else []
  match first ++ out ++ kept ++ saved ++ here with
  | h :: _ => h.uid
  | [] => 0

/-- SEND_REPLY (R173): the n-th reply on its way arrives, or, with `far`, the reply of another device to a message that
a thread here sent in a cycle. -/
def execSendReply (far : Bool) (n sid gen since code : Nat) (s : State) : Host.Outcome State Fault Refusal :=
  if far then
    done (s.sendReply { cap := 0#64, idx := 0, value := 0#64, clock := 0, ack := true, ctx := 0, from_ := sid % farSid 0,
                        fromGen := BitVec.ofNat 8 gen, since := since, uid := s.senderOf (sid % farSid 0) since } code)
  else match s.takeJob n with
  | some (.reply m code _, s') => done (s'.sendReply m code)
  | _ => done s

/-- R173: a latch that has stayed BUSY for 65,536 cycles becomes DONE with TIMEOUT. -/
def Thread.sendTimeout (h : Thread) (now : Nat) : Thread :=
  if h.sl.st = .busy ∧ h.sl.since + 65536 ≤ now then { h with sl := { h.sl with st := .done, code := 11 } } else h

/-- SEND_LATCH_TIMEOUT (R173). -/
def execSendLatchTimeout (sid : Nat) (s : State) : Host.Outcome State Fault Refusal :=
  done (s.modThread sid (fun h => h.sendTimeout s.cycle))

/-- PARKED_VALUE_DELIVERY (R264): the n-th delivery on its way reaches its register. -/
def execParkedValueDelivery (n : Nat) (s : State) : Host.Outcome State Fault Refusal :=
  match s.takeJob n with
  | some (.arrive cl m, s') => done (if m.delivery then s'.arrive cl m else s)
  | _ => done s

end Sys2Proof.Machine
end

