-- ==== Sys2Proof/Machine/Barrel.lean ====
section
/-! DEFINITION. Thread control, major 14, and the events of slots: core reset, ends of holds, yields and sleeps, and the
end of a thread (R122 to R144, R382). -/

namespace Sys2Proof.Machine

/-- R139 `yield`. -/
def execYield (n : BitVec 6) (s : State) : Host.Outcome State Fault Refusal :=
  done ((scalarUse [] []).run s (fun s =>
    .next (s.modSlot s.cur (fun sl => { sl with st := .sleep .yield (n.toNat + 1) }))))

/-- R140 `sleep`. -/
def execSleep (n d : BitVec 6) (s : State) : Host.Outcome State Fault Refusal :=
  done (({ scalarUse [] [d] with heavy := true } : Use).run s (fun s =>
    if s.th.wakeLatch then .next ((s.modTh (fun h => { h with wakeLatch := false })).setX d 1#64)
    else .next (s.modSlot s.cur (fun sl => { sl with st := .sleep (.sleep d) (n.toNat + 1) }))))

/-- R140: what a wake does at a slot: it ends a `sleep` at the slot's next offered cycle, or sets the wake latch. -/
def Slot.wake (sl : Slot) : Slot :=
  if !sl.occupied then sl
  else
    let sl := { sl with th := { sl.th with wakeLatch := true } }
    match sl.st with
    | .sleep (.sleep d) _ => { sl with st := .sleep (.sleep d) 0 }
    | _ => sl

/-- R140 `wake`. -/
def execWake (a : BitVec 6) (s : State) : Host.Outcome State Fault Refusal :=
  done (({ scalarUse [a] [] with heavy := true } : Use).run s (fun s =>
    .next (s.modSlot (s.cur - s.cur % 16 + (s.xr a).toNat % 16) Slot.wake)))

/-- R141 `hold`. -/
def execHold (p : Policy) (s : State) : Host.Outcome State Fault Refusal :=
  done (({ scalarUse [] [] with pol := some p } : Use).run s (fun s =>
    if s.th.pendingAny then .nr [.held] 1 s else .next s))

/-- R382: a launch whose last thread has exited is logged FINISHED. -/
def State.launchEnded (s : State) (id : Nat) : State :=
  match s.launches.find? id with
  | none => s
  | some l =>
    let l' := { l with living := l.living - 1 }
    if l'.living = 0 ∧ l'.unplaced = 0 then
      let s := { s with launches := s.launches.drop id }
      if l.host then s.daybook l.ctx 3 l.queue l.cidx 0 l.ref else s
    else { s with launches := s.launches.put id l' }

/-- R402: the forwarding entries of a thread end with it. -/
def State.dropForward (s : State) (uid : Nat) : State :=
  let drop (c : Cluster) : Cluster := { c with fwd := c.fwd.filter (fun f => f.uid != uid) }
  { s with
    clusters := s.clusters.map (fun (p : Nat × Cluster) => (p.1, drop p.2)),
    saves := s.saves.map (fun g => { g with image := drop g.image }) }

/-- R142 steps 2 and 3: the end of the thread of a slot. -/
def State.endThread (s : State) (sid : Nat) : State :=
  let h := s.thread sid
  let s := (s.settle sid).releaseLines sid
  let s := s.dropInbox none sid h.uid
  let s := s.dropForward h.uid
  (s.vacate sid).launchEnded h.launchId

/-- R142 `exit`. -/
def execExit (s : State) : Host.Outcome State Fault Refusal :=
  done (({ scalarUse [] [] with after := true } : Use).run s (fun s =>
    if s.th.pendingAny then .skip s else .own (s.endThread s.cur)))

/-- R143 `selfid`. -/
def execSelfid (d : BitVec 6) (s : State) : Host.Outcome State Fault Refusal :=
  done (({ scalarUse [] [d] with heavy := true } : Use).run s (fun s =>
    .next (s.setX d (w64 (s.selfWord s.th.ctx s.cur)))))

/-- R144 `rdskip`, `rdskip.clr`. -/
def execRdskip (c : BitVec 1) (d : BitVec 6) (s : State) : Host.Outcome State Fault Refusal :=
  done ((scalarUse [] [d]).run s (fun s =>
    let v := s.th.skipCtr
    .next ((if c == 1#1 then s.modTh (fun h => { h with skipCtr := 0#64 }) else s).setX d v)))

/-- R60 the hint space: ready, and no other state; whatever its fields hold, none of them names a register. -/
def execHint (_p : Policy) (_h : BitVec 2) (_b _a _d : BitVec 6) (s : State) : Host.Outcome State Fault Refusal :=
  done (s.advance 4)

/-! ### Events -/

/-- R140, R139: the thread of a slot whose rest has ended returns to RUN; after `sleep`, x[d] tells whether it was
woken. -/
def State.endSleep (s : State) (sid : Nat) : State :=
  match (s.slot sid).st with
  | .sleep .yield _ => s.modSlot sid (fun sl => { sl with st := .run })
  | .sleep (.policy _) _ => s.modSlot sid (fun sl => { sl with st := .run })
  | .sleep (.sleep d) _ =>
    let v := w64 (b2n (s.thread sid).wakeLatch)
    let cur := s.cur
    let s := ({ s with cur := sid } : State).setX d v
    ({ s with cur := cur } : State).modSlot sid (fun sl =>
      { sl with st := .run, th := { sl.th with wakeLatch := false } })
  | _ => s

/-- CORE_RESET (R122, R126, R163): the cycle count restarts; the core-shared registers are 0 and unarmed. -/
def execCoreReset (cid : Nat) (s : State) : Host.Outcome State Fault Refusal :=
  done (s.modCore cid (fun k => { k with
    cycle := 0, start := s.cycle, c := .replicate 32 0#64, carm := .replicate 32 {}, ctime := .replicate 32 0,
    w := .replicate 16 0#512, wtime := .replicate 16 0, wrote := [], disarmed := [] }))

/-- HOLD_SKIP_END (R131): the count is spent, and the thread returns to RUN. (Log: DEDUCED 12) -/
def execHoldSkipEnd (sid : Nat) (s : State) : Host.Outcome State Fault Refusal :=
  done (match (s.slot sid).st with
    | .skip 0 => s.modSlot sid (fun sl => { sl with st := .run })
    | _ => s)

/-- YIELD_END (R139): after its n offered cycles. -/
def execYieldEnd (sid : Nat) (s : State) : Host.Outcome State Fault Refusal :=
  done (match (s.slot sid).st with
    | .sleep .yield 0 => s.endSleep sid
    | _ => s)

/-- SLEEP_TIMEOUT (R140): after n offered cycles, with x[d] := 0 where no wake came. -/
def execSleepTimeout (sid : Nat) (s : State) : Host.Outcome State Fault Refusal :=
  done (match (s.slot sid).st with
    | .sleep (.sleep _) 0 => s.endSleep sid
    | _ => s)

/-- YD_SLEEP_TIMEOUT (R13): after 64 offered cycles. -/
def execYdSleepTimeout (sid : Nat) (s : State) : Host.Outcome State Fault Refusal :=
  done (match (s.slot sid).st with
    | .sleep (.policy _) 0 => s.endSleep sid
    | _ => s)

/-- R122: the device's cycle opens a rotation of a core. -/
def State.atOwn (s : State) (cid : Nat) : Bool := (s.cycle - (s.core cid).start) % 16 == 0

/-- R122: a core has yet to take its cycle of the device's cycle. -/
def State.behind (s : State) (cid : Nat) : Bool := decide ((s.core cid).cycle + (s.core cid).start ≤ s.cycle)

/-- R122: a core stands at the boundary of a rotation. -/
def State.opens (s : State) (cid : Nat) : Bool := s.atOwn cid && s.behind cid

/-- THREAD_EXIT_COMPLETE (R142): an exiting thread's slot becomes FREE at the boundary, with its private state
discarded. -/
def State.freeSlot (s : State) (sid : Nat) : State :=
  if (s.slot sid).dying then
    (if (s.slot sid).left then s
     else s.modCtx (s.thread sid).ctx (fun c => { c with usedSlots := c.usedSlots - 1 })).modSlot sid
      (fun sl => { gen := sl.gen })
  else s

/-- THREAD_EXIT_COMPLETE (R142): see State.freeSlot. -/
def execThreadExitComplete (sid : Nat) (s : State) : Host.Outcome State Fault Refusal :=
  done (if s.opens (coreOf sid) then s.freeSlot sid else s)

end Sys2Proof.Machine
end

