-- ==== Sys2Proof/Machine/Stream.lean ====
section
/-! DEFINITION. Format windows, streams, the coprocessor ring, and the frame that every instruction of majors 16 to 19, 21
and 23 runs in (R128, R131, R180 to R191, R196, R219 to R222, R330). -/

namespace Sys2Proof.Machine

/-! ### Format windows (R220 to R222) -/

/-- R220: the fields of a window register. -/
def winEn (w : Word) : Bool := bitAt w.toNat 31
/-- See winEn. -/
def winFmt (w : Word) : Nat := bitsAt w.toNat 28 3
/-- See winEn. -/
def winRows (w : Word) : Nat := bitsAt w.toNat 11 11
/-- See winEn. -/
def winFirst (w : Word) : Nat := bitsAt w.toNat 0 11

/-- R221: a window that an access decodes by: its format, its first byte, its bytes, and for MK8 those of its data
part. -/
structure Win where
  fmt : Nat
  base : Nat
  size : Nat
  data : Nat
deriving DecidableEq, Repr

/-- R221: the windows by which an access of a cycle decodes: those before any write of that cycle. -/
def Cluster.winsAt (c : Cluster) (now : Nat) : Vector Word 8 :=
  match c.winOld with
  | some (t, w) => if t = now then w else c.win
  | none => c.win

/-- R221, R222: the window of the granule of an offset; none outside every window, and in the scale part of an MK8
window, where an access acts as raw. -/
def windowOf (ws : List Word) (o : Nat) : Option Win :=
  let row := o / 496
  match ws.find? (fun w => winEn w && decide (winFirst w ≤ row) && decide (row < winFirst w + winRows w)) with
  | none => none
  | some w =>
    let n := winRows w
    let data := (n - (n + 32) / 33) * 496
    let base := winFirst w * 496
    if winFmt w = 1 ∧ o - base ≥ data then none
    else some { fmt := winFmt w, base := base, size := n * 496, data := data }

/-- R299, R312: a row of n bytes from an offset lies wholly within its window, and where the window is MK8 its offset lies
in the data part, at a multiple of 32 elements. -/
def Win.holdsRow (w : Win) (o n : Nat) : Bool :=
  decide (o + n ≤ w.base + w.size) && (w.fmt != 1 || (decide (o < w.base + w.data) && (o - w.base) % 32 == 0))

/-- R299, R312: a row that is raw because it starts in the scale part of an MK8 window (R222) passes its window's end. -/
def rawBreaks (ws : List Word) (o n : Nat) : Bool :=
  let row := o / 496
  match ws.find? (fun w => winEn w && decide (winFirst w ≤ row) && decide (row < winFirst w + winRows w)) with
  | none => false
  | some w => decide ((winFirst w + winRows w) * 496 < o + n)

/-- R222: the offset of the scale byte of the element at an offset of an MK8 window. -/
def Win.scaleAt (w : Win) (o : Nat) : Nat := w.base + w.data + (o - w.base) / 32

/-! ### Streams (R186 to R190) -/

/-- R187: the fields of a stream's shape. -/
def Stream.n0 (t : Stream) : Nat := bitsAt t.ctl.toNat 32 32
/-- See Stream.n0. -/
def Stream.n1 (t : Stream) : Nat := bitsAt t.ox0.toNat 0 16
/-- See Stream.n0. -/
def Stream.n2 (t : Stream) : Nat := bitsAt t.ox0.toNat 16 16
/-- See Stream.n0. -/
def Stream.s0 (t : Stream) : Int := sval 16 (bitsAt t.ctl.toNat 16 16)
/-- See Stream.n0. -/
def Stream.ec (t : Stream) : Nat := bitsAt t.ctl.toNat 0 4
/-- See Stream.n0. -/
def Stream.isWrite (t : Stream) : Bool := bitAt t.ctl.toNat 4
/-- See Stream.n0. -/
def Stream.inSp (t : Stream) : Bool := bitAt t.ctl.toNat 5
/-- R186: the length T. -/
def Stream.len (t : Stream) : Nat := t.n0 * t.n1 * t.n2

/-- R188: the element size of a code. -/
def ecSize (ec : Nat) : Nat :=
  match ec with
  | 0 => 4
  | 3 | 4 | 6 => 1
  | _ => 2

/-- R186: the address of element e. -/
def Stream.addr (t : Stream) (e : Nat) : Word :=
  let i0 : Int := (e % t.n0 : Nat)
  let i1 : Int := (e / t.n0 % t.n1 : Nat)
  let i2 : Int := (e / (t.n0 * t.n1) : Nat)
  t.base + BitVec.ofInt 64 (i0 * t.s0 + i1 * t.s1.toInt + i2 * t.s2.toInt)

/-- R188: an element read into a 32-bit lane. -/
def elemIn (ec v : Nat) : Nat :=
  match ec with
  | 1 => ofSval 32 (sval 16 v)
  | 2 => v % 2 ^ 16
  | 3 => ofSval 32 (sval 8 v)
  | 4 => v % 2 ^ 8
  | 5 => bfToFp v
  | 6 => (decodeMk8 v).into fp32 .rne
  | _ => v % 2 ^ 32

/-- R188: a 32-bit lane written as an element, and whether it saturated. -/
def elemOut (ec : Nat) (r : RMode) (v : Nat) : Nat × Bool :=
  match ec with
  | 0 => (v, false)
  | 3 | 4 => (v % 2 ^ 8, false)
  | 5 => ((fp32.decode v).into bf16 r, false)
  | 6 => encodeMk8 (fp32.decode v)
  | _ => (v % 2 ^ 16, false)

/-- R47, R186: the stream that a 5-bit vector field names, if it names one. -/
def Thread.streamOf (h : Thread) (r : BitVec 5) : Option Stream :=
  if 12 ≤ r.toNat ∧ r.toNat < 16 then vrd h.streams (r.toNat - 12) else none

/-- Change the position of a stream. -/
def Thread.setP (h : Thread) (r : BitVec 5) (p : Nat) : Thread :=
  { h with streams := vwr h.streams (r.toNat - 12) ((vrd h.streams (r.toNat - 12)).map (fun t => { t with p := p })) }

/-- Accesses tried one by one without effect: the first trap, else every not-ready cause, else nothing. -/
def accDry {α β : Type} (f : State → α → Acc β) : List α → State → List Cause → Acc Unit
  | [], s, [] => .ok () s
  | [], s, c :: cs => .nr (c :: cs) s
  | a :: r, s, cs =>
    match f s a with
    | .trap c i => .trap c i
    | .failed p va => .failed p va
    | .nr c s' => accDry f r s' (cs ++ c)
    | .ok _ _ => accDry f r s cs

/-- Accesses one after another. -/
def accSeq {α β : Type} (f : State → α → Acc β) : List α → State → Acc (List β)
  | [], s => .ok [] s
  | a :: r, s => (f s a).bind (fun b s => (accSeq f r s).bind (fun bs s => .ok (b :: bs) s))

/-- Accesses that are performed all, or none. -/
def accAll {α β : Type} (f : State → α → Acc β) (l : List α) (s : State) : Acc (List β) :=
  (accDry f l s []).bind (fun _ s => accSeq f l s)

/-- R190: read element e of a stream; the elements of a pop complete together. -/
def State.elemRead (s : State) (t : Stream) (e : Nat) : Acc Nat :=
  let a := t.addr e
  let n := ecSize t.ec
  if t.inSp then
    if a.toNat + n > spLimit then .trap tADDRESS a
    else let r := s.spLoad (clusterOf s.cur) a.toNat n; .ok r.1 r.2
  else s.loadMem a n n false true

/-- R190: write an element of a stream register in ordinary memory: it enters the stream's write buffer, after the combining
entry of its line, which may hold older stores of the thread (R100), has been performed; or, where a fault or another
device holds its page, it goes the way of a weak store. -/
def State.elemPush (s : State) (reg : Nat) (a : Word) (n v : Nat) : Acc Unit :=
  let page := a.toNat / 4096
  if !canonical a then .trap tADDRESS a
  else if a.toNat % n ≠ 0 then .trap tMISALIGNED a
  else if s.denied a.toNat (Kind.ofCode 1) then .trap tACCESS a
  else if s.pending page || s.heldOn page then s.storeWeak a ((leBytes v n).map some) n
  else (s.resolvePage a (Kind.ofCode 1)).bind (fun e s =>
    match s.machineOf (e.sys a.toNat) with
    | none => s.storeWeak a ((leBytes v n).map some) n
    | some m =>
      if s.ownUpdate (m / 64) then s.mergeNr (m / 64)
      else
        let p : Push := { reg := reg, cells := cellsAt m (leBytes v n), rels := s.th.fences }
        let s := s.drainComb (coreOf s.cur) (m / 64)
        .ok () ((s.modTh (fun h => { h with drains := h.drains ++ [p] })).watch a.toNat n false true))

/-- R190: write an element (number and bits) of a stream. -/
def State.elemWrite (s : State) (reg : Nat) (t : Stream) (ev : Nat × Nat) : Acc Unit :=
  let a := t.addr ev.1
  let n := ecSize t.ec
  if t.inSp then
    if a.toNat + n > spLimit then .trap tADDRESS a
    else .ok () (s.spStore (clusterOf s.cur) a.toNat n (cellsAt a.toNat (leBytes ev.2 n)))
  else s.elemPush reg a n ev.2

/-- R190: pushed elements enter the stream's write buffer all, or find no room there. -/
def State.pushAll (s : State) (reg : Nat) (t : Stream) (l : List (Nat × Nat)) : Acc Unit :=
  let used := (s.th.drains.filter (fun d => d.reg == reg)).length
  if !t.inSp && used != 0 && decide (used + l.length > Config.streamRoom) then
    match accDry (fun s e => State.elemWrite s reg t e) l s [] with
    | .ok _ s => .nr [.streamFull reg] (s.owe (.ringDrain s.cur))
    | .nr cs s => .nr (cs ++ [.streamFull reg]) (s.owe (.ringDrain s.cur))
    | a => a
  else (accAll (fun s e => State.elemWrite s reg t e) l s).bind (fun _ s =>
    .ok () (if s.th.drains.isEmpty then s else s.owe (.ringDrain s.cur)))

/-! ### The ring (R128, R184, R329, R330) -/

/-- R128: a write of a register by the current thread: of its issuing instruction (16), or of a held one (its slot). -/
def State.applyW (s : State) (w : RegW) (writer : Nat) : State :=
  match w with
  | .x r v => s.putX r v writer
  | .v r v => s.putV r v writer
  | .k r v => s.setK r v

/-- R128: the register of a write, as the core numbers its shared registers. -/
def RegW.sharedNo : RegW → Option Nat
  | .x r _ => if isC r then some (r.toNat % 32) else none
  | .v r _ => if r.getLsbD 4 then some (32 + r.toNat % 16) else none
  | .k _ _ => none

/-- R128: a write that another of its cycle has taken the register from is counted. -/
def State.countLoss (s : State) : State := s.modMe (fun k => { k with swl := sat64 (k.swl + 1) })

/-- R128: the completion of a held instruction of the current thread, against the other writes of the cycle to the
register: that of the issuing instruction wins, and of two completions that of the lower slot. -/
def State.heldWrite (s : State) (w : RegW) : State :=
  let c := s.cur % 16
  match w.sharedNo.bind (fun n => s.me.wrote.find? (fun p => p.1 == n)) with
  | none => s.applyW w c
  | some p =>
    if p.2 = 17 then s.applyW w c
    else if p.2 < c ∨ p.2 = 16 then s.countLoss
    else (s.applyW w c).countLoss

/-- R128: an arrival has been applied in this cycle to a register that an entry of the ring writes. -/
def State.arrivedAt (s : State) (e : RingEntry) : Bool :=
  e.writes.any (fun w => match w.sharedNo with | some n => s.me.wrote.any (fun p => p.1 == n && p.2 == 17) | none => false)

/-- R115: count saturated elements of the current thread's context. -/
def State.addQsat (s : State) (n : Nat) : State :=
  if n = 0 then s else s.modCtx s.th.ctx (fun c => { c with qsat := c.qsat + w64 n })

/-- R182, R184: all results of an entry are written. -/
def State.retireEntry (s : State) (e : RingEntry) : State := (e.writes.foldl State.heldWrite s).addQsat e.qsat

/-- R185: the store of an entry whose older entries have all retired is performed, if it can be now. -/
def State.retireStore (s : State) (e : RingEntry) : Bool × State :=
  match e.store with
  | some d => s.performLate d
  | none => (true, s)

/-- R131, R184: one offered cycle of the current thread's ring: entries whose results are due are written, at the cycle
that follows the required hold; an entry with a fault retires never, nothing younger than it does, and a store waits
until every older entry has. (Log: DESIGN CHOICE 77) -/
def State.tickRing : State → List RingEntry → Bool → Bool → List RingEntry × State
  | s, [], _, _ => ([], s)
  | s, e :: r, older, bad =>
    if e.retired then let p := s.tickRing r older bad; (e :: p.1, p.2)
    else if e.left ≤ 1 && e.fault.isNone && !bad && !(older && e.store.isSome) then
      match s.retireStore e with
      | (true, s) =>
        let p := (s.retireEntry e).tickRing r older bad
        ({ e with left := 0, retired := true, store := none } :: p.1, p.2)
      | (false, s) =>
        let p := s.tickRing r true bad
        ({ e with left := 0 } :: p.1, p.2)
    else
      let p := s.tickRing r true (bad || e.fault.isSome)
      ({ e with left := e.left - 1 } :: p.1, p.2)

/-- See State.tickRing. -/
def State.tick (s : State) : State :=
  if s.th.inFlight then
    let p := s.tickRing s.th.ring false false
    p.2.modTh (fun h => { h with ring := p.1 })
  else s

/-- R184, R329: the late fault that a thread is ready to report: its oldest unretired entry holds one. -/
def Thread.lateFault (h : Thread) : Option RingEntry :=
  match h.ring.find? (fun e => !e.retired) with
  | some e => if e.fault.isSome && e.left == 0 then some e else none
  | none => none

/-- R184: the pops and pushes of cancelled entries undone, youngest first. -/
def Thread.undoPops (h : Thread) : List RingEntry → Thread
  | [] => h
  | e :: r => e.pops.foldl (fun h p => h.setP (BitVec.ofNat 5 p.1) p.2) (h.undoPops r)

/-- R184, R330: the entry and every younger one is cancelled and moves to the replay list; the issue point becomes
RPC. -/
def Thread.cancelFrom (h : Thread) (e : RingEntry) : Thread :=
  let i := (firstIdx h.ring (fun o => !o.retired && o.seq == e.seq)).getD h.ring.length
  let gone := h.ring.drop i
  let new := gone.map (fun e => { e with writes := [], fault := none, pops := [], store := none })
  { h.undoPops gone with
    ring := h.ring.take i, replay := (if h.cap.isSome then new ++ h.replay else h.replay ++ new).take 16, rpc := h.pc }

/-- R184, R329: deliver the late fault of the current thread. -/
def State.deliverLate (s : State) (e : RingEntry) : State :=
  match e.fault with
  | none => s
  | some (code, info) =>
    let s := s.modTh (fun h => h.cancelFrom e)
    s.deliver s.cur { code := code, info := info, seq := e.seq, org := 1, pc := e.addr, st := s.th.st }

/-- R184: a new entry takes the place of a retired one where the ring holds 16. -/
def ringPut (l : List RingEntry) (e : RingEntry) : List RingEntry :=
  (if l.length < 16 then l else match firstIdx l (·.retired) with | some i => l.eraseIdx i | none => l) ++ [e]

/-! ### The frame of a vector instruction -/

/-- What an instruction of majors 16 to 19, 21 and 23 names: its word, policy, hold and required hold, its vector sources
in the order va, vb, vd, op4, its vector destination, its scalar or mask source, its scalar or mask destination, and whether it
is a vector store. -/
structure VOp where
  word : Nat
  pol : Policy
  hold : BitVec 2
  req : Nat
  srcs : List (BitVec 5) := []
  dst : Option (BitVec 5) := none
  xs : Option (BitVec 5) := none
  ks : Option (BitVec 3) := none
  dx : Option RegN := none
  store : Bool := false
  /-- Its scalar is data, not an address. -/
  plain : Bool := false
  /-- It reads lanes of its destination. -/
  rmw : Bool := false

/-- The operands of a vector instruction at its issue. -/
structure VIn where
  src : List VWord
  en : BitVec 16
  x : Word
  k : BitVec 16 := 0#16
  env : FpEnv
  old : VWord

/-- The result of a vector instruction: a late fault, or lanes of a width, a scalar, a mask, and saturations counted. -/
structure VOut where
  fault : Option (Nat × Word) := none
  w : Nat := 32
  lanes : List Nat := []
  val : Word := 0#64
  mask : BitVec 16 := 0#16
  qsat : Nat := 0
  store : Option LateStore := none
  /-- Its store goes to a page that resides elsewhere or has a fault pending. -/
  away : Bool := false

/-- R189: the register of a stream misuse. -/
def VOp.misuse (o : VOp) (h : Thread) : Option Word :=
  match o.srcs.find? (fun r => match h.streamOf r with | some t => t.isWrite || o.store | none => false) with
  | some r => some (w64 r.toNat)
  | none =>
    match o.dst with
    | some r => match h.streamOf r with
      | some t => if t.isWrite then none else some (w64 r.toNat)
      | none => none
    | none => none

/-- R132, R181: the registers that a vector instruction names, its prefix included, and the scalar that it reads; a
reissue of `cop.replay` has its scalar and masks captured. -/
def VOp.use (o : VOp) (s : State) : Use :=
  let h := s.th
  let live := h.cap.isNone
  let mk : List RegN := match h.prefixLatch with
    | some p => if p.me && live then [.k p.maskReg] else []
    | none => []
  let xs : List (BitVec 6) := if live then (o.xs.map xreg).toList else []
  { word := o.word, size := if h.prefixLatch.isSome then 8 else 4, feat := some fVector,
    names := o.srcs.map .v ++ (o.dst.map RegN.v).toList ++ xs.map .x ++ o.dx.toList ++
      (if live then (o.ks.map RegN.k).toList else []) ++ mk,
    reads := xs, pol := some o.pol, awaitCode := 10, data := if o.plain then xs else [],
    early := fun _ s => match o.misuse s.th with
      | some i => .trap tSTREAM i
      | none => .skip s }

/-- R180, R189: the stream registers that an instruction reads or writes, each once. -/
def VOp.used (o : VOp) (h : Thread) : List (BitVec 5) :=
  ((o.srcs ++ o.dst.toList).foldl (fun l r => if (h.streamOf r).isSome && !l.contains r then l ++ [r] else l) [])

/-- R67, R180: the prefix mask, as it stands or as captured. -/
def State.prefixMask (s : State) : BitVec 16 :=
  match s.th.prefixLatch with
  | some p => if p.me then (match s.th.cap with | some e => e.mask | none => s.kr p.maskReg) else 0xFFFF#16
  | none => 0xFFFF#16

/-- R180: the enabled positions. -/
def VOp.enabled (o : VOp) (s : State) : BitVec 16 :=
  (o.used s.th).foldl (fun m r =>
    match s.th.streamOf r with
    | some t => m &&& BitVec.ofNat 16 (2 ^ min 16 (t.len - t.p) - 1)
    | none => m) s.prefixMask

/-- R190: what the pop of a stream at the pc has read so far, in element order. -/
def Thread.poppedOf (h : Thread) (r : BitVec 5) : List Popped :=
  if h.popped.1 = h.pc then h.popped.2.filter (fun p => p.reg == r.toNat) else []

/-- R190: an element has been read: what reading it leaves with the thread is kept with it. -/
def Thread.popAdd (h old : Thread) (r : BitVec 5) (e v : Nat) : Thread :=
  let p : Popped := { reg := r.toNat, e := e, v := v, rels := h.seen.filter (fun q => !old.seen.contains q),
                      stale := h.stale.filter (fun q => !old.stale.contains q) }
  { h with popped := (h.pc, (if h.popped.1 = h.pc then h.popped.2 else []) ++ [p]) }

/-- R190: read the elements of a stream in element order up to the first that is not present; those left. -/
def State.gather (r : BitVec 5) (t : Stream) : List Nat → State → List Nat × State
  | [], s => ([], s)
  | e :: l, s =>
    match s.elemRead t e with
    | .ok v s' => State.gather r t l (s'.modTh (fun h => h.popAdd s.th r e v))
    | _ => (e :: l, s)

/-- R189, R190: pop a stream: each of its next 16 elements that lies below its length is read, whatever positions are
enabled; a register that is no stream is read as it stands (R130). Elements of ordinary memory that have been read wait for
the others, whose causes are all given, and a trap of one precedes them. (Log: DESIGN CHOICE 82) -/
def State.pop (s : State) (r : BitVec 5) : Acc VWord :=
  match s.th.streamOf r with
  | none => .ok (s.vr r) (s.takeV r)
  | some t =>
    let js := (upTo 16).filter (fun j => decide (t.p + j < t.len))
    let got := if t.inSp then [] else (s.th.poppedOf r).map (·.e)
    let g := State.gather r t ((js.map (t.p + ·)).filter (fun e => !got.contains e)) s
    match accDry (fun s e => State.elemRead s t e) g.1 g.2 [] with
    | .trap c i => .trap c i
    | .failed p va => .failed p va
    | .nr cs s => .nr cs s
    | .ok _ s =>
      .ok (ofLanes 32 ((upTo 16).map (fun j =>
        match (s.th.poppedOf r).reverse.find? (fun p => p.e == t.p + j) with | some p => elemIn t.ec p.v | none => 0))) s

/-- R189, R191, R15: the sources of an instruction, each stream popped once. -/
def State.sources (s : State) : List (BitVec 5) → List (BitVec 5 × VWord) → Acc (List VWord)
  | [], _ => .ok [] s
  | r :: l, got =>
    match got.find? (fun p => p.1 == r) with
    | some p => (s.sources l got).bind (fun vs s => .ok (p.2 :: vs) s)
    | none =>
      let a := s.pop r
      let v := match a with | .ok v _ => v | _ => 0#512
      a.both (fun s => s.sources l ((r, v) :: got)) (fun v vs => v :: vs)

/-- R180: the destination with its disabled lanes merged or zeroed. -/
def mergeLanes (w : Nat) (en : BitVec 16) (z : Bool) (old : VWord) (res : List Nat) : VWord :=
  ofLanes w ((res.zipIdx).map (fun p => if en.getLsbD (p.2 * w / 32) then p.1 else if z then 0 else lane w old p.2))

/-- R180: the mask destination. -/
def mergeMask (en : BitVec 16) (z : Bool) (old res : BitVec 16) : BitVec 16 :=
  (res &&& en) ||| (if z then 0#16 else old &&& ~~~en)

/-- The elements of a push: number and bits, and the saturations. -/
def pushElems (t : Stream) (en : BitVec 16) (r : RMode) (v : VWord) : List (Nat × Nat) × Nat :=
  let l := ((upTo 16).filter (fun j => en.getLsbD j)).map (fun j =>
    let o := elemOut t.ec r (lane 32 v j)
    (t.p + j, o.1, o.2))
  (l.map (fun e => (e.1, e.2.1)), (l.filter (fun e => e.2.2)).length)

/-- R184: the ring entry and the issue of an instruction whose accesses are done. -/
def VOp.issue (o : VOp) (i : VIn) (out : VOut) (qs : Nat) (s : State) : State :=
  let h := s.th
  let z := match h.prefixLatch with | some p => p.z | none => false
  let used := o.used h
  let writes : List RegW :=
    (match o.dst with
      | some d => if (h.streamOf d).isSome then [] else [.v d (mergeLanes out.w i.en z i.old out.lanes)]
      | none => []) ++
    (match o.dx with
      | some (.x r) => [.x r out.val]
      | some (.k r) => [.k r (mergeMask i.en z (s.kr r) out.mask)]
      | _ => [])
  let e : RingEntry := {
    seq := h.nextSeq, word := BitVec.ofNat 32 o.word, pfx := h.prefixLatch,
    addr := h.pc, xa := i.x, ka := i.k, mask := s.prefixMask, store := out.store, left := o.req + 1, writes := writes, fault := out.fault,
    pops := if out.fault.isSome then [] else used.filterMap (fun r => (h.streamOf r).map (fun t => (r.toNat, t.p))),
    qsat := out.qsat + qs }
  let now := o.req == 0 && out.fault.isNone && out.store.isNone && !h.ring.any (fun e => !e.retired && e.fault.isSome)
  let s := if out.fault.isSome then s
    else used.foldl (fun s r => s.modTh (fun h =>
      match h.streamOf r with | some t => h.setP r (t.p + 16) | none => h)) s
  let s := if now then (writes.foldl (fun s w => s.applyW w 16) s).addQsat e.qsat else s
  let s := s.modTh (fun h => { h with
    ring := ringPut h.ring { e with retired := now, left := if now then 0 else e.left }, nextSeq := h.nextSeq + 1#8 })
  if o.hold = 0#2 then s else s.modSlot s.cur (fun sl => { sl with st := .skip o.hold.toNat })

/-- R98, R190, R253: the codes of the causes of a vector instruction. -/
def vecCode (c : Cause) : Nat := match c with | .streamFull _ => Config.streamFullCode | c => c.memCode

/-- R185: whether an older ring entry of the current thread will report a late fault. -/
def State.olderFault (s : State) : Bool := s.th.ring.any (fun e => !e.retired && e.fault.isSome)

/-- R190, R134, R432: the elements that the pops of an instruction have read complete ready together: the thread keeps what
reading them leaves, each has been an access, and the slot's holds on their lines end. -/
def State.popDone (s : State) (p : Popped) : State :=
  match s.th.streamOf (BitVec.ofNat 5 p.reg) with
  | none => s
  | some t =>
    if t.inSp then s
    else
      let va := (t.addr p.e).toNat
      let s := s.modTh (fun h => { h with
        seen := seeRels h.seen p.rels, stale := p.stale ++ h.stale.filter (fun q => !(p.stale.map (·.1)).contains q.1) })
      let s := match s.xlate (coreOf s.cur) s.th.ctx va (Kind.ofCode 0) with
        | some e => s.releaseHold (coreOf s.cur) (s.cur % 16) ((s.machineOf (e.sys va)).getD (e.sys va) / 64)
        | none => s
      s.watch va (ecSize t.ec) true false

/-- See State.popDone. -/
def State.popsDone (s : State) : State :=
  if s.th.popped.1 = s.th.pc && !s.th.popped.2.isEmpty then
    (s.th.popped.2.foldl State.popDone s).modTh (fun h => { h with popped := (0#64, []) })
  else s

/-- R185: a vector instruction that must follow the thread's vector stores that still wait: it loads, pops or pushes, or
stores where nothing waits with it. -/
def VOp.follows (o : VOp) (h : Thread) (out : VOut) : Bool :=
  !(o.used h).isEmpty || (o.xs.isSome && !o.plain && !o.store) || out.away

/-- R185: what is left of a vector store whose access has gone through, `s2` being the state after it and `s1` that before:
nothing, where an older entry will cancel it; a store that waits, where older entries have yet to retire; else the
store. -/
def VOp.stored (o : VOp) (out : VOut) (s1 s2 : State) : VOut × State :=
  if !o.store then (out, s2)
  else if s1.olderFault then ({ out with store := none }, s1)
  else if s1.th.inFlight && out.store.isSome then (out, s1)
  else ({ out with store := none }, s2)

/-- R130, R180: the old value that the destination of an instruction merges, as it is read. -/
def VOp.takeOld (o : VOp) (en : BitVec 16) (s : State) : State :=
  match o.dst with
  | some d =>
    if !o.rmw && (en = 0xFFFF#16 || (match s.th.prefixLatch with | some p => p.z | none => false)) then s else s.takeV d
  | none => s

/-- R180 to R190: the effect of a vector instruction; `f` computes its result, and for a memory form performs its access.
A store or push that is younger than a faulting entry is not performed: it will be cancelled (R184, R185); what must follow
a store that waits, and a store to a page elsewhere or with a fault pending, waits with it. (Log: DESIGN CHOICE 76) -/
def VOp.body (o : VOp) (f : VIn → State → Acc VOut) (s : State) : Res :=
  let h := s.th
  let s0 := s
  if (h.ring.filter (fun e => !e.retired)).length ≥ 16 then .skip s
  else match o.misuse h with
    | some r => .trap tSTREAM r
    | none =>
      let en := o.enabled s
      let env := fpEnv h.st (match h.prefixLatch with | some p => p.rm.toNat | none => 7)
      let x := match h.cap, o.xs with
        | some e, _ => e.xa
        | none, some r => s.xr (xreg r)
        | none, none => 0#64
      let k := match h.cap, o.ks with
        | some e, _ => e.ka
        | none, some r => s.kr r
        | none, none => 0#16
      let old := match o.dst with | some d => if (h.streamOf d).isSome then 0#512 else s.vr d | none => 0#512
      let tgt : Option (BitVec 5 × Stream) := o.dst.bind (fun d => (h.streamOf d).map (fun t => (d, t)))
      let dry (s : State) : Acc Unit := match tgt with
        | none => .ok () s
        | some t => match s.pushAll t.1.toNat t.2 (pushElems t.2 en env.mode 0#512).1 with
          | .ok _ _ => .ok () s
          | a => a
      let eff (vs : List VWord) (s1 : State) : Acc (VIn × VOut × Nat) :=
        let i : VIn := { src := vs, en := en, x := x, k := k, env := env, old := old }
        ((f i s1).both dry (fun out _ => out)).bind (fun out s2 =>
          let p := o.stored out s1 s2
          match tgt with
          | none => .ok (i, p.1, 0) p.2
          | some t =>
            let es := pushElems t.2 en env.mode (ofLanes out.w out.lanes)
            if out.fault.isSome || s.olderFault then .ok (i, p.1, es.2) p.2
            else (p.2.pushAll t.1.toNat t.2 es.1).bind (fun _ s => .ok (i, p.1, es.2) s))
      (match s.sources o.srcs [] with
        | .nr cs s1 => (Acc.nr cs s1 : Acc (VIn × VOut × Nat)).both dry (fun v _ => v)
        | src => src.bind eff).res vecCode
        (fun r s =>
          if (o.follows h r.2.1 && h.lateWaits) || (r.2.1.away && h.inFlight && !s0.olderFault) then .stall s0
          else .next (o.issue r.1 r.2.1 r.2.2 (o.takeOld en s.popsDone)))

/-- A vector instruction: the checks that every instruction makes, its effect, and the end of its prefix (R66). -/
def VOp.run (o : VOp) (s : State) (f : VIn → State → Acc VOut) : Host.Outcome State Fault Refusal :=
  .next (((o.use s).run s (o.body f)).modTh (fun h => { h with prefixLatch := none }))

end Sys2Proof.Machine
end

