-- ==== Sys2Proof/Machine/Engines.lean ====
section
/-! DEFINITION. What the three engines share: queues and their full rings, completion barriers and major 27, engine
accesses to memory, and errors (R273 to R284). -/

namespace Sys2Proof.Machine

/-! ### Queues (R273 to R275) -/

/-- R275: a refused issuer comes back only for the same enqueue at the same pc. -/
def Refused.same (a b : Refused) : Bool := a == b

/-- R275: the queue has an entry for an issuer. -/
def QueueCtl.admits (c : QueueCtl) (len : Nat) (w : Refused) : Bool :=
  decide (len < 32) && (c.resv.any (fun r => r.1.same w) || decide (c.resv.length < 32 - len))

/-- R274: an entry that an issuer of a higher core has entered in the same cycle. -/
def laterThan (now : Nat) (w : Issuer) (at_ : Nat) (o : Issuer) : Bool := at_ == now && decide (coreOf w.sid < coreOf o.sid)

/-- A list with an element before those at its end that satisfy a test. -/
def putBefore {α : Type} (p : α → Bool) (l : List α) (e : α) : List α :=
  (l.reverse.dropWhile p).reverse ++ e :: (l.reverse.takeWhile p).reverse

/-- R275: an issuer is refused, and recorded once in the ring of 16. -/
def QueueCtl.refuse (c : QueueCtl) (w : Refused) : QueueCtl :=
  if c.ring.any (fun r => r.sid == w.sid && r.gen == w.gen) then c
  else if c.ring.length < 16 then { c with ring := c.ring ++ [w] } else c

/-- R275: an issuer has its entry; an enqueue at another address than the refused one leaves the refusal as it stands. -/
def QueueCtl.enter (c : QueueCtl) (w : Refused) : QueueCtl :=
  { ring := c.ring.filter (fun r => !r.same w), resv := c.resv.filter (fun r => !r.1.same w) }

/-- R275: an entry is freed: it is reserved for the oldest refused issuer without a reservation. -/
def QueueCtl.freed (c : QueueCtl) (now : Nat) : QueueCtl :=
  match c.ring.find? (fun r => !c.resv.any (fun v => v.1.same r)) with
  | some r => { c with resv := c.resv ++ [(r, now + 32)] }
  | none => c

/-- R275: as many entries are freed as a queue has lost. -/
def QueueCtl.freedBy (c : QueueCtl) (now before after : Nat) : QueueCtl :=
  (upTo (before - after)).foldl (fun c _ => c.freed now) c

/-- R275, R286: the entries that queues of a cluster have lost since `old` are freed. -/
def Cluster.freedSince (k old : Cluster) (now : Nat) : Cluster :=
  { k with
    copyCtl := Vector.ofFn (fun n : Fin 8 =>
      (vrd k.copyCtl n.val).freedBy now (vrd old.copyq n.val).length (vrd k.copyq n.val).length),
    tileCtl := k.tileCtl.freedBy now old.tileq.length k.tileq.length }

/-- The same of the collective queues of a field. -/
def Field.freedSince (k old : Field) (now : Nat) : Field :=
  { k with collCtl := Vector.ofFn (fun n : Fin 4 =>
      (vrd k.collCtl n.val).freedBy now (vrd old.collq n.val).length (vrd k.collq n.val).length) }

/-- R275: reservations that have run out pass to the next issuers. -/
def QueueCtl.expire (c : QueueCtl) (now : Nat) : QueueCtl :=
  let out := c.resv.filter (fun v => v.2 ≤ now)
  let c : QueueCtl := { ring := c.ring.filter (fun r => !out.any (fun v => v.1.same r)),
                        resv := c.resv.filter (fun v => now < v.2) }
  out.foldl (fun c _ => c.freed now) c

/-- R273: a queue: of the copy engine of a cluster, of its sequencer, or of the collective engine of a field. -/
inductive QueueId where
  | copy (cl q : Nat)
  | tile (cl : Nat)
  | coll (field q : Nat)
deriving DecidableEq, Repr

/-- The entries in a queue. -/
def State.queueLen (s : State) : QueueId → Nat
  | .copy cl q => (vrd (s.cluster cl).copyq q).length
  | .tile cl => (s.cluster cl).tileq.length
  | .coll f q => (vrd (s.field f).collq q).length

/-- The ring of refused issuers of a queue. -/
def State.queueCtl (s : State) : QueueId → QueueCtl
  | .copy cl q => vrd (s.cluster cl).copyCtl q
  | .tile cl => (s.cluster cl).tileCtl
  | .coll f q => vrd (s.field f).collCtl q

/-- Change it. -/
def State.modQueueCtl (s : State) (i : QueueId) (g : QueueCtl → QueueCtl) : State :=
  match i with
  | .copy cl q => s.modCluster cl (fun c => { c with copyCtl := vwr c.copyCtl q (g (vrd c.copyCtl q)) })
  | .tile cl => s.modCluster cl (fun c => { c with tileCtl := g c.tileCtl })
  | .coll f q => s.modField f (fun c => { c with collCtl := vwr c.collCtl q (g (vrd c.collCtl q)) })

/-- The current thread's enqueue as an issuer. -/
def State.refusedMe (s : State) : Refused := ⟨s.cur, s.th.gen, s.th.pc⟩

/-- R275: the engine number that a QUEUE_FULL cause names. -/
def QueueId.cause : QueueId → Cause
  | .copy cl q => .queueFull 0 (8 * cl + q)
  | .tile cl => .queueFull 1 cl
  | .coll f q => .queueFull 2 (4 * f + q)

/-- R295, R310: the causes of an enqueue that lie in its own earlier accesses, in their order. -/
def State.enqueueCauses (s : State) : List Cause :=
  (if s.holding then [.heldStores] else []) ++ (if s.unordered 4 then [.order 4] else [])

/-- R295, R310: the last steps of an enqueue; `base` is the code of FAULT_PENDING, and `full` that of QUEUE_FULL. An issuer
is refused for want of an entry where nothing else keeps it (R275). -/
def State.enqueue (s : State) (i : QueueId) (base full : Nat) (put : Nat → State → State) : Res :=
  let w := s.refusedMe
  let free := (s.queueCtl i).admits (s.queueLen i) w
  match s.enqueueCauses with
  | c :: cs => .nr (c :: cs ++ (if free then [] else [i.cause])) (if s.holding then base else base + 1) s.oweOrder
  | [] =>
    if free then
      let n := s.nextEntry
      .next (put n (({ s with nextEntry := n + 1 } : State).modQueueCtl i (fun c => c.enter w)))
    else .nr [i.cause] full (s.modQueueCtl i (fun c => c.refuse w))

/-- R275: the entry at the head of a queue is performed and freed. -/
def State.entryFreed (s : State) (i : QueueId) : State :=
  let now := s.cycle
  s.modQueueCtl i (fun c => c.freed now)

/-- The queues by number: kind 0 copy, 1 sequencer, 2 collective. -/
def queueOf (kind i q : Nat) : QueueId :=
  match kind with
  | 0 => .copy i q
  | 1 => .tile i
  | _ => .coll i q

/-- QUEUE_RESERVATION_EXPIRY (R275). -/
def execQueueReservationExpiry (kind i q : Nat) (s : State) : Host.Outcome State Fault Refusal :=
  let now := s.cycle
  done (s.modQueueCtl (queueOf kind i q) (fun c => c.expire now))

/-! ### Completion barriers (R278 to R281) -/

/-- R294: the barrier word. -/
def barEnabled (w : BitVec 32) : Bool := w.getLsbD 31
/-- See barEnabled. -/
def barGranule (w : BitVec 32) : Nat := bitsAt w.toNat 0 16
/-- R296: a barrier word that breaks its rules. (Log: DEDUCED 35) -/
def barBad (w : BitVec 32) : Bool := barEnabled w && (bitsAt w.toNat 16 15 != 0 || barGranule w > 51199)

/-- R279: the control doubleword and FINFO after one arrival; EXP is not 0. -/
def arriveWord (ctl fin : Nat) (err : Option (Nat × Nat)) (ck : Bool) : Nat × Nat :=
  let exp := bitsAt ctl 0 16
  let arr := bitsAt ctl 16 16 + 1
  let phn := bitsAt ctl 32 7
  let code := bitsAt ctl 40 8
  let first := match err with | some e => if code = 0 then some e else none | none => none
  let code := match first with | some e => e.1 | none => code
  let fin := match first with | some e => e.2 | none => fin
  let pe := bitAt ctl 49 || err.isSome
  let pc := bitAt ctl 50 || ck
  if arr ≥ exp then
    (exp + (phn + 1) % 128 * 2 ^ 32 + b2n pe * 2 ^ 39 + code * 2 ^ 40 + b2n pc * 2 ^ 48, fin)
  else
    (exp + arr * 2 ^ 16 + phn * 2 ^ 32 + b2n (bitAt ctl 39) * 2 ^ 39 + code * 2 ^ 40 + b2n (bitAt ctl 48) * 2 ^ 48
      + b2n pe * 2 ^ 49 + b2n pc * 2 ^ 50, fin)

/-- Write the doublewords of a granule of a cluster's scratchpad, at a logical time above `clock`, with the releases that
it carries from then on (R240). -/
def State.putGranule (s : State) (cl g : Nat) (lo hi clock : Nat) (rels : List Rel) : State :=
  (s.clearEcc [.sp cl g]).modCluster cl (fun c => { c with
    scratch := Memory.putNat (Memory.putNat c.scratch (16 * g) 8 lo) (16 * g + 8) 8 hi,
    grels := putRels c.grels [g] rels,
    gtime := c.gtime.put g (max clock (c.gtime.get 0 g) + 1) })

/-- R240: releases with further ones, which take the place of those of the same issuer that they include. -/
def mergeRels (l new : List Rel) : List Rel :=
  new.foldl (fun l r => r :: l.filter (fun q =>
    !(q.scope == r.scope && q.cid == r.cid && q.ctx == r.ctx && q.entry == r.entry && decide (q.upto ≤ r.upto)))) l

/-- R246, R317: the release, of scope `device`, that an engine of a cluster makes of what it has done. -/
def State.engineRel (s : State) (cl : Nat) : List Rel := [{ upto := s.performed, scope := 4, cid := 8 * cl, ctx := 0 }]

/-- R279: an arrival at a granule; the granule carries the releases of all its arrivals (R246). -/
def State.cbArrive (s : State) (cl g : Nat) (err : Option (Nat × Nat)) (ck : Bool) (clock : Nat) (rels : List Rel := []) :
    State :=
  let ctl := Memory.nat (s.cluster cl).scratch (16 * g) 8
  if bitsAt ctl 0 16 = 0 then
    s.modCluster cl (fun c => { c with cbx := if c.cbx = BitVec.allOnes 32 then c.cbx else c.cbx + 1#32 })
  else
    let r := arriveWord ctl (Memory.nat (s.cluster cl).scratch (16 * g + 8) 8) err ck
    s.putGranule cl g r.1 r.2 clock (mergeRels ((s.cluster cl).grels.get [] g) rels)

/-- R280, R324: the end of an entry of a context at its barrier, if it names one, of which the granule is read first
(R217); `ck` after a second checksum mismatch. -/
def State.entryArrives (s : State) (a cl : Nat) (bar : BitVec 32) (err : Option (Nat × Nat)) (ck : Bool := false) : State :=
  if barEnabled bar then
    let g := barGranule bar
    (s.readUnits [.sp cl g] a (16 * g) true).cbArrive cl g err ck 0 (s.engineRel cl)
  else s

/-! ### Completion barrier instructions (R282, R283) -/

/-- The frame of a major-27 instruction. -/
def cbUse (word : Nat) (names reads : List (BitVec 6)) (p : Policy) : Use :=
  { word := word, names := names.map .x, reads := reads, pol := some p, awaitCode := 1, after := true }

/-- R283: the check of a barrier offset. -/
def cbCheck (o : Word) (f : Nat → Res) : Res :=
  if o.toNat ≥ spLimit then .trap tADDRESS o
  else if o.toNat % 16 ≠ 0 then .trap tMISALIGNED o
  else f (o.toNat / 16)

/-- R283: the control doubleword of a granule. -/
def State.cbWord (s : State) (g : Nat) : Nat := Memory.nat s.mine.scratch (16 * g) 8

/-- R217, R283: a granule is about to be read by the current thread. -/
def State.cbRead (s : State) (g : Nat) : State :=
  s.readUnits [.sp (clusterOf s.cur) g] s.th.ctx (16 * g) false

/-- The current thread's write to a granule is strong: its clock passes the granule's time. -/
def State.afterGranule (s : State) (g : Nat) : State := s.joinClock (s.mine.gtime.get 0 g)

/-- R282: the count of a barrier. -/
def countCheck (v : Word) (f : Nat → Res) : Res :=
  if v.toNat = 0 ∨ v.toNat > 65535 then .trap tDESC v else f v.toNat

/-- R283 `cb.init`. -/
def execCbInit (p : Policy) (b a : BitVec 6) (s : State) : Host.Outcome State Fault Refusal :=
  let early (rs : List (BitVec 6)) (s : State) : Res :=
    cbCheck (if rs.contains a then 0#64 else s.xr a) (fun _ =>
      countCheck (if rs.contains b then 1#64 else s.xr b) (fun _ => .skip s))
  done (({ (cbUse (rpw p.bits 0 b a 0#6 27) [a, b] [a, b] p) with early := early } : Use).run s (fun s =>
    cbCheck (s.xr a) (fun g => countCheck (s.xr b) (fun n =>
      .next ((s.putGranule (clusterOf s.cur) g n 0 s.th.clock s.th.fences).afterGranule g)))))

/-- R283 `cb.arr`. -/
def execCbArr (p : Policy) (a d : BitVec 6) (s : State) : Host.Outcome State Fault Refusal :=
  done ((cbUse (rpw p.bits 1 0#6 a d 27) [a, d] [a] p).run s (fun s =>
    cbCheck (s.xr a) (fun g =>
      match s.fence 4 with
      | .nr cs s => .nr cs (if s.holding then 2 else 3) s
      | .ok _ s =>
        let s := s.cbRead g
        let ph := bitsAt (s.cbWord g) 32 8
        .next (((s.cbArrive (clusterOf s.cur) g none false s.th.clock s.th.fences).afterGranule g).setX d (w64 ph))
      | .trap c i => .trap c i
      | .failed _ va => .trap tFAILED va)))

/-- R283 `cb.wt`. -/
def execCbWt (p : Policy) (b a d : BitVec 6) (s : State) : Host.Outcome State Fault Refusal :=
  done (((cbUse (rpw p.bits 2 b a d 27) [a, b, d] [a, b] p).carries a [b]).run s (fun s =>
    cbCheck (s.xr a) (fun g =>
      let s := s.cbRead g
      let phn := (s.xr b).toNat % 128
      if bitsAt (s.cbWord g) 32 7 = phn then .nr [.phase g phn] 4 s
      else
        let v := s.cbWord g
        .next (((s.joinBank s.mine.gtime s.mine.grels [g]).acquireAll s.cur).setX d (w64 v)))))

/-- R283 `cb.clr`. -/
def execCbClr (p : Policy) (a : BitVec 6) (s : State) : Host.Outcome State Fault Refusal :=
  done ((cbUse (rpw p.bits 3 0#6 a 0#6 27) [a] [a] p).run s (fun s =>
    cbCheck (s.xr a) (fun g =>
      let s := s.cbRead g
      let v := s.cbWord g
      .next ((s.putGranule (clusterOf s.cur) g (v - bitsAt v 40 8 * 2 ^ 40) 0 s.th.clock
        (mergeRels (s.mine.grels.get [] g) s.th.fences)).afterGranule g))))

/-! ### Engine accesses to virtual memory (R280, R315) -/

/-- How the mapping of a range for an engine ends: pieces of system addresses and lengths, a wait, or an error with its
FINFO. -/
inductive EngR where
  | ok (l : List (Nat × Nat)) (s : State)
  | wait (page : Nat) (s : State)
  | err (code info : Nat) (s : State)

/-- The pieces of a range of n bytes, page by page. -/
def pagePieces (va n : Nat) : List (Nat × Nat) :=
  if n = 0 then []
  else (upTo ((va + n - 1) / 4096 - va / 4096 + 1)).map (fun i =>
    let lo := max va ((va / 4096 + i) * 4096)
    (lo, min (va + n) ((va / 4096 + i + 1) * 4096) - lo))

/-- The lines that n bytes from a machine address touch. -/
def linesOf (m n : Nat) : List Nat := if n = 0 then [] else (upTo ((m + n - 1) / 64 - m / 64 + 1)).map (fun i => m / 64 + i)

/-- R356: the entry of its cluster's TLB by which an engine reaches an address for a context. -/
def State.engEntry (s : State) (cl a va : Nat) (k : Kind) : Option TlbEntry :=
  s.tlbFind (s.cluster cl).tlb a (va / 4096) k

/-- R315: the first address of pieces that a translation there is does not permit. -/
def State.engNoAccess (s : State) (cl a : Nat) (k : Kind) (l : List (Nat × Nat)) : Option Nat :=
  (l.find? (fun p => match s.engEntry cl a p.1 k with
    | some e => !e.grants k
    | none => match s.translateFor cl false a p.1 k with
      | .ok w _ => (k.r && !w.r) || (k.w && !w.w)
      | .fault .. => false)).map (·.1)

/-- R315: the errors of the two endpoints of an access, in their order: ACCESS for the source and the destination, then a
fault on a page of either that ended in failure. -/
def State.engErr (s : State) (cl a : Nat) (failed : Option Nat) (src dst : List (Nat × Nat)) : Option (Nat × Nat) :=
  match s.engNoAccess cl a ⟨true, false, false⟩ src, s.engNoAccess cl a ⟨false, true, false⟩ dst with
  | some va, _ => some (3, va)
  | none, some va => some (3, va)
  | none, none => ((src ++ dst).find? (fun p => failed == some (p.1 / 4096))).map (fun p => (4, p.1))

/-- R315, R356: the translation of one piece after another: by its cluster's TLB, or by a walk of its scrivener, which
fills that TLB. A fault is recorded and waited for. -/
def State.engMap (s : State) (cl : Nat) (who : Issuer) (k : Kind) : List (Nat × Nat) → EngR
  | [] => .ok [] s
  | (va, n) :: r =>
    let page := va / 4096
    let next (ok : Bool) (sys : Nat) (s : State) : EngR :=
      if !ok then .err 3 va s
      else match s.engMap cl who k r with
        | .ok l s => .ok ((sys, n) :: l) s
        | .wait p s => .wait p s
        | .err c i s => .err c i s
    if s.faultPending cl who.ctx page then .wait page (s.joinFault cl who.ctx va k true who)
    else match s.engEntry cl who.ctx va k with
      | some e => next (e.grants k) (e.sys va) s
      | none => match s.translateFor cl true who.ctx va k with
        | .fault c l p k' s => .wait page (s.recordFault cl c l p k' k true who who.ctx page)
        | .ok w s =>
          let e := s.tlbEntry who.ctx va w
          next (!(k.r && !w.r) && !(k.w && !w.w)) w.addr
            (s.modCluster cl (fun c => { c with tlb := tlbPut 2048 0 c.tlb e }))

/-- Bytes that an engine reads for a context, from its address `va` on (R417, R426). Memory of another device gives free
values: its owner answers. (Log: DESIGN CHOICE 4) -/
def State.engRead (s : State) (a va : Nat) : List (Nat × Nat) → List Byte × State
  | [] => ([], s)
  | (sys, n) :: r =>
    match s.machineOf sys with
    | some m =>
      let s := (linesOf m n).foldl (fun (s : State) line =>
        ((s.mergeAll line).lookup a line).readLine line a va true) s
      let q := s.engRead a (va + n) r
      (Memory.bytes s.mem m n ++ q.1, q.2)
    | none =>
      let f := s.freeCtr
      let q := ({ s with freeCtr := f + n } : State).engRead a (va + n) r
      ((upTo n).map (fun i => Config.freeByte (f + i)) ++ q.1, q.2)

/-- Bytes that an engine writes for a context: at their homes, or to the owner of memory elsewhere. -/
def State.engWrite (s : State) (a : Nat) : List (Nat × Nat) → List Byte → State
  | [], _ => s
  | (sys, n) :: r, bs =>
    let here := bs.take n
    let s := match s.machineOf sys with
      | some m => (linesOf m n).foldl (fun (s : State) line =>
          let cells := (cellsAt m here).filter (fun (c : Host.Cell) => c.1 / 64 == line)
          if cells.isEmpty then s else (s.lookup a line).performWrite line cells 0 none) s
      | none => s.emit (ownerOf sys) (leBytes sys 8 ++ here)
    s.engWrite a r (bs.drop n)

/-- R223, R317: set a granule full in the step that wrote it, and serve its waiters. -/
def State.setFull (s : State) (cl g : Nat) : State :=
  (s.modCluster cl (fun c => { c with fe := if c.fe.contains g then c.fe else g :: c.fe })).serve cl g

/-- Bytes grouped as n-byte numbers. -/
def wordsOf (n : Nat) : Nat → List Byte → List Nat
  | 0, _ => []
  | k + 1, l => leNat (l.take n) :: wordsOf n k (l.drop n)

end Sys2Proof.Machine
end

