-- ==== Sys2Proof/Machine/Matrix.lean ====
section
/-! DEFINITION. The matrix sequencer: tiles, shapes, the lease, and the instructions and steps of major 24 (R285, R287 to
R306). -/

namespace Sys2Proof.Machine

/-! ### Shapes (R288) -/

/-- R288: the fields of a shape word. -/
def tshRows (w : Word) : Nat := bitsAt w.toNat 0 7
/-- See tshRows. -/
def tshCols (w : Word) : Nat := bitsAt w.toNat 8 7
/-- See tshRows. -/
def tshFmt (w : Word) : Nat := bitsAt w.toNat 16 3

/-- R288: a word that is valid for a tile. -/
def tshValid (t : Nat) (w : Word) : Bool :=
  let f := tshFmt w
  let r := tshRows w
  let c := tshCols w
  w &&& ~~~0x77F7F#64 == 0#64 &&
    (if f = 0 then r == 0 && c == 0
     else (if t < 16 then f == 1 || f == 2 || f == 3 else f == 5 || f == 6) &&
       decide (1 ≤ r) && decide (r ≤ 64) && decide (1 ≤ c) && decide (c ≤ if f = 3 then 32 else 64))

/-- The tile with an id. -/
def Cluster.tile (c : Cluster) (t : Nat) : Tile := vrd c.tiles t

/-- Change a tile of a cluster. -/
def State.modTile (s : State) (cl t : Nat) (f : Tile → Tile) : State :=
  s.modCluster cl (fun c => { c with tiles := vwr c.tiles t (f (vrd c.tiles t)) })

/-- R287: byte c of a row of an operand tile. -/
def Tile.byte (t : Tile) (r c : Nat) : Nat := bitsAt (t.rows.get 0 r) (8 * c) 8

/-- R287: element c of row r of a BF16 operand. -/
def Tile.half (t : Tile) (r c : Nat) : Nat := bitsAt (t.rows.get 0 r) (16 * c) 16

/-- R287: the scale byte of block n of a row. -/
def Tile.scaleByte (t : Tile) (r n : Nat) : Nat := t.scale.get 127 (2 * r + n)

/-- R287: element (i, j) of an accumulator. -/
def Tile.acc (t : Tile) (i j : Nat) : Nat := t.rows.get 0 (64 * i + j)

/-- Set an element of an accumulator. -/
def Tile.setAcc (t : Tile) (i j v : Nat) : Tile := { t with rows := t.rows.put (64 * i + j) v }

/-- Set both scale bytes of a row. -/
def Tile.setScales (t : Tile) (r s0 s1 : Nat) : Tile := { t with scale := (t.scale.put (2 * r) s0).put (2 * r + 1) s1 }

/-! ### The lease (R290 to R292, R297) -/

/-- Change the lease of a cluster. -/
def State.modLease (s : State) (cl : Nat) (f : Lease → Lease) : State :=
  s.modCluster cl (fun c => { c with lease := f c.lease })

/-- R295, R297: the current thread's core holds the lease and is not releasing it. -/
def State.holdsLease (s : State) : Bool :=
  s.mine.lease.holder == some (coreOf s.cur % 8) && !s.mine.lease.released

/-- R290: set the request bit of the current thread's core. -/
def State.requestLease (s : State) : State :=
  let c := coreOf s.cur % 8
  s.modLease (clusterOf s.cur) (fun l => { l with reqs := if l.reqs.contains c then l.reqs else c :: l.reqs })

/-- R290: the next holder: the first requesting core after the last one, with wrap-around. -/
def Lease.next (l : Lease) : Option Nat :=
  ((upTo 8).map (fun i => (l.lastHolder + 1 + i) % 8)).find? (fun c => l.reqs.contains c)

/-- R285: the register SQP of a cluster, at a cycle. -/
def Cluster.sqp (k : Cluster) (now : Nat) : Nat :=
  if k.lease.holder.isNone then 0
  else
    let p : Nat × Nat × Nat := match k.tileq with
      | e :: _ => if e.shapes.isSome then (1, e.step, e.nstep) else (0, 0, 0)
      | [] => (0, 0, 0)
    p.2.2 % 2 ^ 16 + p.2.1 % 2 ^ 16 * 2 ^ 16 + min (now - k.lease.since) 8192 * 2 ^ 32 + k.lease.cmds % 64 * 2 ^ 46 + p.1 * 2 ^ 63

/-- R392: a saved entry in 24 bytes: its barrier word, minor and tile ids, offset, and pitch, shape or trial scale. The
spec gives the place of the entries and not their bits. (Log: DESIGN CHOICE 45) -/
def TileEntry.image (e : TileEntry) : Nat :=
  let q (minor t u : Nat) (o w : Word) : Nat :=
    e.bar.toNat + (minor + t * 2 ^ 8 + u * 2 ^ 16 + b2n e.ck * 2 ^ 24) * 2 ^ 32 + o.toNat * 2 ^ 64 + w.toNat * 2 ^ 128
  match e.cmd with
  | .tsh t w => q 2 t 0 0#64 w
  | .tld t o w => q 4 t 0 o w
  | .tst t o w => q 5 t 0 o w
  | .tzero t => q 6 t 0 0#64 0#64
  | .mma f z c a b => q 7 c a (w64 b) (w64 (f + b2n z * 4))
  | .tqnt t u n => q 8 t u 0#64 (w64 n)

/-- R392: the arming state and RE of registers: armed, FULL and RE, a bit for each. The spec gives their place and not
their bits. (Log: DESIGN CHOICE 45) -/
def armImage (l : List ArmSt) : Nat := packWords 4 [armMask l (·.st != .unarmed), armMask l (·.st == .full), armMask l (·.re)]

/-- R292, R392: the lease save area of a core of a cluster, as its context tail holds it. -/
def Cluster.leaseArea (k : Cluster) (c : Nat) (arms : List ArmSt) : List Byte :=
  let l := k.lease.saved.get [] c
  let sh : Nat × Nat × Nat := match l with | e :: _ => e.shapes.getD (0, 0, 0) | [] => (0, 0, 0)
  leBytes (packWords 8 [k.lease.savedSqp.get 0 c, sh.1, sh.2.1, sh.2.2, l.length]) 48 ++ leBytes (armImage arms) 16 ++
    leBytes (packWords 24 (l.map TileEntry.image)) 768

/-- R290: a grant at a rotation boundary, where the lease is free and a core requests. -/
def State.leaseGrant (s : State) (cl : Nat) : State :=
  let l := (s.cluster cl).lease
  if s.cycle % 16 ≠ 0 then s
  else match l.holder, l.next with
  | none, some c =>
    let now := s.cycle
    let saved := l.saved.get [] c
    let begun := match saved with | e :: _ => b2n e.shapes.isSome | [] => 0
    s.modCluster cl (fun k => { k with
      tileq := saved,
      lease := { l with holder := some c, serial := l.serial + 1#32, cmds := begun, since := now, released := false,
                        reqs := l.reqs.filter (· != c), saved := l.saved.drop c,
                        savedSqp := l.savedSqp.drop c } })
  | _, _ => s

/-- R392: parts of a core's context tail, written at their offsets from the start of the tail. -/
def State.writeTail (s : State) (cid : Nat) (parts : List (Nat × List Byte)) : State :=
  let base := tailBase (cid % 8)
  s.modCluster (cid / 8) (fun c => { c with
    scratch := parts.foldl (fun m p => Memory.writeAll m (cellsAt (base + p.1) p.2)) c.scratch })

/-- R392: the lease save area of a core, as a part of its context tail. -/
def State.leasePart (s : State) (cid : Nat) : Nat × List Byte :=
  (16 * 1472, (s.cluster (cid / 8)).leaseArea (cid % 8) (s.core cid).carm.toList)

/-- R290: a request of a core for the lease. -/
def Lease.ask (l : Lease) (c : Nat) : Lease := { l with reqs := if l.reqs.contains c then l.reqs else c :: l.reqs }

/-- R291, R292: the hold ends; unperformed entries are saved with SQP in the save area of the outgoing core, which requests
the lease for them. (Log: DEDUCED 78) -/
def State.holdEnd (s : State) (cl : Nat) : State :=
  let now := s.cycle
  match (s.cluster cl).lease.holder with
  | none => s
  | some c =>
    let l := (s.cluster cl).lease
    if (s.cluster cl).tileq.isEmpty then
      s.modLease cl (fun l => { l with
        holder := none, lastHolder := if l.reqs.isEmpty then 7 else c, released := false })
    else
      let s := s.modCluster cl (fun k => { k with
        tileq := [],
        lease := { l.ask c with
          holder := none, lastHolder := c, released := false,
          saved := l.saved.put c k.tileq, savedSqp := l.savedSqp.put c (k.sqp now) } })
      s.writeTail (8 * cl + c) [s.leasePart (8 * cl + c)]

/-- R291: the limit: the hold ends where another core requests, and otherwise begins anew. -/
def State.holdLimit (s : State) (cl : Nat) : State :=
  let l := (s.cluster cl).lease
  if l.reqs.any (fun c => some c != l.holder) then s.holdEnd cl
  else
    let now := s.cycle
    s.modLease cl (fun l => { l with cmds := 0, since := now })

/-- R291: the ends of a hold at a step boundary. -/
def State.holdCheck (s : State) (cl : Nat) : State :=
  let k := s.cluster cl
  let idle := match k.tileq with | e :: _ => e.shapes.isNone | [] => true
  if k.lease.holder.isNone then s
  else if k.lease.released ∧ k.tileq = [] then s.holdEnd cl
  else if (k.lease.cmds ≥ 32 ∧ idle = true) ∨ k.lease.since + 8192 ≤ s.cycle then s.holdLimit cl
  else s

/-- LEASE_GRANT (R290). -/
def execLeaseGrant (cl : Nat) (s : State) : Host.Outcome State Fault Refusal := done (s.leaseGrant cl)

/-- LEASE_HOLD_END (R291). -/
def execLeaseHoldEnd (cl : Nat) (s : State) : Host.Outcome State Fault Refusal := done (s.holdCheck cl)

/-- LEASE_CYCLE_LIMIT (R291): SQP.CYC has reached 8,192. -/
def execLeaseCycleLimit (cl : Nat) (s : State) : Host.Outcome State Fault Refusal :=
  done (if (s.cluster cl).lease.holder.isSome ∧ (s.cluster cl).lease.since + 8192 ≤ s.cycle then s.holdLimit cl else s)

/-! ### Enqueue (R293 to R298) -/

/-- The frame of a major-24 instruction. -/
def tileUse (word : Nat) (names reads : List (BitVec 6)) (pol : Option Policy) : Use :=
  { word := word, feat := some fMatrix, names := names.map .x, reads := reads, pol := pol, awaitCode := 1, after := true }

/-- R295: the common path of a tile command. -/
def State.enqueueTile (s : State) (cmd : TileCmd) (bar : BitVec 32) : Res :=
  if !s.holdsLease then .nr (.noLease :: s.enqueueCauses) 4 s.oweOrder.requestLease
  else
    let who := s.issuer
    s.enqueue (.tile (clusterOf s.cur)) 2 5 (fun _ s =>
      s.modMine (fun c => { c with tileq := c.tileq ++ [{ who := who, cmd := cmd, bar := bar }] }))

/-- R297 `mlease`. -/
def execMlease (p : Policy) (d : BitVec 6) (s : State) : Host.Outcome State Fault Refusal :=
  done ((tileUse (rpw p.bits 0 0#6 0#6 d 24) [d] [] (some p)).run s (fun s =>
    if s.holdsLease then .next (s.setX d (s.mine.lease.serial.setWidth 64))
    else .nr [.leaseWait] 6 s.requestLease))

/-- R297 `mrel`. -/
def execMrel (s : State) : Host.Outcome State Fault Refusal :=
  done ((tileUse (rpw 0#2 1 0#6 0#6 0#6 24) [] [] none).run s (fun s =>
    .next (if s.mine.lease.holder = some (coreOf s.cur % 8) then
      (s.modLease (clusterOf s.cur) (fun l => { l with released := true })).holdCheck (clusterOf s.cur) else s)))

/-- R298 `tsh`. -/
def execTsh (p : Policy) (a t : BitVec 6) (s : State) : Host.Outcome State Fault Refusal :=
  done ((tileUse (rpw p.bits 2 0#6 a t 24) [a] [a] (some p)).run s (fun s =>
    let v := s.xr a
    if !tshValid t.toNat v then .trap tDESC v else s.enqueueTile (.tsh t.toNat v) 0#32))

/-- R298 `tshr`. -/
def execTshr (p : Policy) (t d : BitVec 6) (s : State) : Host.Outcome State Fault Refusal :=
  done ((tileUse (rpw p.bits 3 0#6 t d 24) [d] [] (some p)).run s (fun s =>
    if s.mine.tileq.any (fun e => match e.cmd with | .tsh u _ => u == t.toNat | _ => false) then
      .nr [.shapeBusy t.toNat] 7 s
    else .next (s.setX d (s.mine.tile t.toNat).tsh)))

/-- R296: the barrier word of `ox3`, checked. -/
def State.withBar (s : State) (f : BitVec 32 → Res) : Res :=
  let w := s.oxr 3
  if barBad w then .trap tDESC (w.setWidth 64) else f w

/-- R296: the issue-time checks of `tld` and `tst`. -/
def tileMoveCheck (o pitch : Word) (f : Unit → Res) : Res :=
  if pitch = 0#64 ∨ pitch.toNat % 16 ≠ 0 ∨ pitch.toNat ≥ 2 ^ 20 then .trap tDESC pitch
  else if o.toNat ≥ spLimit then .trap tADDRESS o
  else if o.toNat % 16 ≠ 0 then .trap tMISALIGNED o
  else f ()

/-- R15: what `tld` and `tst` trap on whatever the registers that await will hold. -/
def tileEarly (a b : BitVec 6) (rs : List (BitVec 6)) (s : State) : Res :=
  s.withBar (fun _ => tileMoveCheck (if rs.contains a then 0#64 else s.xr a) (if rs.contains b then 16#64 else s.xr b)
    (fun _ => .skip s))

/-- R299 `tld`. -/
def execTld (p : Policy) (b a t : BitVec 6) (s : State) : Host.Outcome State Fault Refusal :=
  done (({ (tileUse (rpw p.bits 4 b a t 24) [a, b] [a, b] (some p)) with early := tileEarly a b } : Use).run s (fun s =>
    s.withBar (fun w => tileMoveCheck (s.xr a) (s.xr b) (fun _ =>
      s.enqueueTile (.tld t.toNat (s.xr a) (s.xr b)) w))))

/-- R300 `tst`. -/
def execTst (p : Policy) (b a t : BitVec 6) (s : State) : Host.Outcome State Fault Refusal :=
  done (({ (tileUse (rpw p.bits 5 b a t 24) [a, b] [a, b] (some p)) with early := tileEarly a b } : Use).run s (fun s =>
    s.withBar (fun w => tileMoveCheck (s.xr a) (s.xr b) (fun _ =>
      s.enqueueTile (.tst t.toNat (s.xr a) (s.xr b)) w))))

/-- R301 `tzero`. -/
def execTzero (p : Policy) (t : BitVec 6) (s : State) : Host.Outcome State Fault Refusal :=
  done ((tileUse (rpw p.bits 6 0#6 0#6 t 24) [] [] (some p)).run s (fun s =>
    s.withBar (fun w => s.enqueueTile (.tzero t.toNat) w)))

/-- R302 `mma`. -/
def execMma (p : Policy) (b a : BitVec 6) (f : BitVec 2) (z : BitVec 1) (c : BitVec 2) (s : State) :
    Host.Outcome State Fault Refusal :=
  done ((tileUse (rpw p.bits 7 b a (0#1 ++ f ++ z ++ c) 24) [] [] (some p)).run s (fun s =>
    s.withBar (fun w => s.enqueueTile (.mma f.toNat (z == 1#1) (16 + c.toNat) a.toNat b.toNat) w)))

/-- R304 `tqnt`. -/
def execTqnt (p : Policy) (b u t : BitVec 6) (s : State) : Host.Outcome State Fault Refusal :=
  done (({ (tileUse (rpw p.bits 8 b u t 24) [b] [b] (some p)) with early := fun _ s => s.withBar (fun _ => .skip s) } : Use).run s (fun s =>
    s.withBar (fun w =>
      if (s.xr b).toNat > 255 then .trap tDESC (s.xr b)
      else s.enqueueTile (.tqnt t.toNat u.toNat (s.xr b).toNat) w)))

/-! ### Steps (R285, R299 to R305) -/

/-- R305: the entry at the head is performed, with or without an error. -/
def State.tileDone (s : State) (cl : Nat) (e : TileEntry) (err : Option (Nat × Nat)) : State :=
  let s := (s.modCluster cl (fun c => { c with tileq := c.tileq.drop 1 })).entryFreed (.tile cl)
  let s := match e.cmd with
    | .tsh .. => s
    | _ =>
      if barEnabled e.bar then s.entryArrives e.who.ctx cl e.bar err e.ck
      else if err.isSome then s.modCtx e.who.ctx (fun c => { c with mxe := c.mxe + 1#64 })
      else s
  s.holdCheck cl

/-- Change the entry at the head. -/
def State.modTileHead (s : State) (cl : Nat) (f : TileEntry → TileEntry) : State :=
  s.modCluster cl (fun c => { c with tileq := match c.tileq with | e :: r => f e :: r | [] => [] })

/-- R289, R291: a tile command starts: it reads its shapes once and counts in CMDS. -/
def State.tileStart (s : State) (cl : Nat) (shapes : Nat × Nat × Nat) (nstep : Nat) : State :=
  (s.modLease cl (fun l => { l with cmds := l.cmds + 1 })).modTileHead cl (fun e => { e with
    shapes := some shapes, nstep := nstep })

/-- R285: a step is complete; the command ends after its last. -/
def State.tileNext (s : State) (cl : Nat) (e : TileEntry) : State :=
  if e.step + 1 ≥ e.nstep then s.tileDone cl e none
  else (s.modTileHead cl (fun e => { e with step := e.step + 1 })).holdCheck cl

/-- The entry at the head of a sequencer queue; none while a halt stops the engines (R430). -/
def State.tileHead (s : State) (cl : Nat) : Option TileEntry :=
  if s.enginesHalted cl then none else (s.cluster cl).tileq.head?

/-- R288: perform a `tsh`. -/
def State.tshPerform (s : State) (cl : Nat) : State :=
  match s.tileHead cl with
  | some e => match e.cmd with
    | .tsh t w => (s.modTile cl t (fun x => { x with tsh := w })).tileDone cl e none
    | _ => s
  | none => s

/-- R301: perform a `tzero`. -/
def State.tzeroPerform (s : State) (cl : Nat) : State :=
  match s.tileHead cl with
  | some e => match e.cmd with
    | .tzero t =>
      let s := s.modLease cl (fun l => { l with cmds := l.cmds + 1 })
      ((s.clearEcc ((upTo 64).map (.tile cl t))).modTile cl t (fun x => { x with rows := [], scale := [] })).tileDone cl e none
    | _ => s
  | none => s

/-- R299: the size of a source element of a tile load, where the pair is listed. -/
def loadSize (tile win : Nat) : Option Nat :=
  match tile, win with
  | 1, 1 => some 1
  | 2, 2 => some 1
  | 2, 0 => some 1
  | 3, 3 => some 2
  | 3, 0 => some 2
  | 3, 4 => some 4
  | 5, 4 => some 4
  | 5, 3 => some 2
  | _, _ => none

/-- R300: the size of an element of a tile store, where the pair is listed. -/
def storeSize (tile win : Nat) : Option Nat :=
  match tile, win with
  | 1, 1 => some 1
  | 1, 0 => some 1
  | 2, 0 => some 1
  | 2, 2 => some 1
  | 3, 3 => some 2
  | 3, 0 => some 2
  | 5, 4 => some 4
  | 5, 0 => some 4
  | 5, 3 => some 2
  | 6, 4 => some 4
  | 6, 0 => some 4
  | 6, 2 => some 1
  | _, _ => none

/-- R299, R300: the checks of a row of n elements at an offset: its window and element size, or its error.
(Log: DESIGN CHOICE 91) -/
def rowCheck (size : Nat → Nat → Option Nat) (wins : List Word) (tile cols o : Nat) :
    Except (Nat × Nat) (Option Win × Nat) :=
  let w := windowOf wins o
  match size tile (match w with | some w => w.fmt | none => 0) with
  | none => .error (6, o)
  | some sz =>
    match w with
    | some w => if w.holdsRow o (cols * sz) then .ok (some w, sz) else .error (6, o)
    | none =>
      if rawBreaks wins o (cols * sz) then .error (6, o)
      else if o + cols * sz > spLimit then .error (1, o) else .ok (none, sz)

/-- R244: an engine writes bytes of a cluster's scratchpad, which carry releases where they set granules full (R317). -/
def State.engSpWrite (s : State) (cl o : Nat) (bs : List Byte) (rels : List Rel := []) : State :=
  if bs.isEmpty then s
  else (s.clearEcc ((granules o bs.length).map (.sp cl))).modCluster cl (fun c => { c with
    scratch := Memory.writeAll c.scratch (cellsAt o bs), grels := putRels c.grels (granules o bs.length) rels,
    gtime := (granules o bs.length).foldl (fun tb g => Tab.put tb g (c.spTime g + 1)) c.gtime })

/-- R217: an engine's command of a context is about to read n bytes of a cluster's scratchpad. -/
def State.engSpRead (s : State) (cl a o n : Nat) : State :=
  if s.ecc.isEmpty || n == 0 then s else s.readUnits ((granules o n).map (.sp cl)) a o true

/-- R287: a command of a context is about to read rows of a tile. -/
def State.tileRead (s : State) (cl a t n : Nat) : State :=
  if s.ecc.isEmpty then s else s.readUnits ((upTo n).map (.tile cl t)) a 0 true

/-- R296: the offset of row r. -/
def rowOffset (o pitch : Word) (r : Nat) : Nat := o.toNat + r * pitch.toNat

/-- R299: one row of a tile load. -/
def Tile.loadRow (t : Tile) (scratch : List Host.Cell) (w : Option Win) (sz fmt cols r o : Nat) : Tile :=
  let el (c : Nat) : Nat := Memory.nat scratch (o + sz * c) sz
  let wf := match w with | some w => w.fmt | none => 0
  if fmt = 5 then
    (upTo cols).foldl (fun t c => t.setAcc r c
      ((if wf = 3 then (bf16.decode (el c)) else (fp32.decode (el c))).into a40 .rne)) t
  else
    let b := if fmt = 3 then 2 else 1
    let v := packWords b ((upTo cols).map (fun c =>
      if fmt = 3 ∧ wf = 4 then (fp32.decode (el c)).into bf16 .rne else el c))
    let t := { t with rows := t.rows.put r v }
    match w with
    | some w =>
      if fmt = 1 then
        t.setScales r (Memory.nat scratch (w.scaleAt o) 1)
          (if cols > 32 then Memory.nat scratch (w.scaleAt (o + 32)) 1 else 127)
      else t.setScales r 127 127
    | none => t.setScales r 127 127

/-- TLD_ROW (R299): one row of the load at the head. -/
def State.tldRow (s : State) (cl : Nat) : State :=
  match s.tileHead cl with
  | some e => match e.cmd with
    | .tld t o pitch =>
      let s := if e.shapes.isNone then
          let w := ((s.cluster cl).tile t).tsh
          s.tileStart cl (w.toNat, 0, 0) (tshRows w) else s
      match s.tileHead cl with
      | none => s
      | some e =>
        let sh := w64 (e.shapes.getD (0, 0, 0)).1
        let off := rowOffset o pitch e.step
        if tshFmt sh = 0 ∨ tshFmt sh = 6 then s.tileDone cl e (some (6, off))
        else match rowCheck loadSize ((s.cluster cl).winsAt s.cycle).toList (tshFmt sh) (tshCols sh) off with
          | .error x => s.tileDone cl e (some x)
          | .ok (w, sz) =>
            let s := s.engSpRead cl e.who.ctx off (tshCols sh * sz)
            let s := match w with
              | some w => if tshFmt sh = 1 then
                  (upTo ((tshCols sh + 31) / 32)).foldl (fun (s : State) n =>
                    s.engSpRead cl e.who.ctx (w.scaleAt (off + 32 * n)) 1) s else s
              | none => s
            let sp := (s.cluster cl).scratch
            ((s.clearEcc [.tile cl t e.step]).modTile cl t (fun x => x.loadRow sp w sz (tshFmt sh) (tshCols sh) e.step off)).tileNext cl e
    | _ => s
  | none => s

/-- R300: the bytes of a row of a tile store, and the elements that were clamped. -/
def Tile.storeRow (t : Tile) (wf sz fmt cols r : Nat) : List Byte × Nat :=
  if fmt = 5 then
    ((upTo cols).flatMap (fun c => leBytes ((a40.decode (t.acc r c)).into (if wf = 3 then bf16 else fp32) .rne) sz), 0)
  else if fmt = 6 then
    if wf = 2 then
      let l := (upTo cols).map (fun c =>
        let v := i40Val (t.acc r c)
        if v > 127 then (127, true) else if v < -128 then (128, true) else (ofSval 8 v, false))
      (l.map (fun p => BitVec.ofNat 8 p.1), (l.filter (·.2)).length)
    else ((upTo cols).flatMap (fun c => leBytes (intToFp fp32 .rne (i40Val (t.acc r c))) 4), 0)
  else (leBytes (t.rows.get 0 r) (cols * sz), 0)

/-- TST_ROW (R300): one row of the store at the head. -/
def State.tstRow (s : State) (cl : Nat) : State :=
  match s.tileHead cl with
  | some e => match e.cmd with
    | .tst t o pitch =>
      let s := if e.shapes.isNone then
          let w := ((s.cluster cl).tile t).tsh
          s.tileStart cl (w.toNat, 0, 0) (tshRows w) else s
      match s.tileHead cl with
      | none => s
      | some e =>
        let sh := w64 (e.shapes.getD (0, 0, 0)).1
        let off := rowOffset o pitch e.step
        if tshFmt sh = 0 then s.tileDone cl e (some (6, off))
        else match rowCheck storeSize ((s.cluster cl).winsAt s.cycle).toList (tshFmt sh) (tshCols sh) off with
          | .error x => s.tileDone cl e (some x)
          | .ok (w, sz) =>
            let s := s.readUnits [.tile cl t e.step] e.who.ctx 0 true
            let x := (s.cluster cl).tile t
            let wf := match w with | some w => w.fmt | none => 0
            let p := x.storeRow wf sz (tshFmt sh) (tshCols sh) e.step
            let s := s.engSpWrite cl off p.1
            let s := match w with
              | some w =>
                if tshFmt sh = 1 ∧ w.fmt = 1 then
                  (upTo ((tshCols sh + 31) / 32)).foldl (fun (s : State) n =>
                    s.engSpWrite cl (w.scaleAt (off + 32 * n)) [BitVec.ofNat 8 (x.scaleByte e.step n)]) s
                else s
              | none => s
            let s := if p.2 = 0 then s else s.modCtx e.who.ctx (fun c => { c with qsat := c.qsat + w64 p.2 })
            s.tileNext cl e
    | _ => s
  | none => s

/-- R302: the elements of a product that group g forms at (i, j). -/
def mmaGroup (f : Nat) (a b : Tile) (k g i j : Nat) : List FV :=
  ((upTo 4).map (fun q => 4 * g + q)).filterMap (fun n =>
    if n ≥ k then none
    else some (
      if f = 0 then (scaledMk8 (a.byte i n) (a.scaleByte i (n / 32))).mul (scaledMk8 (b.byte j n) (b.scaleByte j (n / 32)))
      else (bf16.decode (a.half i n)).mul (bf16.decode (b.half j n))))

/-- R302: the exact sum of an INT8 group. -/
def mmaGroupInt (a b : Tile) (k g i j : Nat) : Int :=
  ((upTo 4).map (fun q => 4 * g + q)).foldl (fun t n =>
    if n ≥ k then t else t + sval 8 (a.byte i n) * sval 8 (b.byte j n)) 0

/-- R302: step g of a product: the accumulator and the additions that saturated. -/
def mmaStep (f : Nat) (z : Bool) (a b c : Tile) (m n k g : Nat) : Tile × Nat :=
  (upTo m).foldl (fun p i => (upTo n).foldl (fun (p : Tile × Nat) j =>
    let old := if z && g == 0 then 0 else c.acc i j
    if f = 1 then
      let r := i40Clamp (i40Val old + mmaGroupInt a b k g i j)
      (p.1.setAcc i j r.1, p.2 + b2n r.2)
    else (p.1.setAcc i j (a40Step old (mmaGroup f a b k g i j)), p.2)) p) (c, 0)

/-- R302: the shapes of a product agree. -/
def mmaShapesOk (f : Nat) (a b c : Word) : Bool :=
  tshFmt a == f + 1 && tshFmt b == f + 1 && tshCols a == tshCols b && tshRows c == tshRows a && tshCols c == tshRows b
    && tshFmt c == (if f = 1 then 6 else 5)

/-- R306: elements of an accumulator that a second attempt at a step has left, its checksum mismatched again: the result
stands, and the spec gives it no value. (Log: DESIGN CHOICE 4; DESIGN CHOICE 43) -/
def mmaFree (c : Tile) (m n f : Nat) : Tile :=
  (upTo m).foldl (fun t i => (upTo n).foldl (fun (t : Tile) j =>
    t.setAcc i j ((Config.freeWord (f + i * n + j)).toNat % 2 ^ 40)) t) c

/-- R306: a row or a column of a step of a product has a checksum: all the values of its group are finite. -/
def mmaChecked (f : Nat) (a b : Tile) (m n k g : Nat) : Bool :=
  let fin (i j : Nat) : Bool := f == 1 || (mmaGroup f a b k g i j).all (fun x => match x with | .fin .. => true | _ => false)
  (upTo m).any (fun i => (upTo n).all (fin i)) || (upTo n).any (fun j => (upTo m).all (fun i => fin i j))

/-- R302, R306: step g of a product, performed until its checksum agrees, or twice: the accumulator, the additions that
saturated, and whether both attempts mismatched. Of the array's next attempts `bad` are struck. A struck attempt of which
no row or column is checked stands, with no mismatch. -/
def mmaTries (f : Nat) (z : Bool) (a b c : Tile) (m n k g bad free : Nat) : Tile × Nat × Bool :=
  let r := mmaStep f z a b c m n k g
  let struck (mis : Bool) : Tile × Nat × Bool :=
    (mmaFree c m n free, if f = 1 then (Config.freeWord (free + m * n)).toNat % (m * n + 1) else 0, mis)
  if bad = 0 then (r.1, r.2, false)
  else if !mmaChecked f a b m n k g then struck false
  else if bad < 2 then (r.1, r.2, false)
  else struck true

/-- MMA_STEP (R302, R306): one step of the product at the head, with its rerun.
(Log: DESIGN CHOICE 43; DESIGN CHOICE 67) -/
def State.mmaPerform (s : State) (cl : Nat) : State :=
  match s.tileHead cl with
  | some e => match e.cmd with
    | .mma f z c a b =>
      let sh := match e.shapes with
        | some t => t
        | none => let k := s.cluster cl; ((k.tile a).tsh.toNat, (k.tile b).tsh.toNat, (k.tile c).tsh.toNat)
      let sa := w64 sh.1
      let sb := w64 sh.2.1
      let sc := w64 sh.2.2
      let s := if e.shapes.isNone then s.tileStart cl sh ((tshCols sa + 3) / 4) else s
      match s.tileHead cl with
      | none => s
      | some e =>
        if !mmaShapesOk f sa sb sc then s.tileDone cl e (some (6, 0))
        else
          let x := e.who.ctx
          let s := ((s.tileRead cl x a (tshRows sa)).tileRead cl x b (tshRows sb)).tileRead cl x c (tshRows sa)
          let k := s.cluster cl
          let m := tshRows sa
          let n := tshRows sb
          let r := mmaTries f z (k.tile a) (k.tile b) (k.tile c) m n (tshCols sa) e.step k.arrayBad s.freeCtr
          let s := (s.clearEcc ((upTo m).map (.tile cl c))).modTile cl c (fun _ => r.1)
          let used := if mmaChecked f (k.tile a) (k.tile b) m n (tshCols sa) e.step then 2 else 1
          let s : State := if k.arrayBad = 0 then s
            else { s.modCluster cl (fun k => { k with arrayBad := k.arrayBad - used }) with freeCtr := s.freeCtr + m * n + 1 }
          let s := if r.2.1 = 0 then s else s.modCtx x (fun c => { c with asat := c.asat + w64 r.2.1 })
          if r.2.2 then
            let s := (s.modCtx x (fun c => { c with mck := c.mck + 1#64 })).modTileHead cl (fun e => { e with ck := true })
            s.tileNext cl { e with ck := true }
          else s.tileNext cl e
    | _ => s
  | none => s

/-- R304: one row of a quantisation: codes and scales of its blocks, and the elements that saturated. -/
def quantRow (acc mt : Tile) (n t i : Nat) : Tile × Nat :=
  let blocks := (upTo ((n + 31) / 32)).map (fun b =>
    quantiseBlock ((upTo (min 32 (n - 32 * b))).map (fun c => a40.decode (acc.acc i (32 * b + c)))) t)
  let codes := blocks.flatMap (·.2.1)
  let mt := { mt with rows := mt.rows.put i (packWords 1 codes) }
  let mt := (blocks.zipIdx).foldl (fun (mt : Tile) p => { mt with scale := mt.scale.put (2 * i + p.2) p.1.1 }) mt
  (mt, blocks.foldl (fun q b => q + b.2.2) 0)

/-- TQNT_ROW (R304): one row of the quantisation at the head. -/
def State.tqntRow (s : State) (cl : Nat) : State :=
  match s.tileHead cl with
  | some e => match e.cmd with
    | .tqnt t u sc =>
      let sh := match e.shapes with
        | some x => x
        | none => let k := s.cluster cl; ((k.tile u).tsh.toNat, (k.tile t).tsh.toNat, 0)
      let sa := w64 sh.1
      let st := w64 sh.2.1
      let s := if e.shapes.isNone then s.tileStart cl sh (tshRows sa) else s
      match s.tileHead cl with
      | none => s
      | some e =>
        if tshFmt sa ≠ 5 ∨ tshFmt st ≠ 1 ∨ tshRows sa ≠ tshRows st ∨ tshCols sa ≠ tshCols st then
          s.tileDone cl e (some (6, 0))
        else
          let s := s.readUnits [.tile cl u e.step] e.who.ctx 0 true
          let k := s.cluster cl
          let r := quantRow (k.tile u) (k.tile t) (tshCols sa) sc e.step
          let s := (s.clearEcc [.tile cl t e.step]).modTile cl t (fun _ => r.1)
          let s := if r.2 = 0 then s else s.modCtx e.who.ctx (fun c => { c with qsat := c.qsat + w64 r.2 })
          s.tileNext cl e
    | _ => s
  | none => s

/-- R285: one step of the sequencer of a cluster. -/
def State.tileStep (s : State) (cl : Nat) : State :=
  match s.tileHead cl with
  | none => s.holdCheck cl
  | some e =>
    match e.cmd with
    | .tsh .. => s.tshPerform cl
    | .tzero _ => s.tzeroPerform cl
    | .tld .. => s.tldRow cl
    | .tst .. => s.tstRow cl
    | .mma .. => s.mmaPerform cl
    | .tqnt .. => s.tqntRow cl

/-- TSH_PERFORM (R288). -/
def execTshPerform (cl : Nat) (s : State) : Host.Outcome State Fault Refusal := done (s.tshPerform cl)
/-- TLD_ROW (R299). -/
def execTldRow (cl : Nat) (s : State) : Host.Outcome State Fault Refusal := done (s.tldRow cl)
/-- TST_ROW (R300). -/
def execTstRow (cl : Nat) (s : State) : Host.Outcome State Fault Refusal := done (s.tstRow cl)
/-- TZERO_PERFORM (R301). -/
def execTzeroPerform (cl : Nat) (s : State) : Host.Outcome State Fault Refusal := done (s.tzeroPerform cl)
/-- MMA_STEP (R302). -/
def execMmaStep (cl : Nat) (s : State) : Host.Outcome State Fault Refusal := done (s.mmaPerform cl)
/-- TQNT_ROW (R304). -/
def execTqntRow (cl : Nat) (s : State) : Host.Outcome State Fault Refusal := done (s.tqntRow cl)

end Sys2Proof.Machine
end

