-- ==== Sys2Proof/Machine/Copy.lean ====
section
/-! DEFINITION. The copy engine: the instructions of major 25, the rows of a copy, and queue fences (R277, R307 to
R319). -/

namespace Sys2Proof.Machine

/-! ### Descriptors (R308, R309) -/

/-- R308: the fields of a copy descriptor. -/
def CopyEntry.elems (e : CopyEntry) : Nat := bitsAt e.ox0.toNat 0 16
/-- See CopyEntry.elems. -/
def CopyEntry.n1 (e : CopyEntry) : Nat := bitsAt e.ox0.toNat 16 16
/-- See CopyEntry.elems. -/
def CopyEntry.n2 (e : CopyEntry) : Nat := bitsAt e.ox1.toNat 0 16
/-- See CopyEntry.elems. -/
def CopyEntry.sfmt (e : CopyEntry) : Nat := bitsAt e.ox1.toNat 16 3
/-- See CopyEntry.elems. -/
def CopyEntry.dfmt (e : CopyEntry) : Nat := bitsAt e.ox1.toNat 19 3
/-- See CopyEntry.elems. -/
def CopyEntry.itg (e : CopyEntry) : Nat := bitsAt e.ox2.toNat 16 16
/-- See CopyEntry.elems. -/
def CopyEntry.trial (e : CopyEntry) : Nat := bitsAt e.ox2.toNat 0 8
/-- R311: rows of an entry. -/
def CopyEntry.rows (e : CopyEntry) : Nat := e.n1 * e.n2

/-- R309: the `einfo` of the bad-descriptor trap, or none: the first condition in the order of the rule (R328). `idxd` is 1 for `cp.gth` and 2 for `cp.sct`. -/
def CopyEntry.fault (e : CopyEntry) (word : Nat) : Option Word :=
  if e.elems = 0 ∨ e.n1 = 0 then some (e.ox0.setWidth 64)
  else if e.n2 = 0 ∨ bitsAt e.ox1.toNat 22 10 ≠ 0 ∨ (e.dst = .sp ∧ e.dfmt ≠ 0) ∨ (e.src = .sp ∧ e.sfmt ≠ 0) then
    some (e.ox1.setWidth 64)
  else if (e.idxd = 0 ∧ e.itg ≠ 0) ∨ bitsAt e.ox2.toNat 8 8 ≠ 0 then some (e.ox2.setWidth 64)
  else if e.dfmt > 4 ∨ e.sfmt > 4 then some (e.ox1.setWidth 64)
  else if barBad e.bar then some (e.bar.setWidth 64)
  else if (e.few ∧ e.dst ≠ .sp) ∨ (e.fer ∧ e.src ≠ .sp) then some (w64 word)
  else if e.idxd ≠ 0 ∧ e.n2 ≠ 1 then some (e.ox1.setWidth 64)
  else none

/-- R307: the two registers of a pair. -/
def pairRegs (a : BitVec 5) : List (BitVec 6) := [a ++ 0#1, a ++ 1#1]

/-- The frame of a major-25 instruction. -/
def copyUse (word : Nat) (reads : List (BitVec 6)) (p : Policy) : Use :=
  { word := word, feat := some fCopy, names := reads.map .x, reads := reads, pol := some p, awaitCode := 1, after := true }

/-- R308, R310: the enqueue of a copy. -/
def opCopy (m5 idxd : Nat) (dst src : Space) (p : Policy) (b a : BitVec 5) (r w : BitVec 1) (q : BitVec 3) (s : State) :
    State :=
  let word := rpw p.bits m5 (b ++ 0#1) (a ++ 0#1) (0#1 ++ r ++ w ++ q) 25
  ({ (copyUse word (pairRegs a ++ pairRegs b) p) with data := pairRegs a ++ pairRegs b } : Use).run s (fun s =>
    let e : CopyEntry := {
      who := s.issuer, dst := dst, src := src, idxd := idxd, few := w == 1#1, fer := r == 1#1,
      dbase := s.xr (a ++ 0#1), dpitch := s.xr (a ++ 1#1), sbase := s.xr (b ++ 0#1), spitch := s.xr (b ++ 1#1),
      ox0 := s.oxr 0, ox1 := s.oxr 1, ox2 := s.oxr 2, bar := s.oxr 3 }
    match e.fault word with
    | some i => .trap tDESC i
    | none =>
      let cl := clusterOf s.cur
      s.enqueue (.copy cl q.toNat) 2 4 (fun n s => s.modCluster cl (fun c => { c with
        copyq := vwr c.copyq q.toNat (putBefore (fun o => laterThan s.cycle e.who o.at_ o.who && o.wins.isNone) (vrd c.copyq q.toNat)
          { e with num := n, at_ := s.cycle }) })))

/-- R307, R311 `cp.mm`. -/
def execCpMm (p : Policy) (b a : BitVec 5) (r w : BitVec 1) (q : BitVec 3) (s : State) :
    Host.Outcome State Fault Refusal :=
  done (opCopy 0 0 .mem .mem p b a r w q s)

/-- R307, R311 `cp.ms`. -/
def execCpMs (p : Policy) (b a : BitVec 5) (r w : BitVec 1) (q : BitVec 3) (s : State) :
    Host.Outcome State Fault Refusal :=
  done (opCopy 1 0 .mem .sp p b a r w q s)

/-- R307, R311 `cp.mv`. -/
def execCpMv (p : Policy) (b a : BitVec 5) (r w : BitVec 1) (q : BitVec 3) (s : State) :
    Host.Outcome State Fault Refusal :=
  done (opCopy 2 0 .mem .vm p b a r w q s)

/-- R307, R311 `cp.sm`. -/
def execCpSm (p : Policy) (b a : BitVec 5) (r w : BitVec 1) (q : BitVec 3) (s : State) :
    Host.Outcome State Fault Refusal :=
  done (opCopy 3 0 .sp .mem p b a r w q s)

/-- R307, R311 `cp.ss`. -/
def execCpSs (p : Policy) (b a : BitVec 5) (r w : BitVec 1) (q : BitVec 3) (s : State) :
    Host.Outcome State Fault Refusal :=
  done (opCopy 4 0 .sp .sp p b a r w q s)

/-- R307, R311 `cp.sv`. -/
def execCpSv (p : Policy) (b a : BitVec 5) (r w : BitVec 1) (q : BitVec 3) (s : State) :
    Host.Outcome State Fault Refusal :=
  done (opCopy 5 0 .sp .vm p b a r w q s)

/-- R307, R311 `cp.vm`. -/
def execCpVm (p : Policy) (b a : BitVec 5) (r w : BitVec 1) (q : BitVec 3) (s : State) :
    Host.Outcome State Fault Refusal :=
  done (opCopy 6 0 .vm .mem p b a r w q s)

/-- R307, R311 `cp.vs`. -/
def execCpVs (p : Policy) (b a : BitVec 5) (r w : BitVec 1) (q : BitVec 3) (s : State) :
    Host.Outcome State Fault Refusal :=
  done (opCopy 7 0 .vm .sp p b a r w q s)

/-- R307, R311 `cp.vv`. -/
def execCpVv (p : Policy) (b a : BitVec 5) (r w : BitVec 1) (q : BitVec 3) (s : State) :
    Host.Outcome State Fault Refusal :=
  done (opCopy 8 0 .vm .vm p b a r w q s)

/-- R318 `cp.gth`. -/
def execCpGth (p : Policy) (b a : BitVec 5) (r w : BitVec 1) (q : BitVec 3) (s : State) :
    Host.Outcome State Fault Refusal :=
  done (opCopy 9 1 .sp .mem p b a r w q s)

/-- R318 `cp.sct`. -/
def execCpSct (p : Policy) (b a : BitVec 5) (r w : BitVec 1) (q : BitVec 3) (s : State) :
    Host.Outcome State Fault Refusal :=
  done (opCopy 10 2 .mem .sp p b a r w q s)

/-- R319 `qf.cp`. -/
def execQfCp (p : Policy) (a : BitVec 6) (q : BitVec 3) (s : State) : Host.Outcome State Fault Refusal :=
  done ((copyUse (rpw p.bits 11 0#6 a (0#3 ++ q) 25) [a] p).run s (fun s =>
    let m := s.xr a
    if m.toNat ≥ 256 then .trap tDESC m
    else
      let cl := clusterOf s.cur
      let e : CopyEntry := { who := s.issuer, fence := some m.toNat, dst := .sp, src := .sp }
      s.enqueue (.copy cl q.toNat) 2 4 (fun n s => s.modCluster cl (fun c => { c with
        copyq := vwr c.copyq q.toNat (putBefore (fun o => laterThan s.cycle e.who o.at_ o.who && o.wins.isNone) (vrd c.copyq q.toNat)
          { e with num := n, at_ := s.cycle }) }))))

/-! ### Rows (R311 to R315) -/

/-- R308: the signed pitches of a pitch register: dimension 1, dimension 2. -/
def pitches (w : Word) : Int × Int := (sval 32 (bitsAt w.toNat 0 32), sval 32 (bitsAt w.toNat 32 32))

/-- R311: the address of a row at an endpoint. -/
def rowAt (base pitch : Word) (i1 i2 : Int) : Word :=
  base + BitVec.ofInt 64 (i1 * (pitches pitch).1 + i2 * (pitches pitch).2)

/-- R311, R318: source and destination of row r; `idx` is its index of the table. -/
def CopyEntry.rowAddrs (e : CopyEntry) (r : Nat) (idx : Int) : Word × Word :=
  let i1 : Int := (r % e.n1 : Nat)
  let i2 : Int := (r / e.n1 : Nat)
  (rowAt e.sbase e.spitch (if e.idxd = 1 then idx else i1) i2, rowAt e.dbase e.dpitch (if e.idxd = 2 then idx else i1) i2)

/-- The bytes of an element of a format; 0 for raw. -/
def fmtSize (f : Nat) : Nat :=
  match f with
  | 0 => 0
  | 3 => 2
  | 4 => 4
  | _ => 1

/-- R312: the format and window of an endpoint at a row. -/
def endFmt (spc : Space) (fmt : Nat) (wins : List Word) (a : Word) : Nat × Option Win :=
  if spc = .sp then
    if a.toNat ≥ spLimit then (0, none)
    else match windowOf wins a.toNat with
      | some w => (w.fmt, some w)
      | none => (0, none)
  else (fmt, none)

/-- R312: the element sizes of source and destination. -/
def endSizes (sf df : Nat) : Nat × Nat :=
  let a := fmtSize sf
  let b := fmtSize df
  if a = 0 ∧ b = 0 then (1, 1) else if a = 0 then (b, b) else if b = 0 then (a, a) else (a, b)

/-- R312, R313: a row that breaks a window or format rule, with the scratchpad offset that FINFO holds (none where no
endpoint is in the scratchpad). -/
def CopyEntry.rowBreaks (e : CopyEntry) (wins : List Word) (src dst : Word) : Option (Option Nat) :=
  let s := endFmt e.src e.sfmt wins src
  let d := endFmt e.dst e.dfmt wins dst
  let sz := endSizes s.1 d.1
  let bad (spc : Space) (w : Option Win) (a : Word) (n : Nat) : Bool :=
    match w with
    | some w => !w.holdsRow a.toNat n || (w.fmt == 1 && decide (w.base + w.data < a.toNat + n))
    | none => spc == .sp && decide (a.toNat < spLimit) && rawBreaks wins a.toNat n
  if bad e.src s.2 src (e.elems * sz.1) then some (some src.toNat)
  else if bad e.dst d.2 dst (e.elems * sz.2) then some (some dst.toNat)
  else if s.1 ≠ d.1 ∧ s.1 ≠ 0 ∧ d.1 ≠ 0 ∧ ((s.1 = 1 ∧ e.src ≠ .sp) ∨ (d.1 = 1 ∧ e.dst ≠ .sp)) then
    some (if e.src = .sp then some src.toNat else if e.dst = .sp then some dst.toNat else none)
  else none

/-- The entry at the head of a copy queue; none while a halt stops the engines (R430). -/
def State.copyHead (s : State) (cl q : Nat) : Option CopyEntry :=
  if s.enginesHalted cl then none else (vrd (s.cluster cl).copyq q).head?

/-- Change it. -/
def State.modCopyHead (s : State) (cl q : Nat) (f : CopyEntry → CopyEntry) : State :=
  s.modCluster cl (fun c => { c with copyq := vwr c.copyq q (match vrd c.copyq q with | e :: r => f e :: r | [] => []) })

/-- The entry at the head is performed and freed. -/
def State.popCopy (s : State) (cl q : Nat) : State :=
  (s.modCluster cl (fun c => { c with copyq := vwr c.copyq q ((vrd c.copyq q).drop 1) })).entryFreed (.copy cl q)

/-- R280: the entry at the head ends at its barrier. -/
def State.copyDone (s : State) (cl q : Nat) (e : CopyEntry) (err : Option (Nat × Nat)) : State :=
  (s.popCopy cl q).entryArrives e.who.ctx cl e.bar err

/-- R312, R315: an entry starts: it reads the windows, and every row is checked. -/
def State.copyStart (s : State) (cl q : Nat) : State :=
  match s.copyHead cl q with
  | none => s
  | some e =>
    if e.fence.isSome ∨ e.wins.isSome then s
    else
      let wins := ((s.cluster cl).winsAt s.cycle).toList
      match (upTo e.rows).findSome? (fun r => let a := e.rowAddrs r 0; e.rowBreaks wins a.1 a.2) with
      | some (some o) => s.copyDone cl q e (some (6, o))
      | some none =>
        let p := s.free
        p.2.copyDone cl q e (some (6, (Config.freeWord p.1).toNat))
      | none => s.modCopyHead cl q (fun e => { e with wins := some wins })

/-- R315: the ADDRESS check of n bytes at an endpoint; the answer is FINFO. -/
def State.endAddress (s : State) (cl : Nat) (spc : Space) (a : Word) (n : Nat) : Option Nat :=
  match spc with
  | .sp => if a.toNat + n > spLimit then some a.toNat else none
  | .vm => if a.toNat + n > (s.cluster cl).vmSize then some a.toNat else none
  | .mem =>
    if !canonical a then some a.toNat
    else if a.toNat < 2 ^ 56 ∧ a.toNat + n > 2 ^ 56 then some (2 ^ 56) else none

/-- R311: an endpoint as bytes can be moved: by offset, or by pieces of system addresses. -/
inductive EndPt where
  | local (spc : Space) (o : Nat)
  | pieces (l : List (Nat × Nat))

/-- R315: the pieces of a row at an endpoint in virtual memory. -/
def endPieces (spc : Space) (a : Word) (n : Nat) : List (Nat × Nat) :=
  match spc with
  | .mem => pagePieces a.toNat n
  | _ => []

/-- R315: an endpoint as the engine reaches it, or the page whose fault it waits on. -/
def State.endMap (s : State) (cl : Nat) (e : CopyEntry) (spc : Space) (a : Word) (n : Nat) (k : Kind) :
    Except (Nat × Nat) (Option EndPt) × State × Option Nat :=
  match spc with
  | .mem => match s.engMap cl e.who k (pagePieces a.toNat n) with
    | .ok l s => (.ok (some (.pieces l)), s, none)
    | .wait p s => (.ok none, s, some p)
    | .err c i s => (.error (c, i), s, none)
  | spc => (.ok (some (.local spc a.toNat)), s, none)

/-- Bytes that the copy engine reads at an endpoint, for a context. -/
def State.endRead (s : State) (cl c : Nat) (p : EndPt) (a : Word) (n : Nat) : List Byte × State :=
  match p with
  | .local .vm o =>
    let s := s.readUnits ((granules o n).map (.vm cl)) c o true
    (Memory.bytes (s.cluster cl).vault o n, s)
  | .local _ o =>
    let s := s.engSpRead cl c o n
    (Memory.bytes (s.cluster cl).scratch o n, s)
  | .pieces l => s.engRead c a.toNat l

/-- Bytes that the copy engine writes at an endpoint, which in a scratchpad carry releases. -/
def State.endWrite (s : State) (cl : Nat) (who : Issuer) (rels : List Rel) (p : EndPt) (bs : List Byte) : State :=
  match p with
  | .local .vm o =>
    if bs.isEmpty then s
    else (s.clearEcc ((granules o bs.length).map (.vm cl))).modCluster cl (fun c => { c with
      vault := Memory.writeAll c.vault (cellsAt o bs), vrels := putRels c.vrels (granules o bs.length) [],
      vtime := (granules o bs.length).foldl (fun tb g => Tab.put tb g (c.vmTime g + 1)) c.vtime })
  | .local _ o => s.engSpWrite cl o bs rels
  | .pieces l => s.engWrite who.ctx l bs

/-- R313: the exact value of a source element of a format; `sc` is the scale of its MK8 block. -/
def elemValue (fmt sc v : Nat) : FV :=
  match fmt with
  | 1 => scaledMk8 v sc
  | 2 => let n := sval 8 v; .fin (n < 0) n.natAbs 0
  | 3 => bf16.decode v
  | _ => fp32.decode v

/-- R313: a value as an INT8, and whether it counts in QSAT. -/
def toInt8 (x : FV) : Nat × Bool :=
  match x with
  | .nan _ => (0, true)
  | x => let p := toIntSat .rne (-128) 127 x; (ofSval 8 p.2, p.1)

/-- R313: a value in a destination format other than MK8. -/
def elemConv (sf df : Nat) (raw : Nat) (x : FV) : Nat × Bool :=
  match df with
  | 2 => toInt8 x
  | 3 => (x.into bf16 .rne, false)
  | _ => if sf = 3 then (bfToFp raw, false) else (x.into fp32 .rne, false)

/-- R313, R314: the destination bytes of a row, the scale bytes with their offsets, and the count for QSAT. -/
def convertRow (sf df trial : Nat) (elems : List Nat) (scales : List Nat) (dw : Option Win) (dst : Nat) :
    List Byte × List (Nat × Nat) × Nat :=
  let vals := (elems.zipIdx).map (fun p => elemValue sf (scales.getD (p.2 / 32) 127) p.1)
  if df = 1 then
    let bl := (chunks 32 elems.length vals).map (fun xs => quantiseBlock xs trial)
    (bl.flatMap (fun b => b.2.1.map (BitVec.ofNat 8)),
     match dw with
     | some w => (bl.zipIdx).map (fun p => (w.scaleAt (dst + 32 * p.2), p.1.1))
     | none => [],
     bl.foldl (fun n b => n + b.2.2) 0)
  else
    let out := (elems.zip vals).map (fun p => elemConv sf df p.1 p.2)
    (out.flatMap (fun p => leBytes p.1 (fmtSize df)), [], (out.filter (·.2)).length)

/-- R313, R317: the offsets of the scale bytes that a row of n elements reads at an MK8 window: where it is converted, or
goes to another MK8 window. -/
def scaleOffsets (sf df : Nat × Option Win) (n o : Nat) : List Nat :=
  match sf.2 with
  | some w => if sf.1 = 1 ∧ df.1 ≠ 0 ∧ (df.1 ≠ 1 ∨ df.2.isSome) then (upTo ((n + 31) / 32)).map (fun i => w.scaleAt (o + 32 * i)) else []
  | none => []

/-- R311 to R314, R317: move one row, its checks passed. With FEW every granule that it writes is set full in the same
step, and the write is a release of the entry's earlier ones. -/
def State.moveRow (s : State) (cl : Nat) (e : CopyEntry) (spc dp : EndPt) (src dst : Word) (sf df : Nat × Option Win)
    (sz : Nat × Nat) : State :=
  let r := s.endRead cl e.who.ctx spc src (e.elems * sz.1)
  let so := scaleOffsets sf df e.elems src.toNat
  let s := so.foldl (fun (s : State) o => s.engSpRead cl e.who.ctx o 1) r.2
  let srcScales : List Nat := so.map (fun o => Memory.nat (s.cluster cl).scratch o 1)
  let out : List Byte × List (Nat × Nat) × Nat :=
    if sf.1 = 0 ∨ df.1 = 0 ∨ sf.1 = df.1 then
      (r.1, (match sf.2, df.2 with
        | some _, some w => if sf.1 = 1 ∧ df.1 = 1 then (srcScales.zipIdx).map (fun p =>
            (w.scaleAt (dst.toNat + 32 * p.2), p.1)) else []
        | _, _ => []), 0)
    else convertRow sf.1 df.1 e.trial (wordsOf sz.1 e.elems r.1) srcScales df.2 dst.toNat
  let rels := if e.few then s.engineRel cl else []
  let s := out.2.1.foldl (fun (s : State) p => s.engSpWrite cl p.1 [BitVec.ofNat 8 p.2] rels) s
  let s := s.endWrite cl e.who rels dp out.1
  let s := if e.few then
      (granules dst.toNat out.1.length ++ uniq (out.2.1.map (fun p => p.1 / 16))).foldl (fun (s : State) g => s.setFull cl g) s
    else s
  if out.2.2 = 0 then s else s.modCtx e.who.ctx (fun c => { c with qsat := c.qsat + w64 out.2.2 })

/-- COPY_ROW (R311, R315): one row of the entry at the head; it waits for what R315 and R317 make it wait for. -/
def State.copyRow (s : State) (cl q : Nat) : State :=
  match s.copyHead cl q with
  | none => s
  | some e =>
    match e.wins with
    | none => s
    | some wins =>
      let io := e.itg * 16 + 4 * (e.row % e.n1)
      if (e.src = .vm ∨ e.dst = .vm) ∧ (s.cluster cl).vsegTo.isSome then s
      else if e.idxd ≠ 0 ∧ io + 4 > spLimit then s.copyDone cl q e (some (1, io))
      else
        let s := if e.idxd = 0 then s else s.engSpRead cl e.who.ctx io 4
        let idx := sval 32 (Memory.nat (s.cluster cl).scratch io 4)
        let a := e.rowAddrs e.row idx
        let sf := endFmt e.src e.sfmt wins a.1
        let df := endFmt e.dst e.dfmt wins a.2
        let sz := endSizes sf.1 df.1
        let ns := e.elems * sz.1
        let nd := e.elems * sz.2
        match s.endAddress cl e.src a.1 ns, s.endAddress cl e.dst a.2 nd with
        | some i, _ => s.copyDone cl q e (some (1, i))
        | none, some i => s.copyDone cl q e (some (1, i))
        | none, none =>
          if a.1.toNat % sz.1 ≠ 0 then s.copyDone cl q e (some (2, a.1.toNat))
          else if a.2.toNat % sz.2 ≠ 0 then s.copyDone cl q e (some (2, a.2.toNat))
          else match s.engErr cl e.who.ctx e.failedPage (endPieces e.src a.1 ns) (endPieces e.dst a.2 nd) with
          | some x => s.copyDone cl q e (some x)
          | none => match s.endMap cl e e.src a.1 ns ⟨true, false, false⟩ with
            | (.error x, s, _) => s.copyDone cl q e (some x)
            | (.ok none, s, p) => s.modCopyHead cl q (fun e => { e with waitPage := p })
            | (.ok (some spc), s, _) =>
              match s.endMap cl e e.dst a.2 nd ⟨false, true, false⟩ with
              | (.error x, s, _) => s.copyDone cl q e (some x)
              | (.ok none, s, p) => s.modCopyHead cl q (fun e => { e with waitPage := p })
              | (.ok (some dp), s, _) =>
                if e.fer && !(granules a.1.toNat ns ++ (scaleOffsets sf df e.elems a.1.toNat).map (· / 16)).all
                    (fun g => (s.cluster cl).fe.contains g) then s
                else
                  let s := s.moveRow cl e spc dp a.1 a.2 sf df sz
                  if e.row + 1 < e.rows then
                    s.modCopyHead cl q (fun e => { e with row := e.row + 1, waitPage := none })
                  else s.copyDone cl q e none

/-! ### Fences (R277) -/

/-- R277: a queue fence of a copy queue is performed once the earlier entries of the queues it names are. -/
def State.copyFence (s : State) (cl q : Nat) : State :=
  match s.copyHead cl q with
  | none => s
  | some e => match e.fence with
    | none => s
    | some m =>
      if (upTo 8).any (fun j => bitAt m j && j != q && (vrd (s.cluster cl).copyq j).any (fun o => o.num < e.num)) then s
      else s.popCopy cl q

/-- One step of a copy queue. -/
def State.copyStep (s : State) (cl q : Nat) : State :=
  match s.copyHead cl q with
  | none => s
  | some e =>
    if e.fence.isSome then s.copyFence cl q
    else if e.wins.isNone then s.copyStart cl q
    else s.copyRow cl q

/-- COPY_ENTRY_START (R315). -/
def execCopyEntryStart (cl q : Nat) (s : State) : Host.Outcome State Fault Refusal := done (s.copyStart cl q)

/-- COPY_ROW (R311). -/
def execCopyRow (cl q : Nat) (s : State) : Host.Outcome State Fault Refusal := done (s.copyRow cl q)

end Sys2Proof.Machine
end

