-- ==== Sys2Proof/Machine/Collective.lean ====
section
/-! DEFINITION. The collective engine of a field: the instructions of major 26, matching, ring steps and fences (R273,
R277, R319 to R324). -/

namespace Sys2Proof.Machine

/-! ### Descriptors (R321) -/

/-- R321: the fields of a collective descriptor. -/
def CollEntry.count (e : CollEntry) : Nat := e.ox0.toNat
/-- See CollEntry.count. -/
def CollEntry.cnt (e : CollEntry) : Nat := bitsAt e.ox1.toNat 21 11
/-- See CollEntry.count. -/
def CollEntry.base (e : CollEntry) : Nat := bitsAt e.ox1.toNat 11 10
/-- See CollEntry.count. -/
def CollEntry.root (e : CollEntry) : Nat := bitsAt e.ox1.toNat 1 10
/-- See CollEntry.count. -/
def CollEntry.ef (e : CollEntry) : Nat := bitsAt e.ox2.toNat 0 2
/-- R321: the bytes of an element. -/
def CollEntry.size (e : CollEntry) : Nat := match e.ef with | 1 => 2 | 3 => 1 | _ => 4
/-- R321: a device takes part. -/
def CollEntry.takesPart (e : CollEntry) (dv : Nat) : Bool := decide (e.base ≤ dv) && decide (dv < e.base + e.cnt)
/-- R321: the bytes of the source and of the destination. -/
def CollEntry.srcBytes (e : CollEntry) : Nat := e.count * e.size
/-- See CollEntry.srcBytes. -/
def CollEntry.dstBytes (e : CollEntry) : Nat := e.srcBytes * (if e.form = 4 then e.cnt else 1)

/-- R321: source and destination overlap without being identical. -/
def CollEntry.overlaps (e : CollEntry) : Bool :=
  decide (e.src.toNat < e.dst.toNat + e.dstBytes) && decide (e.dst.toNat < e.src.toNat + e.srcBytes) &&
    !(e.src == e.dst && e.srcBytes == e.dstBytes)

/-- The checks of a collective's operands other than those of its two addresses. -/
def CollEntry.faultFixed (e : CollEntry) (dev : Nat) : Option Word :=
  if e.base + e.cnt > 1024 ∨ !e.takesPart dev ∨ (e.form = 3 ∧ !e.takesPart e.root) ∨ (e.form ≠ 3 ∧ e.root ≠ 0)
      ∨ bitAt e.ox1.toNat 0 then some (e.ox1.setWidth 64)
  else if bitsAt e.ox2.toNat 2 14 ≠ 0 ∨ (e.ef = 3 ∧ e.form < 3) then some (e.ox2.setWidth 64)
  else if barBad e.bar then some (e.bar.setWidth 64)
  else none

/-- R321: the `einfo` of the bad-descriptor trap, or none; `dev` is the issuer's device. -/
def CollEntry.fault (e : CollEntry) (dev : Nat) : Option Word :=
  match e.faultFixed dev with
  | some i => some i
  | none => if e.overlaps then some e.dst else none

/-! ### Enqueue (R273, R310, R320) -/

/-- The frame of a major-26 instruction. -/
def collUse (word : Nat) (reads : List (BitVec 6)) (p : Policy) : Use :=
  { word := word, feat := some fCollective, names := reads.map .x, reads := reads, pol := some p, awaitCode := 1, after := true }

/-- The field of the current thread. -/
def State.myField (s : State) : Nat := fieldOf (clusterOf s.cur)

/-- R273: the current thread's context holds a collective queue of its field. -/
def State.holdsQueue (s : State) (q : Nat) : Bool := s.holdsAllot s.th.ctx (s.field s.myField).cqa q

/-- The entry of the current thread goes to a collective queue. -/
def State.enqueueColl (s : State) (q : Nat) (e : CollEntry) : Res :=
  let f := s.myField
  s.enqueue (.coll f q) 2 4 (fun n s => s.modField f (fun c => { c with
    collq := vwr c.collq q (putBefore (fun o => laterThan s.cycle e.who o.at_ o.who && o.parts.isNone && o.step == 0) (vrd c.collq q)
      { e with num := n, at_ := s.cycle }) }))

/-- R320, R321: the enqueue of a collective. -/
def opColl (form : Nat) (p : Policy) (b a : BitVec 6) (q : BitVec 2) (s : State) : State :=
  let entry (s : State) : CollEntry := {
    who := s.issuer, cl := clusterOf s.cur, form := form, dst := s.xr a, src := s.xr b,
    ox0 := s.oxr 0, ox1 := s.oxr 1, ox2 := s.oxr 2, bar := s.oxr 3 }
  let early (_ : List (BitVec 6)) (s : State) : Res :=
    if !s.holdsQueue q.toNat then .trap tDESC (w64 q.toNat)
    else match (entry s).faultFixed s.devId with
      | some i => .trap tDESC i
      | none => .skip s
  ({ (collUse (rpw p.bits form b a (0#4 ++ q) 26) [a, b] p) with early := early } : Use).run s (fun s =>
    let e := entry s
    if !s.holdsQueue q.toNat then .trap tDESC (w64 q.toNat)
    else match e.fault s.devId with
      | some i => .trap tDESC i
      | none => s.enqueueColl q.toNat e)

/-- R320 `cl.ared.sum`. -/
def execClAredSum (p : Policy) (b a : BitVec 6) (q : BitVec 2) (s : State) : Host.Outcome State Fault Refusal :=
  done (opColl 0 p b a q s)

/-- R320 `cl.ared.max`. -/
def execClAredMax (p : Policy) (b a : BitVec 6) (q : BitVec 2) (s : State) : Host.Outcome State Fault Refusal :=
  done (opColl 1 p b a q s)

/-- R320 `cl.ared.min`. -/
def execClAredMin (p : Policy) (b a : BitVec 6) (q : BitVec 2) (s : State) : Host.Outcome State Fault Refusal :=
  done (opColl 2 p b a q s)

/-- R320 `cl.bcst`. -/
def execClBcst (p : Policy) (b a : BitVec 6) (q : BitVec 2) (s : State) : Host.Outcome State Fault Refusal :=
  done (opColl 3 p b a q s)

/-- R320 `cl.gath`. -/
def execClGath (p : Policy) (b a : BitVec 6) (q : BitVec 2) (s : State) : Host.Outcome State Fault Refusal :=
  done (opColl 4 p b a q s)

/-- R319 `qf.cl`. (Log: DEDUCED 27) -/
def execQfCl (p : Policy) (a : BitVec 6) (q : BitVec 2) (s : State) : Host.Outcome State Fault Refusal :=
  let early (_ : List (BitVec 6)) (s : State) : Res :=
    if !s.holdsQueue q.toNat then .trap tDESC (w64 q.toNat) else .skip s
  done (({ (collUse (rpw p.bits 5 0#6 a (0#4 ++ q) 26) [a] p) with early := early } : Use).run s (fun s =>
    let m := s.xr a
    if !s.holdsQueue q.toNat then .trap tDESC (w64 q.toNat)
    else if m.toNat ≥ 16 then .trap tDESC m
    else match (upTo 4).find? (fun j => bitAt m.toNat j && !s.holdsQueue j) with
      | some j => .trap tDESC (w64 j)
      | none => s.enqueueColl q.toNat { who := s.issuer, cl := clusterOf s.cur, fence := some m.toNat }))

/-! ### Ring steps (R322 to R324) -/

/-- R323: one operation of a reduction on elements of a format. -/
def collOp (form ef a b : Nat) : Nat :=
  if ef = 2 then
    match form with
    | 0 => (a + b) % 2 ^ 32
    | 1 => if sval 32 a < sval 32 b then b else a
    | _ => if sval 32 b < sval 32 a then b else a
  else
    let f := if ef = 1 then bf16 else fp32
    let x := f.decode a
    let y := f.decode b
    match form with
    | 0 =>
      if anyNan [x, y] || invAdd [x, y] then f.qnan
      else ((exAdd f .rne [x, y]).finish f ⟨true, false, false, false, .rne⟩).res
    | m =>
      match x, y with
      | .nan _, .nan _ => f.qnan
      | .nan _, _ => b
      | _, .nan _ => a
      | _, _ => if (if m = 1 then !fpLess x y else !fpLess y x) then a else b

/-- R320, R323: what is held after the source of one more device. -/
def CollEntry.combine (e : CollEntry) (dv : Nat) (v : List Nat) : List Nat :=
  match e.form with
  | 3 => if dv = e.root then v else e.acc
  | 4 => e.acc ++ v
  | form => if e.step = 0 then v else (e.acc.zip v).map (fun p => collOp form e.ef p.1 p.2)

/-- The entry at the head of a collective queue. -/
def State.collHead (s : State) (f q : Nat) : Option CollEntry := (vrd (s.field f).collq q).head?

/-- Change it. -/
def State.modCollHead (s : State) (f q : Nat) (g : CollEntry → CollEntry) : State :=
  s.modField f (fun c => { c with collq := vwr c.collq q (match vrd c.collq q with | e :: r => g e :: r | [] => []) })

/-- The entry at the head is performed and freed. -/
def State.popColl (s : State) (f q : Nat) : State :=
  (s.modField f (fun c => { c with collq := vwr c.collq q ((vrd c.collq q).drop 1) })).entryFreed (.coll f q)

/-- R324: the entry at the head ends at its barrier. -/
def State.collDone (s : State) (f q : Nat) (e : CollEntry) (err : Option (Nat × Nat)) : State :=
  (s.popColl f q).entryArrives e.who.ctx e.cl e.bar err

/-- R324: the permission table of the issuing cluster permits every partner. -/
def State.collPermits (s : State) (e : CollEntry) : Bool :=
  (upTo e.cnt).all (fun i => e.base + i == s.devId || s.permitsDev e.cl (e.base + i))

/-- R322: the entry's partners among those announced: of each other device that takes part, the first entry of the same
context and tag in the queue and field of the same numbers. -/
def CollEntry.partners (e : CollEntry) (dev f q : Nat) (parts : List Partner) : List Partner :=
  (upTo e.cnt).filterMap (fun i =>
    if e.base + i = dev then none
    else parts.find? (fun p => p.dev == e.base + i && p.ctx == e.who.ctx && p.field == f && p.queue == q &&
      bitsAt p.ox2.toNat 16 16 == bitsAt e.ox2.toNat 16 16))

/-- R322: a matched entry has the minor, N, EF, CNT, BASE and ROOT of this one; it brings N elements, where its source is
read. -/
def CollEntry.agrees (e : CollEntry) (p : Partner) : Bool :=
  p.form == e.form && p.ox0 == e.ox0 && p.ox1 == e.ox1 && bitsAt p.ox2.toNat 0 2 == e.ef &&
    (p.src.length == e.count || (e.form == 3 && p.dev != e.root))

/-- R322, R324: the partners of the entry at the head have entered theirs, as their devices announce them, or the code with
which an error of one of them ends the collective. (Log: DESIGN CHOICE 4; DESIGN CHOICE 26) -/
def State.collMatch (s : State) (f q err : Nat) (parts : List Partner) : State :=
  match s.collHead f q with
  | none => s
  | some e =>
    if e.fence.isSome ∨ e.cnt < 2 then s
    else if err = 6 then
      let p := s.free
      p.2.collDone f q e (some (6, (Config.freeWord p.1).toNat))
    else if 1 ≤ err ∧ err ≤ 5 then s.collDone f q e (some (err, 0))
    else if err ≠ 0 ∨ e.parts.isSome then s
    else if !s.collPermits e then s.collDone f q e (some (5, e.dst.toNat))
    else
      let l := e.partners s.devId f q parts
      if l.length + 1 ≠ e.cnt then s
      else if l.any (fun p => !e.agrees p) then
        let p := s.free
        p.2.collDone f q e (some (6, (Config.freeWord p.1).toNat))
      else s.modCollHead f q (fun e => { e with parts := some (l.map (fun p =>
        (p.dev, p.src.map (fun v => v % 2 ^ (8 * e.size))))) })

/-- R323: the source of a device at its step: this device's own comes from memory, and goes to the partners.
(Log: DESIGN CHOICE 26) -/
def State.collSource (s : State) (e : CollEntry) (dv : Nat) (own : List (Nat × Nat)) : List Nat × State :=
  if dv = s.devId then
    if e.form = 3 ∧ dv ≠ e.root then ([], s)
    else
      let r := s.engRead e.who.ctx e.src.toNat own
      let s : State := ((upTo e.cnt).filter (fun i => e.base + i != s.devId)).foldl (fun (s : State) i =>
        s.emit (e.base + i) r.1 true) r.2
      (wordsOf e.size e.count r.1, s)
  else (((e.parts.getD []).find? (fun p => p.1 == dv)).map (·.2) |>.getD [], s)

/-- COLLECTIVE_STEP (R323, R315): the source of one more device; after the last the destination is written. This device's
own leaves for the partners as the permission map then stands (R324, R415). -/
def State.collStep (s : State) (f q : Nat) : State :=
  match s.collHead f q with
  | none => s
  | some e =>
    if e.fence.isSome ∨ (e.parts.isNone ∧ e.cnt ≠ 1) then s
    else match s.endAddress e.cl .mem e.src e.srcBytes, s.endAddress e.cl .mem e.dst e.dstBytes with
      | some i, _ => s.collDone f q e (some (1, i))
      | none, some i => s.collDone f q e (some (1, i))
      | none, none =>
        if e.src.toNat % e.size ≠ 0 then s.collDone f q e (some (2, e.src.toNat))
        else if e.dst.toNat % e.size ≠ 0 then s.collDone f q e (some (2, e.dst.toNat))
        else match s.engErr e.cl e.who.ctx e.failedPage (pagePieces e.src.toNat e.srcBytes)
            (pagePieces e.dst.toNat e.dstBytes) with
        | some x => s.collDone f q e (some x)
        | none => match s.engMap e.cl e.who ⟨true, false, false⟩ (pagePieces e.src.toNat e.srcBytes) with
          | .err c i s => s.collDone f q e (some (c, i))
          | .wait p s => s.modCollHead f q (fun e => { e with waitPage := some p })
          | .ok sl s =>
            match s.engMap e.cl e.who ⟨false, true, false⟩ (pagePieces e.dst.toNat e.dstBytes) with
            | .err c i s => s.collDone f q e (some (c, i))
            | .wait p s => s.modCollHead f q (fun e => { e with waitPage := some p })
            | .ok dl s =>
              if e.base + e.step = s.devId ∧ !s.collPermits e then s.collDone f q e (some (5, e.dst.toNat))
              else
              let r := s.collSource e (e.base + e.step) sl
              let acc := e.combine (e.base + e.step) r.1
              let s := r.2
              if e.step + 1 < e.cnt then
                s.modCollHead f q (fun e => { e with step := e.step + 1, acc := acc, waitPage := none })
              else
                let bs := acc.flatMap (fun v => leBytes v e.size)
                (s.engWrite e.who.ctx dl bs).collDone f q e none

/-- R277: a queue fence of a collective queue. -/
def State.collFence (s : State) (f q : Nat) : State :=
  match s.collHead f q with
  | none => s
  | some e => match e.fence with
    | none => s
    | some m =>
      if (upTo 4).any (fun j => bitAt m j && j != q && (vrd (s.field f).collq j).any (fun o => o.num < e.num)) then s
      else s.popColl f q

/-- One step of a collective queue. -/
def State.collQueueStep (s : State) (f q : Nat) : State :=
  match s.collHead f q with
  | none => s
  | some e => if e.fence.isSome then s.collFence f q else s.collStep f q

/-- COLLECTIVE_MATCH (R322): `parts` are the entries that other devices announce, `err` the code that ends it, or 0. -/
def execCollectiveMatch (f q err : Nat) (parts : List Partner) (s : State) :
    Host.Outcome State Fault Refusal := done (s.collMatch f q err parts)

/-- COLLECTIVE_STEP (R323). -/
def execCollectiveStep (f q : Nat) (s : State) : Host.Outcome State Fault Refusal := done (s.collStep f q)

/-- QUEUE_FENCE_PERFORM (R277): kind 0 a copy queue of cluster i, otherwise a collective queue of field i. -/
def execQueueFencePerform (kind i q : Nat) (s : State) : Host.Outcome State Fault Refusal :=
  done (if kind = 0 then s.copyFence i q else s.collFence i q)

end Sys2Proof.Machine
end

