-- ==== Sys2Proof/Machine/LoadStore.lean ====
section
/-! DEFINITION. Scalar loads and stores to ordinary memory, scratchpad and vault memory (R95 to R99, R252, R65). -/

namespace Sys2Proof.Machine

/-- The frame of an access with a policy: the registers it reads, and the one it writes. It follows the thread's earlier
vector stores (R185, R231). -/
def memUse (p : Policy) (reads ds : List (BitVec 6)) (size : Nat := 4) : Use :=
  { word := 0, size := size, names := (reads ++ ds).map .x, reads := reads, pol := some p, after := true }

/-- R96: a scalar load of width code sz from a base plus an offset. -/
def opLoad (sz : Nat) (strong : Bool) (off : Word) (p : Policy) (a d : BitVec 6) (s : State) (size : Nat := 4) : State :=
  (memUse p [a] [d] size).run s (fun s =>
    (s.loadMem (s.xr a + off) (szWidth sz) (szWidth sz) strong).res Cause.memCode (fun v s =>
      .next (s.setX d (szExtend sz v))))

/-- R96: a scalar store of width code sz. -/
def opStore (sz : Nat) (strong : Bool) (off : Word) (p : Policy) (a d : BitVec 6) (s : State) (size : Nat := 4) : State :=
  ((memUse p [a, d] [] size).carries a [d]).run s (fun s =>
    (s.storeMem (s.xr a + off) (szWidth sz) (s.xr d).toNat strong).res Cause.memCode (fun _ s => .next s))

/-- R252: the checks of an access to scratchpad or vault memory: bounds and alignment. -/
def localCheck (o : Word) (n limit : Nat) (f : Unit → Res) : Res :=
  if o.toNat + n > limit then .trap tADDRESS o
  else if o.toNat % n ≠ 0 then .trap tMISALIGNED o
  else f ()

/-- R252: a load from the cluster's scratchpad. -/
def opLoadSp (sz : Nat) (off : Word) (p : Policy) (a d : BitVec 6) (s : State) : State :=
  (memUse p [a] [d]).run s (fun s =>
    let o := s.xr a + off
    localCheck o (szWidth sz) spLimit (fun _ =>
      let r := s.spLoad (clusterOf s.cur) o.toNat (szWidth sz)
      .next (r.2.setX d (szExtend sz r.1))))

/-- R252: a store to the cluster's scratchpad. -/
def opStoreSp (sz : Nat) (off : Word) (p : Policy) (a d : BitVec 6) (s : State) : State :=
  ((memUse p [a, d] []).carries a [d]).run s (fun s =>
    let o := s.xr a + off
    localCheck o (szWidth sz) spLimit (fun _ =>
      .next (s.spStore (clusterOf s.cur) o.toNat (szWidth sz)
        (cellsAt o.toNat (leBytes (s.xr d).toNat (szWidth sz))))))

/-- R252: a load from the cluster's vault memory. -/
def opLoadVm (sz : Nat) (off : Word) (p : Policy) (a d : BitVec 6) (s : State) : State :=
  (memUse p [a] [d]).run s (fun s =>
    let o := s.xr a + off
    localCheck o (szWidth sz) s.mine.vmSize (fun _ =>
      if s.mine.vsegTo.isSome then .nr [.reconfig (clusterOf s.cur)] 21 s
      else
        let r := s.vmLoad (clusterOf s.cur) o.toNat (szWidth sz)
        .next (r.2.setX d (szExtend sz r.1))))

/-- R252: a store to the cluster's vault memory. -/
def opStoreVm (sz : Nat) (off : Word) (p : Policy) (a d : BitVec 6) (s : State) : State :=
  ((memUse p [a, d] []).carries a [d]).run s (fun s =>
    let o := s.xr a + off
    localCheck o (szWidth sz) s.mine.vmSize (fun _ =>
      if s.mine.vsegTo.isSome then .nr [.reconfig (clusterOf s.cur)] 21 s
      else .next (s.vmStore (clusterOf s.cur) o.toNat (szWidth sz)
        (cellsAt o.toNat (leBytes (s.xr d).toNat (szWidth sz))))))

/-- R95 `ld.w`, M format. -/
def execLdW (o : BitVec 12) (p : Policy) (b d : BitVec 5) (s : State) : Host.Outcome State Fault Refusal :=
  done (opLoad 2 true (o.signExtend 64) p (xreg b) (xreg d) s)

/-- R95 `ld.d`, M format. -/
def execLdD (o : BitVec 12) (p : Policy) (b d : BitVec 5) (s : State) : Host.Outcome State Fault Refusal :=
  done (opLoad 3 true (o.signExtend 64) p (xreg b) (xreg d) s)

/-- R95 `st.w`, M format. -/
def execStW (o : BitVec 12) (p : Policy) (b d : BitVec 5) (s : State) : Host.Outcome State Fault Refusal :=
  done (opStore 2 true (o.signExtend 64) p (xreg b) (xreg d) s)

/-- R95 `st.d`, M format. -/
def execStD (o : BitVec 12) (p : Policy) (b d : BitVec 5) (s : State) : Host.Outcome State Fault Refusal :=
  done (opStore 3 true (o.signExtend 64) p (xreg b) (xreg d) s)

/-- R52, R96 the MN loads; q = 1 is weak. -/
def execLdMn (p : Policy) (q : BitVec 1) (z : BitVec 3) (o : BitVec 5) (a d : BitVec 6) (s : State) :
    Host.Outcome State Fault Refusal :=
  done (opLoad z.toNat (q == 0#1) (o.signExtend 64) p a d s)

/-- R52, R96 the MN stores; q = 1 is weak. -/
def execStMn (p : Policy) (q : BitVec 1) (z : BitVec 2) (o : BitVec 5) (a d : BitVec 6) (s : State) :
    Host.Outcome State Fault Refusal :=
  done (opStore z.toNat (q == 0#1) (o.signExtend 64) p a d s)

/-- R252 `ld.sp`. -/
def execLdSp (p : Policy) (z : BitVec 3) (o : BitVec 5) (a d : BitVec 6) (s : State) :
    Host.Outcome State Fault Refusal :=
  done (opLoadSp z.toNat (o.signExtend 64) p a d s)

/-- R252 `st.sp`. -/
def execStSp (p : Policy) (z : BitVec 2) (o : BitVec 5) (a d : BitVec 6) (s : State) :
    Host.Outcome State Fault Refusal :=
  done (opStoreSp z.toNat (o.signExtend 64) p a d s)

/-- R252 `ld.vm`. -/
def execLdVm (p : Policy) (z : BitVec 3) (o : BitVec 5) (a d : BitVec 6) (s : State) :
    Host.Outcome State Fault Refusal :=
  done (opLoadVm z.toNat (o.signExtend 64) p a d s)

/-- R252 `st.vm`. -/
def execStVm (p : Policy) (z : BitVec 2) (o : BitVec 5) (a d : BitVec 6) (s : State) :
    Host.Outcome State Fault Refusal :=
  done (opStoreVm z.toNat (o.signExtend 64) p a d s)

/-- R65 `ld.d.n`. -/
def execLdDN (d b u : BitVec 3) (p : Policy) (s : State) : Host.Outcome State Fault Refusal :=
  done (opLoad 3 true (w64 (8 * u.toNat)) p (creg b) (creg d) s 2)

/-- R65 `st.d.n`. -/
def execStDN (s' b u : BitVec 3) (p : Policy) (s : State) : Host.Outcome State Fault Refusal :=
  done (opStore 3 true (w64 (8 * u.toNat)) p (creg b) (creg s') s 2)

/-- R65 `ld.w.n`. -/
def execLdWN (d b u : BitVec 3) (p : Policy) (s : State) : Host.Outcome State Fault Refusal :=
  done (opLoad 2 true (w64 (4 * u.toNat)) p (creg b) (creg d) s 2)

/-- R65 `st.w.n`. -/
def execStWN (s' b u : BitVec 3) (p : Policy) (s : State) : Host.Outcome State Fault Refusal :=
  done (opStore 2 true (w64 (4 * u.toNat)) p (creg b) (creg s') s 2)

/-- R65 `ld.d.n` from the stack pointer. -/
def execLdDNSp (d : BitVec 3) (u : BitVec 6) (p : Policy) (s : State) : Host.Outcome State Fault Refusal :=
  done (opLoad 3 true (w64 (8 * u.toNat)) p rSP (creg d) s 2)

/-- R65 `st.d.n` to the stack. -/
def execStDNSp (s' : BitVec 3) (u : BitVec 6) (p : Policy) (s : State) : Host.Outcome State Fault Refusal :=
  done (opStore 3 true (w64 (8 * u.toNat)) p rSP (creg s') s 2)

end Sys2Proof.Machine
end

