-- ==== Sys2Proof/Machine/Sync.lean ====
section
/-! DEFINITION. Atomics, commutative updates, fences, release stores, full-empty accesses, place forms, park, pins and
the barrier wires: majors 11 and 12 (R223 to R225, R242, R243, R254 to R270). -/

namespace Sys2Proof.Machine

/-! ### Atomics (R255, R256) -/

/-- R255: the new value of an atomic, on w bits: `e` is the expected value or the operand, `n` the new value of `cas`. -/
def amoNew (op w : Nat) (old e n : Nat) : Option Nat :=
  match op with
  | 0 => some e
  | 1 => if old = e then some n else none
  | 2 => some ((old + e) % 2 ^ w)
  | 3 => some (old &&& e)
  | 4 => some (old ||| e)
  | 5 => some (old ^^^ e)
  | 6 => some (if sval w old ≤ sval w e then old else e)
  | 7 => some (if sval w old ≤ sval w e then e else old)
  | 8 => some (if old ≤ e then old else e)
  | _ => some (if old ≤ e then e else old)

/-- R255: the old value as it is returned. -/
def amoResult (wide : Bool) (old : Nat) : Word := if wide then w64 old else sext32 (w64 old)

/-- R242: an atomic at a line's home, or in the L1 of a core that owns the line: the old value, the releases that it
carried (R240), and the state after. The new value carries those of the issuer, `rels`. -/
def State.amoHome (s : State) (op : Nat) (wide : Bool) (m : Nat) (d e : Word) (a clock : Nat) (who : Option Nat)
    (rels : List Rel) : Nat × List Rel × State :=
  let n := if wide then 8 else 4
  let line := m / 64
  let s := (s.mergeAll line).readLine line a m false true
  let old := Memory.nat s.mem m n
  let seen := relsAt (s.homeOf line).rels (m % 64) n
  match amoNew op (8 * n) old (d.toNat % 2 ^ (8 * n)) (e.toNat % 2 ^ (8 * n)) with
  | some v =>
    let cells := cellsAt m (leBytes v n)
    (old, seen, (s.performWrite line cells clock who).carry line cells rels)
  | none => (old, seen, s.performWrite line [] clock who)

/-- R256: the atomic is done: it has been read strongly at its write time, it has acquired what it read, and d holds the
old value. -/
def State.amoDone (s : State) (wide : Bool) (d : BitVec 6) (old t : Nat) (rels : List Rel) (va : Nat) : State :=
  let s := ((s.strongRead t).acquire rels).modTh (fun h => { h with scopeAt := none })
  (s.watch va (if wide then 8 else 4) false true).setX d (amoResult wide old)

/-- R254, R256: an atomic that travels to the owner of a page elsewhere: an entry of the request buffer, and the latch. -/
def State.amoRemote (s : State) (op : Nat) (wide : Bool) (sys va : Nat) (d : BitVec 6) (x e : Word) : Res :=
  let l := s.th.rl
  if l.st = .busy then .nr [.reply] 12 s
  else if l.tag = s.th.pc ∧ l.st = .done then
    .next ((s.modTh (fun h => { h with rl := { h.rl with st := .idle, code := 0 } })).amoDone wide d l.value.toNat 0 [] va)
  else
    let r : RemoteReq := { s.remoteReq 2 sys va with op := op, wide := wide, operand := x, operand2 := e }
    let s := (s.forgetRemote (sys / 64)).askRemote (coreOf s.cur) r
    .nr [.reply] 12 (s.modTh (fun h => { h with rl := { h.rl with st := .busy, tag := h.pc, code := 0 } }))

/-- R239, R15, R249: a bad scope, and what the release of the instruction waits for, is found whatever the registers
hold. -/
def Use.scoped (u : Use) (sc : Nat) : Use :=
  { u with early := fun _ s => match s.scopeCheck sc with
      | none => .trap tSCOPE (w64 sc)
      | some s => (s.releaseFence sc).res Cause.memCode (fun _ s => .skip s) }

/-- R15: the release of an instruction and an access of it, neither of whose causes hides the other's, nor those of the
translation. -/
def State.released {α : Type} (sc : Nat) (tr : Acc TlbEntry) (f : TlbEntry → State → Acc α) : Acc (TlbEntry × α) :=
  match tr with
  | .ok e s => (s.releaseFence sc).both (f e) (fun _ v => (e, v))
  | .trap c i => .trap c i
  | .failed p va => .failed p va
  | .nr cs s' => match s'.releaseFence sc with
    | .nr cs' s'' => .nr (cs ++ cs') s''
    | _ => .nr cs s'

/-- R133, R242, R256: an atomic of a scope may be performed: its core owns the line, in its L1 or in the slot's bypass line,
or its latch takes a request. -/
def State.amoReady (s : State) (sc : Nat) (va : Word) (e : TlbEntry) : Acc Unit :=
  let reply : Acc Unit := if s.th.rl.st = .busy then .nr [.reply] s else .ok () s
  match s.machineOf (e.sys va.toNat) with
  | none => reply
  | some m =>
    let line := m / 64
    let cid := coreOf s.cur
    if s.ownUpdate line then s.mergeNr line
    else if sc > 2 then reply
    else
      let s := s.drainOwn line
      if ((s.copyFor cid (s.cur % 16) line s.th.pc).map (·.excl)) = some true ∨ s.th.lost = some s.th.pc then .ok () s
      else .nr [.ownership line] (s.owe (.own cid (s.cur % 16) line))

/-- R256: an atomic to ordinary memory, of op and width, with scope S. One whose packet has been lost returns zeros (R412,
R345). -/
def opAmo (op : Nat) (p : Policy) (w : BitVec 1) (sc : BitVec 5) (a d : BitVec 6) (s : State) : State :=
  let wide := w == 1#1
  let d1 := d + 1#6
  let ds := if op = 1 then [a, d, d1] else [a, d]
  (((memUse p ds []).carries a [d, d1]).scoped sc.toNat).run s (fun s =>
    match s.scopeCheck sc.toNat with
    | none => .trap tSCOPE (w64 sc.toNat)
    | some s =>
      let va := s.xr a
      let n := if wide then 8 else 4
      (State.released sc.toNat (s.resolve va n (Kind.ofCode 3)) (fun e s => s.amoReady sc.toNat va e)).res Cause.memCode (fun q s =>
        let sys := q.1.sys va.toNat
        match s.machineOf sys with
        | none => s.amoRemote op wide sys va.toNat d (s.xr d) (s.xr d1)
        | some m =>
          if sc.toNat > 2 then
            s.request Cause.memCode none (.amo op wide m (s.xr d) (s.xr d1)) va (fun v s =>
              s.amoDone wide d v.toNat 0 [] va.toNat)
          else if s.th.lost = some s.th.pc then
            .next ((s.modTh (fun h => { h with lost := none, scopeAt := none })).setX d 0#64)
          else
            let line := m / 64
            let r := s.amoHome op wide m (s.xr d) (s.xr d1) s.th.ctx s.th.clock (some (coreOf s.cur)) s.th.fences
            let s := (r.2.2.refreshCopy (coreOf s.cur) line).releaseHold (coreOf s.cur) (s.cur % 16) line
            .next (s.amoDone wide d r.1 (s.homeOf line).wt r.2.1 va.toNat)))

/-- R256: a 64-bit atomic at a bank of the cluster: of the scratchpad, or of vault memory. -/
def opAmoBank (op : Nat) (vm : Bool) (p : Policy) (sc : BitVec 5) (a d : BitVec 6) (s : State) : State :=
  let d1 := d + 1#6
  let ds := if op = 1 then [a, d, d1] else [a, d]
  (((memUse p ds []).carries a [d, d1]).scoped sc.toNat).run s (fun s =>
    match s.scopeCheck sc.toNat with
    | none => .trap tSCOPE (w64 sc.toNat)
    | some s =>
      let o := s.xr a
      localCheck o 8 (if vm then s.mine.vmSize else spLimit) (fun _ =>
        let ready : Acc Unit := if vm && s.mine.vsegTo.isSome then .nr [.reconfig (clusterOf s.cur)] s else .ok () s
        (ready.both (fun s => s.releaseFence sc.toNat) (fun _ v => v)).res Cause.memCode (fun _ s =>
          let cl := clusterOf s.cur
          let r := if vm then s.vmLoad cl o.toNat 8 else s.spLoad cl o.toNat 8
          let s := r.2
          let s := match amoNew op 64 r.1 (s.xr d).toNat (s.xr d1).toNat with
            | some v =>
              let cells := cellsAt o.toNat (leBytes v 8)
              if vm then s.vmStore cl o.toNat 8 cells else s.spStore cl o.toNat 8 cells
            | none => s
          .next ((s.modTh (fun h => { h with scopeAt := none })).setX d (w64 r.1)))))

/-! ### Commutative updates (R257, R258) -/

/-- R258: combine a value into a unit of an update-only line. -/
def updCombine (u : UpdUnit) (kind : Nat) (wide : Bool) (off : Nat) (v : Nat) : UpdUnit :=
  let add := if wide then v else if off % 8 = 4 then updIdentity kind false % 2 ^ 32 + v % 2 ^ 32 * 2 ^ 32
    else v % 2 ^ 32 + updIdentity kind false / 2 ^ 32 * 2 ^ 32
  { u with val := w64 (updApply kind wide u.val.toNat add) }

/-- R243, R258: a way of the core's L1 for a new update-only line: that of the core's copy of the line, where nothing keeps
it, or one that an eviction frees. -/
def State.updRoom (s : State) (line : Nat) : Option State :=
  let cid := coreOf s.cur
  match s.me.l1.find? line with
  | some c => if c.kept s.me.cycle then s.makeRoom cid line else some (s.dropCopy cid line)
  | none => s.makeRoom cid line

/-- R258: an update that finds no way: one merge at the home, through an entry of the combining buffer. -/
def State.updThrough (s : State) (line : Nat) (u : UpdUnit) : Acc Unit :=
  let cid := coreOf s.cur
  if s.me.comb.length < 16 then .ok () ((s.mergeUnits line s.th.ctx [u]).refreshCopy cid line)
  else .nr [.combineFull] (match s.me.comb with | e :: _ => s.owe (.drain cid e.line) | [] => s)

/-- R258: an update into the update-only line of its core. -/
def State.updLocal (s : State) (kind : Nat) (wide : Bool) (m : Nat) (v : Word) : Acc Unit :=
  let line := m / 64
  let idx := m % 64 / 8
  let rels := s.th.fences
  let fresh : UpdUnit := { idx := idx, kind := kind, wide := wide, val := w64 (updIdentity kind wide) }
  let put (u : UpdUnit) : UpdUnit := { updCombine u kind wide (m % 64) v.toNat with rels := seeRels u.rels rels }
  let s := s.drainOwn line
  let c := s.cur
  match s.me.upd.find? (fun l => l.line == line) with
  | none =>
    match s.updRoom line with
    | none => s.updThrough line (put fresh)
    | some s => .ok () (s.modMe (fun k => { k with
        upd := k.upd ++ [{ line := line, units := [put fresh], writers := [c] }] }))
  | some l =>
    match l.units.find? (fun u => u.idx == idx) with
    | some u =>
      if u.kind != kind || u.wide != wide then .nr [.mergeUnit line] (s.owe (.merge (coreOf s.cur) line))
      else .ok () (s.modMe (fun k => { k with upd := updWhere k.upd (fun l => l.line == line) (fun l => { l with
        units := updWhere l.units (fun u => u.idx == idx) put,
        writers := if l.writers.contains c then l.writers else c :: l.writers }) }))
    | none => .ok () (s.modMe (fun k => { k with upd := updWhere k.upd (fun l => l.line == line) (fun l => { l with
        units := l.units ++ [put fresh], writers := if l.writers.contains c then l.writers else c :: l.writers }) }))

/-- R257, R258: an update. -/
def opUpd (kind : Nat) (p : Policy) (w : BitVec 1) (a d : BitVec 6) (s : State) : State :=
  let wide := w == 1#1
  let n := if wide then 8 else 4
  ((memUse p [a, d] []).carries a [d]).run s (fun s =>
    let va := s.xr a
    let v := s.xr d
    let page := va.toNat / 4096
    if !canonical va then .trap tADDRESS va
    else if va.toNat % n ≠ 0 then .trap tMISALIGNED va
    else if s.denied va.toNat (Kind.ofCode 3) then .trap tACCESS va
    else if s.pending page || s.heldOn page then
      (s.hold va.toNat n [] (some (kind, wide, v)) (Kind.ofCode 3)).res Cause.memCode (fun _ s => .next s)
    else (s.resolvePage va (Kind.ofCode 3)).res Cause.memCode (fun e s =>
      let sys := e.sys va.toNat
      match s.machineOf sys with
      | none =>
        let r : RemoteReq := { s.remoteReq 3 sys va.toNat with op := kind, wide := wide, operand := v }
        (s.remoteStore r).res Cause.memCode (fun _ s => .next (s.watch va.toNat n false true))
      | some m => (s.updLocal kind wide m v).res Cause.memCode (fun _ s => .next (s.watch va.toNat n false true))))

/-! ### Full-empty accesses (R262) -/

/-- R262: the checks of a full-empty access. -/
def feCheck (o : Word) (f : Unit → Res) : Res :=
  if o.toNat ≥ spLimit then .trap tADDRESS o
  else if o.toNat % 16 ≠ 0 then .trap tMISALIGNED o
  else f ()

/-- A granule is full. -/
def State.feFull (s : State) (cl g : Nat) : Bool := (s.cluster cl).fe.contains g

/-- Set a granule empty; the write of the bit gives the granule a write time. -/
def State.feClear (s : State) (cl g : Nat) : State :=
  let t := max s.th.clock ((s.cluster cl).spTime g) + 1
  (s.modCluster cl (fun c => { c with fe := c.fe.filter (· != g), gtime := c.gtime.put g t })).wroteBank t

/-- R262: `stef` and `stff` where they write: the doubleword, the bit, and the waiters served. -/
def State.feStore (s : State) (cl g : Nat) (v : Word) : State :=
  let s := s.fillGranule cl g v.toNat s.th.clock s.th.fences
  s.wroteBank (max s.th.clock ((s.cluster cl).gtime.get 0 g))

/-! ### Places (R153, R154) -/

/-- R153: the group of a thread. -/
def State.groupOf (s : State) (h : Thread) : Group := s.groups.get { ctx := 0, binding := [] } h.group

/-- R259: the place that a place operand names: a constant, or the value of a private register. -/
def State.placeArg (s : State) (c : BitVec 6) : Word :=
  if isC c then w64 (c.toNat % 32) else s.xr c

/-- R259: the register that a place operand reads. -/
def placeRegs (c : BitVec 6) : List (BitVec 6) := if isC c then [] else [c]

/-- R153: the virtual cluster that a place names. -/
def State.placeCluster (s : State) (pl : Nat) : Nat := bitsAt ((s.groupOf s.th).binding.getD pl 0#64).toNat 7 10

/-- R263: which check a place form makes on its offset. -/
def placeCheck (form : Nat) (o : Word) (f : Unit → Res) : Res :=
  if form < 4 then feCheck o f
  else if form < 6 then localCheck o 8 spLimit f
  else if o.toNat % 8 ≠ 0 then .trap tMISALIGNED o
  else if o.toNat + 8 > 1966080 then .trap tADDRESS o
  else f ()

/-- R254: the current execution of a request sends it. -/
def State.wouldSend (s : State) : Bool :=
  s.th.rl.st != .busy && !(s.th.rl.tag == s.th.pc && (s.th.rl.st == .done || s.th.rl.st == .parked))

/-- R263: a place form: 0 `ldff`, 1 `ldfe`, 2 `stef`, 3 `stff`, 4 `ld.sp.d`, 5 `st.sp.d`, 6 `ld.vm.d`, 7 `st.vm.d`. -/
def opPlace (form : Nat) (p : Policy) (c a d : BitVec 6) (s : State) : State :=
  let store := form == 2 || form == 3 || form == 5 || form == 7
  let reads := a :: placeRegs c ++ (if store then [d] else [])
  let early (rs : List (BitVec 6)) (s : State) : Res :=
    let pl := if rs.any (placeRegs c).contains then 0#64 else s.placeArg c
    if pl.toNat > s.th.pm1 then .trap tPLACE pl
    else placeCheck form (if rs.contains a then 0#64 else s.xr a) (fun _ =>
      if s.th.rl.st = .busy then .nr [.reply] 12 s else .skip s)
  ({ (memUse p reads (if store then [] else [d])) with
    data := if store then [d].filter (fun r => r != a && r != c) else [], early := early } : Use).run s (fun s =>
    let pl := s.placeArg c
    if pl.toNat > s.th.pm1 then .trap tPLACE pl
    else
      let o := s.xr a
      placeCheck form o (fun _ =>
        let dst := s.placeCluster pl.toNat
        if s.wouldSend && !s.permits (clusterOf s.cur) ((s.physOf s.th.ctx dst).getD (clusterOf s.cur)) then .trap tACCESS o
        else
          let v := if store then s.xr d else 0#64
          let op : ReqOp := if form < 4 then .ff form dst o.toNat v d
            else .raw (if form < 6 then .sp else .vm) store dst o.toNat v
          s.request Cause.memCode (if form = 1 then some d else none) op o (fun v s =>
            if store then s else (s.strongRead 0).setX d v)))

/-! ### The park table (R224, R225) -/

/-- R225: reservations of a park table that still stand. -/
def Cluster.liveResv (c : Cluster) (now : Nat) : List (Nat × BitVec 8 × Nat) := c.parkResv.filter (fun r => now < r.2.2)

/-- R225: the table admits an issuer: it has a reserved entry, or one is free and not reserved. -/
def State.parkAdmits (s : State) (cl : Nat) (who : Issuer) : Bool :=
  let c := s.cluster cl
  let rs := c.liveResv s.cycle
  rs.any (fun r => r.1 == who.sid && r.2.1 == who.gen) || decide (c.park.length + rs.length < 64)

/-- R224: the lowest number of a park table that no entry has. -/
def Cluster.parkIdx (c : Cluster) : Nat := ((upTo 64).find? (fun i => !c.park.any (fun e => e.idx == i))).getD 64

/-- R225: an admitted issuer leaves the refusal ring, and its reservation is used. -/
def State.parkEnter (s : State) (cl : Nat) (e : ParkEntry) : State :=
  s.modCluster cl (fun c => { c with
    park := c.park ++ [{ e with idx := c.parkIdx, seqNo := c.ticket }], ticket := c.ticket + 1#8,
    parkRefused := c.parkRefused.filter (fun r => !(r.sid == e.sid && r.gen == e.gen)),
    parkResv := c.parkResv.filter (fun r => !(r.1 == e.sid && r.2.1 == e.gen)) })

/-- R224: the word of an entry of a park table. -/
def State.parkWord (s : State) (cl i : Nat) : Word :=
  match (s.cluster cl).park.find? (fun e => e.idx == i) with
  | none => 0#64
  | some e => w64 (2 ^ 63 + e.kind * 2 ^ 62 + e.gran * 2 ^ 46 + s.devId * 2 ^ 36 + s.vclOf e.ctx (clusterOf e.sid) * 2 ^ 26
      + coreOf e.sid % 8 * 2 ^ 23 + e.sid % 16 * 2 ^ 19 + e.gen.toNat * 2 ^ 11
      + (if e.kind = 1 then 0 else e.reg.toNat * 2 ^ 5))

/-- R225: a refused issuer counts one refusal more, and enters the ring of 32 where it has room; the count. -/
def State.parkRefuse (s : State) (cl : Nat) (who : Issuer) : Nat × State :=
  let l := (s.cluster cl).parkRefused
  let mine (r : ParkRefused) : Bool := r.sid == who.sid && r.gen == who.gen
  let room := decide ((l.filter (·.inRing)).length < 32)
  match l.find? mine with
  | some r =>
    let l' := if r.inRing then updWhere l mine (fun r => { r with count := r.count + 1 })
      else l.filter (fun r => !mine r) ++ [{ r with count := r.count + 1, inRing := room }]
    (r.count + 1, s.modCluster cl (fun c => { c with parkRefused := l' }))
  | none => (1, s.modCluster cl (fun c => { c with parkRefused := l ++ [⟨who.sid, who.gen, 1, room⟩] }))

/-- R225: at the 256th refusal the owner resets the issuer's count. -/
def State.parkForget (s : State) (cl : Nat) (who : Issuer) : State :=
  s.modCluster cl (fun c => { c with
    parkRefused := c.parkRefused.filter (fun r => !(r.sid == who.sid && r.gen == who.gen)) })

/-! ### Requests at their destination (R254, R263, R264) -/

/-- A reply to a request, with a value, the time of what was read or written, and the releases that it carried. -/
def State.answer (s : State) (r : Req) (code : Nat) (v : Word) (t : Nat) (rels : List Rel := []) : State :=
  s.replyTo r.who.uid { kind := 2, slot := r.who.sid % 16, gen := r.who.gen, value := v, clock := t, code := code,
                        rels := rels }

/-- R264: a register of a thread, wherever it stands, becomes AWAITING with RE = 0. -/
def State.armAway (s : State) (uid : Nat) (reg : BitVec 6) : State :=
  if isC reg then
    let on (k : Core) : Core := { k with carm := vwr k.carm reg.toNat { st := .awaiting } }
    match s.whereIs uid with
    | .slot sid => s.modCore (coreOf sid) on
    | l => match l.home with
      | some (k, sid) => s.modHomeCore k sid on
      | none => s
  else
    s.modAway uid (fun h => { h with xarm := vwr h.xarm reg.toNat { st := .awaiting } })

/-- R264: a remote `ldfe` on an empty granule: admitted to the park table, or refused. -/
def State.parkRemote (s : State) (r : Req) (cl o : Nat) (reg : BitVec 6) : State :=
  if s.parkAdmits cl r.who then
    let s := s.parkEnter cl { kind := 0, gran := o / 16, sid := r.who.sid, gen := r.who.gen, reg := reg, seqNo := 0#8,
                              ctx := r.who.ctx, clock := r.clock, uid := r.who.uid }
    (s.armAway r.who.uid reg).answer r 1 0#64 0
  else
    let q := s.parkRefuse cl r.who
    if q.1 ≥ 256 then (q.2.parkForget cl r.who).answer r 7 0#64 0 else q.2.answer r 4 0#64 0

/-- R263: the table of the place forms at the owner. -/
def State.placeAt (s : State) (r : Req) (form cl o : Nat) (v : Word) (reg : BitVec 6) : State :=
  let g := o / 16
  let full := s.feFull cl g
  let s := if full && decide (form < 2) then s.readUnits [.sp cl g] r.who.ctx o false else s
  let dw := w64 (Memory.nat (s.cluster cl).scratch o 8)
  let t := (s.cluster cl).gtime.get 0 g
  let seen := (s.cluster cl).grels.get [] g
  match form with
  | 0 =>
    if full then (s.modCluster cl (fun c => { c with gread := readAt c.gread [g] (max r.clock t) })).answer r 0 dw t seen
    else s.answer r 2 0#64 0
  | 1 =>
    if full then
      let t' := max r.clock ((s.cluster cl).spTime g) + 1
      (s.modCluster cl (fun c => { c with fe := c.fe.filter (· != g), gtime := c.gtime.put g t' })).answer r 0 dw t' seen
    else s.parkRemote r cl o reg
  | 2 =>
    if full then s.answer r 3 0#64 0
    else
      let s := s.fillGranule cl g v.toNat r.clock r.rels
      s.answer r 0 0#64 ((s.cluster cl).gtime.get 0 g)
  | _ =>
    let s := s.fillGranule cl g v.toNat r.clock r.rels
    s.answer r 0 0#64 ((s.cluster cl).gtime.get 0 g)

/-- R263: a raw place form at the owner. -/
def State.rawAt (s : State) (r : Req) (w : Space) (store : Bool) (cl o : Nat) (v : Word) : State :=
  let c := s.cluster cl
  if w = .vm ∧ c.vsegTo.isSome then s.answer r 5 0#64 0
  else if w = .vm ∧ o + 8 > c.vmSize then s.answer r 6 0#64 0
  else
    let g := o / 16
    if store then
      let t' := max r.clock (if w = .vm then c.vmTime g else c.spTime g) + 1
      let s := (s.clearEcc [if w = .vm then .vm cl g else .sp cl g]).modCluster cl (fun c =>
        if w = .vm then { c with
          vault := Memory.putNat c.vault o 8 v.toNat, vtime := c.vtime.put g t', vrels := putRels c.vrels [g] r.rels }
        else { c with
          scratch := Memory.putNat c.scratch o 8 v.toNat, gtime := c.gtime.put g t', grels := putRels c.grels [g] r.rels })
      s.answer r 0 0#64 t'
    else
      let s := s.readUnits [if w = .vm then .vm cl g else .sp cl g] r.who.ctx o false
      let c := s.cluster cl
      let t := if w = .vm then c.vtime.get 0 g else c.gtime.get 0 g
      let s := s.modCluster cl (fun c =>
        if w = .vm then { c with vread := readAt c.vread [g] (max r.clock t) }
        else { c with gread := readAt c.gread [g] (max r.clock t) })
      if w = .vm then s.answer r 0 (w64 (Memory.nat c.vault o 8)) t (c.vrels.get [] g)
      else s.answer r 0 (w64 (Memory.nat c.scratch o 8)) t (c.grels.get [] g)

/-- R359: an access translated through a stage is still on its way: a request of an atomic, an access to memory elsewhere
that changes it, or a vector store that older ring entries hold back (R185). -/
def State.onTheWay (s : State) (stage : Nat) : Bool :=
  let under (a : Nat) : Bool := (s.lineage a).contains stage
  s.due.any (fun j => match j with
    | .request r => (match r.op with | .amo .. => under r.who.ctx | _ => false)
    | _ => false) ||
  s.cores.any (fun p => p.2.remote.any (fun r => r.kind != 0 && under r.ctx)) ||
  s.slots.any (fun p => p.2.occupied && under p.2.th.ctx && p.2.th.ring.any (fun e => match e.store with
    | some d => d.dest != .sp
    | none => false))

/-- R359, R363: an invalidation of a stage completes: every access translated through the entries that it removes has been
performed. The weak stores of the combining buffers, the update-only lines and the pushed elements are performed now; for
what is on its way the invalidation waits. -/
def State.invalidateDone (s : State) (stage : Nat) (r : Req) : State :=
  if s.onTheWay stage then s.owe (.request r)
  else
    let s := s.cores.foldl (fun s p => p.2.comb.foldl (fun s e => s.drainComb p.1 e.line) s) s
    let s := s.cores.foldl (fun s p => p.2.upd.foldl (fun s u => s.mergeLine p.1 u.line) s) s
    let s := s.slots.foldl (fun s p => s.performDrains p.1) s
    s.answer r 0 0#64 0

/-- R398, R254: a request of a place form arrives at the cluster that holds its virtual cluster now; one that is being
streamed or is saved asks to try again. -/
def State.atPlace (s : State) (r : Req) (v : Nat) (f : Nat → State) : State :=
  match s.vcluster r.who.ctx v with
  | some e => if e.saved then s.answer r 5 0#64 0 else f e.phys
  | none => s.answer r 5 0#64 0

/-- R235: a core whose thread's write has been performed at a home holds no older copy of the line. -/
def State.refreshFor (s : State) (uid line : Nat) : State :=
  match s.whereIs uid with
  | .slot sid => s.refreshCopy (coreOf sid) line
  | _ => s

/-- R254: a request that has been sent is performed at its destination. -/
def State.performRequest (s : State) (r : Req) : State :=
  match r.op with
  | .amo op wide m d e =>
    let q := (s.lookup r.who.ctx (m / 64)).amoHome op wide m d e r.who.ctx r.clock none r.rels
    (q.2.2.refreshFor r.who.uid (m / 64)).answer r 0 (w64 q.1) (q.2.2.homeOf (m / 64)).wt q.2.1
  | .ff form v o w reg => s.atPlace r v (fun cl => s.placeAt r form cl o w reg)
  | .raw w store v o d => s.atPlace r v (fun cl => s.rawAt r w store cl o d)
  | .inval stage .. => s.invalidateDone stage r

/-! ### The instructions -/

/-- R255 `amo.swap`. -/
def execAmoSwap (p : Policy) (w : BitVec 1) (sc : BitVec 5) (a d : BitVec 6) (s : State) : Host.Outcome State Fault Refusal :=
  done (opAmo 0 p w sc a d s)

/-- R255 `amo.cas`. -/
def execAmoCas (p : Policy) (w : BitVec 1) (sc : BitVec 5) (a : BitVec 6) (d : BitVec 5) (s : State) : Host.Outcome State Fault Refusal :=
  done (opAmo 1 p w sc a (d ++ 0#1) s)

/-- R255 `amo.add`. -/
def execAmoAdd (p : Policy) (w : BitVec 1) (sc : BitVec 5) (a d : BitVec 6) (s : State) : Host.Outcome State Fault Refusal :=
  done (opAmo 2 p w sc a d s)

/-- R255 `amo.and`. -/
def execAmoAnd (p : Policy) (w : BitVec 1) (sc : BitVec 5) (a d : BitVec 6) (s : State) : Host.Outcome State Fault Refusal :=
  done (opAmo 3 p w sc a d s)

/-- R255 `amo.or`. -/
def execAmoOr (p : Policy) (w : BitVec 1) (sc : BitVec 5) (a d : BitVec 6) (s : State) : Host.Outcome State Fault Refusal :=
  done (opAmo 4 p w sc a d s)

/-- R255 `amo.xor`. -/
def execAmoXor (p : Policy) (w : BitVec 1) (sc : BitVec 5) (a d : BitVec 6) (s : State) : Host.Outcome State Fault Refusal :=
  done (opAmo 5 p w sc a d s)

/-- R255 `amo.min`. -/
def execAmoMin (p : Policy) (w : BitVec 1) (sc : BitVec 5) (a d : BitVec 6) (s : State) : Host.Outcome State Fault Refusal :=
  done (opAmo 6 p w sc a d s)

/-- R255 `amo.max`. -/
def execAmoMax (p : Policy) (w : BitVec 1) (sc : BitVec 5) (a d : BitVec 6) (s : State) : Host.Outcome State Fault Refusal :=
  done (opAmo 7 p w sc a d s)

/-- R255 `amo.minu`. -/
def execAmoMinu (p : Policy) (w : BitVec 1) (sc : BitVec 5) (a d : BitVec 6) (s : State) : Host.Outcome State Fault Refusal :=
  done (opAmo 8 p w sc a d s)

/-- R255 `amo.maxu`. -/
def execAmoMaxu (p : Policy) (w : BitVec 1) (sc : BitVec 5) (a d : BitVec 6) (s : State) : Host.Outcome State Fault Refusal :=
  done (opAmo 9 p w sc a d s)

/-- R257 `upd.add`. -/
def execUpdAdd (p : Policy) (w : BitVec 1) (a d : BitVec 6) (s : State) : Host.Outcome State Fault Refusal :=
  done (opUpd 0 p w a d s)

/-- R257 `upd.min`. -/
def execUpdMin (p : Policy) (w : BitVec 1) (a d : BitVec 6) (s : State) : Host.Outcome State Fault Refusal :=
  done (opUpd 1 p w a d s)

/-- R257 `upd.max`. -/
def execUpdMax (p : Policy) (w : BitVec 1) (a d : BitVec 6) (s : State) : Host.Outcome State Fault Refusal :=
  done (opUpd 2 p w a d s)

/-- R255 `amo.sp.swap`. -/
def execAmoSpSwap (p : Policy) (sc : BitVec 5) (a d : BitVec 6) (s : State) : Host.Outcome State Fault Refusal :=
  done (opAmoBank 0 false p sc a d s)

/-- R255 `amo.sp.cas`. -/
def execAmoSpCas (p : Policy) (sc : BitVec 5) (a : BitVec 6) (d : BitVec 5) (s : State) : Host.Outcome State Fault Refusal :=
  done (opAmoBank 1 false p sc a (d ++ 0#1) s)

/-- R255 `amo.sp.add`. -/
def execAmoSpAdd (p : Policy) (sc : BitVec 5) (a d : BitVec 6) (s : State) : Host.Outcome State Fault Refusal :=
  done (opAmoBank 2 false p sc a d s)

/-- R255 `amo.vm.swap`. -/
def execAmoVmSwap (p : Policy) (sc : BitVec 5) (a d : BitVec 6) (s : State) : Host.Outcome State Fault Refusal :=
  done (opAmoBank 0 true p sc a d s)

/-- R255 `amo.vm.cas`. -/
def execAmoVmCas (p : Policy) (sc : BitVec 5) (a : BitVec 6) (d : BitVec 5) (s : State) : Host.Outcome State Fault Refusal :=
  done (opAmoBank 1 true p sc a (d ++ 0#1) s)

/-- R255 `amo.vm.add`. -/
def execAmoVmAdd (p : Policy) (sc : BitVec 5) (a d : BitVec 6) (s : State) : Host.Outcome State Fault Refusal :=
  done (opAmoBank 2 true p sc a d s)

/-- R260 `fence.s`. -/
def execFenceS (p : Policy) (sc : BitVec 5) (s : State) : Host.Outcome State Fault Refusal :=
  done (({ memUse p [] [] with after := false } : Use).run s (fun s =>
    match s.scopeCheck sc.toNat with
    | none => .trap tSCOPE (w64 sc.toNat)
    | some s => (s.fence sc.toNat).res Cause.memCode (fun _ s => .next (s.modTh (fun h => { h with scopeAt := none })))))

/-- R261 `fence.i`: the core's L1 instruction lines and the thread's fetched parcels are discarded. -/
def execFenceI (s : State) : Host.Outcome State Fault Refusal :=
  done ((scalarUse [] []).run s (fun s =>
    .next ((s.modMe (fun k => { k with l1i := [] })).modTh (fun h => { h with fetched := [] }))))

/-- R260: a release store of n bytes. Its scope is checked before its address. (Log: DESIGN CHOICE 71) -/
def opStRel (n : Nat) (p : Policy) (sc : BitVec 5) (a d : BitVec 6) (s : State) : State :=
  (((memUse p [a, d] []).carries a [d]).scoped sc.toNat).run s (fun s =>
    match s.scopeCheck sc.toNat with
    | none => .trap tSCOPE (w64 sc.toNat)
    | some s =>
      let va := s.xr a
      (State.released sc.toNat (s.resolve va n (Kind.ofCode 1)) (fun e s =>
        s.storeAt va ((leBytes (s.xr d).toNat n).map some) e)).res Cause.memCode (fun _ s =>
          .next (s.modTh (fun h => { h with scopeAt := none }))))

/-- R260 `st.rel.w`. -/
def execStRelW (p : Policy) (sc : BitVec 5) (a d : BitVec 6) (s : State) : Host.Outcome State Fault Refusal :=
  done (opStRel 4 p sc a d s)

/-- R260 `st.rel.d`. -/
def execStRelD (p : Policy) (sc : BitVec 5) (a d : BitVec 6) (s : State) : Host.Outcome State Fault Refusal :=
  done (opStRel 8 p sc a d s)

/-- R262 `ldff`. -/
def execLdff (p : Policy) (a d : BitVec 6) (s : State) : Host.Outcome State Fault Refusal :=
  done ((memUse p [a] [d]).run s (fun s =>
    let o := s.xr a
    feCheck o (fun _ =>
      if !s.feFull (clusterOf s.cur) (o.toNat / 16) then .nr [.empty (o.toNat / 16)] 13 s
      else
        let r := s.spLoad (clusterOf s.cur) o.toNat 8
        .next (r.2.setX d (w64 r.1)))))

/-- R262 `ldfe`. -/
def execLdfe (p : Policy) (a d : BitVec 6) (s : State) : Host.Outcome State Fault Refusal :=
  done ((memUse p [a] [d]).run s (fun s =>
    let o := s.xr a
    feCheck o (fun _ =>
      if !s.feFull (clusterOf s.cur) (o.toNat / 16) then .nr [.empty (o.toNat / 16)] 13 s
      else
        let r := s.spLoad (clusterOf s.cur) o.toNat 8
        .next ((r.2.feClear (clusterOf s.cur) (o.toNat / 16)).setX d (w64 r.1)))))

/-- R262 `stef`. -/
def execStef (p : Policy) (a d : BitVec 6) (s : State) : Host.Outcome State Fault Refusal :=
  done (((memUse p [a, d] []).carries a [d]).run s (fun s =>
    let o := s.xr a
    feCheck o (fun _ =>
      if s.feFull (clusterOf s.cur) (o.toNat / 16) then .nr [.granuleFull (o.toNat / 16)] 14 s
      else .next (s.feStore (clusterOf s.cur) (o.toNat / 16) (s.xr d)))))

/-- R262 `stff`. -/
def execStff (p : Policy) (a d : BitVec 6) (s : State) : Host.Outcome State Fault Refusal :=
  done (((memUse p [a, d] []).carries a [d]).run s (fun s =>
    let o := s.xr a
    feCheck o (fun _ => .next (s.feStore (clusterOf s.cur) (o.toNat / 16) (s.xr d)))))

/-- R262 `fe.empty`: data and park entries unchanged. -/
def execFeEmpty (a : BitVec 6) (s : State) : Host.Outcome State Fault Refusal :=
  done (({ scalarUse [a] [] with after := true } : Use).run s (fun s =>
    let o := s.xr a
    feCheck o (fun _ => .next (s.feClear (clusterOf s.cur) (o.toNat / 16)))))

/-- R262 `fe.test`. -/
def execFeTest (p : Policy) (a d : BitVec 6) (s : State) : Host.Outcome State Fault Refusal :=
  done ((memUse p [a] [d]).run s (fun s =>
    let o := s.xr a
    feCheck o (fun _ =>
      let r := s.spLoad (clusterOf s.cur) o.toNat 8
      .next (r.2.setX d (w64 (b2n (s.feFull (clusterOf s.cur) (o.toNat / 16))))))))

/-- R263 `ldff [place]`. -/
def execLdffPlace (p : Policy) (c a d : BitVec 6) (s : State) : Host.Outcome State Fault Refusal :=
  done (opPlace 0 p c a d s)

/-- R263 `ldfe [place]`. -/
def execLdfePlace (p : Policy) (c a d : BitVec 6) (s : State) : Host.Outcome State Fault Refusal :=
  done (opPlace 1 p c a d s)

/-- R263 `stef [place]`. -/
def execStefPlace (p : Policy) (c a d : BitVec 6) (s : State) : Host.Outcome State Fault Refusal :=
  done (opPlace 2 p c a d s)

/-- R263 `stff [place]`. -/
def execStffPlace (p : Policy) (c a d : BitVec 6) (s : State) : Host.Outcome State Fault Refusal :=
  done (opPlace 3 p c a d s)

/-- R263 `ld.sp.d [place]`. -/
def execLdSpDPlace (p : Policy) (c a d : BitVec 6) (s : State) : Host.Outcome State Fault Refusal :=
  done (opPlace 4 p c a d s)

/-- R263 `st.sp.d [place]`. -/
def execStSpDPlace (p : Policy) (c a d : BitVec 6) (s : State) : Host.Outcome State Fault Refusal :=
  done (opPlace 5 p c a d s)

/-- R263 `ld.vm.d [place]`. -/
def execLdVmDPlace (p : Policy) (c a d : BitVec 6) (s : State) : Host.Outcome State Fault Refusal :=
  done (opPlace 6 p c a d s)

/-- R263 `st.vm.d [place]`. -/
def execStVmDPlace (p : Policy) (c a d : BitVec 6) (s : State) : Host.Outcome State Fault Refusal :=
  done (opPlace 7 p c a d s)

/-- R265 step 2, R15: what `park` waits for, whatever its register holds. -/
def State.latchBusy (s : State) : Res :=
  if !s.th.pendingAny && (s.th.rl.st == .busy || s.th.ll.st == .busy || s.th.sl.st == .busy) then .nr [.latches] 12 s else .skip s

/-- R265 `park`. -/
def execPark (p : Policy) (a : BitVec 6) (s : State) : Host.Outcome State Fault Refusal :=
  done (({ memUse p [a] [] with heavy := true, early := fun _ s => s.latchBusy } : Use).run s (fun s =>
    let o := s.xr a
    feCheck o (fun _ =>
      let cl := clusterOf s.cur
      let g := o.toNat / 16
      if s.th.pendingAny then .skip s
      else if s.th.rl.st = .busy ∨ s.th.ll.st = .busy ∨ s.th.sl.st = .busy then .nr [.latches] 12 s
      else if s.feFull cl g then .next s
      else if !s.parkAdmits cl s.issuer then
        let q := s.parkRefuse cl s.issuer
        if q.1 ≥ 256 then .trapAfter (fun s => s.parkForget cl s.issuer) tRETRY o
        else .nr (.parkFull :: (if s.myCtx.freeFrame.isNone then [.noFrame] else [])) 15 q.2
      else match s.myCtx.freeFrame with
        | none => .nr [.noFrame] 18 s
        | some n =>
          let s := (((s.flushPort (coreOf s.cur)).flushSends s.cur).settle s.cur).releaseLines s.cur
          let h := s.th.ready
          let f : Frame := { num := n, sid := s.cur, why := 1, qo := (s.slot s.cur).qo, th := { h with pc := h.pc + 4#64 } }
          match s.toFrame s.th.ctx f with
          | none => .nr [.noFrame] 18 (s.modCtx s.th.ctx (fun c => { c with lastErr := 1 }))
          | some s =>
            .own ((s.parkEnter cl { kind := 1, gran := g, sid := s.cur, gen := s.th.gen, reg := 0#6, seqNo := 0#8,
                                    frame := n, ctx := s.th.ctx, clock := s.th.clock, uid := s.th.uid }).vacate s.cur))))

/-- R267: pins of a core. -/
def Core.pinCount (k : Core) : Nat := k.l1.foldl (fun n p => n + (if p.2.pins.isEmpty then 0 else 1)) 0

/-- R267 `pin`. -/
def execPin (p : Policy) (a d : BitVec 6) (s : State) : Host.Outcome State Fault Refusal :=
  done ((memUse p [a] [d]).run s (fun s =>
    let va := s.xr a
    (s.resolve va 1 (Kind.ofCode 0)).res Cause.memCode (fun e s =>
      let sys := e.sys va.toNat
      match s.machineOf sys with
      | none => (s.remoteLoad (sys / 64 * 64) va.toNat 8).res Cause.memCode (fun _ s => .next (s.setX d 0#64))
      | some m =>
        let line := m / 64
        let cid := coreOf s.cur
        let slot := s.cur % 16
        let pc := s.th.pc
        if s.ownUpdate line then .nr [.merge line] 22 (s.owe (.fill cid slot line pc))
        else match s.me.l1.find? line with
          | some c =>
            let s := s.releaseHold cid slot line
            if c.pins.contains slot then .next (s.setX d 1#64)
            else if s.me.pinCount < 128 then
              .next ((s.modMe (fun k => { k with l1 := match k.l1.find? line with
                | some c => k.l1.put line { c with pins := slot :: c.pins }
                | none => k.l1 })).setX d 1#64)
            else .next (s.setX d 0#64)
          | none =>
            match s.copyFor cid slot line pc with
            | some _ => .next ((s.releaseHold cid slot line).setX d 0#64)
            | none => .nr [.lineAbsent line] 2 (s.owe (.fill cid slot line pc)))))

/-- R267: a thread's pin on a line of its core is released. -/
def Core.unpin (k : Core) (slot line : Nat) : Core :=
  { k with l1 := match k.l1.find? line with
      | some c => k.l1.put line { c with pins := c.pins.filter (· != slot) }
      | none => k.l1 }

/-- R267 `unpin`: the line is found through a translation, or, where no TLB has it, through the tables, which it does not
mark. Of an address that is not canonical the low 57 bits are translated. (Log: DESIGN CHOICE 87) -/
def execUnpin (a : BitVec 6) (s : State) : Host.Outcome State Fault Refusal :=
  done ((scalarUse [a] []).run s (fun s =>
    let va := s.xr a
    let slot := s.cur % 16
    let sys : Option Nat := match s.xlate (coreOf s.cur) s.th.ctx va.toNat {} with
      | some e => some (e.sys va.toNat)
      | none => match s.translate false s.th.ctx va.toNat {} with
        | .ok w _ => some w.addr
        | .fault .. => none
    match sys.bind s.machineOf with
    | some m => .next (s.modMe (fun k => k.unpin slot (m / 64)))
    | none => .next s))

/-- R267 `unpin.all`. -/
def execUnpinAll (s : State) : Host.Outcome State Fault Refusal :=
  done ((scalarUse [] []).run s (fun s =>
    let slot := s.cur % 16
    .next (s.modMe (fun k => { k with
      l1 := k.l1.map (fun p => (p.1, { p.2 with pins := p.2.pins.filter (· != slot) })) }))))

/-- R267 `pf`: it asks for the line and has no effect that programs see; it does not consume x[a]. -/
def execPf (a : BitVec 6) (s : State) : Host.Outcome State Fault Refusal :=
  done ((scalarUse [] []).run s (fun s =>
    let va := s.xr a
    if (s.armOf a).st = .awaiting ∨ (s.th.pendingAt (.x a)).isSome ∨ !canonical va then .next s
    else match s.xlate (coreOf s.cur) s.th.ctx va.toNat (Kind.ofCode 0) with
      | none => .next s
      | some e =>
        match s.machineOf (e.sys va.toNat) with
        | some m => if e.r then .next (s.owe (.fill (coreOf s.cur) (s.cur % 16) (m / 64) s.th.pc)) else .next s
        | none => .next s))

/-! ### The barrier wires (R268 to R270) -/

/-- R268: the fields of HBCn. -/
def hbCnt (w : Word) : Nat := bitsAt w.toNat 0 8
/-- See hbCnt. -/
def hbTmo (w : Word) : Nat := bitsAt w.toNat 16 8
/-- See hbCnt. -/
def hbArr (w : Word) : Nat := bitsAt w.toNat 24 8
/-- See hbCnt. -/
def hbPhase (w : Word) : Nat := bitsAt w.toNat 32 8
/-- See hbCnt. -/
def hbEn (w : Word) : Bool := w.getLsbD 40
/-- See hbCnt. -/
def hbT (w : Word) : Bool := w.getLsbD 41

/-- R269: an arrival counted. -/
def hbArrive (w : Word) : Word := w + w64 (2 ^ 24)

/-- R269: the advance of a cluster: PHASE + 1, ARR 0, T as given. -/
def hbAdvance (w : Word) (t : Bool) : Word :=
  w64 (bitsAt w.toNat 0 24 + (hbPhase w + 1) % 256 * 2 ^ 32 + b2n (hbEn w) * 2 ^ 40 + b2n t * 2 ^ 41)

/-- R270: the thread may use an instance: its cluster takes part, and its context holds the instance on its die. -/
def State.hbarOk (s : State) (n : Nat) : Bool :=
  hbEn (vrd s.mine.hbc n) && s.holdsAllot s.th.ctx (s.hbaOf (dieOf (clusterOf s.cur))) n

/-- R270: the current thread's cluster has arrivals left in the phase of an instance. -/
def State.hbarFree (s : State) (n : Nat) : Acc Unit :=
  let w := vrd s.mine.hbc n
  if hbArr w = hbCnt w then .nr [.barrierHeld n] s else .ok () s

/-- R270 `hbar.arr`. -/
def execHbarArr (p : Policy) (n : BitVec 2) (d : BitVec 6) (s : State) : Host.Outcome State Fault Refusal :=
  done (({ memUse p [] [d] with feat := some fHbar, word := rpw p.bits 23 (0#4 ++ n) 0#6 d 12 } : Use).run s (fun s =>
    let cl := clusterOf s.cur
    if !s.hbarOk n.toNat then .trap tBARRIER (w64 n.toNat)
    else ((s.fence 4).both (fun s => s.hbarFree n.toNat) (fun _ v => v)).res Cause.memCode (fun _ s =>
      let w := vrd s.mine.hbc n.toNat
      let w' := hbArrive w
      let now := s.cycle
      let s := s.modCluster cl (fun c => { c with
        hbc := vwr c.hbc n.toNat w',
        hbSince := if hbArr w' = hbCnt w' then vwr c.hbSince n.toNat (some now) else c.hbSince })
      .next ((s.owe (.hbar (dieOf cl) n.toNat)).setX d (w64 (hbPhase w))))))

/-- R270 `hbar.wt`. -/
def execHbarWt (p : Policy) (n : BitVec 2) (a d : BitVec 6) (s : State) : Host.Outcome State Fault Refusal :=
  done (({ memUse p [a] [d] with feat := some fHbar, word := rpw p.bits 24 (0#4 ++ n) a d 12, data := [a] } : Use).run s (fun s =>
    if !s.hbarOk n.toNat then .trap tBARRIER (w64 n.toNat)
    else
      let w := vrd s.mine.hbc n.toNat
      if hbPhase w = (s.xr a).toNat % 256 then .nr [.barrier n.toNat (hbPhase w)] 19 s
      else
        .next ((s.acquireAll s.cur).setX d (w64 (b2n (hbT w) * 256 + hbPhase w)))))

/-- R269: the clusters of a die that take part in an instance. -/
def State.hbarMembers (s : State) (die n : Nat) : List Nat :=
  (s.clusters.filter (fun p => dieOf p.1 == die && hbEn (vrd p.2.hbc n))).map (·.1)

/-- R269: the advance of an instance at every cluster of a die that takes part. -/
def State.hbarAdvanceAll (s : State) (die n : Nat) (t : Bool) : State :=
  (s.hbarMembers die n).foldl (fun s cl => s.modCluster cl (fun c => { c with
    hbc := vwr c.hbc n (hbAdvance (vrd c.hbc n) t), hbSince := vwr c.hbSince n none })) s

/-- R269: the instance advances when every cluster that takes part is done. -/
def State.hbarStep (s : State) (die n : Nat) : State :=
  let ms := s.hbarMembers die n
  if !ms.isEmpty && ms.all (fun cl => hbArr (vrd (s.cluster cl).hbc n) == hbCnt (vrd (s.cluster cl).hbc n)) then
    s.hbarAdvanceAll die n false
  else s

/-- R269: a done cluster's timer has reached its limit. -/
def State.hbarExpired (s : State) (cl n : Nat) : Bool :=
  let w := vrd (s.cluster cl).hbc n
  hbEn w && hbTmo w != 0 && hbArr w == hbCnt w &&
    (match vrd (s.cluster cl).hbSince n with | some t => decide (t + hbTmo w * 256 ≤ s.cycle) | none => false)

/-! ### Events -/

/-- HBAR_ADVANCE (R269). (Log: DEDUCED 12) -/
def execHbarAdvance (die n : Nat) (s : State) : Host.Outcome State Fault Refusal := done (s.hbarStep die n)

/-- HBAR_TIMEOUT (R269): a done cluster's timer ends the phase with T = 1 everywhere. -/
def execHbarTimeout (cl n : Nat) (s : State) : Host.Outcome State Fault Refusal :=
  done (if s.hbarExpired cl n then s.hbarAdvanceAll (dieOf cl) n true else s)

/-- R268: a write of HBCn: accepted while ARR = 0, and not with EN = 1 and a CNT of 0 or above 128. -/
def hbWrite (old new : Word) : Word :=
  if hbArr old ≠ 0 ∨ (hbEn new ∧ (hbCnt new = 0 ∨ hbCnt new > 128)) then old
  else w64 (bitsAt new.toNat 0 8 + bitsAt new.toNat 16 8 * 2 ^ 16 + hbPhase old * 2 ^ 32 + b2n (hbEn new) * 2 ^ 40
    + b2n (hbT old) * 2 ^ 41)

/-- HBC_WRITE (R268): a write to a barrier register of a cluster. -/
def execHbcWrite (cl n : Nat) (v : Word) (s : State) : Host.Outcome State Fault Refusal :=
  done (s.modCluster cl (fun c => { c with hbc := vwr c.hbc n (hbWrite (vrd c.hbc n) v) }))

/-- R135: the address of the access for which a slot waits for a line. -/
def State.askPc (s : State) (cid slot line : Nat) : Word :=
  match s.due.findSome? (fun j => match j with
    | .fill c sl l pc => if c == cid && sl == slot && l == line then some pc else none
    | .renew c sl l pc => if c == cid && sl == slot && l == line then some pc else none
    | _ => none) with
  | some pc => pc
  | none => (s.thread (16 * cid + slot)).pc

/-- L1_LINE_FILL (R134, R135): a line arrives for a slot. -/
def execL1LineFill (cid slot line : Nat) (s : State) : Host.Outcome State Fault Refusal :=
  done (s.fillLine cid (slot % 16) line (s.askPc cid (slot % 16) line))

/-- R134, R135: holds that have lasted two rotations end, and so does a bypass line's. -/
def State.expireHolds (s : State) (cid line : Nat) : State :=
  let s := s.modCore cid (fun k => { k with l1 := match k.l1.find? line with
    | some c => k.l1.put line { c with holds := c.holds.filter (fun h => decide (k.cycle < h.2 + 32)) }
    | none => k.l1 })
  let now := (s.core cid).cycle
  (upTo 16).foldl (fun s i => s.modSlot (16 * cid + i) (fun sl =>
    match sl.bypass with
    | some b => if b.line == line && decide (b.copy.granted + 32 ≤ now) then { sl with bypass := none } else sl
    | none => sl)) s

/-- ARRIVAL_HOLD_EXPIRY (R134). -/
def execArrivalHoldExpiry (cid line : Nat) (s : State) : Host.Outcome State Fault Refusal :=
  done (s.expireHolds cid line)

/-- COMBINE_DRAIN (R208): an entry of a core's combining buffer is performed at its home. -/
def execCombineDrain (cid line : Nat) (s : State) : Host.Outcome State Fault Refusal := done (s.drainComb cid line)

/-- R233: the combining entries of a core that must be performed by a cycle, 4,096 cycles after their first store. -/
def State.combDue (s : State) (cid by_ : Nat) : List Nat :=
  ((s.core cid).comb.filter (fun e => decide (e.since + 4096 ≤ by_))).map (·.line)

/-- R233: the combining entries that fall due within the coming rotation are performed. (Log: DESIGN CHOICE 13) -/
def State.expireComb (s : State) (cid : Nat) : State :=
  (s.combDue cid ((s.core cid).cycle + 16)).foldl (fun (s : State) line => s.drainComb cid line) s

/-- COMBINE_AGE_EXPIRY (R233). -/
def execCombineAgeExpiry (cid : Nat) (s : State) : Host.Outcome State Fault Refusal :=
  done ((s.combDue cid (s.core cid).cycle).foldl (fun (s : State) line => s.drainComb cid line) s)

/-- LEASE_AGE_EXPIRY (R233): a copy past its age limit serves no load; unless pinned or held, it is dropped. -/
def execLeaseAgeExpiry (cid line : Nat) (s : State) : Host.Outcome State Fault Refusal :=
  done (s.modCore cid (fun k => { k with l1 := match k.l1.find? line with
    | some c => if c.fresh k.cycle || c.kept k.cycle then k.l1 else k.l1.drop line
    | none => k.l1 }))

/-- LEASE_RENEWAL (R232). -/
def execLeaseRenewal (cid slot line : Nat) (s : State) : Host.Outcome State Fault Refusal :=
  done (s.renewLease cid (slot % 16) line (s.askPc cid (slot % 16) line))

/-- WRITE_GRANT (R232). -/
def execWriteGrant (cid slot line : Nat) (s : State) : Host.Outcome State Fault Refusal :=
  done (s.giveGrant cid (slot % 16) line)

/-- OWNERSHIP_GRANT (R256). -/
def execOwnershipGrant (cid slot line : Nat) (s : State) : Host.Outcome State Fault Refusal :=
  done (s.grantOwner cid (slot % 16) line)

/-- UPDATE_MERGE (R243): the home merges a core's update-only line. -/
def execUpdateMerge (cid line : Nat) (s : State) : Host.Outcome State Fault Refusal := done (s.mergeLine cid line)

/-- REQUEST_REPLY (R254): a reply that is outside the device's own path sets the request latch of a slot. -/
def execRequestReply (sid : Nat) (s : State) : Host.Outcome State Fault Refusal :=
  match (firstIdx s.due (fun j => match j with | .request r => r.who.sid == sid | _ => false)).bind s.takeJob with
  | some (.request r, s') => done (s'.performRequest r)
  | _ => done s

/-- PLACE_REQUEST (R263): the n-th request on its way is performed at the owning cluster, which replies. -/
def execPlaceRequest (n : Nat) (s : State) : Host.Outcome State Fault Refusal :=
  match s.takeJob n with
  | some (.request r, s') => done (s'.performRequest r)
  | _ => done s

/-- R225: reservations that have lasted 2 rotations pass to the next refused issuer. -/
def State.parkExpire (s : State) (cl : Nat) : State :=
  let now := s.cycle
  match (s.cluster cl).parkResv.find? (fun r => decide (r.2.2 ≤ now)) with
  | none => s
  | some r =>
    let s := s.modCluster cl (fun c => { c with
      parkResv := c.parkResv.erase r,
      parkRefused := c.parkRefused.filter (fun q => !(q.sid == r.1 && q.gen == r.2.1)) ++
        c.parkRefused.filter (fun q => q.sid == r.1 && q.gen == r.2.1) })
    s.reservePark cl

/-- PARK_RESERVATION_EXPIRY (R225). -/
def execParkReservationExpiry (cl : Nat) (s : State) : Host.Outcome State Fault Refusal := done (s.parkExpire cl)

/-- R99, R345: the reply of a remote owner to the n-th request of a core: a load's line goes to the bypass line of its
thread's slot, with what the thread has sent there before it (R100), an atomic's old value to the request latch, a store or
update is acknowledged. -/
def State.remoteReply (s : State) (cid n : Nat) (data : BitVec 512) : State :=
  match (s.core cid).remote[n]? with
  | none => s
  | some r =>
    let sid := 16 * cid + r.slot
    let own := ((s.core cid).remote.take n).filter (fun q => q.uid == r.uid && q.sys / 64 == r.sys / 64)
    let s := s.modCore cid (fun k => { k with remote := k.remote.eraseIdx n })
    let now := (s.core cid).cycle
    match r.kind with
    | 0 =>
      if (s.thread sid).uid = r.uid then
        let d := own.foldl (fun d q => q.over d) data
        s.modSlot sid (fun sl => { sl with
          bypass := some ⟨r.sys / 64, { data := d, wt := 0, leaseEnd := 0, granted := now, asOf := 0 }, r.pc⟩ })
      else s
    | 2 => s.replyTo r.uid { kind := 2, slot := r.slot, gen := r.gen, value := data.setWidth 64, code := 0 }
    | _ => s

/-- R345: a remote access that gets no data: a load or an atomic completes with zeros, a store or update is dropped; the
error is counted and logged for the context of the access. -/
def State.remoteFail (s : State) (cid n : Nat) : State :=
  match (s.core cid).remote[n]? with
  | none => s
  | some r =>
    let s := s.remoteReply cid n 0#512
    (s.countErrors r.ctx 1).logError r.ctx 7 (if r.kind == 0 || r.kind == 2 then 2 else 3) r.va

/-- R421, R422: the packet of the n-th request of a core has left the device: neither is it held by a port, nor has it been
dropped. -/
def State.travels (s : State) (cid n : Nat) : Bool :=
  match (s.core cid).remote[n]? with
  | some r => s.outbox.any (fun p => p.num == r.num)
  | none => false

/-- REMOTE_REPLY (R99, R425): the owner's reply, or its refusal, which ends the access as a reply that has not come. A
request that has not left, or is lost, has none (R422). -/
def execRemoteReply (cid n : Nat) (refused : Bool) (data : BitVec 512) (s : State) : Host.Outcome State Fault Refusal :=
  done (if !s.travels cid n then s else if refused then s.remoteFail cid n else s.remoteReply cid n data)

/-- R345: the time limit of a remote access, 2^20 cycles. -/
def State.remoteTimeout (s : State) (cid n : Nat) : State :=
  match (s.core cid).remote[n]? with
  | none => s
  | some r => if (s.core cid).cycle < r.since + 2 ^ 20 then s else s.remoteFail cid n

/-- REMOTE_TIMEOUT (R345). -/
def execRemoteTimeout (cid n : Nat) (s : State) : Host.Outcome State Fault Refusal := done (s.remoteTimeout cid n)

end Sys2Proof.Machine
end

