-- ==== Sys2Proof/Machine/Faults.lean ====
section
/-! DEFINITION. Faults: the sorters and their batches, the fault queue, the end of a fault and the replay of held stores,
and the fault and error registers of a context (R337 to R344, R347, R450). -/

namespace Sys2Proof.Machine

/-! ### Registers (R340, R347) -/

/-- R340: the bits of a ring register that are written. -/
def ringMask (v : Word) : Word := v &&& 0xFFFFFFFFFFFFF01F#64

/-- R340: the bits of a doorbell register. -/
def bellMask (v : Word) : Word := v &&& 0x8000000003FFFFFF#64

/-- R340: a write to FQB. -/
def Ctx.writeFqb (c : Ctx) (v : Word) : Ctx :=
  if lnOk (ringLn v) && c.fqh == c.fqt then { c with fqb := ringMask v } else c

/-- R340: software consumes entries. -/
def Ctx.writeFqh (c : Ctx) (v : Word) : Ctx := { c with fqh := v.setWidth 32 }

/-- R340: a write to FQD. -/
def Ctx.writeFqd (c : Ctx) (v : Word) : Ctx := { c with fqd := bellMask v }

/-- R347: a write to ERB. -/
def Ctx.writeErb (c : Ctx) (v : Word) : Ctx := if lnOk (ringLn v) then { c with erb := ringMask v } else c

/-- R347: a write to ERC. -/
def Ctx.writeErc (c : Ctx) (v : Word) : Ctx := { c with erc := v }

/-- R347: a write to ERTH. -/
def Ctx.writeErth (c : Ctx) (v : Word) : Ctx := { c with erth := v &&& 0xBF000000FFFFFFFF#64 }

/-- FQB_WRITE (R340). -/
def execFqbWrite (a : Nat) (v : Word) (s : State) : Host.Outcome State Fault Refusal :=
  done (s.modCtx a (fun c => c.writeFqb v))

/-- FQH_WRITE (R340). -/
def execFqhWrite (a : Nat) (v : Word) (s : State) : Host.Outcome State Fault Refusal :=
  done (s.modCtx a (fun c => c.writeFqh v))

/-- ERB_WRITE (R347). -/
def execErbWrite (a : Nat) (v : Word) (s : State) : Host.Outcome State Fault Refusal :=
  done (s.modCtx a (fun c => c.writeErb v))

/-- ERC_WRITE (R347). -/
def execErcWrite (a : Nat) (v : Word) (s : State) : Host.Outcome State Fault Refusal :=
  done (s.modCtx a (fun c => c.writeErc v))

/-! ### The end of a fault (R342, R343) -/

/-- R11, R339: the canonical address of a page. -/
def pageAddr (page : Nat) : Nat := ((BitVec.ofNat 57 (page * 4096)).signExtend 64).toNat

/-- The issuer of a host access (R339): no thread has this slot number. -/
def hostSid : Nat := 131072

/-- A thread's waits on pages of a context end: with `bad`, each such access raises FAULT_FAILED at its next execution. The
end is a release towards the access (R342, R344): it sees the `n` writes performed before. -/
def Thread.endWaits (h : Thread) (cl : Nat) (waits : List (Nat × Nat × Nat)) (bad : Bool) (n : Nat) : Thread :=
  let mine := h.waits.filter (fun p => waits.contains (cl, h.ctx, p))
  if mine.isEmpty then h
  else { h with
    waits := h.waits.filter (fun p => !mine.contains p), failed := if bad then mine ++ h.failed else h.failed,
    floor := max h.floor n }

/-- R343: the head of an engine's queue that waits on a page. -/
def CopyEntry.endWaits (e : CopyEntry) (cl : Nat) (waits : List (Nat × Nat × Nat)) (bad : Bool) : CopyEntry :=
  match e.waitPage with
  | some p => if waits.contains (cl, e.who.ctx, p) then
      { e with waitPage := none, failedPage := if bad then some p else e.failedPage } else e
  | none => e

/-- See CopyEntry.endWaits. -/
def CollEntry.endWaits (e : CollEntry) (cl : Nat) (waits : List (Nat × Nat × Nat)) (bad : Bool) : CollEntry :=
  match e.waitPage with
  | some p => if waits.contains (cl, e.who.ctx, p) then
      { e with waitPage := none, failedPage := if bad then some p else e.failedPage } else e
  | none => e

/-- See CopyEntry.endWaits. -/
def CtxEntry.endWaits (e : CtxEntry) (cl : Nat) (waits : List (Nat × Nat × Nat)) (bad : Bool) : CtxEntry :=
  match e.waitPage with
  | some p => if waits.contains (cl, e.who.ctx, p) then
      { e with waitPage := none, failedPage := if bad then some p else e.failedPage } else e
  | none => e

/-- See CopyEntry.endWaits. -/
def HostReq.endWaits (e : HostReq) (cl : Nat) (waits : List (Nat × Nat × Nat)) (bad : Bool) : HostReq :=
  match e.waitPage with
  | some p => if waits.contains (cl, e.ctx, p) then
      { e with waitPage := none, failedPage := if bad then some p else e.failedPage } else e
  | none => e

/-- R342, R343: every access that waits on the pages of a range is told, those of saved threads and entries too. -/
def State.endWaits (s : State) (waits : List (Nat × Nat × Nat)) (bad : Bool) : State :=
  let s := if s.hostWaits.isEmpty then s else s.owe .hostRetry
  let n := s.performed
  { s with
    saves := s.saves.map (fun g => { g with
      slots := g.slots.map (fun p => (p.1, { p.2 with th := p.2.th.endWaits g.phys waits bad n })),
      coll := g.coll.map (fun p => (p.1, p.2.endWaits g.phys waits bad)),
      image := { g.image with copyq := g.image.copyq.map (fun q => q.map (fun e => e.endWaits g.phys waits bad)) } }),
    hostWaits := s.hostWaits.map (fun e => e.endWaits 0 waits bad),
    cores := s.cores.map (fun (k : Nat × Core) => (k.1, { k.2 with
      kept := k.2.kept.map (fun p => (p.1, { p.2 with th := p.2.th.endWaits (k.1 / 8) waits bad n })) })),
    slots := s.slots.map (fun (p : Nat × Slot) => (p.1, { p.2 with th := p.2.th.endWaits (clusterOf p.1) waits bad n })),
    ctxs := s.ctxs.map (fun (p : Nat × Ctx) => (p.1, { p.2 with
      framesIn := p.2.framesIn.map (fun f => { f with th := f.th.endWaits (clusterOf f.sid) waits bad n }),
      engine := p.2.engine.map (fun e => e.endWaits (clusterOf e.who.sid) waits bad) })),
    clusters := s.clusters.map (fun (p : Nat × Cluster) => (p.1, { p.2 with
      copyq := p.2.copyq.map (fun q => q.map (fun e => e.endWaits p.1 waits bad)) })),
    fields := s.fields.map (fun (p : Nat × Field) => (p.1, { p.2 with
      collq := p.2.collq.map (fun q => q.map (fun e => e.endWaits e.cl waits bad)) })) }

/-- R342, R343: held stores of a cluster are discarded: one entry of KIND 4 in each storing context, and ERC.
(Log: DEDUCED 28) -/
def State.discarded (s : State) (addr : Nat) (l : List HeldStore) : State :=
  (uniq (l.map (·.who.ctx))).foldl (fun s a =>
    (s.logError a 8 4 addr).countErrors a (l.filter (fun h => h.who.ctx == a)).length) s

/-- The range with a fault id, where it has not ended. -/
def State.rangeOf (s : State) (fid : BitVec 32) : Option FaultRange :=
  (s.field (fid.toNat / 2 ^ 29)).ranges.find? (fun r => r.fid == fid && !r.ended)

/-- Change the ranges of a field. -/
def State.modRanges (s : State) (fid : BitVec 32) (f : List FaultRange → List FaultRange) : State :=
  s.modField (fid.toNat / 2 ^ 29) (fun c => { c with ranges := f c.ranges })

/-- R342: the FID slot of a range is freed once no held store of it is left. -/
def State.freeFid (s : State) (fid : BitVec 32) : State :=
  if s.clusters.any (fun c => c.2.replay.any (fun h => h.released == some fid)) then s
  else s.modRanges fid (fun l => l.filter (fun r => !(r.fid == fid && r.ended)))

/-- R342, R343, R450: a range ends, in success or in failure. -/
def State.endRange (s : State) (r : FaultRange) (bad : Bool) : State :=
  let mine (cl : Nat) (h : HeldStore) : Bool := h.released.isNone && r.waits.contains (cl, h.who.ctx, h.page)
  let s := s.modRanges r.fid (fun l => updWhere l (fun o => o.fid == r.fid) (fun o => { o with ended := true }))
  let s := s.endWaits r.waits bad
  let with_ := s.clusters.filter (fun c => c.2.replay.any (mine c.1))
  let s := with_.foldl (fun (s : State) c =>
    if bad then
      (s.modCluster c.1 (fun k => { k with replay := k.replay.filter (fun h => !mine c.1 h) })).discarded
        (pageAddr r.page) (c.2.replay.filter (mine c.1))
    else (s.modCluster c.1 (fun k => { k with
      replay := updWhere k.replay (mine c.1) (fun h => { h with released := some r.fid }) })).owe (.replayHeld c.1)) s
  s.freeFid r.fid

/-- Insert into a sorted list. -/
def insertBy {α : Type} (lt : α → α → Bool) (a : α) : List α → List α
  | [] => [a]
  | b :: r => if lt a b then a :: b :: r else b :: insertBy lt a r

/-- Sort a list; equal elements keep their order. -/
def sortBy {α : Type} (lt : α → α → Bool) (l : List α) : List α := l.foldl (fun r a => insertBy lt a r) []

/-- R342: what the replay of one held store comes to: performed, held again, or discarded. -/
def State.replayStore (s : State) (cl : Nat) (h : HeldStore) : State × Bool × List HeldStore :=
  match s.translateFor cl true h.who.ctx h.va ⟨h.upd.isSome, true, false⟩ with
  | .fault c l p k s =>
    (s.recordFault cl c l p k ⟨h.upd.isSome, true, false⟩ false h.who h.who.ctx h.page, false, [{ h with released := none }])
  | .ok w s =>
    if !w.w ∨ (h.upd.isSome ∧ !w.r) then (s, true, [])
    else
      let cells (m : Nat) : List Host.Cell := h.bytes.map (fun b => (m + (b.1 - h.va), b.2))
      let cid := coreOf h.who.sid
      match s.machineOf w.addr, h.upd with
      | some m, none => (((s.performWrite (m / 64) (cells m) 0 none).carry (m / 64) (cells m) h.rels).refreshFor h.who.uid
          (m / 64), false, [])
      | some m, some (kind, wide, v) =>
        let n := if wide then 8 else 4
        let s := (s.mergeAll (m / 64)).readLine (m / 64) h.who.ctx m false true
        let x := updApply kind wide (Memory.nat s.mem m n) v.toNat
        let cs := cellsAt m (leBytes x n)
        (((s.performWrite (m / 64) cs 0 none).carry (m / 64) cs h.rels).refreshFor h.who.uid (m / 64), false, [])
      | none, u =>
        let r : RemoteReq := {
          kind := if u.isSome then 3 else 1, slot := h.who.sid % 16, gen := h.who.gen, sys := w.addr,
          bytes := cells w.addr, op := (u.map (·.1)).getD 0, wide := (u.map (·.2.1)).getD true,
          operand := (u.map (·.2.2)).getD 0#64, since := (s.core cid).cycle, va := h.va, ctx := h.who.ctx,
          uid := h.who.uid }
        (s.askRemote cid r, false, [])

/-- R248, R342: the released stores that one `flt.done` has released, in every cluster, and the earlier released ones of
their threads, in the order held, each with its cluster. -/
def State.replayList (s : State) (fid : BitVec 32) : List (Nat × HeldStore) :=
  let all := s.clusters.flatMap (fun c => (c.2.replay.filter (·.released.isSome)).map (fun h => (c.1, h)))
  let main := all.filter (fun p => p.2.released == some fid)
  sortBy (fun a b => decide (a.2.num < b.2.num)) (all.filter (fun p =>
    p.2.released == some fid || main.any (fun g => g.2.who.uid == p.2.who.uid && decide (p.2.num < g.2.num))))

/-- R342: one held store of a cluster is replayed: performed, held again, or with the discarded ones. -/
def State.replayOne (p : State × List (Nat × HeldStore)) (e : Nat × HeldStore) : State × List (Nat × HeldStore) :=
  let s := p.1.modCluster e.1 (fun c => { c with replay := c.replay.filter (· != e.2) })
  let r := s.replayStore e.1 e.2
  (r.1.modCluster e.1 (fun c => { c with replay := c.replay ++ r.2.2 }), p.2 ++ (if r.2.1 then [e] else []))

/-- R342: the first page of the range with a fault id, as an address. -/
def State.rangeAddr (s : State) (fid : BitVec 32) : Nat :=
  pageAddr ((((s.field (fid.toNat / 2 ^ 29)).ranges.find? (fun r => r.fid == fid)).map (·.page)).getD 0)

/-- R342: the replay of the stores that one `flt.done` has released. -/
def State.replayAll (s : State) (fid : BitVec 32) : State :=
  let l := s.replayList fid
  let p := l.foldl State.replayOne (s, [])
  let s := (uniq (p.2.map (·.1))).foldl (fun (s : State) cl =>
    (p.2.filterMap (fun e => e.2.released)).eraseDups.foldl (fun (s : State) f =>
      s.discarded (s.rangeAddr f) ((p.2.filter (fun e => e.1 == cl && e.2.released == some f)).map (·.2))) s) p.1
  ((l.filterMap (fun e => e.2.released)).eraseDups).foldl State.freeFid s

/-- R342: the replay of a cluster's released stores, the first released first. -/
def State.replayHeld (s : State) (cl : Nat) : State :=
  match (s.cluster cl).replay.findSome? (·.released) with
  | some fid =>
    let s := s.replayAll fid
    if (s.cluster cl).replay.any (·.released.isSome) then s.owe (.replayHeld cl) else s
  | none => s

/-- HELD_STORE_REPLAY (R342). -/
def execHeldStoreReplay (cl : Nat) (s : State) : Host.Outcome State Fault Refusal := done (s.replayHeld cl)

/-- R342 `flt.done`. -/
def execFltDone (b a : BitVec 6) (s : State) : Host.Outcome State Fault Refusal :=
  done (({ word := rw 8 b a 0#6 28, kern := true, names := [.x a, .x b], reads := [a, b] } : Use).run s (fun s =>
    let fid := s.xr a
    match (if fid.toNat < 2 ^ 32 then s.rangeOf (fid.setWidth 32) else none) with
    | none => .trap tDESC fid
    | some r =>
      if r.owner ≠ s.th.ctx then .trap tDESC fid
      else match s.fence 4 with
        | .ok _ s => .next (s.endRange r (s.xr b != 0#64))
        | .nr _ s => .skip s
        | .trap c i => .trap c i
        | .failed _ _ => .skip s))

/-! ### Batches (R338 to R341, R450) -/

/-- R338: records merged into a range: its records with their places in the batch. -/
structure Merged where
  owner : Nat
  stage : Nat
  level : Nat
  page : Nat
  npg : Nat
  recs : List (Nat × FaultRec)
deriving DecidableEq, Repr

/-- Lists of numbers in the order of their first difference. -/
def lexLt : List Nat → List Nat → Bool
  | a :: r, b :: q => decide (a < b) || (a == b && lexLt r q)
  | _, _ => false

/-- R338: sorted records merged into ranges; the newest range first. -/
def mergeRecs (l : List (Nat × FaultRec)) : List Merged :=
  l.foldl (fun acc p =>
    let new : Merged := ⟨p.2.owner, p.2.stage, p.2.level, p.2.page, 1, [p]⟩
    match acc with
    | m :: r =>
      if m.owner = p.2.owner ∧ m.stage = p.2.stage ∧ m.level = p.2.level ∧ p.2.page ≤ m.page + m.npg then
        { m with npg := max m.npg (p.2.page + 1 - m.page), recs := m.recs ++ [p] } :: r
      else new :: m :: r
    | [] => [new]) []

/-- R338: the ranges of a batch, by owning context and ascending address. -/
def batchRanges (l : List FaultRec) : List Merged :=
  let recs := (l.zipIdx).map (fun p => (p.2, p.1))
  let sorted := sortBy (fun a b => lexLt [a.2.owner, a.2.stage, a.2.level, a.2.page]
    [b.2.owner, b.2.stage, b.2.level, b.2.page]) recs
  sortBy (fun a b => lexLt [a.owner, a.page] [b.owner, b.page]) (mergeRecs sorted).reverse

/-- R338: the first issuer of a range: the record that came first. -/
def Merged.firstRec (m : Merged) : Option FaultRec :=
  ((sortBy (fun a b => decide (a.1 < b.1)) m.recs).head?).map (·.2)

/-- R338: the outstanding range that a merged one becomes, with its fault id. -/
def Merged.range (m : Merged) (fid : BitVec 32) : FaultRange :=
  let any (f : FaultRec → Bool) : Bool := m.recs.any (fun p => f p.2)
  { fid := fid, owner := m.owner, stage := m.stage, level := m.level, page := m.page, npg := m.npg,
    nrec := min m.recs.length 65535, r := any (·.r), w := any (·.w), x := any (·.x),
    eng := (m.firstRec.map (·.eng)).getD false, who := (m.firstRec.map (·.who)).getD ⟨hostSid, 0#8, 0, 0⟩,
    waits := m.recs.foldl (fun l p => p.2.waits.foldl (fun l w => addNew l (p.2.cl, w)) l) [] }

/-- R338: the first free slot after one. -/
def freeFidSlot (ranges : List FaultRange) (last : Nat) : Option Nat :=
  ((upTo 256).map (fun i => (last + 1 + i) % 256)).find? (fun n => !ranges.any (fun r => r.fid.toNat % 256 == n))

/-- R339: the identity of the first issuer. (Log: DEDUCED 29) -/
def State.whoWord (s : State) (who : Issuer) : Nat :=
  if who.sid ≥ hostSid then s.devId * 2 ^ 17 else s.selfWord who.ctx who.sid

/-- R339: a fault-queue entry. -/
def State.faultEntry (s : State) (r : FaultRange) (fseq : Nat) : Nat :=
  b2n r.r + b2n r.w * 2 + b2n r.x * 4 + pageAddr r.page + r.level * 2 ^ 64 + r.stage * 2 ^ 68 + r.nrec * 2 ^ 80
    + r.npg * 2 ^ 96 + r.fid.toNat * 2 ^ 128 + fseq % 2 ^ 32 * 2 ^ 160 + s.whoWord r.who * 2 ^ 192
    + r.who.gen.toNat * 2 ^ 219 + b2n r.eng * 2 ^ 227

/-- R340: the virtual address of entry n of the fault queue. -/
def Ctx.fqSlot (c : Ctx) (n : Nat) : Nat := ringBase c.fqb + 32 * (n % 2 ^ ringLn c.fqb)

/-- R450: the sorter may write the next entry of a context's fault queue. -/
def State.fqUsable (s : State) (a n : Nat) : Bool :=
  lnOk (ringLn (s.ctx a).fqb) &&
    (match s.translate false a ((s.ctx a).fqSlot n) ⟨false, true, false⟩ with | .ok w _ => w.w | .fault .. => false)

/-- R340: room in the fault queue of a context. -/
def Ctx.fqRoom (c : Ctx) : Nat := 2 ^ ringLn c.fqb - (c.fqt - c.fqh).toNat

/-- R338, R450: the ranges of a batch, in their order, find a slot and room each: `used` slots are taken, and of each
context's queue as many entries as `given` says. A range that is posted takes a slot and an entry; one that ends without
being posted takes a slot until it has ended. -/
def State.fits (s : State) (used : Nat) (given : Tab Nat) : List Merged → Bool
  | [] => true
  | m :: r =>
    let k := given.get 0 m.owner
    let c := s.ctx m.owner
    decide (used < 256) &&
      (if s.fqUsable m.owner (c.fqt.toNat + k) then decide (k < c.fqRoom) && s.fits (used + 1) (given.put m.owner (k + 1)) r
       else s.fits used given r)

/-- R338, R450: post one range: its slot and its entry; a range that cannot be posted ends in failure at once, and holds no
slot. -/
def State.postRange (s : State) (field : Nat) (m : Merged) : State :=
  let n := (freeFidSlot (s.field field).ranges (s.field field).lastSlot).getD (s.field field).lastSlot
  let r := m.range (BitVec.ofNat 32 (field * 2 ^ 29 + n))
  let s := s.modField field (fun f => { f with lastSlot := n })
  let c := s.ctx r.owner
  let put := if lnOk (ringLn c.fqb) then
      s.ctxWrite r.owner (c.fqSlot c.fqt.toNat) (leBytes (s.faultEntry r c.fqt.toNat) 32) else none
  match put with
  | some s => (s.modField field (fun f => { f with ranges := f.ranges ++ [r] })).modCtx r.owner (fun c => { c with
      fqt := c.fqt + 1#32 })
  | none => ((s.endRange r true).logError r.owner 9 6 (pageAddr r.page)).countErrors r.owner 1

/-- R338: a field's sorter closes its batch, where no closed one waits; later records gather for the next. -/
def State.sealBatch (s : State) (field : Nat) : State :=
  let now := s.cycle
  s.modField field (fun f =>
    match f.closed, f.batch with
    | [], r :: _ =>
      if 64 ≤ f.batch.length ∨ r.since + 4096 ≤ now then { f with closed := f.batch.take 64, batch := f.batch.drop 64 } else f
    | _, _ => f)

/-- R338 to R341, R450: close the batch of a field, and post the closed one where slots and queues have room for the
ranges that are posted. -/
def State.closeBatch (s : State) (field : Nat) : State :=
  let s := s.sealBatch field
  let f := s.field field
  if f.closed.isEmpty then s
  else
    let ms := batchRanges f.closed
    let owners := uniq (ms.map (·.owner))
    if !s.fits f.ranges.length [] ms then s
    else
      let old := owners.map (fun a => (a, (s.ctx a).fqt))
      let s := s.modField field (fun f => { f with closed := [] })
      let s := ms.foldl (fun s m => s.postRange field m) s
      old.foldl (fun s p =>
        if (s.ctx p.1).fqt = p.2 then s else s.doorbell p.1 (s.ctx p.1).fqd (s.ctx p.1).fqt.toNat) s

/-- SORTER_BATCH_CLOSE (R338). -/
def execSorterBatchClose (field : Nat) (s : State) : Host.Outcome State Fault Refusal := done (s.closeBatch field)

/-- FAULT_RECORD (R337): the record of the walk of an access of the thread of a slot, where it meets a fault. -/
def execFaultRecord (sid va kind : Nat) (s : State) : Host.Outcome State Fault Refusal :=
  let h := s.thread sid
  let who : Issuer := ⟨sid, h.gen, h.ctx, h.uid⟩
  let cl := clusterOf sid
  done (if s.faultPending cl h.ctx (va / 4096) then s.joinFault cl h.ctx va (Kind.ofCode kind) false who
    else match s.translateFor cl true h.ctx va (Kind.ofCode kind) with
      | .ok _ _ => s
      | .fault c l p k s => s.recordFault cl c l p k (Kind.ofCode kind) false who h.ctx (va / 4096))

end Sys2Proof.Machine
end

