-- ==== Sys2Proof/Machine/Work.lean ====
section
/-! DEFINITION. Work and its placement: launches, hint routers, slot arbitration, light threads, roles and channels, and
the place instructions of major 15 (R145 to R162, R266, R382). -/

namespace Sys2Proof.Machine

/-! ### Launch shapes (R146, R147) -/

/-- R146: the places of a group. -/
def shapeP (ox1 : BitVec 32) : Nat := bitsAt ox1.toNat 16 6 + 1

/-- R146: the queue. -/
def shapeQueue (ox1 : BitVec 32) : Nat := bitsAt ox1.toNat 26 6

/-- R146: the number of groups. -/
def shapeGroups (ox0 ox1 : BitVec 32) : Nat :=
  bitsAt ox0.toNat 0 16 * bitsAt ox0.toNat 16 16 * bitsAt ox1.toNat 0 16

/-- R371: the cores of a physical cluster that tenants hold, as a mask. -/
def State.tenantMask (s : State) (phys : Nat) : Nat :=
  (s.ctxs.filter (fun p => p.2.depth == 1)).foldl (fun m p =>
    (p.2.vcls.filter (fun e => e.phys == phys && !e.saved)).foldl (fun m e => m ||| e.mask) m) 0

/-- R371: the physical clusters of a context's partition with their core masks. (Log: DEDUCED 20) -/
def State.partition (s : State) (a : Nat) : List (Nat × Nat) :=
  let c := s.ctx a
  let own := (c.vcls.filter (fun e => !e.saved)).map (fun e => (e.phys, e.cores))
  if c.depth = 0 then own ++ ((upTo 1024).filter (fun v => !c.vcls.any (fun e => e.vcl == v))).map (fun v =>
    (v, 255 - s.tenantMask v))
  else own

/-- R151: the cores of a context's partition within a radius of a physical cluster, which its permission map permits
(R414). -/
def State.coresNear (s : State) (a hint radius : Nat) : List Nat :=
  (s.partition a).flatMap (fun p =>
    if meshHops hint p.1 ≤ radius && s.permits hint p.1 then ((upTo 8).filter (fun i => bitAt p.2 i)).map (fun i => 8 * p.1 + i) else [])

/-- R147: the `einfo` of the bad-descriptor trap of a launch, or none where the descriptor is good. Every context has
64 queues (R378), so QUEUE always names one. -/
def State.launchFault (s : State) (a : Nat) (entry : Word) (ox0 ox1 ox2 : BitVec 32) : Option Word :=
  if bitsAt ox0.toNat 0 16 = 0 ∨ bitsAt ox0.toNat 16 16 = 0 then some (ox0.setWidth 64)
  else if bitsAt ox1.toNat 0 16 = 0 then some (ox1.setWidth 64)
  else if ox2.toNat / 2 ^ 13 ≠ 0 then some (ox2.setWidth 64)
  else match s.physOf a (bitsAt ox2.toNat 0 10) with
    | none => some (ox2.setWidth 64)
    | some hint =>
      if entry = 0#64 ∨ entry.getLsbD 0 then some entry
      else if (s.coresNear a hint (bitsAt ox1.toNat 22 4)).length < shapeP ox1 then some (ox1.setWidth 64)
      else none

/-- R380: the hardware queue slot of a queue, where it is mapped. -/
def State.mappedTo (s : State) (a q : Nat) : Option Nat :=
  match (s.ctx a).queues.find? q with
  | some d => if d.hqs = 255 then none else some d.hqs
  | none => none

/-- R148: the hint router of a launch: that of its hint cluster. -/
def State.routerOf (s : State) (w : Work) : Nat := (s.physOf w.ctx (bitsAt w.ox2.toNat 0 10)).getD 0

/-! ### `launch` and its router (R147 to R149) -/

/-- The frame of a work instruction with a feature bit. -/
def workUse (word : Nat) (names reads : List (BitVec 6)) (pol : Option Policy) : Use :=
  { word := word, feat := some fLaunch, names := names.map .x, reads := reads, pol := pol, awaitCode := 4, after := true }

/-- R149: the ready execution of a launch: what it creates starts no earlier than the issuer's clock now, and sees every
store that it has made, wherever it stands by now. (Log: DEDUCED 81) -/
def State.launchReady (s : State) (id : Nat) : State :=
  let t := s.th.clock
  let n := s.performed
  let now (w : Work) : Work := { w with clock := max w.clock t }
  let s : State := { s with
    clusters := s.clusters.map (fun (p : Nat × Cluster) => (p.1, { p.2 with
      work := updWhere p.2.work (fun w => w.id == id) now })),
    saves := s.saves.map (fun g => { g with image := { g.image with
      work := updWhere g.image.work (fun w => w.id == id) now } }) }
  let s := s.modThreads (fun h => h.launchId == id) (fun h => { h with clock := max h.clock t, floor := max h.floor n })
  s.modTh (fun h => { h with ll := { h.ll with st := .idle } })

/-- R148 `launch`. FAULT_PENDING is tested after LAUNCH and LAUNCH_FULL and before a DONE latch, QUEUE_UNMAPPED after it.
(Log: DESIGN CHOICE 83) -/
def execLaunch (p : Policy) (b a : BitVec 6) (s : State) : Host.Outcome State Fault Refusal :=
  done ((workUse (rpw p.bits 0 b a 0#6 15) [a, b] [a, b] (some p)).run s (fun s =>
    let ox0 := s.oxr 0
    let ox1 := s.oxr 1
    let ox2 := s.oxr 2
    match s.launchFault s.th.ctx (s.xr a) ox0 ox1 ox2 with
    | some i => .trap tDESC i
    | none =>
      let l := s.th.ll
      if l.st = .busy then (if l.code = 2 then .nr [.launchFull] 2 s else .nr [.launch] 1 s)
      else if s.holding then .nr [.heldStores] 8 s
      else if l.st = .done ∧ l.tag = s.th.pc then .next ((s.settle s.cur).launchReady l.value.toNat)
      else if (s.mappedTo s.th.ctx (shapeQueue ox1)).isNone then .nr [.queueUnmapped (shapeQueue ox1)] 3 s
      else
        let s := s.settle s.cur
        let w : Work := { id := 0, who := s.issuer, ctx := s.th.ctx, queue := shapeQueue ox1, entry := s.xr a,
                          arg := s.xr b, ox0 := ox0, ox1 := ox1, ox2 := ox2, clock := s.th.clock }
        .nr [.launch] 1
          ((s.modTh (fun h => { h with ll := { st := .busy, tag := h.pc, code := 1 } })).owe (.launch w))))

/-- R148: a work-buffer entry for a launch. -/
def State.acceptWork (s : State) (cl : Nat) (w : Work) : State :=
  let n := s.nextLaunch
  ({ s with nextLaunch := n + 1 } : State).modCluster cl (fun c => { c with work := c.work ++ [{ w with id := n }] })

/-- R148: the hint router takes a request, which never passes one that it holds. No core takes a request on its way to
the router (R151 lets one). (Log: DESIGN CHOICE 72) -/
def State.launchRequest (s : State) (w : Work) : State :=
  let cl := s.routerOf w
  let n := s.nextLaunch
  if (s.cluster cl).waiters.isEmpty && decide ((s.cluster cl).work.length < 16) then
    (s.acceptWork cl w).owe (.launchReply w.who 0 n cl)
  else if (s.cluster cl).waiters.length < 32 then
    (s.modCluster cl (fun c => { c with waiters := c.waiters ++ [w] })).owe (.launchReply w.who 1 0 cl)
  else s.owe (.launchReply w.who 2 0 cl)

/-- R148: a reply of the router reaches its issuer's launch latch. -/
def State.launchReplied (s : State) (who : Issuer) (code id : Nat) : State :=
  s.replyTo who.uid { kind := 3, slot := who.sid % 16, gen := who.gen, code := code, value := w64 id }

/-- R148: the router admits the oldest held request to a free entry. -/
def State.admitOne (s : State) (cl : Nat) : State :=
  match (s.cluster cl).waiters with
  | [] => s
  | w :: r =>
    if (s.cluster cl).work.length < 16 then
      let n := s.nextLaunch
      ((s.modCluster cl (fun c => { c with waiters := r })).acceptWork cl w).owe (.launchReply w.who 0 n cl)
    else s

/-- R148: the router admits held requests to its free entries, in arrival order. -/
def State.launchAdmit (s : State) (cl : Nat) : State := (upTo 16).foldl (fun (s : State) _ => s.admitOne cl) s

/-- LAUNCH_REQUEST (R148): the n-th owed request reaches its hint router. -/
def execLaunchRequest (n : Nat) (s : State) : Host.Outcome State Fault Refusal :=
  match s.takeJob n with
  | some (.launch w, s') => done (s'.launchRequest w)
  | _ => done s

/-- LAUNCH_REPLY (R148): the n-th owed reply reaches its issuer. -/
def execLaunchReply (n : Nat) (s : State) : Host.Outcome State Fault Refusal :=
  match s.takeJob n with
  | some (.launchReply who code id _, s') => done (s'.launchReplied who code id)
  | _ => done s

/-- LAUNCH_ADMIT (R148). -/
def execLaunchAdmit (cl : Nat) (s : State) : Host.Outcome State Fault Refusal := done (s.launchAdmit cl)

/-! ### Places (R153, R154) -/

/-- R153: the binding entry of a slot for a context. -/
def State.bindingOf (s : State) (a sid : Nat) : Word := w64 (2 ^ 63 + s.selfWord a sid)

/-- R153: rewrite the binding entry of a thread's place to the slot it is in. -/
def State.rebind (s : State) (sid : Nat) : State :=
  let h := s.thread sid
  match s.groups.find? h.group with
  | none => s
  | some g =>
    let g' : Group := { g with binding := g.binding.set h.place (s.bindingOf h.ctx sid) }
    { s with groups := s.groups.put h.group g' }

/-- R402: the forwarding entries of a cluster in use, those of threads on their way included. -/
def State.fwdUsed (s : State) (cl : Nat) : Nat :=
  (s.cluster cl).fwd.length +
    (s.ctxs.flatMap (fun p => p.2.framesIn.filter (fun f => f.why == 3 && clusterOf f.sid == cl))).length

/-- R402: the slot that a thread leaves for another has a forwarding entry for it: one is in use for it, or free. -/
def State.fwdRoom (s : State) (away : Option (Nat × Nat)) (src : Nat) (h : Thread) : Bool :=
  let has (l : List Forward) : Bool := (forwardFor l h.ctx (coreOf src % 8) (src % 16) h.gen).isSome
  match away.bind s.regionOf with
  | some g => has g.image.fwd || decide (g.image.fwd.length < 32)
  | none => has (s.cluster (clusterOf src)).fwd || decide (s.fwdUsed (clusterOf src) < 32)

/-- R171, R402: a forwarding entry at the cluster of the slot that a thread left, which may be saved.
(Log: DESIGN CHOICE 66) -/
def State.forward (s : State) (away : Option (Nat × Nat)) (src : Nat) (h : Thread) : State :=
  let f : Forward := { ocore := coreOf src % 8, oslot := src % 16, gen := h.gen, ctx := h.ctx, uid := h.uid }
  let put (c : Cluster) : Cluster := { c with
    fwd := f :: c.fwd.filter (fun o => !(o.ocore == f.ocore && o.oslot == f.oslot && o.gen == f.gen && o.ctx == f.ctx)) }
  match away with
  | some k => { s with saves := updWhere s.saves (fun g => g.ctx == k.1 && g.vcl == k.2) (fun g =>
      { g with image := put g.image }) }
  | none => s.modCluster (clusterOf src) put

/-- R170, R153, R395: a thread of a frame takes a slot: its inbox entries are applied, its binding rewritten, its earlier
identity forwarded, and the resumption is an acquire (R250). -/
def State.seat (s : State) (a sid hqs : Nat) (f : Frame) : State :=
  let s := (s.modSlot sid (fun sl => { sl with
    st := .run, qo := BitVec.ofNat 8 hqs, reserved := false, dying := false, th := f.th })).acquireAll sid
  let s := s.modCtx a (fun c => { c with framesIn := c.framesIn.filter (fun g => g.num != f.num) })
  let s := if f.sid = sid ∧ f.away = none then s else s.forward f.away f.sid f.th
  (s.applyInbox f.away f.sid sid f.th.uid).rebind sid

/-! ### Slot arbitration (R151 to R157) -/

/-- What is offered at a boundary: the next group of a work-buffer entry, or a thread of a save frame. -/
inductive OfferSrc where
  | entry (cl id : Nat)
  | frame (ctx num : Nat)
deriving DecidableEq, Repr

/-- R151, R155: an offered item group: its source, its context, the hardware queue slot and weight of its queue, its
places, its hint core, and the cores it is offered at. -/
structure Offer where
  src : OfferSrc
  ctx : Nat
  hqs : Nat
  weight : Nat
  p : Nat
  hint : Option Nat
  cores : List Nat
deriving DecidableEq, Repr

/-- A slot of a core that R157 may grant. -/
def Slot.grantable (sl : Slot) : Bool := sl.st == .free && !sl.reserved

/-- The FREE slots of a core, in ascending order. -/
def State.freeSlots (s : State) (cid : Nat) : List Nat :=
  ((upTo 16).map (fun i => 16 * cid + i)).filter (fun sid => (s.slot sid).grantable)

/-- R151: the cores at which an item is offered: those at a rotation boundary with a FREE slot. -/
def State.withRoom (s : State) (l : List Nat) : List Nat :=
  l.filter (fun cid => s.atOwn cid && !(s.core cid).stopped && !(s.freeSlots cid).isEmpty)

/-- R384, R403: the queues of a context are frozen: a stop, kill or freeze of it or of an ancestor has passed its first
step. -/
def State.frozenQueues (s : State) (a : Nat) : Bool :=
  (s.lineage a).any (fun c => ((s.ctx c).op == 5 || (s.ctx c).op == 6 || (s.ctx c).op == 8) && decide (2 ≤ (s.ctx c).stepNo))

/-- R380: a queue is live. -/
def State.isLive (s : State) (a q : Nat) : Bool :=
  (s.ctx a).act && !s.frozenQueues a && (s.mappedTo a q).isSome

/-- A queue of an active context that is mapped: its hardware queue slot and weight (R380 live). -/
def State.liveQueue (s : State) (a q : Nat) : Option (Nat × Nat) :=
  if s.isLive a q then (s.mappedTo a q).map (fun h => (h, ((s.ctx a).queues.get {} q).weight)) else none

/-- R151: the offer of a work-buffer entry. -/
def State.offerWork (s : State) (cl : Nat) (w : Work) : Option Offer :=
  match s.liveQueue w.ctx w.queue, s.physOf w.ctx (bitsAt w.ox2.toNat 0 10) with
  | some (h, wt), some hint => some {
      src := .entry cl w.id, ctx := w.ctx, hqs := h, weight := wt, p := shapeP w.ox1,
      hint := some (8 * hint + bitsAt w.ox2.toNat 10 3),
      cores := s.withRoom (s.coresNear w.ctx hint (bitsAt w.ox1.toNat 22 4)) }
  | _, _ => none

/-- R266, R404: the offer of a thread in a save frame. -/
def State.offerFrame (s : State) (a : Nat) (f : Frame) : Option Offer :=
  match s.liveQueue a f.th.queue with
  | some (h, wt) =>
    let at_ (l : List Nat) : Option Offer := some {
      src := .frame a f.num, ctx := a, hqs := h, weight := wt, p := 1, hint := none, cores := s.withRoom l }
    if f.why = 4 ∧ f.away = none ∧ s.holdsCore a (coreOf f.sid) then at_ [coreOf f.sid]
    else if f.why = 4 ∨ f.why = 5 then at_ ((s.partition a).flatMap (fun p =>
      ((upTo 8).filter (fun i => bitAt p.2 i)).map (fun i => 8 * p.1 + i)))
    else none
  | none => none

/-- Everything offered at a boundary: threads of save frames before groups of work buffers, in the order of their tables.
(Log: DESIGN CHOICE 72) -/
def State.offers (s : State) : List Offer :=
  s.ctxs.flatMap (fun p => p.2.framesIn.filterMap (fun f => s.offerFrame p.1 f)) ++
  s.clusters.flatMap (fun p => p.2.work.filterMap (fun w => s.offerWork p.1 w))

/-- R155: the weight of a hardware queue slot, which stands while threads of a queue that has been unmapped still own
slots. -/
def State.weightOf (s : State) (h : Nat) : Nat := s.hqWeight.get 1 h

/-- The queues that own slots of a core, slot by slot. -/
def State.ownersAt (s : State) (cid : Nat) : List Nat :=
  ((upTo 16).map (fun i => (s.slot (16 * cid + i)).qo.toNat)).filter (· != 255)

/-- R157: the queue with the largest deficit, the lowest on a tie. -/
def bestQueue (d : Tab Int) : List Nat → Option Nat
  | [] => none
  | q :: r => match bestQueue d r with
    | none => some q
    | some b => if d.get 0 q > d.get 0 b ∨ (d.get 0 q = d.get 0 b ∧ q ≤ b) then some q else some b

/-- R157: the grants of a core's FREE slots to the items offered there, each charged W. -/
def grantSlots (w : Int) : List Nat → List Nat → Tab Int → List (Nat × Nat) × Tab Int
  | [], _, d => ([], d)
  | sid :: r, e, d =>
    match bestQueue d e with
    | none => ([], d)
    | some q =>
      let g := grantSlots w r (e.erase q) (d.put q (d.get 0 q - w))
      ((sid, q) :: g.1, g.2)

/-- R155 to R157 at one core: the sum W, the grants and the deficits. -/
def State.arbitrateCore (s : State) (os : List Offer) (cid : Nat) : Int × List (Nat × Nat) × Tab Int :=
  let e := (os.filter (fun o => o.cores.contains cid)).map (·.hqs)
  let owners := s.ownersAt cid
  let active := uniq (owners ++ e)
  let w : Int := active.foldl (fun t q => t + s.weightOf q) 0
  let d := (s.core cid).deficit
  let d := active.foldl (fun (d : Tab Int) q => d.put q (d.get 0 q + 16 * s.weightOf q)) d
  let d := owners.foldl (fun (d : Tab Int) q => d.put q (d.get 0 q - w)) d
  let g := grantSlots w (s.freeSlots cid) e d
  (w, g.1, g.2)

/-- R150: the thread of a place of a group, from its launch and the template of its queue. -/
def State.newThread (s : State) (w : Work) (q : Queue) (gid place : Nat) (gen : BitVec 8) : Thread :=
  let x := Vector.replicate 32 0#64
  let x := vwr (vwr (vwr x 0 w.arg) 1 (w64 w.next)) 2 (w64 place)
  { ctx := w.ctx, queue := w.queue, kern := q.kern, mig := q.mig, launchId := w.id, group := gid, gidx := w.next,
    pm1 := bitsAt w.ox1.toNat 16 6, place := place, x := vwr (vwr x 29 q.tp) 31 q.sp, pc := w.entry,
    stklim := q.stklim, uha := q.uha, st := q.st, gen := gen, clock := w.clock, floor := s.performed,
    uid := s.nextThread + place, fresh := true }

/-- R152, R153: place the next group of an entry on given slots. -/
def State.placeGroup (s : State) (cl : Nat) (w : Work) (hqs : Nat) (sids : List Nat) : State :=
  let gid := s.nextGroup
  let q := (s.ctx w.ctx).queues.get {} w.queue
  let s : State := { s with
    nextGroup := gid + 1,
    groups := s.groups.put gid { ctx := w.ctx, binding := sids.map (s.bindingOf w.ctx) } }
  let s := (sids.zipIdx).foldl (fun s p =>
    s.modSlot p.1 (fun sl =>
      { st := .run, qo := BitVec.ofNat 8 hqs, gen := sl.gen + 1#8, th := s.newThread w q gid p.2 (sl.gen + 1#8) })) s
  let s := ({ s with nextThread := s.nextThread + sids.length } : State).modCtx w.ctx (fun c => { c with
    usedSlots := c.usedSlots + sids.length })
  let s := match s.launches.find? w.id with
    | none => s
    | some l =>
      let s := if l.host && !l.started then s.daybook l.ctx 2 l.queue l.cidx 0 l.ref else s
      let l' : LaunchRec := { l with started := true, unplaced := l.unplaced - 1, living := l.living + sids.length }
      { s with launches := s.launches.put w.id l' }
  s.modCluster cl (fun c => { c with
    work := if w.next + 1 < shapeGroups w.ox0 w.ox1
      then updWhere c.work (fun v => v.id == w.id) (fun v => { v with next := w.next + 1 })
      else c.work.filter (fun v => v.id != w.id) })

/-- R266, R404: a thread of a save frame takes its granted slot. -/
def State.placeFrame (s : State) (a num hqs sid : Nat) : State :=
  match (s.ctx a).framesIn.find? (fun f => f.num == num) with
  | none => s
  | some f =>
    let r := s.frameThread a f
    (r.2.seat a sid hqs { f with th := r.1 }).modCtx a (fun c => { c with
      usedSlots := c.usedSlots + 1, usedFrames := c.usedFrames - 1 })

/-- R372: the slots that a context may still take. -/
def Ctx.slotsLeft (c : Ctx) : Nat := c.slots - c.usedSlots

/-- The first slot granted to a queue, core by core, at the cores of a list. -/
def takeGrants (gs : Tab (List (Nat × Nat))) (hqs : Nat) : List Nat → List Nat
  | [] => []
  | cid :: r => match (gs.get [] cid).find? (fun g => g.2 == hqs) with
    | some g => g.1 :: takeGrants gs hqs r
    | none => takeGrants gs hqs r

/-- R152: place one offered group whole, or not at all. Of the eligible cores the first in the order of the context's
partition take it. (Log: DESIGN CHOICE 72) -/
def State.tryPlace (p : State × Tab (List (Nat × Nat))) (o : Offer) : State × Tab (List (Nat × Nat)) :=
  let s := p.1
  let order := match o.hint with
    | some h => if o.p = 1 ∧ o.cores.contains h then h :: o.cores.filter (· != h) else o.cores
    | none => o.cores
  let sids := (takeGrants p.2 o.hqs order).take o.p
  if sids.length < o.p ∨ (s.ctx o.ctx).slotsLeft < o.p then p
  else
    let gs := sids.foldl (fun (gs : Tab (List (Nat × Nat))) sid =>
      gs.put (coreOf sid) ((gs.get [] (coreOf sid)).filter (fun g => g.1 != sid))) p.2
    match o.src with
    | .frame a n =>
      match (s.ctx a).framesIn.find? (fun f => f.num == n), sids with
      | some f, d :: _ => if (d = f.sid ∧ f.away = none) ∨ s.fwdRoom f.away f.sid f.th then (s.placeFrame a n o.hqs d, gs) else p
      | _, _ => p
    | .entry cl id =>
      match (s.cluster cl).work.find? (fun w => w.id == id) with
      | none => p
      | some w => (s.placeGroup cl w o.hqs sids, gs)

/-- R160: the cluster load register after the boundary of a cycle: the counts of the cores whose rotation it opens are
taken anew. -/
def State.loadWord (s : State) (cl : Nat) : Word :=
  w64 ((upTo 8).foldl (fun n i =>
    let cid := 8 * cl + i
    n + (if s.atOwn cid then (s.freeSlots cid).length else bitsAt (s.cluster cl).loadReg.toNat (8 * i) 8) * 2 ^ (8 * i)) 0)

/-- R157, R142: the rotation boundaries of a cycle: ended slots become FREE, each core at its boundary starts its window,
credits, charges and grants, whole groups are placed, and unused charges refunded. -/
def State.arbitrate (s : State) : State :=
  let s := (s.slots.filter (fun p => p.2.dying && s.atOwn (coreOf p.1))).foldl (fun s p => s.freeSlot p.1) s
  let s : State := { s with
    arbed := s.cycle,
    cores := s.cores.map (fun (p : Nat × Core) =>
      if (s.cycle - p.2.start) % 4096 == 0 then (p.1, { p.2 with deficit := [] }) else p) }
  let os := s.offers
  let cores := uniq ((s.slots.filter (fun p => p.2.qo != 0xFF#8 && s.atOwn (coreOf p.1))).map (fun p => coreOf p.1) ++
    os.flatMap (·.cores))
  let arb := cores.map (fun cid => (cid, s.arbitrateCore os cid))
  let gs : Tab (List (Nat × Nat)) := arb.foldl (fun t p => Tab.put t p.1 p.2.2.1) []
  let p := os.foldl State.tryPlace (s, gs)
  arb.foldl (fun (s : State) a =>
    s.modCore a.1 (fun k => { k with
      deficit := (p.2.get [] a.1).foldl (fun (d : Tab Int) g => d.put g.2 (d.get 0 g.2 + a.2.1)) a.2.2.2 })) p.1

/-- R122: the device's cycle has boundaries that have not been acted at: of every core, or of cores that were reset at
another phase. -/
def State.atBoundary (s : State) : Bool :=
  decide (s.acted < s.cycle) && (s.cycle % 16 == 0 || s.cores.any (fun p => (s.cycle - p.2.start) % 16 == 0))

/-- R157: the slot arbiters act, at a boundary at which they have not acted yet. -/
def State.arbitrateNow (s : State) : State := if s.atBoundary && decide (s.arbed < s.cycle) then s.arbitrate else s

/-- SLOT_ARBITRATION (R157). -/
def execSlotArbitration (s : State) : Host.Outcome State Fault Refusal := done s.arbitrateNow

/-! ### Light threads (R158, R159) -/

/-- R158: a light thread. -/
def Thread.light (h : Thread) : Bool :=
  h.mig && !h.heavy && h.epc == 0#64 && h.ecause == 0#64 && h.einfo == 0#64 && h.estat == 0#64
    && h.rtcCount == 0 && h.rtcTag == 0#64 && h.skipCtr == 0#64 && !h.pendingAny && !h.wakeLatch
    && h.ll.st == .idle && h.sl.st == .idle && h.rl.st == .idle && h.owc == 0 && h.last == 0#4
    && h.xarm.toList.all (·.st == .unarmed)

/-- R159: the destination core in a cluster: two or more FREE slots, the most, the lowest on a tie. -/
def State.lightDest (s : State) (a cl : Nat) : Option Nat :=
  ((upTo 8).map (fun i => 8 * cl + i)).foldl (fun b cid =>
    let n := (s.freeSlots cid).length
    if n < 2 ∨ (s.core cid).stopped ∨ !s.holdsCore a cid then b
    else match b with
      | none => some cid
      | some o => if n > (s.freeSlots o).length then some cid else b) none

/-- R159, R401: the thread of a slot leaves for a FREE slot, which is reserved for it. What it has done is performed
first, and its pins and holds end (R250, R134, R207). The reserved slot is its queue's from now on.
(Log: DESIGN CHOICE 84) -/
def State.sendThread (s : State) (sid d : Nat) : State :=
  let s := (((s.flushPort (coreOf sid)).flushSends sid).settle sid).releaseLines sid
  let h := s.thread sid
  let q := (s.slot sid).qo
  let f : Frame := { num := 65536 + d, sid := sid, why := 3, qo := q, th := h }
  let s := s.modSlot d (fun sl => { sl with reserved := true, qo := q })
  (s.modCtx h.ctx (fun c => { c with framesIn := c.framesIn ++ [f] })).owe (.lightArrive d)

/-- R159: the thread of a slot may be moved at the boundary of this cycle: it is light, it neither skips nor sleeps, and
its core has no FREE slot. (Log: DESIGN CHOICE 84) -/
def State.mayMove (s : State) (cl sid : Nat) : Bool :=
  (s.slot sid).st == .run && !(s.slot sid).dying && !(s.core (coreOf sid)).stopped && (s.thread sid).light && s.opens (coreOf sid)
    && (s.freeSlots (coreOf sid)).isEmpty && s.fwdRoom none sid (s.thread sid) && (s.lightDest (s.thread sid).ctx cl).isSome

/-- R159: the light thread that the cluster's thread engine moves: the first on a core with no FREE slot, at a boundary
at which it has moved none. (Log: DESIGN CHOICE 24; DESIGN CHOICE 84) -/
def State.lightMove (s : State) (cl : Nat) : State :=
  if s.cycle < (s.cluster cl).lightAt then s
  else match ((upTo 128).map (fun i => 128 * cl + i)).find? (s.mayMove cl) with
  | none => s
  | some sid =>
    match (s.lightDest (s.thread sid).ctx cl).bind (fun d => (s.freeSlots d).head?) with
    | none => s
    | some d => ((s.modCluster cl (fun c => { c with lightAt := s.cycle + 1 })).sendThread sid d).modSlot sid (fun sl =>
        { gen := sl.gen })

/-- LIGHT_THREAD_MOVE (R159). -/
def execLightThreadMove (cl : Nat) (s : State) : Host.Outcome State Fault Refusal := done (s.lightMove cl)

/-- R159: the thread on its way to a reserved slot issues there again. (Log: DESIGN CHOICE 24) -/
def State.lightArrive (s : State) (sid : Nat) : State :=
  match s.ctxs.findSome? (fun p => (p.2.framesIn.find? (fun f => f.num == 65536 + sid)).map (fun f => (p.1, f))) with
  | none => s
  | some (a, f) => s.seat a sid f.qo.toNat f

/-- LIGHT_THREAD_ARRIVAL (R159). -/
def execLightThreadArrival (sid : Nat) (s : State) : Host.Outcome State Fault Refusal := done (s.lightArrive sid)

/-! ### Roles and channels (R161) -/

/-- R161: the registers of a channel. -/
def chanReg (c : BitVec 4) : BitVec 6 := 1#1 ++ c ++ 0#1

/-- R161 `cast`. -/
def execCast (p : Policy) (b a : BitVec 6) (c : BitVec 4) (s : State) : Host.Outcome State Fault Refusal :=
  let d := chanReg c
  done (((workUse (rpw p.bits 1 b a d 15) [a, b, d, d + 1#6] [a, b, d] (some p)).carries a [b, d]).run s (fun s =>
    let e := s.xr a
    if e = 0#64 ∨ e.getLsbD 0 then .trap tDESC e
    else if s.xr d ≠ 0#64 then .nr [.channelFull c.toNat] 5 s
    else
      let v := s.xr b
      .next ((s.setX d e).setX (d + 1#6) v)))

/-- R161: the thread of a slot takes a role. -/
def Thread.recast (h : Thread) (e arg : Word) : Thread :=
  { h with
    x := vwr (vwr (vwr (vwr (vwr (.replicate 32 0#64) 29 (vrd h.x 29)) 31 (vrd h.x 31)) 0 arg) 1 (w64 h.gidx)) 2
      (w64 h.place),
    xarm := .replicate 32 {}, v := .replicate 16 0#512, k := .replicate 8 0#16, ox := .replicate 4 0#32,
    streams := .replicate 4 none, nrt := 0#64, st := stSet (stSet h.st 0 false) 7 false,
    epc := 0#64, ecause := 0#64, einfo := 0#64, estat := 0#64, rtcCount := 0, rtcTag := 0#64, ring := [],
    skipCtr := 0#64, wakeLatch := false, prefixLatch := none, heavy := false, nrBefore := none, pc := e }

/-- R161 `recast`. -/
def execRecast (p : Policy) (c : BitVec 4) (s : State) : Host.Outcome State Fault Refusal :=
  let a := chanReg c
  done (((workUse (rpw p.bits 2 0#6 a 0#6 15) [a, a + 1#6] [a, a + 1#6] (some p)).carries a [a + 1#6]).run s (fun s =>
    if s.th.pendingAny ∨ s.th.ll.st = .busy then .nr [.held] 6 s
    else
      let e := s.xr a
      if e = 0#64 then .nr [.channelEmpty c.toNat] 7 s
      else match s.checkTarget .indirect e with
        | .trap code => .trap code e
        | .wait j => .stall (s.oweOpt j)
        | .ok =>
          let arg := s.xr (a + 1#6)
          let s := (upTo 32).foldl (fun (s : State) r => s.disarm (BitVec.ofNat 6 r)) s
          .own (((s.setX a 0#64).setX (a + 1#6) 0#64).modTh (fun h => h.recast e arg))))

/-! ### Place instructions (R162) -/

/-- R162 `place`. -/
def execPlace (a d : BitVec 6) (s : State) : Host.Outcome State Fault Refusal :=
  done ((scalarUse [a] [d]).run s (fun s =>
    let v := s.xr a
    if v.toNat > s.th.pm1 then .trap tPLACE v
    else .next (s.setX d ((s.groupOf s.th).binding.getD v.toNat 0#64))))

/-- R162 `place.self`. -/
def execPlaceSelf (d : BitVec 6) (s : State) : Host.Outcome State Fault Refusal :=
  done ((scalarUse [] [d]).run s (fun s => .next (s.setX d (w64 s.th.groupWord))))

/-- R162 `place.load`. -/
def execPlaceLoad (d : BitVec 6) (s : State) : Host.Outcome State Fault Refusal :=
  done ((scalarUse [] [d]).run s (fun s => .next (s.setX d s.mine.loadReg)))

end Sys2Proof.Machine
end

