-- ==== Sys2Proof/Machine/System.lean ====
section
/-! DEFINITION. The system and trap instructions of major 28 (but `flt.done`, in Faults), the writes of context and
cluster registers, the deliveries of traps, and the events of streams and held instructions (R220, R238, R329 to R336,
R13). -/

namespace Sys2Proof.Machine

/-! ### Special registers (R333, R334) -/

/-- R334: the value that `mfsr` reads. -/
def Thread.readSr (h : Thread) (n : Nat) : Word :=
  match n with
  | 0 => h.st
  | 1 => h.uha
  | 2 => h.epc
  | 3 => h.ecause
  | 4 => h.einfo
  | 5 => h.estat
  | 6 => w64 (h.rtcCount % 8192)
  | 7 => h.nrt
  | _ => h.stklim

/-- R334: the effect of `mtsr`. -/
def Thread.writeSr (h : Thread) (n : Nat) (v : Word) : Thread :=
  match n with
  | 0 => { h with st := stWrite h.st v }
  | 1 => { h with uha := v }
  | 2 => { h with epc := v }
  | 5 => { h with estat := stWrite h.estat v }
  | 6 => { h with rtcCount := v.toNat % 8192 }
  | 7 => { h with nrt := v }
  | 8 => { h with stklim := v }
  | _ => h

/-- R334 `mfsr`. -/
def execMfsr (n d : BitVec 6) (s : State) : Host.Outcome State Fault Refusal :=
  done ((scalarUse [] [d]).run s (fun s => .next (s.setX d (s.th.readSr n.toNat))))

/-- R334 `mtsr`: the write follows the instruction's own clearing of NR. -/
def execMtsr (n a : BitVec 6) (s : State) : Host.Outcome State Fault Refusal :=
  done ((scalarUse [a] []).run s (fun s =>
    let v := s.xr a
    .own ((s.advance 4).modTh (fun h => h.writeSr n.toNat v))))

/-! ### Context and cluster registers (R220, R237, R238, R268, R335) -/

/-- R220: a write to a window register. -/
def winWrite (old new : Word) : Word :=
  if winEn new ∧ (winRows new = 0 ∨ winFirst new + winRows new > 1651 ∨ winFmt new ≥ 5) then old
  else new &&& 0xF03FFFFF#64

/-- R237, R238: a write to a scope table entry. -/
def scopeWrite (i : Nat) (old new : Word) : Word :=
  if i < 6 then old
  else if new.getLsbD 63 ∧ (bitsAt new.toNat 11 11 = 0 ∨ bitsAt new.toNat 11 11 > 1024 ∨ bitsAt new.toNat 22 10 = 0
      ∨ bitsAt new.toNat 32 8 = 0) then old
  else new &&& 0x800000FFFFFFFBFF#64

/-- Write a window register of a cluster; accesses of this cycle still decode by the windows as they stood (R221). -/
def State.writeWin (s : State) (cl n : Nat) (v : Word) : State :=
  s.modCluster cl (fun c => { c with
    win := vwr c.win n (winWrite (vrd c.win n) v), winOld := some (s.cycle, c.winsAt s.cycle) })

/-- Write a scope table entry of a context. -/
def State.writeScope (s : State) (a i : Nat) (v : Word) : State :=
  let now := s.cycle
  s.modCtx a (fun c => { c with
    scopes := vwr c.scopes i (scopeWrite (i % 32) (vrd c.scopes i) v), scopesOld := some (now, c.scopesAt now) })

/-- R335: the register of a selector, as the current thread reads it; none where no selector is listed. -/
def State.readCr (s : State) (sel : Nat) : Option Word :=
  let c := s.myCtx
  let k := s.mine
  if 0x100 ≤ sel ∧ sel < 0x108 then some (vrd k.win (sel - 0x100))
  else if 0x200 ≤ sel ∧ sel < 0x220 then
    some (if sel < 0x206 then 0x8000000000000000#64 else vrd c.scopes (sel - 0x200))
  else if 0x300 ≤ sel ∧ sel < 0x304 then some (vrd k.hbc (sel - 0x300))
  else match sel with
    | 0x400 => some c.fqb
    | 0x401 => some (c.fqh.setWidth 64)
    | 0x402 => some (c.fqt.setWidth 64)
    | 0x403 => some c.fqd
    | 0x500 => some c.erb
    | 0x501 => some (w64 c.ert)
    | 0x502 => some c.erc
    | 0x503 => some c.erth
    | _ => none

/-- R335: a write of the current thread to the register of a selector. -/
def State.writeCr (s : State) (sel : Nat) (v : Word) : State :=
  let a := s.th.ctx
  let cl := clusterOf s.cur
  if 0x100 ≤ sel ∧ sel < 0x108 then s.writeWin cl (sel - 0x100) v
  else if 0x200 ≤ sel ∧ sel < 0x220 then s.writeScope a (sel - 0x200) v
  else if 0x300 ≤ sel ∧ sel < 0x304 then
    s.modCluster cl (fun c => { c with hbc := vwr c.hbc (sel - 0x300) (hbWrite (vrd c.hbc (sel - 0x300)) v) })
  else match sel with
    | 0x400 => s.modCtx a (fun c => c.writeFqb v)
    | 0x401 => s.modCtx a (fun c => c.writeFqh v)
    | 0x403 => s.modCtx a (fun c => c.writeFqd v)
    | 0x500 => s.modCtx a (fun c => c.writeErb v)
    | 0x502 => s.modCtx a (fun c => c.writeErc v)
    | 0x503 => s.modCtx a (fun c => c.writeErth v)
    | _ => s

/-- R335 `mfcr`. Who has read FQT sees the entries of the fault queue that it counts (R341). -/
def execMfcr (a d : BitVec 6) (s : State) : Host.Outcome State Fault Refusal :=
  done (({ word := rw 2 0#6 a d 28, kern := true, names := [.x a, .x d], reads := [a] } : Use).run s (fun s =>
    match s.readCr (s.xr a).toNat with
    | none => .trap tDESC (s.xr a)
    | some v => .next ((if (s.xr a).toNat = 0x402 then s.acquireAll s.cur else s).setX d v)))

/-- R335 `mtcr`. -/
def execMtcr (b a : BitVec 6) (s : State) : Host.Outcome State Fault Refusal :=
  done (({ word := rw 3 b a 0#6 28, kern := true, names := [.x a, .x b], reads := [a, b] } : Use).run s (fun s =>
    match s.readCr (s.xr a).toNat with
    | none => .trap tDESC (s.xr a)
    | some _ => .next (s.writeCr (s.xr a).toNat (s.xr b))))

/-- WIN_WRITE (R220): the loader or a kernel writes a window register. -/
def execWinWrite (cl n : Nat) (v : Word) (s : State) : Host.Outcome State Fault Refusal := done (s.writeWin cl n v)

/-- SCOPE_ENTRY_WRITE (R238). -/
def execScopeEntryWrite (a i : Nat) (v : Word) (s : State) : Host.Outcome State Fault Refusal :=
  done (s.writeScope a i v)

/-! ### Traps (R336) and the ring (R331, R332) -/

/-- R336 `hret`. -/
def execHret (s : State) : Host.Outcome State Fault Refusal :=
  done ((scalarUse [] []).run s (fun s =>
    let h := s.th
    if !stBit h.st 7 then .trap tILLEGAL 0x08000073#64
    else match s.checkTarget .ret h.epc with
      | .trap c => .trap c h.epc
      | .wait j => .stall (s.oweOpt j)
      | .ok => .own (s.modTh (fun h => h.ready.returnTrap))))

/-- R336 `trap`. -/
def execTrap (n : BitVec 6) (s : State) : Host.Outcome State Fault Refusal :=
  done ((scalarUse [] []).run s (fun _ => .trap tTRAP (n.setWidth 64)))

/-- R332: the status word of the entry with a sequence number. -/
def Thread.entryStatus (h : Thread) (n : BitVec 8) : Nat :=
  match h.ring.find? (fun e => e.seq == n), h.replay.find? (fun e => e.seq == n) with
  | some e, none => (if e.retired then 2 else 1) * 2 ^ 62 + b2n e.pfx.isSome * 2 ^ 16 + n.toNat
  | _, some e => 3 * 2 ^ 62 + b2n e.pfx.isSome * 2 ^ 16 + n.toNat
  | none, none => 0

/-- R332: the address of the entry with a sequence number. -/
def Thread.entryAddr (h : Thread) (n : BitVec 8) : Word :=
  match (h.replay ++ h.ring).find? (fun e => e.seq == n) with | some e => e.addr | none => 0#64

/-- R332: the ring status word. -/
def Thread.ringStatus (h : Thread) : Nat :=
  (h.ring.filter (fun e => !e.retired)).length + h.nextSeq.toNat * 2 ^ 8
    + (match h.replay with | e :: _ => e.seq.toNat | [] => 0) * 2 ^ 24 + h.replay.length * 2 ^ 32

/-- R332 `cop.rd`: field a names a register where n is 0 or 1. -/
def execCopRd (n : BitVec 2) (a d : BitVec 6) (s : State) : Host.Outcome State Fault Refusal :=
  let reads := if n.toNat < 2 then [a] else []
  done ((scalarUse reads [d]).run s (fun s =>
    let h := s.th
    let q := (s.xr a).setWidth 8
    .next (s.setX d (
      match n.toNat with
      | 0 => h.entryAddr q
      | 1 => w64 (h.entryStatus q)
      | 2 => w64 h.ringStatus
      | _ => h.rpc))))

/-- R331 `cop.replay`: entries older than the one named are dropped; the rest are reissued one by one at the next
offered cycles (`cap` holds the next), and the pc advances after the last. (Log: DEDUCED 22) -/
def execCopReplay (a : BitVec 6) (s : State) : Host.Outcome State Fault Refusal :=
  done ((scalarUse [a] []).run s (fun s =>
    let h := s.th
    let q := (s.xr a).setWidth 8
    match firstIdx h.replay (fun e => e.seq == q) with
    | none => .trap tREPLAY (w64 q.toNat)
    | some i => .own (s.modTh (fun h => { h with replay := h.replay.drop i, cap := (h.replay.drop i).head? }))))

/-! ### Deliveries (R329, R375) -/

/-- R329: a precise trap that waited for older ring entries is delivered. -/
def State.deliverWaiting (s : State) (sid : Nat) : State :=
  match (s.thread sid).trapWait with
  | some t => if (s.thread sid).inFlight then s else s.deliver sid t
  | none => s

/-- PRECISE_TRAP_DELIVERY (R329). -/
def execPreciseTrapDelivery (sid : Nat) (s : State) : Host.Outcome State Fault Refusal := done (s.deliverWaiting sid)

/-- R184, R329: the late fault of the thread of a slot, where it is ready to report. -/
def State.deliverLateOf (s : State) (sid : Nat) : State :=
  match (s.thread sid).lateFault with
  | some e => { ({ s with cur := sid } : State).deliverLate e with cur := s.cur }
  | none => s

/-- LATE_FAULT_DELIVERY (R184). -/
def execLateFaultDelivery (sid : Nat) (s : State) : Host.Outcome State Fault Refusal := done (s.deliverLateOf sid)

/-- R172: the detail of the overwrite trap: the register and reason of the most recent event. -/
def overwriteInfo (r : BitVec 6) (why : BitVec 4) : Word := w64 (r.toNat * 2 ^ 8 + why.toNat)

/-- R172, R329: a pending overwrite trap is raised at an issue with UH clear, once every older ring entry has retired. -/
def State.overwriteTrap (s : State) (sid : Nat) : State :=
  let h := s.thread sid
  match h.pendOv with
  | some (r, why) =>
    if stBit h.st 7 || h.inFlight then s
    else (s.modThread sid (fun h => { h with pendOv := none })).deliver sid
      { code := tOVERWRITE, info := overwriteInfo r why, pc := h.pc, st := h.stBefore }
  | none => s

/-- OVERWRITE_TRAP (R172). -/
def execOverwriteTrap (sid : Nat) (s : State) : Host.Outcome State Fault Refusal := done (s.overwriteTrap sid)

/-! ### Streams and held instructions (R128, R190) -/

/-- STREAM_ELEMENT_ARRIVAL (R190): the lines of the next elements of a read stream arrive, where their pages are
translated. -/
def State.streamArrival (s : State) (sid n : Nat) : State :=
  match vrd (s.thread sid).streams n with
  | none => s
  | some t =>
    if t.inSp || t.isWrite then s
    else (upTo 16).foldl (fun (s : State) j =>
      if t.p + j ≥ t.len then s
      else
        let va := t.addr (t.p + j)
        match s.xlate (coreOf sid) (s.thread sid).ctx va.toNat (Kind.ofCode 0) with
        | none => s
        | some e => match s.machineOf (e.sys va.toNat) with
          | none => s
          | some m =>
            if (s.copyFor (coreOf sid) (sid % 16) (m / 64) (s.thread sid).pc).isSome then s
            else s.fillLine (coreOf sid) (sid % 16) (m / 64) (s.thread sid).pc) s

/-- STREAM_ELEMENT_ARRIVAL (R190): see State.streamArrival. -/
def execStreamElementArrival (sid n : Nat) (s : State) : Host.Outcome State Fault Refusal :=
  done (s.streamArrival sid n)

/-- STREAM_WRITE_DRAIN (R190). -/
def execStreamWriteDrain (sid : Nat) (s : State) : Host.Outcome State Fault Refusal := done (s.performDrains sid)

/-- R128, R182: the results of the oldest held instruction of the thread of a slot are written, where no fault holds
them back and no arrival of the cycle has taken a register of them. (Log: DESIGN CHOICE 77) -/
def State.heldResult (s : State) (sid : Nat) : State :=
  match (s.thread sid).ring.find? (fun e => !e.retired) with
  | some e =>
    let s0 : State := { s with cur := sid }
    if e.fault.isSome || s0.arrivedAt e then s
    else
      match s0.retireStore e with
      | (false, s1) => { s1 with cur := s.cur }
      | (true, s1) =>
        let s2 := (s1.retireEntry e).modThread sid (fun h => { h with
          ring := updWhere h.ring (fun o => !o.retired && o.seq == e.seq)
            (fun o => { o with retired := true, left := 0, store := none }) })
        { s2 with cur := s.cur }
  | none => s

/-- HELD_RESULT_WRITE (R128). -/
def execHeldResultWrite (sid : Nat) (s : State) : Host.Outcome State Fault Refusal := done (s.heldResult sid)

/-! ### The wake of a `.yd` sleep (R13) -/

/-- R13: a copy of a line is there that serves a load of the current thread. -/
def State.served (s : State) (line : Nat) (strong : Bool) : Bool :=
  match s.copyFor (coreOf s.cur) (s.cur % 16) line s.th.pc with
  | some c => s.usable c strong
  | none => false

/-- R13: a cause of a not-ready outcome of the current thread has cleared: what it waits for is there for it, or a reply
has come to what it asked. -/
def State.clear (s : State) : Cause → Bool
  | .translation va w => (s.xlate (coreOf s.cur) s.th.ctx va ⟨!w, w, false⟩).isSome
  | .probe => s.th.probed.isSome
  | .lineAbsent line => s.served line false
  | .lease line => s.served line true
  | .writeGrant line => s.me.grants.any (fun g => g.1 == s.cur % 16 && g.2.1 == line)
  | .combineFull => decide (s.me.comb.length < 16)
  | .faultPending page => !s.pending page && !s.heldOn page
  | .heldStores => !s.holding
  | .replayFull => decide (s.mine.replay.length < Config.replayRoom)
  | .remote => !s.me.remote.any (fun r => r.kind == 0 && r.uid == s.th.uid && r.pc == s.th.pc)
  | .remoteFull => decide (s.me.remote.length < Config.requestRoom)
  | .awaiting r | .parked r => (s.armOf r).st != .awaiting
  | .ownership line => ((s.copyFor (coreOf s.cur) (s.cur % 16) line s.th.pc).map (·.excl)) == some true
  | .reply | .retry .. => s.th.rl.st != .busy
  | .latches => s.th.rl.st != .busy && s.th.ll.st != .busy && s.th.sl.st != .busy
  | .empty g => s.feFull (clusterOf s.cur) g
  | .granuleFull g => !s.feFull (clusterOf s.cur) g
  | .parkFull => s.parkAdmits (clusterOf s.cur) s.issuer
  | .order scope => !s.unordered scope
  | .noFrame => s.myCtx.freeFrame.isSome
  | .barrier n phase => hbPhase (vrd s.mine.hbc n) != phase
  | .barrierHeld n => hbArr (vrd s.mine.hbc n) != hbCnt (vrd s.mine.hbc n)
  | .reconfig cl => (s.cluster cl).vsegTo.isNone
  | .merge line => !s.ownUpdate line
  | .mergeUnit line => !s.me.upd.any (fun u => u.line == line)
  | .held => !s.th.pendingAny
  | .sendFull => s.sendRoom
  | .ack => s.th.sl.st != .busy
  | .launch | .launchFull => s.th.ll.st != .busy
  | .queueUnmapped q => (s.mappedTo s.th.ctx q).isSome
  | .channelFull c => s.xr (BitVec.ofNat 6 (32 + 2 * c)) == 0#64
  | .channelEmpty c => s.xr (BitVec.ofNat 6 (32 + 2 * c)) != 0#64
  | .streamFull r =>
      let used := (s.th.drains.filter (fun d => d.reg == r)).length
      used == 0 || decide (used + 16 ≤ Config.streamRoom)
  | .phase g phn => bitsAt (s.cbWord g) 32 7 != phn
  | .noLease | .leaseWait => s.holdsLease
  | .queueFull kind q =>
      let i := match kind with
        | 0 => queueOf 0 (q / 8) (q % 8)
        | 1 => queueOf 1 q 0
        | _ => queueOf 2 (q / 4) (q % 4)
      (s.queueCtl i).admits (s.queueLen i) s.refusedMe
  | .shapeBusy t => !s.mine.tileq.any (fun e => match e.cmd with | .tsh u _ => u == t | _ => false)
  | .ctxFull => decide (s.myCtx.engine.length < 16)
  | .noHandle => decide (s.myCtx.handles.length < 255) && decide (s.myCtx.usedChildren < s.myCtx.children)

/-- YD_SLEEP_WAKE (R13): all the causes that a slot sleeps for have cleared; a halted core issues nothing (R430). -/
def State.ydWake (s : State) (sid : Nat) : State :=
  match (s.slot sid).st with
  | .sleep (.policy cs) _ => if !(s.core (coreOf sid)).halted && cs.all ({ s with cur := sid } : State).clear then s.endSleep sid else s
  | _ => s

/-- YD_SLEEP_WAKE (R13): at a rotation boundary of the slot's core. (Log: DEDUCED 12) -/
def execYdSleepWake (sid : Nat) (s : State) : Host.Outcome State Fault Refusal :=
  done (if s.opens (coreOf sid) then s.ydWake sid else s)

end Sys2Proof.Machine
end

