-- ==== Sys2Proof/Machine/Translate.lean ====
section
/-! DEFINITION. Address translation as software reaches it, major 29, and the events of the scrivener, the TLBs and the
vault segments (R226, R227, R356 to R365). -/

namespace Sys2Proof.Machine

/-- The frame of a major-29 instruction. -/
def tlbUse (word : Nat) (names reads : List (BitVec 6)) (pol : Option Policy) : Use :=
  { word := word, feat := some fTranslation, kern := true, names := names.map .x, reads := reads, pol := pol,
    awaitCode := 1, after := true }

/-- R362: the codes of the causes of major 29. -/
def tlbCode (c : Cause) : Nat :=
  match c with
  | .awaiting _ => 1
  | .faultPending _ | .heldStores => 2
  | .order _ => 3
  | .translation .. | .probe => 5
  | _ => 4

/-- R358, R359: nothing cached depends on a stage any more. -/
def State.dropStage (s : State) (a : Nat) : State :=
  let live (l : List (Nat × BitVec 32)) : Bool := !l.any (fun p => p.1 == a)
  { s with
    cores := s.cores.map (fun (p : Nat × Core) => (p.1, { p.2 with tlb := p.2.tlb.filter (fun e => live e.stamps) })),
    clusters := s.clusters.map (fun (p : Nat × Cluster) => (p.1, { p.2 with
      tlb := p.2.tlb.filter (fun e => live e.stamps), l2i := p.2.l2i.filter (fun e => live e.2.2) })),
    due := s.due.filter (fun j => match j with | .fetch _ _ st => live st | _ => true) }

/-- R358: an invalidation of a stage starts: its 32-bit generation advances, for every page of the stage at least. Where it
wraps, no entry of an earlier round is left. (Log: DESIGN CHOICE 31; DEDUCED 32) -/
def State.advanceStage (s : State) (a : Nat) : State :=
  let s := s.modCtx a (fun c => { c with stageGen := c.stageGen + 1#32 })
  if (s.ctx a).stageGen = 0#32 then s.dropStage a else s

/-- R363, R365: the fence conditions of a device fence, then the invalidation of pages of the issuer's own stage; `first`
is what else its start does. -/
def State.invalidate (s : State) (page count : Nat) (atStart : State → State) : Res :=
  (s.fence 4).res tlbCode (fun _ s =>
    let s := if s.wouldSend then (atStart s).advanceStage s.th.ctx else s
    s.request tlbCode none (.inval s.th.ctx page count) 0#64 (fun _ s => s))

/-- R363: the checks of `tlb.inv`. -/
def invCheck (va n : Word) (f : Nat → Nat → Res) : Res :=
  if !canonical va then .trap tADDRESS va
  else if n = 0#64 ∨ n.toNat > 2 ^ 20 ∨ va.toNat / 4096 + n.toNat > 2 ^ 52 then .trap tDESC n
  else f (va.toNat / 4096) n.toNat

/-- R363 `tlb.inv`. (Log: DEDUCED 32) -/
def execTlbInv (p : Policy) (b a : BitVec 6) (s : State) : Host.Outcome State Fault Refusal :=
  let early (rs : List (BitVec 6)) (s : State) : Res :=
    invCheck (if rs.contains a then 0#64 else s.xr a) (if rs.contains b then 1#64 else s.xr b) (fun _ _ => .skip s)
  done (({ (tlbUse (rpw p.bits 0 b a 0#6 29) [a, b] [a, b] (some p)) with early := early } : Use).run s (fun s =>
    invCheck (s.xr a) (s.xr b) (fun page n => s.invalidate page n (fun s => s))))

/-- R363 `tlb.inva`. -/
def execTlbInva (p : Policy) (s : State) : Host.Outcome State Fault Refusal :=
  done ((tlbUse (rpw p.bits 1 0#6 0#6 0#6 29) [] [] (some p)).run s (fun s =>
    s.invalidate 0 (2 ^ 52) (fun s => s)))

/-- R364: the code of a composed size in pages. -/
def sizeCode (pages : Nat) : Nat :=
  if pages < 16 then 0 else if pages < 512 then 1 else if pages < 131072 then 2 else if pages < 262144 then 3 else 4

/-- R364: the result word of `tlb.probe`, for an access in a cluster. -/
def State.probeWord (s : State) (cl a va : Nat) : Nat :=
  if s.faultPending cl a (va / 4096) then 2 ^ 61
  else match s.translateFor cl false a va (Kind.ofCode 0) with
    | .fault c l p _ _ => if (s.pendingLevel cl c p).isSome then 2 ^ 61 else (s.ctx c).depth * 2 ^ 4 + l
    | .ok w _ =>
      let pages := min w.pages (2 ^ 18)
      2 ^ 63 + b2n (s.machineOf w.addr).isNone * 2 ^ 62 + b2n (w.x && w.kx) * 2 ^ 60 + b2n (w.w && w.kw) * 2 ^ 59
        + b2n (w.r && w.kr) * 2 ^ 58 + w.first / 4096 / pages * pages % 2 ^ 44 * 2 ^ 12 + sizeCode pages * 2 ^ 8

/-- R364: the scrivener has walked for a `tlb.probe` at `pc`: the thread has its result. -/
def State.probeWalk (s : State) (who : Issuer) (va pc : Word) : State :=
  let v := w64 (s.probeWord (clusterOf who.sid) who.ctx va.toNat)
  s.modUid who.uid (fun h => { h with probed := some (pc, va, v) })

/-- R364 `tlb.probe`: not ready while the scrivener walks; the walk changes no entry. (Log: DESIGN CHOICE 31) -/
def execTlbProbe (p : Policy) (a d : BitVec 6) (s : State) : Host.Outcome State Fault Refusal :=
  done ((tlbUse (rpw p.bits 2 0#6 a d 29) [a, d] [a] (some p)).run s (fun s =>
    let va := s.xr a
    let ask : Res := .nr [.probe] (tlbCode .probe) (s.owe (.probe s.issuer va s.th.pc))
    if !canonical va then .trap tADDRESS va
    else match s.th.probed with
      | none => ask
      | some (pc, x, v) =>
        if pc ≠ s.th.pc ∨ x ≠ va then ask
        else .next ((s.modTh (fun h => { h with probed := none })).setX d v)))

/-- R365 `atp.rd`. -/
def execAtpRd (d : BitVec 6) (s : State) : Host.Outcome State Fault Refusal :=
  done ((tlbUse (rpw 0#2 3 0#6 0#6 d 29) [d] [] none).run s (fun s => .next (s.setX d s.myCtx.atp)))

/-- R365: a word that ATP may hold. -/
def atpOk (v : Word) : Bool :=
  (bitsAt v.toNat 60 4 == 0 || bitsAt v.toNat 60 4 == 10) && bitsAt v.toNat 44 16 == 0

/-- R365 `atp.wr`. -/
def execAtpWr (p : Policy) (a : BitVec 6) (s : State) : Host.Outcome State Fault Refusal :=
  done ((tlbUse (rpw p.bits 4 0#6 a 0#6 29) [a] [a] (some p)).run s (fun s =>
    let v := s.xr a
    if !atpOk v then .trap tDESC v
    else s.invalidate 0 (2 ^ 52) (fun s => s.modCtx s.th.ctx (fun c => { c with atp := v }))))

/-! ### Events -/

/-- SCRIVENER_WALK (R354): the n-th owed job, where it is a walk. -/
def execScrivenerWalk (n : Nat) (s : State) : Host.Outcome State Fault Refusal :=
  match s.due[n]? with
  | some (.walk cid ctx va kind who eng) =>
    done (({ s with due := s.due.eraseIdx n } : State).scrivenerWalk cid ctx va (Kind.ofCode kind) who eng)
  | some (.probe who va pc) => done (({ s with due := s.due.eraseIdx n } : State).probeWalk who va pc)
  | _ => done s

/-- TLB_FILL_HOLD_EXPIRY (R356): a TLB entry's hold for its requester has lasted 2 rotations. -/
def execTlbFillHoldExpiry (cid : Nat) (s : State) : Host.Outcome State Fault Refusal :=
  done (s.modCore cid (fun k => { k with
    tlb := updWhere k.tlb (fun e => decide (e.heldUntil ≤ k.cycle)) (fun e => { e with heldUntil := 0 }) }))

/-- INVALIDATION_COMPLETE (R359): the n-th owed request, where it is an invalidation. -/
def execInvalidationComplete (n : Nat) (s : State) : Host.Outcome State Fault Refusal :=
  match s.due[n]? with
  | some (.request r) =>
    match r.op with
    | .inval stage .. => done (({ s with due := s.due.eraseIdx n } : State).invalidateDone stage r)
    | _ => done s
  | _ => done s

/-! ### Vault segments (R226, R227) -/

/-- R227: the bytes of one segment. -/
def segBytes : Nat := 131072

/-- R227: a segment joins vault memory at an offset, zeroed; what lies above moves up. -/
def segJoin (off : Nat) (m : List Host.Cell) : List Host.Cell :=
  m.map (fun c => if c.1 < off then c else (c.1 + segBytes, c.2))

/-- R227: a segment leaves vault memory; what lies above moves down. -/
def segLeave (off : Nat) (m : List Host.Cell) : List Host.Cell :=
  (m.filter (fun c => decide (c.1 < off) || decide (off + segBytes ≤ c.1))).map (fun c =>
    if c.1 < off then c else (c.1 - segBytes, c.2))

/-- The same for what is kept of granules. -/
def timeJoin {α : Type} (g : Nat) (t : Tab α) : Tab α := t.map (fun p => if p.1 < g then p else (p.1 + segBytes / 16, p.2))

/-- See timeJoin. -/
def timeLeave {α : Type} (g : Nat) (t : Tab α) : Tab α :=
  (t.filter (fun p => decide (p.1 < g) || decide (g + segBytes / 16 ≤ p.1))).map (fun p =>
    if p.1 < g then p else (p.1 - segBytes / 16, p.2))

/-- R227: a write to VSEG starts a role change for each changed segment. -/
def State.writeVseg (s : State) (cl : Nat) (v : Word) : State :=
  let v := v &&& 0xFFFE#64
  if v = (s.cluster cl).vseg then s.modCluster cl (fun c => { c with vsegTo := none })
  else (s.modCluster cl (fun c => { c with vsegTo := some v })).owe (.vsegStep cl)

/-- R346: the errors of the units of a cluster's vault memory, as a change of role leaves them: `f` gives a unit its new
number, or none where it has no bytes any more. -/
def State.moveUnits (s : State) (cl : Nat) (f : Nat → Option Nat) : State :=
  if s.ecc.isEmpty then s
  else { s with ecc := s.ecc.filterMap (fun e => match e.1 with
    | .vm c u => if c = cl then (f u).map (fun u => (EccAt.vm c u, e.2)) else some e
    | _ => some e) }

/-- R227: the step of the lowest segment whose role is to change. -/
def State.vsegStep (s : State) (cl : Nat) : State :=
  match (s.cluster cl).vsegTo with
  | none => s
  | some t =>
    match (upTo 16).find? (fun i => (s.cluster cl).vseg.getLsbD i != t.getLsbD i) with
    | none => s.modCluster cl (fun c => { c with vsegTo := none })
    | some i =>
      let off := popCount ((s.cluster cl).vseg &&& 0xFFFE#64 &&& w64 (2 ^ i - 1)) * segBytes
      let s := if (s.cluster cl).vseg.getLsbD i then
          s.moveUnits cl (fun u => if u < off / 16 then some u
            else if u < (off + segBytes) / 16 then none else some (u - segBytes / 16))
        else s.moveUnits cl (fun u => some (if u < off / 16 then u else u + segBytes / 16))
      let s := s.modCluster cl (fun c =>
        let bit : Word := w64 (2 ^ i)
        let c' : Cluster :=
          if c.vseg.getLsbD i then
            { c with
              vault := segLeave off c.vault, vtime := timeLeave (off / 16) c.vtime, vread := timeLeave (off / 16) c.vread,
              vrels := timeLeave (off / 16) c.vrels, vseg := c.vseg &&& ~~~bit }
          else
            { c with
              vault := segJoin off c.vault, vtime := timeJoin (off / 16) c.vtime, vread := timeJoin (off / 16) c.vread,
              vrels := timeJoin (off / 16) c.vrels,
              l2 := c.l2.filter (fun p => p.2 != i), vseg := c.vseg ||| bit }
        { c' with vsegTo := if c'.vseg = t then none else some t })
      if (s.cluster cl).vsegTo.isSome then s.owe (.vsegStep cl) else s

/-- VSEG_WRITE (R227). -/
def execVsegWrite (cl : Nat) (v : Word) (s : State) : Host.Outcome State Fault Refusal := done (s.writeVseg cl v)

/-- VSEG_SEGMENT_STEP (R227). -/
def execVsegSegmentStep (cl : Nat) (s : State) : Host.Outcome State Fault Refusal := done (s.vsegStep cl)

end Sys2Proof.Machine
end

