-- ==== Sys2Proof/Machine/Preempt.lean ====
section
/-! DEFINITION. Stopping, saving, restoring and moving threads and clusters (R391 to R402). -/

namespace Sys2Proof.Machine

/-! ### Stopping (R391) -/

/-- R391 step 2: the pending set of the thread of a slot empties and its ring retires; a late fault or a waiting trap is
delivered into its state. -/
def State.drainRing : Nat → State → Nat → State
  | 0, s, _ => s
  | n + 1, s, sid =>
    match (s.thread sid).ring.find? (fun e => !e.retired) with
    | none => s.deliverWaiting sid
    | some e =>
      if e.fault.isSome then
        ((s.modThread sid (fun h => { h with
          ring := updWhere h.ring (fun o => !o.retired && o.seq == e.seq) (fun o => { o with left := 0 }) })).deliverLateOf
            sid).drainRing n sid
      else (s.heldResult sid).drainRing n sid

/-- R391: stop the thread of a slot: its ring drained, its rest ended, its accesses performed, its lines released. -/
def State.stopSlot (s : State) (sid : Nat) : State :=
  let s := s.drainRing 17 sid
  let s := match (s.slot sid).st with
    | .skip _ => s.modSlot sid (fun sl => { sl with st := .run })
    | _ => s.endSleep sid
  ((s.flushSends sid).settle sid).releaseLines sid

/-- A slot whose thread waits for its reflection (R375) stays until it is held. -/
def Slot.reflecting (sl : Slot) : Bool := match sl.st with | .sleep (.reflect _) _ => true | _ => false

/-- R392, R393: the slot frame of a slot, as a part of its core's context tail. -/
def State.slotPart (s : State) (sid : Nat) : Nat × List Byte := (16 * 84 * (sid % 16), (s.thread sid).slotFrame)

/-- R392: the parts of a core's context tail: slot frames, shared registers, inbox and lease save area, with their offsets
from the start of the tail. -/
def State.coreTail (s : State) (cid : Nat) : List (Nat × List Byte) :=
  let k := s.core cid
  (upTo 16).map (fun i => s.slotPart (16 * cid + i)) ++
  [(16 * 1344, leBytes (packWords 8 (k.c.toList.map (·.toNat))) 256),
   (16 * 1360, leBytes (packWords 64 (k.w.toList.map (·.toNat))) 1024),
   (16 * 1424, k.inboxImage),
   s.leasePart cid]

/-- R391, R392: pre-empt a core: every slot stops, a hold of the lease ends, and the state is written to the core's context
tail; its slots become FREE at the next rotation boundary. (Log: DEDUCED 37) -/
def State.preemptCore (s : State) (cid : Nat) : State :=
  let s := s.flushPort cid
  let s := ((upTo 16).filter (fun i => (s.slot (16 * cid + i)).occupied)).foldl (fun s i => s.stopSlot (16 * cid + i)) s
  let s := if (s.cluster (cid / 8)).lease.holder = some (cid % 8) then s.holdEnd (cid / 8) else s
  (s.writeTail cid (s.coreTail cid)).modCore cid (fun k => { k with stopped := true, emptying := true })

/-- CORE_PREEMPT (R391). -/
def execCorePreempt (cid : Nat) (s : State) : Host.Outcome State Fault Refusal := done (s.preemptCore cid)

/-- R372: the threads of slots leave them: the slots are FREE. -/
def State.emptySlots (s : State) (l : List Nat) : State :=
  l.foldl (fun (s : State) sid =>
    (s.modCtx (s.thread sid).ctx (fun c => { c with usedSlots := c.usedSlots - 1 })).modSlot sid
      (fun sl => { gen := sl.gen })) s

/-- R391: a slot whose thread has been saved or moved: it becomes FREE at the next rotation boundary. -/
def Slot.leave (sl : Slot) : Slot := { gen := sl.gen, st := .run, qo := sl.qo, dying := true, left := true }

/-- R391, R372: the threads of slots have been saved elsewhere. -/
def State.leaveSlots (s : State) (l : List Nat) : State :=
  l.foldl (fun (s : State) sid =>
    (s.modCtx (s.thread sid).ctx (fun c => { c with usedSlots := c.usedSlots - 1 })).modSlot sid Slot.leave) s

/-- R391: at a rotation boundary the slots of a pre-empted core become FREE; their threads stay saved with the core, but
for one whose trap is still to be reflected. (Log: DEDUCED 37) -/
def State.keepCore (s : State) (cid : Nat) : State :=
  if !(s.core cid).emptying then s
  else
    let l := ((upTo 16).map (fun i => 16 * cid + i)).filter (fun sid => (s.slot sid).occupied && !(s.slot sid).reflecting)
    let kept := l.map (fun sid => (sid % 16, s.slot sid))
    (s.emptySlots l).modCore cid (fun k => { k with
      kept := k.kept ++ kept, emptying := (upTo 16).any (fun i => (s.slot (16 * cid + i)).reflecting) })

/-- R391: the threads saved with a core stand in its slots again, from which they are saved or moved. -/
def State.unkeep (s : State) (cid : Nat) : State :=
  let l := (s.core cid).kept
  l.foldl (fun (s : State) p => (s.modSlot (16 * cid + p.1) (fun _ => p.2)).modCtx p.2.th.ctx (fun c =>
    { c with usedSlots := c.usedSlots + 1 })) (s.modCore cid (fun k => { k with kept := [], emptying := false }))

/-! ### Saving a cluster (R397 to R399) -/

/-- A context lies in the tree below another, or is it. -/
def State.within (s : State) (a top : Nat) : Bool := (s.lineage a).contains top

/-- R399: a cluster without what a save region takes from it. -/
def Cluster.cleared (c : Cluster) : Cluster :=
  { c with
    scratch := [], fe := [], gtime := [], gread := [], grels := [], vault := [], vtime := [], vread := [], vrels := [],
    win := .replicate 8 0#64,
    winOld := none, hbc := .replicate 4 0#64, hbSince := .replicate 4 none, park := [], parkRefused := [],
    parkResv := [], ticket := 0#8, copyq := .replicate 8 [], copyCtl := .replicate 8 {}, tileq := [], tileCtl := {},
    lease := {}, tiles := .replicate 20 {}, work := [], waiters := [], fwd := [] }

/-- R400: a cluster with the image of a save region. (Log: DESIGN CHOICE 89) -/
def Cluster.withImage (c i : Cluster) : Cluster :=
  { c with
    scratch := i.scratch, fe := i.fe, gtime := i.gtime, gread := i.gread, grels := i.grels, vault := i.vault,
    vtime := i.vtime, vread := i.vread, vrels := i.vrels, win := i.win, winOld := none, hbc := i.hbc, hbSince := i.hbSince, park := i.park,
    parkRefused := i.parkRefused, parkResv := i.parkResv, ticket := i.ticket, copyq := i.copyq, copyCtl := i.copyCtl,
    tileq := i.tileq, tileCtl := i.tileCtl, lease := i.lease, tiles := i.tiles, work := i.work, waiters := i.waiters,
    fwd := i.fwd }

/-- Entries saved for the cores of a cluster that satisfy a test. -/
def savedOf (t : Tab (List TileEntry)) (p : TileEntry → Bool) : Tab (List TileEntry) :=
  (t.map (fun e => (e.1, e.2.filter p))).filter (fun e => !e.2.isEmpty)

/-- R284, R292: what the engines of a cluster and its router hold of the contexts that satisfy a test. -/
def Cluster.part (c : Cluster) (mine : Nat → Bool) : Cluster :=
  { copyq := c.copyq.map (fun l => l.filter (fun e => mine e.who.ctx)),
    lease := { saved := savedOf c.lease.saved (fun e => mine e.who.ctx), savedSqp := c.lease.savedSqp },
    work := c.work.filter (fun w => mine w.ctx), waiters := c.waiters.filter (fun w => mine w.ctx),
    fwd := c.fwd.filter (fun f => mine f.ctx) }

/-- The cluster without that part. -/
def Cluster.without (c : Cluster) (mine : Nat → Bool) : Cluster :=
  { c with
    copyq := c.copyq.map (fun l => l.filter (fun e => !mine e.who.ctx)),
    lease := { c.lease with saved := savedOf c.lease.saved (fun e => !mine e.who.ctx) },
    work := c.work.filter (fun w => !mine w.ctx), waiters := c.waiters.filter (fun w => !mine w.ctx),
    fwd := c.fwd.filter (fun f => !mine f.ctx) }

/-- The cluster with such a part put back, ahead of what it holds; a queue may then hold more than its entries, and the
forwarding table more than 32. (Log: DESIGN CHOICE 90) -/
def Cluster.plus (c i : Cluster) : Cluster :=
  { c with
    copyq := Vector.ofFn (fun n : Fin 8 => vrd i.copyq n.val ++ vrd c.copyq n.val),
    lease := i.lease.saved.foldl (fun (l : Lease) p => { l.ask p.1 with
      saved := l.saved.put p.1 (p.2 ++ l.saved.get [] p.1),
      savedSqp := l.savedSqp.put p.1 (i.lease.savedSqp.get 0 p.1) }) c.lease,
    work := i.work ++ c.work, waiters := i.waiters ++ c.waiters, fwd := i.fwd ++ c.fwd }

/-- An issuer as its slot is named on another physical cluster. -/
def Issuer.movedTo (w : Issuer) (phys : Nat) : Issuer :=
  if w.sid < hostSid then { w with sid := 128 * phys + w.sid % 128 } else w

/-- The entries of a saved cluster as they stand on the physical cluster that takes them. -/
def Cluster.movedTo (c : Cluster) (phys : Nat) : Cluster :=
  { c with
    copyq := c.copyq.map (fun l => l.map (fun e => { e with who := e.who.movedTo phys })),
    lease := { c.lease with
      saved := c.lease.saved.map (fun p => (p.1, p.2.map (fun e => { e with who := e.who.movedTo phys }))) } }

/-- Change the virtual clusters of a context and its descendants that satisfy a test. -/
def State.modVcls (s : State) (top : Nat) (p : VCluster → Bool) (f : VCluster → VCluster) : State :=
  { s with ctxs := s.ctxs.map (fun (q : Nat × Ctx) =>
      if s.within q.1 top then (q.1, { q.2 with vcls := updWhere q.2.vcls p f }) else q) }

/-- R397: the virtual clusters and the frames of a context and its descendants that stand on a physical cluster go with it
to the save region with a key. -/
def State.intoRegion (s : State) (k : Nat × Nat) (phys : Nat) : State :=
  let crf := (s.cluster phys).crf
  let s := s.modVcls k.1 (fun e => e.phys == phys && !e.saved) (fun e => { e with region := some k, crf := crf })
  { s with ctxs := s.ctxs.map (fun (q : Nat × Ctx) =>
      if s.within q.1 k.1 then (q.1, { q.2 with framesIn := updWhere q.2.framesIn (fun f =>
        clusterOf f.sid == phys && f.away.isNone) (fun f => { f with away := some k }) }) else q) }

/-- R400: they leave the region for a physical cluster. -/
def State.outOfRegion (s : State) (k : Nat × Nat) (phys : Nat) : State :=
  let s := s.modVcls k.1 (fun e => e.region == some k) (fun e => { e with phys := phys, region := none })
  { s with ctxs := s.ctxs.map (fun (q : Nat × Ctx) => (q.1, { q.2 with
      framesIn := updWhere q.2.framesIn (fun f => f.away == some k)
        (fun f => { f with away := none, sid := 128 * phys + f.sid % 128 }) })) }

/-- The occupied slots of a physical cluster whose threads belong to a context or its descendants. -/
def State.slotsOf (s : State) (top phys : Nat) : List Nat :=
  ((upTo 128).map (fun i => 128 * phys + i)).filter (fun sid =>
    (s.slot sid).occupied && s.within (s.thread sid).ctx top)

/-- The threads of a context and its descendants that a physical cluster holds in slots, or is the home of in frames. -/
def State.uidsOf (s : State) (top phys : Nat) : List Nat :=
  (s.slotsOf top phys).map (fun sid => (s.thread sid).uid) ++
  (s.ctxs.filter (fun p => s.within p.1 top)).flatMap (fun p =>
    (p.2.framesIn.filter (fun f => clusterOf f.sid == phys && f.away.isNone)).map (fun f => f.th.uid))

/-- R159, R401: a thread of a context or its descendants is on its way from or to a physical cluster. -/
def State.inTransit (s : State) (top phys : Nat) : Bool :=
  s.ctxs.any (fun p => s.within p.1 top && p.2.framesIn.any (fun f =>
    f.why == 3 && (clusterOf f.sid == phys || clusterOf (f.num - 65536) == phys)))

/-- R398: the threads of a context and its descendants on a physical cluster are stopped, and their state and that of a
tenant's cores is written to the context tails. -/
def State.stopCluster (s : State) (t phys : Nat) (alone : Bool) : State :=
  let cids := (upTo 8).map (fun i => 8 * phys + i)
  if alone then cids.foldl State.preemptCore s
  else
    let sids := s.slotsOf t phys
    let s := sids.foldl State.stopSlot (cids.foldl State.flushPort s)
    let holds : Bool := match (s.cluster phys).lease.holder with
      | some c => sids.any (fun sid => coreOf sid % 8 == c)
      | none => false
    let s := if holds || (s.cluster phys).tileq.any (fun e => s.within e.who.ctx t) then s.holdEnd phys else s
    sids.foldl (fun s sid => s.writeTail (coreOf sid) [s.slotPart sid]) s

/-- R284: the collective entries entered from a physical cluster for a context and its descendants, each with its queue. -/
def State.collOf (s : State) (t phys : Nat) : List (Nat × CollEntry) :=
  (upTo 4).flatMap (fun q => ((vrd (s.field (fieldOf phys)).collq q).filter (fun e =>
    e.cl == phys && s.within e.who.ctx t)).map (fun e => (q, e)))

/-- R284, R398: what a cluster loses with a context: its engines stop at their boundaries, and its slots, entries and, of
a tenant, memories, tiles and shared registers are gone from it. -/
def State.leaveCluster (s : State) (t phys : Nat) (alone : Bool) : State :=
  let mine (a : Nat) : Bool := s.within a t
  let uids := s.uidsOf t phys
  let s := s.modField (fieldOf phys) (fun f => ({ f with
    collq := f.collq.map (fun l => l.filter (fun e => !(e.cl == phys && mine e.who.ctx))) } : Field).freedSince f s.cycle)
  let s := s.leaveSlots (s.slotsOf t phys)
  let s := s.modCluster phys (fun c => if alone then c.cleared else (c.without mine).freedSince c s.cycle)
  (upTo 8).foldl (fun (s : State) i => s.modCore (8 * phys + i) (fun k =>
    if alone then { k with
      c := .replicate 32 0#64, carm := .replicate 32 {}, ctime := .replicate 32 0, w := .replicate 16 0#512,
      wtime := .replicate 16 0, inbox := [], deferred := [], stopped := false, emptying := false }
    else { k with
      inbox := k.inbox.filter (fun e => !uids.contains e.uid),
      deferred := k.deferred.filter (fun e => !uids.contains e.uid) })) s

/-- The byte offset of a unit of a scratchpad or a vault in it. -/
def EccAt.offset (u : EccAt) : Nat :=
  match u with
  | .vm _ n | .sp _ n => 16 * n
  | _ => 0

/-- R217, R227, R398: the units of the scratchpad, the vault and the tile registers of a cluster that an error lies in: a save
reads them. -/
def State.heldUnits (s : State) (phys : Nat) : List EccAt :=
  (s.ecc.map (·.1)).filter (fun u => match u with
    | .vm cl _ | .sp cl _ | .tile cl _ _ => cl == phys
    | _ => false)

/-- R399: an entry of a copy queue in 64 bytes. The spec gives its place and not its bits. (Log: DESIGN CHOICE 45) -/
def CopyEntry.image (e : CopyEntry) : Nat :=
  let sp (x : Space) : Nat := match x with | .mem => 0 | .sp => 1 | .vm => 2
  packWords 8 [e.dbase.toNat, e.dpitch.toNat, e.sbase.toNat, e.spitch.toNat] +
    packWords 4 [e.ox0.toNat, e.ox1.toNat, e.ox2.toNat, e.bar.toNat,
      sp e.dst + sp e.src * 4 + e.idxd * 16 + b2n e.few * 2 ^ 8 + b2n e.fer * 2 ^ 9] * 2 ^ 256

/-- R152, R399: an entry of a work buffer in 64 bytes. (Log: DESIGN CHOICE 45) -/
def Work.image (w : Work) : Nat :=
  w.entry.toNat + w.arg.toNat * 2 ^ 64 + packWords 4 [w.ox0.toNat, w.ox1.toNat, w.ox2.toNat, w.next] * 2 ^ 128

/-- R394: the state of a slot in two bits. The spec gives its place and not its bits. (Log: DESIGN CHOICE 45) -/
def SlotSt.code (st : SlotSt) : Nat :=
  match st with
  | .free | .run => 0
  | .skip _ => 1
  | .sleep .. => 2

/-- R399: what the save DMA streams of a cluster, with the threads of the save region, as the bytes of the region that are
not 0, by offset. (Log: DESIGN CHOICE 45) -/
def State.saveCells (s : State) (c : Cluster) (g : SaveRegion) : List Host.Cell :=
  let park (i : Nat) : Nat := (({ s with clusters := s.clusters.put g.phys c } : State).parkWord g.phys i).toNat
  let fe (i : Nat) : Byte := BitVec.ofNat 8 ((upTo 8).foldl (fun n b => n + b2n (c.fe.contains (8 * i + b)) * 2 ^ b) 0)
  c.scratch ++ (uniq (c.fe.map (· / 8))).map (fun i => (0x0F8000 + i, fe i)) ++
  cellsAt 0x0FA000 (leBytes (packWords 8 ((c.win.toList ++ c.hbc.toList).map (·.toNat) ++ [c.vseg.toNat])) 128) ++
  cellsAt 0x0FA080 (leBytes (packWords 8 ((upTo 64).map park)) 512) ++
  cellsAt 0x0FB000 (g.image.copyq.toList.flatMap (fun l => leBytes (packWords 64 (l.map CopyEntry.image)) 2048)) ++
  cellsAt 0x0FF000 (leBytes (packWords 64 (g.image.work.map Work.image)) 1024 ++
    leBytes (packWords 8 (g.image.copyq.toList.map (fun l => match l with | e :: _ => e.row | [] => 0))) 64) ++
  (upTo 16).flatMap (fun t => (vrd c.tiles t).rows.flatMap (fun r =>
    cellsAt (0x100000 + 4096 * t + 64 * r.1) (leBytes r.2 64))) ++
  (upTo 16).flatMap (fun t => cellsAt (0x110000 + 128 * t)
    ((upTo 128).map (fun n => BitVec.ofNat 8 ((vrd c.tiles t).scale.get 127 n)))) ++
  (upTo 4).flatMap (fun t => (vrd c.tiles (16 + t)).rows.flatMap (fun r =>
    cellsAt (0x110800 + 32768 * t + 8 * r.1) (leBytes r.2 8))) ++
  cellsAt 0x130800 (leBytes (packWords 8 (c.tiles.toList.map (·.tsh.toNat))) 160) ++
  g.slots.flatMap (fun p => cellsAt (0x140000 + 704 * p.1) (p.2.th.extension p.2.qo p.2.st.code)) ++
  c.vault.map (fun v => (0x200000 + v.1, v.2))

/-- The lines of machine memory in which a save region has bytes that are not 0. -/
def State.regionLines (s : State) (i : Nat) : List Nat :=
  uniq ((s.mem.filter (fun c => decide (Config.saveBase i ≤ c.1) && decide (c.1 < Config.saveBase i + 2 ^ 22))).map
    (fun c => c.1 / 64))

/-- R398, R399: the save DMA writes a save region. -/
def State.streamOut (s : State) (i : Nat) (cells : List Host.Cell) : State :=
  let base := Config.saveBase i
  let img := Memory.writeAll [] cells
  (uniq (s.regionLines i ++ cells.map (fun c => (base + c.1) / 64))).foldl (fun (s : State) l =>
    s.performWrite l (cellsAt (64 * l) (Memory.bytes img (64 * l - base) 64)) 0 none) s

/-- The bytes of a range of memory that are not 0, by their distance from its first. -/
def Memory.window (m : List Host.Cell) (a n : Nat) : List Host.Cell :=
  Memory.writeAll [] ((m.filter (fun c => decide (a ≤ c.1) && decide (c.1 < a + n))).map (fun c => (c.1 - a, c.2)))

/-- The tile rows in a range of bytes, `w` bytes each. -/
def tileRows (m : List Host.Cell) (w : Nat) : Tab Nat :=
  (uniq (m.map (fun c => c.1 / w))).foldl (fun (t : Tab Nat) r => t.put r (Memory.nat m (w * r) w)) []

/-- R400: a save region as its bytes in machine memory stand: memories, tile data, shared registers and threads; of a
deeper context, its threads. (Log: DESIGN CHOICE 45) -/
def SaveRegion.ofBytes (g : SaveRegion) (m : List Host.Cell) (alone : Bool) : SaveRegion :=
  let r := Memory.window m (Config.saveBase g.idx) (2 ^ 22)
  let tile (t : Nat) (o : Tile) : Tile :=
    if t < 16 then { o with
      rows := tileRows (Memory.window r (0x100000 + 4096 * t) 4096) 64,
      scale := (upTo 128).foldl (fun (l : Tab Nat) n => l.put n (Memory.read r (0x110000 + 128 * t + n)).toNat) o.scale }
    else { o with rows := tileRows (Memory.window r (0x110800 + 32768 * (t - 16)) 32768) 8 }
  let frame (p : Nat) : List Byte :=
    Memory.bytes r (tailBase (p / 16) + 1344 * (p % 16)) 1344 ++ Memory.bytes r (0x140000 + 704 * p) 704
  let g := { g with slots := g.slots.map (fun p => (p.1, { p.2 with th := p.2.th.ofFrame (frame p.1) })) }
  if !alone then g
  else { g with
    image := { g.image with
      scratch := Memory.window r 0 1015808, vault := Memory.window r 0x200000 g.image.vmSize,
      fe := (Memory.window r 0x0F8000 6400).flatMap (fun c =>
        ((upTo 8).filter (fun b => c.2.getLsbD b)).map (fun b => 8 * c.1 + b)),
      tiles := Vector.ofFn (fun t : Fin 20 => tile t.val (vrd g.image.tiles t.val)) },
    cores := g.cores.map (fun p => (p.1, { p.2 with
      c := Vector.ofFn (fun n : Fin 32 => w64 (Memory.nat r (tailBase p.1 + 16 * 1344 + 8 * n.val) 8)),
      w := Vector.ofFn (fun n : Fin 16 => BitVec.ofNat 512 (Memory.nat r (tailBase p.1 + 16 * 1360 + 64 * n.val) 64)) })) }

/-- R346, R400: the errors in a save region are met as it is read. -/
def State.readRegion (s : State) (a i : Nat) : State :=
  let l := (s.ecc.map (·.1)).filter (fun u => match u with
    | .hbm l | .l2 l => decide (Config.saveBase i / 64 ≤ l) && decide (l < Config.saveBase i / 64 + 2 ^ 16)
    | _ => false)
  l.foldl (fun (s : State) u => s.readUnit u a 0 true) s

/-- R398: save a virtual cluster of a context, its descendants' threads included; none while it must wait (R397, R399).
A tenant holds its clusters alone, and its engines and memories go with it; a deeper context shares them, and only its
threads, their inbox entries and its engine and router entries go. (Log: DEDUCED 37) -/
def State.saveCluster (s : State) (t v : Nat) : Option State :=
  match (s.ctx t).vcls.find? (fun e => e.vcl == v && !e.saved) with
  | none => some s
  | some e =>
    let phys := e.phys
    let alone := (s.ctx t).depth == 1
    match (upTo Config.saveRegions).find? (fun i => !s.saves.any (fun g => g.idx == i)) with
    | none => none
    | some idx =>
    if (s.saves.filter (fun g => g.phys == phys)).length ≥ 64 ∨ s.inTransit t phys then none
    else
      let s := (upTo 8).foldl (fun (s : State) i => s.unkeep (8 * phys + i)) s
      if (s.slotsOf t phys).any (fun sid => (s.slot sid).reflecting) then none
      else
        let s := s.stopCluster t phys alone
        let s := if alone then (s.heldUnits phys).foldl (fun (s : State) u => s.readUnit u t u.offset true) s else s
        let uids := s.uidsOf t phys
        let g : SaveRegion := {
          ctx := t, vcl := v, phys := phys, idx := idx, coll := s.collOf t phys,
          image := if alone then s.cluster phys else (s.cluster phys).part (fun a => s.within a t),
          slots := (s.slotsOf t phys).map (fun sid => (sid % 128, s.slot sid)),
          cores := (upTo 8).map (fun i =>
            let k := s.core (8 * phys + i)
            (i, if alone then k else {
              inbox := k.inbox.filter (fun e => uids.contains e.uid),
              deferred := k.deferred.filter (fun e => uids.contains e.uid) })) }
        let s := s.streamOut idx (s.saveCells (s.cluster phys) g)
        let s := (s.intoRegion (t, v) phys).leaveCluster t phys alone
        some { s with saves := s.saves ++ [g] }

/-- CLUSTER_SAVE (R398). -/
def execClusterSave (t v : Nat) (s : State) : Host.Outcome State Fault Refusal := done ((s.saveCluster t v).getD s)

/-! ### Restoring a cluster (R400) -/

/-- A physical cluster on which a virtual cluster of a context may be restored: no other tenant's, or for a deeper
context one that its parent holds. -/
def State.mayRestore (s : State) (t phys : Nat) : Bool :=
  let c := s.ctx t
  !c.vcls.any (fun e => e.phys == phys && !e.saved) && !s.modl.bad.contains phys &&
  (if c.depth = 1 then s.tenantMask phys == 0
   else match c.parent with
     | some (p, _) => (s.ctx p).vcls.any (fun e => e.phys == phys && !e.saved)
     | none => true)

/-- R400: the physical cluster for a restore: the one it left, or the lowest that is free. -/
def State.restorePlace (s : State) (t : Nat) (e : VCluster) : Option Nat :=
  if s.mayRestore t e.phys then some e.phys else (upTo 1024).find? (fun p => s.mayRestore t p)

/-- R400: the segments of vault memory that a restore needs fit. -/
def State.vaultFits (s : State) (t v phys : Nat) : Bool :=
  match s.saves.find? (fun g => g.ctx == t && g.vcl == v) with
  | some g => decide (g.image.vmSize ≤ (s.cluster phys).vmSize)
  | none => true

/-- R415: a permission table with every bit set, as of a cluster that the root holds itself. -/
def Cluster.openMaps (c : Cluster) : Cluster := { c with ptc := [], ptcAll := true, ptd := [], ptdAll := true }

/-- R415: the permission maps after the cores of a tenant have changed: its clusters reach each other and its devices, no
other tenant's reaches them, and those that no tenant holds any more reach all. (Log: DEDUCED 39) -/
def State.writeMaps (s : State) (t : Nat) : State :=
  let live (c : Ctx) : List Nat := (c.vcls.filter (fun e => !e.saved)).map (·.phys)
  let mine := live (s.ctx t)
  let others := (s.ctxs.filter (fun p => p.2.depth == 1 && p.1 != t)).flatMap (fun p => live p.2)
  let left := (((s.ctx t).vcls.filter (·.saved)).map (·.phys)).filter (fun p => !mine.contains p && !others.contains p)
  let devs := (s.ctx t).devs
  let s := left.foldl (fun (s : State) p => s.modCluster p Cluster.openMaps) s
  let s := mine.foldl (fun (s : State) p => s.modCluster p (fun c => { c with
    ptc := mine, ptcAll := false, ptd := devs.getD [], ptdAll := devs.isNone })) s
  others.foldl (fun (s : State) p => s.modCluster p (fun c =>
    { c with ptc := (if c.ptcAll then upTo 1024 else c.ptc).filter (fun q => !mine.contains q), ptcAll := false })) s

/-- R400: restore a virtual cluster of a context on a physical cluster; none while a slot that a thread left is taken.
(Log: DEDUCED 37) -/
def State.restoreCluster (s : State) (t v phys : Nat) : Option State :=
  match (s.ctx t).vcls.find? (fun e => e.vcl == v && e.saved) with
  | none => some s
  | some e =>
    let k := e.region.getD (t, v)
    match s.regionOf k with
    | none => some (s.outOfRegion k phys)
    | some g =>
      if g.slots.any (fun p => !(s.slot (128 * phys + p.1)).grantable) then none
      else
        let alone := (s.ctx t).depth == 1
        let s := s.readRegion t g.idx
        let g := g.ofBytes s.mem alone
        let s := ({ s with saves := s.saves.filter (fun q => !(q.ctx == k.1 && q.vcl == k.2)) } : State).outOfRegion k phys
        let i := g.image.movedTo phys
        let s := s.modCluster phys (fun c => if alone then c.withImage i else c.plus i)
        let s := s.modField (fieldOf phys) (fun f => { f with collq := Vector.ofFn (fun q : Fin 4 =>
          (g.coll.filter (fun p => p.1 == q.val)).map (fun p => { p.2 with cl := phys, who := p.2.who.movedTo phys }) ++
            vrd f.collq q.val) })
        let s := g.cores.foldl (fun (s : State) p => s.modCore (8 * phys + p.1) (fun k =>
          if alone then { k with
            c := p.2.c, carm := p.2.carm, ctime := p.2.ctime, w := p.2.w, wtime := p.2.wtime, inbox := p.2.inbox,
            deferred := p.2.deferred }
          else { k with inbox := k.inbox ++ p.2.inbox, deferred := k.deferred ++ p.2.deferred })) s
        let n := s.performed
        let s := g.slots.foldl (fun (s : State) p =>
          let sid := 128 * phys + p.1
          let s := s.modSlot sid (fun sl => { p.2 with gen := sl.gen, th := { p.2.th with floor := max p.2.th.floor n } })
          let s := s.modCtx p.2.th.ctx (fun c => { c with usedSlots := c.usedSlots + 1 })
          (s.applyInbox none sid sid p.2.th.uid).rebind sid) s
        some (if alone then s.writeMaps t else s)

/-- CLUSTER_RESTORE (R400): on the cluster that R400 allows, where its vault memory fits. -/
def execClusterRestore (t v : Nat) (s : State) : Host.Outcome State Fault Refusal :=
  done (match (s.ctx t).vcls.find? (fun e => e.vcl == v && e.saved) with
    | none => s
    | some e => match s.restorePlace t e with
      | none => s
      | some phys => if s.vaultFits t v phys then (s.restoreCluster t v phys).getD s else s)

/-! ### Live migration (R401, R402) and cluster reset -/

/-- R401: the thread of a slot may move to another slot. -/
def State.mayMigrate (s : State) (sid dst : Nat) : Bool :=
  (s.slot sid).occupied && !(s.slot sid).reflecting && (s.slot dst).grantable && coreOf dst != coreOf sid &&
    s.holdsCore (s.thread sid).ctx (coreOf dst) && s.fwdRoom none sid (s.thread sid)

/-- R401: live-migrate a thread. -/
def State.migrate (s : State) (sid dst : Nat) : State := ((s.stopSlot sid).sendThread sid dst).modSlot sid Slot.leave

/-- LIVE_MIGRATION (R401). -/
def execLiveMigration (sid dst : Nat) (s : State) : Host.Outcome State Fault Refusal :=
  done (if s.mayMigrate sid dst then s.migrate sid dst else s)

/-- CLUSTER_RESET (R223, R287, R414): every register, byte, full-empty bit and tile of a cluster is at its reset value. -/
def execClusterReset (cl : Nat) (s : State) : Host.Outcome State Fault Refusal := done (s.modCluster cl (fun _ => {}))

end Sys2Proof.Machine
end

