-- ==== Sys2Proof/Machine/Queues.lean ====
section
/-! DEFINITION. The queues of a context and their kicks, reflection of traps to the handling context, and the wakes of
parked threads (R266, R374 to R376, R378 to R381, R403). -/

namespace Sys2Proof.Machine

/-! ### Live queues (R380, R403) -/

/-- Set a bit of a context's pending bitmap. -/
def State.setPend (s : State) (a q : Nat) : State :=
  s.modCtx a (fun c => { c with pend := c.pend ||| (1#64 <<< (q % 64)) })

/-- Change a mapped queue. -/
def State.modQueue (s : State) (a q : Nat) (f : Queue → Queue) : State :=
  s.modCtx a (fun c => { c with queues := match c.queues.find? q with
    | some d => c.queues.put q (f d)
    | none => c.queues })

/-- The queue of a context, mapped or not. -/
def State.queue (s : State) (a q : Nat) : Queue := (s.ctx a).queues.get {} q

/-- R378: the address of a queue descriptor. -/
def Ctx.descAddr (c : Ctx) (q : Nat) : Nat := c.qdb.toNat / 4096 * 4096 + 64 * q

/-- R378: a descriptor that breaks a stated limit. -/
def descBad (d : Nat) : Bool :=
  bitsAt d 0 40 != 0 || bitsAt d 56 6 != 0 || bitsAt d 128 32 != 0 || bitsAt d 197 7 != 0 || bitsAt d 48 8 == 0 ||
    decide (bitsAt d 192 5 < 4) || decide (bitsAt d 192 5 > 16) || bitsAt d 64 64 != bitsAt d 64 64 % 2 ^ 7 + bitsAt d 72 5 * 2 ^ 8

/-- R378: the queue that a descriptor gives, on a hardware queue slot. -/
def Queue.ofDesc (d hqs : Nat) : Queue :=
  { hqs := hqs, weight := bitsAt d 48 8, mig := bitAt d 62, kern := bitAt d 63, st := w64 (bitsAt d 64 64),
    head := BitVec.ofNat 32 (bitsAt d 160 32), rln := bitsAt d 192 5, rbase := bitsAt d 204 52 * 4096,
    uha := w64 (bitsAt d 256 64), stklim := w64 (bitsAt d 320 64), sp := w64 (bitsAt d 384 64),
    tp := w64 (bitsAt d 448 64), tail := BitVec.ofNat 32 (bitsAt d 160 32) }

/-- R380: write HEAD into the descriptor of a queue. -/
def State.writeHead (s : State) (a q : Nat) : State :=
  (s.ctxWrite a ((s.ctx a).descAddr q + 20) (leBytes (s.queue a q).head.toNat 4)).getD s

/-- R378: write HQS into the descriptor of a queue. (Log: DEDUCED 34) -/
def State.writeHqs (s : State) (a q hqs : Nat) : State :=
  (s.ctxWrite a ((s.ctx a).descAddr q + 5) (leBytes hqs 1)).getD s

/-- R403: the slot of a mapped queue finishes: HEAD is written, and a tail beyond it sets PEND. -/
def State.settleQueue (s : State) (a q : Nat) : State :=
  let d := s.queue a q
  let s := s.writeHead a q
  if d.tail = d.head then s else s.setPend a q

/-- R403: a hardware queue slot is free of a queue. -/
def State.freeHqs (s : State) (a q h : Nat) : State :=
  if s.hqOwner.find? h = some (a, q) then { s with hqOwner := s.hqOwner.drop h } else s

/-- R403: unmap a queue. -/
def State.switchOut (s : State) (a q : Nat) : State :=
  match s.mappedTo a q with
  | none => s
  | some h =>
    let s := (s.settleQueue a q).writeHqs a q 255
    (s.freeHqs a q h).modCtx a (fun c => { c with queues := c.queues.drop q })

/-- R378: the descriptor of a queue that a map or an activation uses; none where it breaks a limit, or its page does not
translate with R. -/
def State.readDesc (s : State) (a q : Nat) : Option (Nat × State) :=
  (s.ctxNat a ((s.ctx a).descAddr q) 64).bind (fun p => if descBad p.1 then none else some p)

/-- R378, R155: a queue takes the values of a descriptor, on a hardware queue slot, whose weight becomes the queue's. -/
def State.mapDesc (s : State) (a q d hqs : Nat) : State :=
  ({ s with hqWeight := s.hqWeight.put hqs (bitsAt d 48 8) } : State).modCtx a (fun c => { c with
    queues := c.queues.put q (Queue.ofDesc d hqs) })

/-- R378, R403: a mapped queue takes its hardware queue slot and reads its descriptor again at an activation; one that breaks
a limit leaves the queue unmapped, with LASTERR 1, and so does a slot that its context has lost or another queue has taken,
with LASTERR 5. (Log: DEDUCED 34) -/
def State.rereadQueue (s : State) (a q : Nat) : State :=
  let lose (s : State) (h err : Nat) : State := ((s.writeHqs a q 255).freeHqs a q h).modCtx a (fun c => { c with
    queues := c.queues.drop q, lastErr := err })
  match s.mappedTo a q with
  | none => s
  | some h =>
    if !(s.ctx a).qslots.contains h || (match s.hqOwner.find? h with | some o => o != (a, q) | none => false) then lose s h 5
    else match s.readDesc a q with
    | some (d, s) => { s.mapDesc a q d h with hqOwner := s.hqOwner.put h (a, q) }
    | none => lose s h 1

/-- QUEUE_SWITCH_OUT (R403). -/
def execQueueSwitchOut (a q : Nat) (s : State) : Host.Outcome State Fault Refusal := done (s.switchOut a (q % 64))

/-! ### Commands and kicks (R379, R380) -/

/-- R379, R382: accept one command of a queue; none where the hint router has no entry for its launch, or older requests
wait for one (R148). (Log: DEDUCED 25) -/
def State.acceptCommand (s : State) (a q cmd : Nat) : Option State :=
  let d := s.queue a q
  let cidx := d.head.toNat % 2 ^ d.rln
  let next (s : State) : State := (s.modQueue a q (fun d => { d with head := d.head + 1#32 })).writeHead a q
  let ref := (s.ctx a).dbt + 1
  let kind := bitsAt cmd 0 8
  let fail (c : Nat) : Option State := some ((next s).daybook a 4 q cidx c 0)
  if bitsAt cmd 8 280 ≠ 0 then fail tDESC
  else match kind with
    | 0 | 2 => some (((next s).daybook a 1 q cidx 0 0).daybook a 3 q cidx 0 ref)
    | 1 =>
      let ox0 := BitVec.ofNat 32 (bitsAt cmd 352 32)
      let ox1 := BitVec.ofNat 32 (bitsAt cmd 320 32 % 2 ^ 26 + q * 2 ^ 26)
      let ox2 := BitVec.ofNat 32 (bitsAt cmd 288 32)
      let entry := w64 (bitsAt cmd 448 64)
      if (s.launchFault a entry ox0 ox1 ox2).isSome then fail tDESC
      else
        let w : Work := { id := 0, who := ⟨hostSid, 0#8, a, 0⟩, ctx := a, queue := q, entry := entry,
                          arg := w64 (bitsAt cmd 384 64), ox0 := ox0, ox1 := ox1, ox2 := ox2, clock := 0 }
        let cl := s.routerOf w
        if (s.cluster cl).work.length ≥ 16 ∨ !(s.cluster cl).waiters.isEmpty then none
        else
          let r : LaunchRec := { ctx := a, queue := q, cidx := cidx, ref := ref, host := true,
                                 unplaced := shapeGroups ox0 ox1, living := 0, started := false }
          let s := { next s with launches := s.launches.put s.nextLaunch r }
          some ((s.acceptWork cl w).daybook a 1 q cidx 0 0)
    | _ => fail tDESC

/-- R380: accept commands up to a tail, at most n. (Log: DEDUCED 25) -/
def State.acceptUpTo (s : State) (a q : Nat) : Nat → State
  | 0 => s
  | n + 1 =>
    let d := s.queue a q
    if d.head = d.tail then s
    else match s.ctxNat a (d.rbase + 64 * (d.head.toNat % 2 ^ d.rln)) 64 with
      | none => s
      | some (cmd, s') => match s'.acceptCommand a q cmd with
        | none => s
        | some s' => s'.acceptUpTo a q n

/-- R380: a live queue's slot sees a kick; a kick to any other queue sets PEND. -/
def State.kick (s : State) (a q : Nat) : State :=
  if !s.isLive a q then s.setPend a q
  else match s.ctxNat a ((s.ctx a).kpb.toNat / 4096 * 4096 + 8 * q) 8 with
    | none => s
    | some (w, s) =>
      let s := s.modCtx a (fun c => { c with pend := c.pend &&& ~~~(1#64 <<< (q % 64)) })
      let d := s.queue a q
      let tail := BitVec.ofNat 32 w
      if (tail - d.head).toNat > 2 ^ d.rln then s.daybook a 4 q (d.head.toNat % 2 ^ d.rln) tail.toNat 0
      else (s.modQueue a q (fun d => { d with tail := tail })).acceptUpTo a q 65536

/-- R380: the writes of a cycle that have reached the kick page of a context, by whatever name and from wherever, are kicks
of its queues. (Log: DEDUCED 23) -/
def State.kicksOf (s : State) (l : List Nat) (a : Nat) : List Nat :=
  match s.translate false a ((s.ctx a).kpb.toNat / 4096 * 4096) {} with
  | .ok w _ => match s.machineOf w.addr with
    | some m => (l.filter (fun d => d / 512 == m / 4096)).map (· % 64)
    | none => []
  | .fault .. => []

/-- See State.kicksOf. -/
def State.flushKicks (s : State) : State :=
  match s.kicked.reverse with
  | [] => s
  | l => s.ctxs.foldl (fun (s : State) p => (s.kicksOf l p.1).foldl (fun (s : State) q => s.owe (.kick p.1 q)) s)
      { s with kicked := [] }

/-- KICK (R380). -/
def execKick (a q : Nat) (s : State) : Host.Outcome State Fault Refusal := done (s.kick a (q % 64))

/-- R381, R386: the live queues of a context look at their kick words. -/
def State.kickAll (s : State) (a : Nat) : State := (s.ctx a).queues.foldl (fun s p => s.owe (.kick a p.1)) s

/-! ### Reflection (R374 to R376) -/

/-- R373: the feature bit of an instruction word. -/
def featureOf (word : Nat) : Nat :=
  match bitsAt word 2 5 with
  | 24 => fMatrix
  | 25 => fCopy
  | 26 => fCollective
  | 13 => fFabric
  | 11 | 12 => fHbar
  | 15 => fLaunch
  | 30 => fContext
  | 29 => fTranslation
  | _ => fVector

/-- R375: LN of a context's trap queue; the root's is always enabled. (Log: DEDUCED 19) -/
def Ctx.tqLn (c : Ctx) : Nat := if c.depth = 0 ∧ ringLn c.tqb = 0 then 6 else ringLn c.tqb

/-- R375: the first of some contexts, nearest first, with a trap queue. -/
def State.firstQueue (s : State) : List Nat → Nat
  | [] => 0
  | c :: r => if (s.ctx c).tqLn = 0 then s.firstQueue r else c

/-- R374, R375: the handling context of a trap of a thread. (Log: DEDUCED 19) -/
def State.handlerOf (s : State) (h : Thread) (t : Trap) : Nat :=
  let l := s.lineage h.ctx
  let from_ : List Nat :=
    if t.code = tFEATURE then (l.drop 1).dropWhile (fun c => !(s.ctx c).feat.getLsbD (featureOf t.info.toNat))
    else if h.kern then (if l.length ≤ 1 then l else l.drop 1)
    else l
  s.firstQueue from_

/-- R376: an address of a context composed into an ancestor's space. -/
def State.composeTo (s : State) (anc : Nat) : Nat → Nat → Nat → Nat
  | 0, _, va => va
  | n + 1, c, va =>
    if c = anc then va
    else match (s.ctx c).parent, s.translate false c va (Kind.ofCode 0) with
      | some (p, _), .ok w _ => s.composeTo anc n p w.first
      | _, _ => va

/-- R375: room in the trap queue of a context. -/
def Ctx.tqRoom (c : Ctx) : Bool := decide ((c.tqt - c.tqh).toNat < 2 ^ c.tqLn)

/-- R376: a trap queue entry. -/
def State.trapEntry (s : State) (anc : Nat) (f : Frame) (t : Trap) : Nat :=
  let a := f.th.ctx
  s.selfWord a f.sid * 2 ^ 58 + (s.ctx a).depth * 2 ^ 85 + f.th.gen.toNat * 2 ^ 88 + (s.ctx anc).tqt.toNat * 2 ^ 96
    + f.token.toNat * 2 ^ 128 + s.composeTo anc 8 a ((s.ctx a).frameAddr f.num) * 2 ^ 192 + t.st.toNat * 2 ^ 256
    + t.info.toNat * 2 ^ 320 + (causeWord t).toNat * 2 ^ 384 + t.pc.toNat * 2 ^ 448

/-- R375: post the trap of a held thread to a context's trap queue. (Log: DEDUCED 30) -/
def State.postTrap (s : State) (anc : Nat) (f : Frame) (t : Trap) : State :=
  let c := s.ctx anc
  let va := ringBase c.tqb + 64 * (c.tqt.toNat % 2 ^ c.tqLn)
  let s := (s.ctxWrite anc va (leBytes (s.trapEntry anc f t) 64)).getD s
  let s := s.modCtx anc (fun c => { c with tqt := c.tqt + 1#32 })
  s.doorbell anc (s.ctx anc).tqd (s.ctx anc).tqt.toNat

/-- R375: reflect the trap for which the thread of a slot sleeps, once a frame and a queue entry are free. -/
def State.reflect (s : State) (sid : Nat) : State :=
  match (s.slot sid).st with
  | .sleep (.reflect t) _ =>
    let h := s.thread sid
    let anc := s.handlerOf h t
    if h.inFlight ∨ !(s.ctx anc).tqRoom then s
    else match (s.ctx h.ctx).freeFrame with
      | none => s
      | some n =>
        let token := s.nextToken + 1
        let s0 : State := { s with nextToken := token }
        let s := (((s0.flushPort (coreOf sid)).flushSends sid).settle sid).releaseLines sid
        let f : Frame := { num := n, sid := sid, why := 2, token := w64 token, handler := anc, trap := some t,
                           qo := (s.slot sid).qo, th := { s.thread sid with pc := t.pc } }
        match s.toFrame h.ctx f with
        | none => s.modCtx h.ctx (fun c => { c with lastErr := 1 })
        | some s => (s.postTrap anc f t).vacate sid
  | _ => s

/-- TRAP_REFLECTION (R375). -/
def execTrapReflection (sid : Nat) (s : State) : Host.Outcome State Fault Refusal := done (s.reflect sid)

/-! ### Wakes (R266) -/

/-- Change a frame of a context. -/
def State.modFrame (s : State) (a num : Nat) (f : Frame → Frame) : State :=
  s.modCtx a (fun c => { c with framesIn := updWhere c.framesIn (fun o => o.num == num) f })

/-- R266, R377: a thread of a frame is offered to the core it left; a context that is not resident notes it in its pending
bitmap, for its queue. -/
def State.wakeFrame (s : State) (a num : Nat) (th : Thread) : State :=
  let s := s.modFrame a num (fun f => { f with why := 4, token := 0#64, trap := none, th := th })
  if (s.ctx a).act then s else s.setPend a th.queue

/-- R266: the wake of a parked thread. -/
def State.parkWake (s : State) (a num : Nat) : State :=
  match (s.ctx a).framesIn.find? (fun f => f.num == num) with
  | none => s
  | some f => s.wakeFrame a num f.th

/-! ### Tokens (R377) -/

/-- R377: the held thread that a token names, posted to a context: its context and frame. -/
def State.heldBy (s : State) (a : Nat) (token : Word) : Option (Nat × Frame) :=
  s.ctxs.findSome? (fun p => (p.2.framesIn.find? (fun f => f.why == 2 && f.token == token && f.handler == a)).map
    (fun f => (p.1, f)))

/-- R377 RESUME: the thread is offered to its queue from its frame. -/
def State.tokenResume (s : State) (c : Nat) (f : Frame) : State :=
  s.wakeFrame c f.num f.th

/-- R377 DOWN: the thread enters its user handler, with ORG 2; none where its frame does not let it. -/
def State.tokenDown (s : State) (c : Nat) (f : Frame) : Option State :=
  let r := s.frameThread c f
  let h := r.1
  if stBit h.st 7 ∨ h.uha = 0#64 ∨ h.uha.getLsbD 0 then none
  else
    let h' : Thread := { h with
      ecause := (h.ecause &&& ~~~0xFF0000#64) ||| 0x20000#64, st := stSet (stSet h.st 7 true) 0 false, pc := h.uha,
      prefixLatch := none }
    let s := r.2
    let s := (s.ctxWrite c ((s.ctx c).frameAddr f.num) (h'.slotFrame ++ h'.extension f.qo)).getD s
    some (s.wakeFrame c f.num h')

/-- R377 UP: the entry is posted again, to the next ancestor that has a trap queue; none while it must wait. -/
def State.tokenUp (s : State) (a c : Nat) (f : Frame) : Option State :=
  let above := ((s.lineage c).dropWhile (fun x => x != a)).drop 1
  let anc := if above.isEmpty then a else s.firstQueue above
  match f.trap with
  | none => some s
  | some t =>
    if !(s.ctx anc).tqRoom then none
    else
      let f' := { f with handler := anc }
      some ((s.modFrame c f.num (fun _ => f')).postTrap anc f' t)

/-- R377 KILL: the thread ends, and its frame is freed. -/
def State.tokenKill (s : State) (c : Nat) (f : Frame) : State :=
  (((s.dropInbox f.away f.sid f.th.uid).dropForward f.th.uid).dropFrame c f.num).launchEnded f.th.launchId

/-- TOKEN_RESUME (R377): of the thread that a token names to a context. -/
def execTokenResume (a : Nat) (token : Word) (s : State) : Host.Outcome State Fault Refusal :=
  done (match s.heldBy a token with | some (c, f) => s.tokenResume c f | none => s)

/-- TOKEN_DOWN (R377). -/
def execTokenDown (a : Nat) (token : Word) (s : State) : Host.Outcome State Fault Refusal :=
  done (match s.heldBy a token with | some (c, f) => (s.tokenDown c f).getD s | none => s)

/-- TOKEN_UP (R377). -/
def execTokenUp (a : Nat) (token : Word) (s : State) : Host.Outcome State Fault Refusal :=
  done (match s.heldBy a token with | some (c, f) => (s.tokenUp a c f).getD s | none => s)

/-- TOKEN_KILL (R377). -/
def execTokenKill (a : Nat) (token : Word) (s : State) : Host.Outcome State Fault Refusal :=
  done (match s.heldBy a token with | some (c, f) => s.tokenKill c f | none => s)

/-! ### Counter blocks (R435) -/

/-- R435: the address of a context's counter block. -/
def Ctx.blockAddr (c : Ctx) : Nat := c.kpb.toNat / 4096 * 4096 + 0x800

/-- R435: the named counters of a context are cleared. -/
def Ctx.clearCounters (c : Ctx) (m : Nat) : Ctx :=
  { c with
    qsat := if bitAt m 0 then 0#64 else c.qsat, asat := if bitAt m 1 then 0#64 else c.asat,
    mxe := if bitAt m 2 then 0#64 else c.mxe, mck := if bitAt m 3 then 0#64 else c.mck,
    doc := if bitAt m 4 then 0#64 else c.doc, dopc := if bitAt m 4 then 0#64 else c.dopc }

/-- R435: CRF summed over the clusters of a context; of one that is saved, as it stood then. The root's are those of which
the tenants do not hold every core. -/
def State.crfOf (s : State) (a : Nat) : Nat :=
  let c := s.ctx a
  let own := (c.vcls.map (fun e => if e.saved then e.crf else (s.cluster e.phys).crf)).foldl (· + ·) 0
  if c.depth = 0 then
    own + ((s.clusters.filter (fun p => s.tenantMask p.1 != 255 && !c.vcls.any (fun e => e.phys == p.1))).map
      (fun p => p.2.crf)).foldl (· + ·) 0
  else own

/-- R435: publish a context's counters, clear those that its CLR names, write CLR := 0, and count SEQ on. A block whose
page does not translate with W is not published, and nothing is cleared. (Log: DEDUCED 55) -/
def State.publish (s : State) (a : Nat) : State :=
  let c := s.ctx a
  let at_ := c.blockAddr
  match s.ctxNat a (at_ + 8) 8 with
  | none => s
  | some (m, s) =>
    let crf := s.crfOf a
    let words : List Nat := [c.qsat.toNat, c.asat.toNat, c.mxe.toNat, c.mck.toNat, c.doc.toNat, c.dopc.toNat, crf]
    match s.ctxWrite a (at_ + 8) (leBytes 0 8 ++ leBytes (packWords 8 words) 56) with
    | none => s
    | some s =>
      let s := s.modCtx a (fun c => { c.clearCounters m with pubSeq := c.pubSeq + 1#64 })
      (s.ctxWrite a at_ (leBytes (s.ctx a).pubSeq.toNat 8)
        [{ upto := s.performed, scope := 4, cid := 0, ctx := a }]).getD s

end Sys2Proof.Machine
end

