-- ==== Sys2Proof/Machine/Context.lean ====
section
/-! DEFINITION. Contexts within contexts: the context block, grants, the context engine and its steps, and the
instructions of major 30 (R367 to R390, R404, R405, R415). -/

namespace Sys2Proof.Machine

/-! ### The context block (R369, R370) -/

/-- R370: the number of a phase. -/
def Phase.code : Phase → Nat
  | .free => 0
  | .built => 1
  | .running => 2
  | .frozen => 3
  | .revoking => 4
  | .failed => 5

/-- R370: STATE. -/
def State.stateWord (s : State) (a : Nat) : Nat :=
  let c := s.ctx a
  c.phase.code * 2 ^ 61 + b2n c.act * 2 ^ 60 + c.op * 2 ^ 56 + c.stepNo % 2 ^ 16 * 2 ^ 40 + c.lastErr * 2 ^ 32
    + c.depth * 2 ^ 21 + a % 2 ^ 11 * 2 ^ 10 + c.tnum * 2 ^ 4

/-- R372: three budgets in the layout of BUDGET. -/
def budgetWord (slots frames children : Nat) : Nat := slots * 2 ^ 32 + frames % 2 ^ 16 * 2 ^ 16 + children % 2 ^ 16

/-- R369: a register of the context block as it is read; REKEY is write-only, and reads as 0 (R5). -/
def State.readBlock (s : State) (a sel : Nat) : Option Word :=
  let c := s.ctx a
  match sel with
  | 0 => some (w64 (s.stateWord a))
  | 1 => some (c.feat.setWidth 64)
  | 2 => some c.atp
  | 3 => some (w64 (b2n c.cen))
  | 4 => some (w64 (budgetWord c.slots c.frames c.children))
  | 5 => some (w64 (budgetWord c.usedSlots c.usedFrames c.usedChildren))
  | 6 => some c.kpb
  | 7 => some c.qdb
  | 8 => some c.dbb
  | 9 => some (w64 c.dbt)
  | 10 => some c.tqb
  | 11 => some (c.tqh.setWidth 64)
  | 12 => some (c.tqt.setWidth 64)
  | 13 => some c.tqd
  | 14 => some c.ivb
  | 15 => some c.ipend
  | 16 => some c.pend
  | 17 => some 0#64
  | _ => none

/-- R369, R389: the selectors that a context writes in itself, and those that a parent writes in its child. -/
def mayWrite (self : Bool) (sel : Nat) : Bool :=
  if self then [3, 10, 11, 13, 14, 17].contains sel else [1, 3, 6, 7, 8, 10, 14, 17].contains sel

/-- R369: a ring register of a permitted LN; its read-only bits are ignored. -/
def ringOk (zero : Bool) (v : Word) : Bool := lnOk (ringLn v) || (zero && ringLn v == 0)

/-- The children of a context. -/
def State.childrenOf (s : State) (t : Nat) : List Nat :=
  (s.ctxs.filter (fun p => match p.2.parent with | some (q, _) => q == t | none => false)).map (·.1)

/-- R384: an operation that R386 causes enters a context's own queue. -/
def State.pushCtx (s : State) (t : Nat) (op : CtxOp) : State :=
  s.modCtx t (fun c => { c with
    engine := c.engine ++ [{ who := ⟨hostSid, 0#8, t, 0⟩, op := op, bar := 0#32, xa := 0#64 }] })

/-- R386: a context makes those below it active that are running, where its CEN is 1. -/
def State.carriesOn (s : State) (c : Nat) : Bool := (s.ctx c).phase == .running && (s.ctx c).cen

/-- The descendants of a context that satisfy a test, by depth. -/
def State.below (s : State) (t : Nat) (p : Nat → Bool) : List Nat :=
  (upTo 8).flatMap (fun n => (s.ctxs.filter (fun q =>
    q.1 != t && s.within q.1 t && q.2.depth == n && p q.1)).map (·.1))

/-- R386: freezes of the contexts below t that become inactive, in its own queue, the deepest first. -/
def State.freezeBelow (s : State) (t : Nat) : State :=
  (s.below t (fun c => (s.ctx c).act)).reverse.foldl (fun s c => s.pushCtx t (.freeze c)) s

/-- R386: thaws of the contexts below t that become active, in its own queue, the nearest first. -/
def State.thawBelow (s : State) (t : Nat) : State :=
  (s.below t (fun c => (s.ctx c).phase == .running &&
    (((s.lineage c).takeWhile (· != t)).drop 1).all s.carriesOn)).foldl (fun s c => s.pushCtx t (.thaw c)) s

/-- R369, R374, R386: a write of a context block register of t, in its limits; `up` is the FEAT of the writer. -/
def State.writeBlock (s : State) (t sel : Nat) (v : Word) (up : BitVec 9) : State :=
  match sel with
  | 1 =>
    let f := v.setWidth 9
    if f &&& ~~~up ≠ 0#9 then s
    else
      let gone := (s.ctx t).feat &&& ~~~f
      let s := s.modCtx t (fun c => { c with feat := f })
      { s with ctxs := s.ctxs.map (fun (p : Nat × Ctx) =>
          if p.1 != t && s.within p.1 t then (p.1, { p.2 with feat := p.2.feat &&& ~~~gone }) else p) }
  | 3 =>
    let old := (s.ctx t).cen
    let new := v.getLsbD 0
    let s := s.modCtx t (fun c => { c with cen := new })
    if old && !new then s.freezeBelow t else if !old && new then s.thawBelow t else s
  | 6 => if v.toNat % 4096 = 0 then s.modCtx t (fun c => { c with kpb := v }) else s
  | 7 => if v.toNat % 4096 = 0 then s.modCtx t (fun c => { c with qdb := v }) else s
  | 8 => if ringOk false v then s.modCtx t (fun c => { c with dbb := ringMask v }) else s
  | 10 => if ringOk true v then s.modCtx t (fun c => { c with tqb := ringMask v }) else s
  | 11 => s.modCtx t (fun c => { c with tqh := v.setWidth 32 })
  | 13 => s.modCtx t (fun c => { c with tqd := bellMask v })
  | 14 => if v.toNat % 1024 = 0 then s.modCtx t (fun c => { c with ivb := v }) else s
  | 17 => let p := s.free; p.2.modCtx t (fun c => { c with secretNo := p.1 })
  | _ => s

/-! ### The head of a queue (R384, R389) -/

/-- Change the head of a context's engine queue. -/
def State.modCtxHead (s : State) (a : Nat) (f : CtxEntry → CtxEntry) : State :=
  s.modCtx a (fun c => { c with engine := match c.engine with | e :: r => f e :: r | [] => [] })

/-- R389: the operation at the head is complete: it leaves the queue and arrives at its barrier. -/
def State.ctxEnd (s : State) (a : Nat) (e : CtxEntry) (err : Option (Nat × Nat)) : State :=
  (s.modCtx a (fun c => { c with engine := c.engine.drop 1 })).entryArrives e.who.ctx (clusterOf e.who.sid) e.bar err

/-- R370: the operation in progress on a context, and its next step. -/
def State.setOp (s : State) (t op step : Nat) : State := s.modCtx t (fun c => { c with op := op, stepNo := step })

/-- R384: a whole step is complete; `op` and the next step stand in the target's STATE. -/
def State.ctxNext (s : State) (a t op : Nat) (e : CtxEntry) : State :=
  (s.modCtxHead a (fun e => { e with step := e.step + 1, waitPage := none })).setOp t op (e.step + 2)

/-- R389: the operation at the head fails: LASTERR in the target's STATE, and error 6. -/
def State.ctxFail (s : State) (a t : Nat) (e : CtxEntry) (lasterr : Nat) : State :=
  ((s.setOp t 0 0).modCtx t (fun c => { c with lastErr := lasterr })).ctxEnd a e (some (6, e.xa.toNat))

/-- R389: the operation at the head succeeds. -/
def State.ctxDone (s : State) (a t : Nat) (e : CtxEntry) : State := (s.setOp t 0 0).ctxEnd a e none

/-- R389, R280: read a descriptor of n bytes for the operation at the head, weakly; a page without backing is waited
for, and any other error ends the operation as `fail` says. -/
def State.ctxDesc (s : State) (a : Nat) (e : CtxEntry) (va n : Nat) (fail : State → State)
    (f : Nat → State → State) : State :=
  match s.engErr (clusterOf e.who.sid) e.who.ctx e.failedPage (pagePieces va n) [] with
  | some _ => fail s
  | none => match s.engMap (clusterOf e.who.sid) e.who (Kind.ofCode 0) (pagePieces va n) with
    | .wait p s => s.modCtxHead a (fun e => { e with waitPage := some p })
    | .err _ _ s => fail s
    | .ok l s => let r := s.engRead e.who.ctx va l; f (leNat r.1) r.2

/-- The context that a handle names for a context. -/
def State.ofHandle (s : State) (a h : Nat) : Option Nat := if h = 255 then some a else (s.ctx a).handles.find? h

/-! ### new (R384, R390) -/

/-- R372: the free part of each budget. -/
def Ctx.freeBudget (c : Ctx) : Nat × Nat × Nat :=
  (c.slots - c.usedSlots, c.frames - c.usedFrames, c.children - c.usedChildren)

/-- R372: budgets move from a context's free budget, or return to it. (Log: DEDUCED 41) -/
def State.charge (s : State) (a slots frames children : Nat) : State :=
  s.modCtx a (fun c => { c with
    usedSlots := c.usedSlots + slots, usedFrames := c.usedFrames + frames, usedChildren := c.usedChildren + children })

/-- See State.charge. -/
def State.refund (s : State) (a slots frames children : Nat) : State :=
  s.modCtx a (fun c => { c with
    usedSlots := c.usedSlots - slots, usedFrames := c.usedFrames - frames, usedChildren := c.usedChildren - children })

/-- R390: the fields of a descriptor that break a limit. -/
def newBad (d : Nat) (feat : BitVec 9) : Bool :=
  let w (i : Nat) : Word := w64 (bitsAt d (64 * i) 64)
  !atpOk (w 7) || ((w 6).setWidth 9 &&& ~~~feat) != 0#9 || (w 4).toNat % 4096 != 0 ||
    (w 3).toNat % 4096 != 0 || !ringOk false (w 2) || !ringOk true (w 1) || (w 0).toNat % 1024 != 0

/-- R390: the budgets of a descriptor. -/
def newBudget (d : Nat) : Nat × Nat × Nat := (bitsAt d 352 32, bitsAt d 336 16, bitsAt d 320 16)

/-- R389: a creation fails: the child is FAILED, and FINFO holds the descriptor's address. -/
def State.newFail (s : State) (a k : Nat) (e : CtxEntry) (desc lasterr : Nat) : State :=
  (s.modCtx k (fun c => { c with phase := .failed, op := 0, stepNo := 0, lastErr := lasterr })).ctxEnd a e
    (some (6, desc))

/-- R367: the lowest free ASID. -/
def State.freeAsid (s : State) : Option Nat := (upTo 2048).find? (fun n => (s.ctxs.find? n).isNone)

/-- R367: the tenant number of a new child. -/
def State.childTnum (s : State) (a : Nat) : Option Nat :=
  if (s.ctx a).depth = 0 then
    ((upTo 63).map (· + 1)).find? (fun n => !s.ctxs.any (fun p => p.2.depth == 1 && p.2.tnum == n))
  else some (s.ctx a).tnum

/-- R384, R390: a step of `ctx.new`. (Log: DESIGN CHOICE 36; DEDUCED 41) -/
def State.newStep (s : State) (a : Nat) (e : CtxEntry) (h desc : Nat) : State :=
  match (s.ctx a).handles.find? h with
  | none => s.ctxEnd a e (some (6, desc))
  | some k =>
    let up := s.ctx a
    match e.step with
    | 0 =>
      if up.depth = 0 ∧ s.modl.testStep ≠ 0 then s
      else if up.depth ≥ 7 then s.newFail a k e desc 4
      else s.ctxDesc a e desc 64 (fun s => s.newFail a k e desc 1) (fun d s =>
        let b := newBudget d
        let f := up.freeBudget
        if newBad d up.feat then s.newFail a k e desc 1
        else if b.1 > f.1 ∨ b.2.1 > f.2.1 ∨ b.2.2 > f.2.2 then s.newFail a k e desc 2
        else ((s.charge a b.1 b.2.1 b.2.2).modCtxHead a (fun e => { e with data := [d] })).ctxNext a k 1 e)
    | 1 =>
      let d := e.data.headD 0
      let b := newBudget d
      match s.freeAsid, s.childTnum a with
      | none, _ => (s.refund a b.1 b.2.1 b.2.2).newFail a k e desc 3
      | some _, none => (s.refund a b.1 b.2.1 b.2.2).newFail a k e desc 7
      | some n, some tn =>
        let p := s.free
        let s := p.2
        let c := s.ctx k
        let s : State := { s with ctxs := (s.ctxs.drop k).put n { c with tnum := tn, secretNo := p.1 } }
        (s.modCtx a (fun c => { c with handles := c.handles.put h n })).ctxNext a n 1 e
    | _ =>
      let d := e.data.headD 0
      let w (i : Nat) : Word := w64 (bitsAt d (64 * i) 64)
      let b := newBudget d
      let s := s.modCtx k (fun c => { c with
        phase := .built, feat := (w 6).setWidth 9, atp := w 7, slots := b.1, frames := b.2.1, children := b.2.2,
        kpb := w 4, qdb := w 3, dbb := ringMask (w 2), tqb := ringMask (w 1), ivb := w 0 })
      s.ctxDone a k e

/-! ### grant (R371, R404, R415) -/

/-- How a grant ends: a failure with its LASTERR, a wait, or done. -/
inductive Granted where
  | fail (lasterr : Nat) (s : State)
  | wait (s : State)
  | ok (s : State)

/-- R415: packets that passed their check under the old map are on their way. -/
def State.inFlightPackets (s : State) : Bool :=
  s.due.any (fun j => match j with
    | .arrive .. => true
    | .request r => (match r.op with | .ff .. => true | .raw .. => true | _ => false)
    | _ => false) ||
  s.ports.any (fun p => p.2.replay.any (fun e => e.2.2.checked) || p.2.held.any (·.checked))

/-- R371: the fields of doubleword 1 of CORES: parent base, count, child base, mask. (Log: DEDUCED 40) -/
def coresWord (d1 : Nat) : Nat × Nat × Nat × Nat := (bitsAt d1 0 10, bitsAt d1 10 11, bitsAt d1 21 10, bitsAt d1 31 8)

/-- R292: the cores that a context takes in a cluster request the lease for the tile entries saved for them.
(Log: DEDUCED 78) -/
def State.askSaved (s : State) (phys mask : Nat) : State :=
  s.modLease phys (fun l => (l.saved.filter (fun p => bitAt mask p.1 && !p.2.isEmpty)).foldl (fun l p => l.ask p.1) l)

/-- R371, R405: CORES: give one cluster of the granter to the child under its own number; none while it must wait. A saved
cluster is restored there, where the child is active; the run or thaw that makes it active restores it otherwise (R384). -/
def State.giveCluster (s : State) (t : Nat) (v phys mask : Nat) : Option State :=
  match (s.ctx t).vcls.find? (fun e => e.vcl == v) with
  | none => some ((s.askSaved phys mask).modCtx t (fun c => { c with
      vcls := c.vcls ++ [{ vcl := v, phys := phys, mask := mask }] }))
  | some e =>
    let s' : Option State := if e.saved && (s.ctx t).act then s.restoreCluster t v phys else some s
    s'.map (fun s => (s.askSaved phys mask).modCtx t (fun c => { c with
      vcls := updWhere c.vcls (fun e => e.vcl == v) (fun e => { e with mask := e.mask ||| mask }) }))

/-- R415: after the cores of a tenant have changed, its maps and those of the clusters that it has left. -/
def State.mapsAfter (s : State) (t : Nat) : State := if (s.ctx t).depth = 1 then s.writeMaps t else s

/-- R371: CORES. -/
def State.grantCores (s : State) (a t d1 d2 d3 : Nat) : Granted :=
  let (pb, n, cb, mask) := coresWord d1
  let phys (i : Nat) : Option Nat := (s.vcluster a (pb + i)).bind (fun e =>
    if ((s.ctx a).depth == 0 && s.modl.bad.contains e.phys) || e.saved || e.mask &&& mask != mask then none else some e.phys)
  if d1 / 2 ^ 39 ≠ 0 ∨ d2 ≠ 0 ∨ d3 ≠ 0 ∨ n = 0 ∨ n > 1024 ∨ pb + n > 1024 ∨ cb + n > 1024 ∨ mask = 0 then .fail 1 s
  else if (upTo n).any (fun i => match phys i with
      | none => true
      | some p => (s.ctx a).depth == 0 && s.ctxs.any (fun q => q.2.depth == 1 && q.1 != t &&
          q.2.vcls.any (fun e => e.phys == p && !e.saved && e.mask &&& mask != 0))) then .fail 5 s
  else if (upTo n).any (fun i => (s.ctx t).vcls.any (fun e =>
      !e.saved && ((e.vcl == cb + i) != (some e.phys == phys i)))) then .fail 1 s
  else if (s.ctx t).act && (upTo n).any (fun i => (s.ctx t).vcls.any (fun e => e.saved && e.vcl == cb + i) &&
      !s.vaultFits t (cb + i) ((phys i).getD 0)) then .fail 2 s
  else if (s.ctx t).depth = 1 ∧ s.inFlightPackets then .wait s
  else
    let r : Option State := (upTo n).foldl (fun (r : Option State) i =>
      r.bind (fun s => s.giveCluster t (cb + i) ((phys i).getD 0) mask)) (some s)
    match r with
    | none => .wait s
    | some s => .ok (s.mapsAfter t)

/-- R371: WINDOW. -/
def State.grantWindow (s : State) (t d1 d2 d3 : Nat) : Granted :=
  if d1 % 4096 ≠ 0 ∨ d2 % 4096 ≠ 0 ∨ bitAt d3 3 ∨ d3 ≥ 256 then .fail 1 s
  else
    let i := bitsAt d3 4 4
    let w : Window := { base := d1, size := d2, r := bitAt d3 0, w := bitAt d3 1, x := bitAt d3 2 }
    .ok ((s.modCtx t (fun c => { c with
      windows := if d2 = 0 then c.windows.drop i else c.windows.put i w })).advanceStage t)

/-- R371: QSLOT. (Log: DEDUCED 38) -/
def State.grantQslot (s : State) (a t d1 d2 d3 : Nat) : Granted :=
  if d1 > 254 ∨ d2 ≠ 0 ∨ d3 ≠ 0 then .fail 1 s
  else if !(s.ctx a).qslots.contains d1 then .fail 5 s
  else
    let s := match s.hqOwner.find? d1 with | some (c, q) => s.switchOut c q | none => s
    .ok ((s.modCtx a (fun c => { c with qslots := c.qslots.filter (· != d1) })).modCtx t (fun c =>
      { c with qslots := d1 :: c.qslots }))

/-- R371: BUDGET. -/
def State.grantBudget (s : State) (a t d1 d2 d3 : Nat) : Granted :=
  let f := (s.ctx a).freeBudget
  if d1 > f.1 ∨ d2 > f.2.1 ∨ d3 > f.2.2 then .fail 2 s
  else .ok ((s.charge a d1 d2 d3).modCtx t (fun c => { c with
    slots := c.slots + d1, frames := c.frames + d2, children := c.children + d3 }))

/-- R371, R378, R380: MAP. (Log: DEDUCED 34) -/
def State.grantMap (s : State) (t d1 d2 d3 : Nat) : Granted :=
  if d1 > 63 ∨ d2 > 255 ∨ d3 ≠ 0 then .fail 1 s
  else if d2 = 255 then .ok (s.switchOut t d1)
  else if !(s.ctx t).qslots.contains d2 then .fail 5 s
  else if (match s.hqOwner.find? d2 with | some o => o != (t, d1) | none => false) then .fail 1 s
  else
    match (s.readDesc t d1).bind (fun p => (p.2.switchOut t d1).readDesc t d1) with
    | none => .fail 1 s
    | some (d, s) =>
      let s := s.mapDesc t d1 d d2
      let s := ({ s with hqOwner := s.hqOwner.put d2 (t, d1) } : State).writeHqs t d1 d2
      .ok (if s.isLive t d1 then s.owe (.kick t d1) else s)

/-- R404: the cores that a RECALL names: virtual cluster and core. (Log: DEDUCED 40) -/
def recallCores (d1 : Nat) : List (Nat × Nat) :=
  let (_, n, cb, mask) := coresWord d1
  (upTo n).flatMap (fun i => ((upTo 8).filter (fun c => bitAt mask c)).map (fun c => (cb + i, c)))

/-- R404: a slot for a thread of a departing core: on another core that its context keeps. -/
def State.refuge (s : State) (a leaving : Nat) : Option Nat :=
  (s.partition a).findSome? (fun p =>
    ((upTo 8).filter (fun i => bitAt p.2 i && 8 * p.1 + i != leaving && !(s.core (8 * p.1 + i)).stopped)).findSome? (fun i =>
      (s.freeSlots (8 * p.1 + i)).head?))

/-- R404: the tile entries saved for a departing core, of a context and its descendants, go to the core of a slot, which
requests the lease for them. -/
def State.moveLease (s : State) (t cid d : Nat) : State :=
  let phys := cid / 8
  let core := cid % 8
  let to_ := coreOf d
  let mine (e : TileEntry) : Bool := s.within e.who.ctx t
  let l := (s.cluster phys).lease
  let go := ((l.saved.get [] core).filter mine).map (fun e => { e with who := e.who.movedTo (to_ / 8) })
  if go.isEmpty then s
  else
    let rest := (l.saved.get [] core).filter (fun e => !mine e)
    let s := s.modLease phys (fun l => { l with saved := savedOf (l.saved.put core rest) (fun _ => true) })
    let s := s.modLease (to_ / 8) (fun o => { o.ask (to_ % 8) with
      saved := o.saved.put (to_ % 8) (o.saved.get [] (to_ % 8) ++ go),
      savedSqp := o.savedSqp.put (to_ % 8) ((o.savedSqp.find? (to_ % 8)).getD (l.savedSqp.get 0 core)) })
    s.writeTail to_ [s.leasePart to_]

/-- How a thread leaves a departing core: it has left, it must wait, or its frame cannot be written. -/
inductive Evicted where
  | gone (s : State)
  | wait
  | noFrame

/-- R404: a thread of a departing core moves, and the core's saved tile entries with the first that does, or goes to a save
frame. -/
def State.evict (s : State) (t sid : Nat) : Evicted :=
  let a := (s.thread sid).ctx
  if (s.slot sid).reflecting then .wait
  else match s.refuge a (coreOf sid) with
    | some d => if s.mayMigrate sid d then .gone ((s.migrate sid d).moveLease t (coreOf sid) d) else .wait
    | none => match (s.ctx a).freeFrame with
      | none => .wait
      | some n =>
        let s := s.stopSlot sid
        let f : Frame := { num := n, sid := sid, why := 5, qo := (s.slot sid).qo, th := s.thread sid }
        match s.toFrame a f with
        | some s => .gone (s.leaveSlots [sid])
        | none => .noFrame

/-- R404: a departing core is pre-empted for a context and its descendants: their threads there stop, and no other's; their
state is written to the core's context tail, and a hold of the lease ends. -/
def State.recallStop (s : State) (t phys core : Nat) : State :=
  let cid := 8 * phys + core
  let s := ((s.flushPort cid).unkeep cid).modVcls t (fun e => e.phys == phys && !e.saved) (fun e =>
    { e with leaving := e.leaving ||| 2 ^ core })
  let sids := (s.slotsOf t phys).filter (fun sid => coreOf sid == cid && !(s.slot sid).reflecting)
  let s := sids.foldl (fun (s : State) sid => (s.stopSlot sid).modSlot sid (fun sl => { sl with stopped := true })) s
  let s := if (s.cluster phys).lease.holder = some core then s.holdEnd phys else s
  s.writeTail cid (sids.map s.slotPart)

/-- R404: what stopped for a departure of a core issues again, and the core is no longer leaving. -/
def State.recallUndo (s : State) (t phys core : Nat) : State :=
  let cid := 8 * phys + core
  let s := ((s.slotsOf t phys).filter (fun sid => coreOf sid == cid)).foldl (fun (s : State) sid =>
    s.modSlot sid (fun sl => { sl with stopped := false })) s
  s.modVcls t (fun e => e.phys == phys && !e.saved) (fun e => { e with leaving := e.leaving - (e.leaving &&& 2 ^ core) })

/-- R404: the departure of a core from a context and its descendants: done, waiting, or failed where a thread's frame cannot
be written (R395). Tile entries that no migrated thread takes stay in the cluster. -/
def State.recallCore (s : State) (t v core : Nat) : Granted :=
  match (s.ctx t).vcls.find? (fun e => e.vcl == v && !e.saved) with
  | none => .ok s
  | some e =>
    let cid := 8 * e.phys + core
    let s := s.recallStop t e.phys core
    let p := ((s.slotsOf t e.phys).filter (fun sid => coreOf sid == cid)).foldl (fun (p : Nat × State) sid =>
      match p.2.evict t sid with
      | .gone s => (p.1, s)
      | .wait => (max p.1 1, p.2)
      | .noFrame => (2, p.2)) (0, s)
    match p.1 with
    | 0 =>
      let s := p.2.modLease e.phys (fun l =>
        if (l.saved.get [] core).any (fun e => !s.within e.who.ctx t) then l
        else { l with reqs := l.reqs.filter (· != core) })
      .ok ((s.recallUndo t e.phys core).modVcls t (fun o => o.phys == e.phys && !o.saved) (fun e =>
        { e with mask := e.mask - (e.mask &&& 2 ^ core) }))
    | 1 => .wait p.2
    | _ => .fail 1 (p.2.recallUndo t e.phys core)

/-- R404, R405: a step of RECALL. (Log: DEDUCED 39) -/
def State.recallStep (s : State) (a t : Nat) (e : CtxEntry) (d1 : Nat) : State :=
  let cores := recallCores d1
  if e.step = 0 ∧ (d1 / 2 ^ 39 ≠ 0 ∨ cores.isEmpty) then s.ctxFail a t e 1
  else if e.step = 0 ∧ cores.any (fun p => !(s.ctx t).vcls.any (fun e => e.vcl == p.1 && !e.saved && bitAt e.mask p.2)) then
    s.ctxFail a t e 5
  else match cores[e.step]? with
    | none => s.ctxDone a t e
    | some (v, core) =>
      match s.recallCore t v core with
      | .fail n s => s.ctxFail a t e n
      | .wait s => s
      | .ok s =>
        let bare := (s.ctx t).vcls.any (fun e => e.vcl == v && !e.saved && e.mask == 0)
        if bare && (s.ctx t).depth == 1 && s.inFlightPackets then s
        else match (if bare then (s.saveCluster t v).map (·.mapsAfter t) else some s) with
        | none => s
        | some s =>
          if e.step + 1 < cores.length then s.ctxNext a t 2 e
          else s.ctxDone a t e

/-- R371, R384: a step of `ctx.grant`, its descriptor read. -/
def State.grantWith (s : State) (a t : Nat) (self : Bool) (e : CtxEntry) (d : Nat) : State :=
  let w (i : Nat) : Nat := bitsAt d (64 * i) 64
  let kind := w 0
  let finish (g : Granted) : State :=
    match g with
    | .fail n s => s.ctxFail a t e n
    | .wait s => s
    | .ok s => s.ctxDone a t e
  if self && kind != 5 then s.ctxFail a t e 5
  else match kind with
    | 1 => finish (s.grantCores a t (w 1) (w 2) (w 3))
    | 2 => finish (s.grantWindow t (w 1) (w 2) (w 3))
    | 3 => finish (s.grantQslot a t (w 1) (w 2) (w 3))
    | 4 => finish (s.grantBudget a t (w 1) (w 2) (w 3))
    | 5 => finish (s.grantMap t (w 1) (w 2) (w 3))
    | 6 => if w 2 ≠ 0 ∨ w 3 ≠ 0 then s.ctxFail a t e 1 else s.recallStep a t e (w 1)
    | _ => s.ctxFail a t e 1

/-- R371: the descriptor of a grant is read at its first step and kept. -/
def State.grantStep (s : State) (a t : Nat) (self : Bool) (e : CtxEntry) (desc : Nat) : State :=
  match e.data with
  | d :: _ => s.grantWith a t self e d
  | [] => s.ctxDesc a e desc 32 (fun s => s.ctxFail a t e 1) (fun d s =>
      (s.modCtxHead a (fun e => { e with data := [d], waitPage := none })).grantWith a t self e d)

/-! ### run, stop, kill, freeze, thaw (R384 to R387) -/

/-- R386: the parent of a context lets it be active. -/
def State.mayRun (s : State) (t : Nat) : Bool :=
  match (s.ctx t).parent with | some (p, _) => (s.ctx p).act && (s.ctx p).cen | none => true

/-- R386: a context becomes active: latched interrupts are delivered, its queues read their descriptors (R378) and look at
their kick words. -/
def State.activate (s : State) (t : Nat) : State :=
  let c := s.ctx t
  if !s.mayRun t then s
  else
    let v := c.ipend
    let s := s.modCtx t (fun c => { c with act := true, ipend := 0#64 })
    let s := ((upTo 64).filter (fun i => v.getLsbD i)).foldl (fun s i => s.interrupt t i) s
    ((s.ctx t).queues.foldl (fun (s : State) p => s.rereadQueue t p.1) s).kickAll t

/-- R384: a step of run or thaw (`op` 4 or 9): a cluster restored, or the last. A cluster without a core waits for a CORES
grant (R405). A run changes the phase, and the contexts that it makes active below thaw (R386). -/
def State.runStep (s : State) (a t op : Nat) (e : CtxEntry) : State :=
  match (s.ctx t).vcls[e.step]? with
  | some v =>
    if !v.saved || v.mask == 0 then s.ctxNext a t op e
    else if (s.ctx t).depth = 1 ∧ s.inFlightPackets then s
    else match s.restorePlace t v with
      | none => s
      | some phys =>
        if !s.vaultFits t v.vcl phys then s.ctxFail a t e 2
        else match s.restoreCluster t v.vcl phys with
          | none => s
          | some s => s.ctxNext a t op e
  | none =>
    let s := s.modCtx t (fun c => { c with phase := .running })
    let s := s.activate t
    let s := if op = 4 ∧ (s.ctx t).act ∧ (s.ctx t).cen then s.thawBelow t else s
    (s.daybook t 6 0 0 0 0).ctxDone a t e

/-- R386: the contexts of a tree become inactive. -/
def State.deactivate (s : State) (t : Nat) : State :=
  { s with ctxs := s.ctxs.map (fun (p : Nat × Ctx) =>
      if s.within p.1 t then (p.1, { p.2 with act := false }) else p) }

/-- R435: the counters of the active contexts of a tree are published at the last step of a stop or freeze. -/
def State.publishTree (s : State) (t : Nat) : State :=
  (s.ctxs.filter (fun p => s.within p.1 t && p.2.act)).foldl (fun (s : State) p => s.publish p.1) s

/-- R384, R403: the first step of stop, kill and freeze: the queues of the tree settle, their hardware queue slots are free,
and FROZEN is logged. (Log: DEDUCED 39) -/
def State.freezeQueues (s : State) (t : Nat) : State :=
  (s.ctxs.filter (fun p => s.within p.1 t && p.2.act)).foldl (fun (s : State) p =>
    (p.2.queues.foldl (fun (s : State) q => (s.settleQueue p.1 q.1).freeHqs p.1 q.1 q.2.hqs) s).daybook p.1 5 0 0 0 0) s

/-- R384: a step of stop or freeze (`op` 5 or 8), and of the first part of kill: whether it was the last of them. -/
def State.stopStep (s : State) (a t op : Nat) (e : CtxEntry) : Bool × State :=
  match e.step with
  | 0 => (false, (s.freezeQueues t).ctxNext a t op e)
  | k + 1 => match (s.ctx t).vcls[k]? with
    | some v => match s.saveCluster t v.vcl with
      | none => (false, s)
      | some s => (false, s.ctxNext a t op e)
    | none => (true, (s.publishTree t).deactivate t)

/-- Entries of an engine's queue that stay when a context is revoked. -/
def keepCtx (c : Nat) (w : Issuer) : Bool := w.ctx != c

/-- R387: what a revoked context leaves in a cluster is discarded. -/
def Cluster.revoke (k : Cluster) (c : Nat) : Cluster :=
  { k with
    copyq := k.copyq.map (fun l => l.filter (fun e => keepCtx c e.who)),
    tileq := k.tileq.filter (fun e => keepCtx c e.who),
    lease := { k.lease with saved := savedOf k.lease.saved (fun e => keepCtx c e.who) },
    work := k.work.filter (fun w => w.ctx != c), waiters := k.waiters.filter (fun w => w.ctx != c),
    fwd := k.fwd.filter (fun f => f.ctx != c), park := k.park.filter (fun e => e.ctx != c), replay := k.replay.filter (fun h => keepCtx c h.who),
    tlb := k.tlb.filter (fun e => e.asid != c) }

/-- R387: what a revoked context leaves in a field is discarded; its ranges end without replay. -/
def Field.revoke (f : Field) (c : Nat) : Field :=
  { f with
    collq := f.collq.map (fun l => l.filter (fun e => keepCtx c e.who)),
    batch := ((f.batch.filter (fun r => r.owner != c)).map (fun r => { r with
      waits := r.waits.filter (fun w => w.1 != c) })).filter (fun r => !r.waits.isEmpty),
    ranges := (f.ranges.filter (fun r => r.owner != c)).map (fun r => { r with
      waits := r.waits.filter (fun w => w.2.1 != c) }) }

/-- R170, R387: what waits in inboxes for the threads of a revoked context is discarded. -/
def State.dropInboxes (s : State) (c : Nat) : State :=
  let uids := (s.slots.filter (fun p => p.2.occupied && p.2.th.ctx == c)).map (fun p => p.2.th.uid) ++
    (s.ctx c).framesIn.map (fun f => f.th.uid) ++
    s.cores.flatMap (fun p => (p.2.kept.filter (fun q => q.2.th.ctx == c)).map (fun q => q.2.th.uid)) ++
    s.saves.flatMap (fun g => (g.slots.filter (fun p => p.2.th.ctx == c)).map (fun p => p.2.th.uid))
  let clean (k : Core) : Core := Core.fillInbox { k with
    inbox := k.inbox.filter (fun e => !uids.contains e.uid), deferred := k.deferred.filter (fun e => !uids.contains e.uid) }
  { s with
    cores := s.cores.map (fun (p : Nat × Core) => (p.1, clean p.2)),
    saves := s.saves.map (fun g => { g with cores := g.cores.map (fun p => (p.1, clean p.2)) }) }

/-- R384, R387: release a context: its threads, entries, TLB entries, queue slots and budgets. -/
def State.releaseCtx (s : State) (c : Nat) : State :=
  let k := s.ctx c
  let s := s.daybook c 7 0 0 0 0
  let s := s.dropInboxes c
  let s := s.emptySlots ((s.slots.filter (fun p => p.2.occupied && p.2.th.ctx == c)).map (·.1))
  let s : State := { s with
    clusters := s.clusters.map (fun (p : Nat × Cluster) => (p.1, (p.2.revoke c).freedSince p.2 s.cycle)),
    fields := s.fields.map (fun (p : Nat × Field) => (p.1, (p.2.revoke c).freedSince p.2 s.cycle)),
    cores := s.cores.map (fun (p : Nat × Core) => (p.1, { p.2 with
      tlb := p.2.tlb.filter (fun e => e.asid != c), kept := p.2.kept.filter (fun q => q.2.th.ctx != c) })),
    saves := (s.saves.filter (fun g => g.ctx != c)).map (fun g => { g with
      image := (g.image.revoke c).freedSince g.image s.cycle, slots := g.slots.filter (fun p => p.2.th.ctx != c),
      coll := g.coll.filter (fun p => keepCtx c p.2.who) }),
    launches := s.launches.filter (fun p => p.2.ctx != c),
    groups := s.groups.filter (fun p => p.2.ctx != c),
    hqOwner := s.hqOwner.filter (fun p => p.2.1 != c),
    due := s.due.filter (fun j => match j with
      | .walk _ a _ _ _ _ => a != c
      | .probe who _ _ => who.ctx != c
      | _ => true),
    apertures := s.apertures.map (fun (p : Nat × Aperture) =>
      (p.1, if bitsAt p.2.lo.toNat 50 11 = c then { p.2 with lo := p.2.lo &&& 0x7FFFFFFFFFFFFFFF#64 } else p.2)),
    ctxs := s.ctxs.drop c }
  let s := if k.depth = 1 then ((k.vcls.filter (fun e => !e.saved)).map (·.phys)).foldl (fun (s : State) p =>
      s.modCluster p Cluster.openMaps) s else s
  match k.parent with
  | none => s
  | some (p, h) =>
    (s.refund p k.slots k.frames (k.children + 1)).modCtx p (fun c => { c with
      handles := c.handles.drop h, qslots := k.qslots ++ c.qslots })

/-- R384: the deepest descendant of a context. -/
def State.deepest (s : State) (t : Nat) : Option Nat :=
  (s.ctxs.filter (fun p => p.1 != t && s.within p.1 t)).foldl (fun (b : Option Nat) p =>
    match b with
    | none => some p.1
    | some o => if (s.ctx o).depth < p.2.depth then some p.1 else b) none

/-- R384: a step of kill. -/
def State.killStep (s : State) (a t : Nat) (e : CtxEntry) : State :=
  let n := (s.ctx t).vcls.length
  if e.step ≤ n then
    (s.stopStep a t 6 e).2
  else if e.step = n + 1 then
    (((s.publishTree t).deactivate t).modCtx t (fun c => { c with phase := .revoking })).ctxNext a t 6 e
  else
    match s.deepest t with
    | some c => (s.releaseCtx c).ctxNext a t 6 e
    | none => (s.releaseCtx t).ctxEnd a e none

/-! ### One step (R384) -/

/-- R377, R384: the step of `ctx.resume`. -/
def State.resumeStep (s : State) (a : Nat) (e : CtxEntry) (token act : Nat) : State :=
  match s.heldBy a (w64 token) with
  | none => s.ctxFail a a e 5
  | some (c, f) =>
    match act with
    | 0 => (s.tokenResume c f).ctxDone a a e
    | 1 => match s.tokenDown c f with | some s => s.ctxDone a a e | none => s.ctxFail a a e 6
    | 2 => match s.tokenUp a c f with | some s => s.ctxDone a a e | none => s
    | _ => (s.tokenKill c f).ctxDone a a e

/-- R384: the target of an operation of a context's queue, and its number. -/
def State.opTarget (s : State) (a : Nat) : CtxOp → Option (Nat × Nat)
  | .new .. => none
  | .grant h _ => (s.ofHandle a h).map (fun t => (t, 2))
  | .wr h _ _ => (s.ofHandle a h).map (fun t => (t, 3))
  | .run h => (s.ofHandle a h).map (fun t => (t, 4))
  | .stop h => (s.ofHandle a h).map (fun t => (t, 5))
  | .kill h => (s.ofHandle a h).map (fun t => (t, 6))
  | .resume .. => some (a, 7)
  | .freeze t => some (t, 8)
  | .thaw t => some (t, 9)

/-- R384, R370: an operation whose first step must still be done stands in its target's STATE with STEP 1. -/
def State.noteOp (s : State) (a : Nat) : State :=
  match (s.ctx a).engine with
  | e :: _ => if e.step ≠ 0 then s else match s.opTarget a e.op with
    | some (t, op) => if (s.ctxs.find? t).isSome then s.setOp t op 1 else s
    | none => s
  | [] => s

/-- R384, R385: one step of the operation at the head of a context's engine queue. -/
def State.ctxTurn (s : State) (a : Nat) : State :=
  match (s.ctx a).engine with
    | [] => s
    | e :: _ =>
      let on (h : Nat) (f : Nat → State) : State :=
        match s.ofHandle a h with | some t => f t | none => s.ctxEnd a e (some (6, e.xa.toNat))
      match e.op with
      | .new h desc => s.newStep a e h desc
      | .grant h desc => on h (fun t => s.grantStep a t (h == 255) e desc)
      | .wr h sel v => on h (fun t => (s.writeBlock t sel v (s.ctx a).feat).ctxDone a t e)
      | .run h => on h (fun t =>
          if e.step = 0 ∧ (s.ctx t).phase ≠ .built ∧ (s.ctx t).phase ≠ .frozen then s.ctxFail a t e 6
          else s.runStep a t 4 e)
      | .stop h => on h (fun t =>
          if e.step = 0 ∧ (s.ctx t).phase ≠ .running then s.ctxFail a t e 6
          else
            let r := s.stopStep a t 5 e
            if r.1 then (r.2.modCtx t (fun c => { c with phase := .frozen })).ctxDone a t e else r.2)
      | .kill h => on h (fun t => s.killStep a t e)
      | .resume token act => s.resumeStep a e token act
      | .freeze t =>
        if e.step = 0 ∧ !(s.ctx t).act then s.ctxEnd a e none
        else
          let r := s.stopStep a t 8 e
          if r.1 then r.2.ctxDone a t e else r.2
      | .thaw t =>
        if e.step = 0 ∧ ((s.ctx t).act ∨ (s.ctx t).phase ≠ .running ∨ !s.mayRun t) then s.ctxEnd a e none
        else s.runStep a t 9 e

/-- R384, R385: a turn of a context's engine queue. The queue of a context that is inactive, or whose freeze, stop or kill
has begun, rests at its step boundary; the operation at its head stands in its target's STATE. -/
def State.ctxStep (s : State) (a : Nat) : State :=
  if !(s.ctx a).act || s.frozenQueues a then s else (s.ctxTurn a).noteOp a

/-- One step of a context's engine queue, where the operation at its head satisfies a test. -/
def State.ctxStepIf (s : State) (a : Nat) (p : CtxOp → Bool) : State :=
  match (s.ctx a).engine with
  | e :: _ => if p e.op then s.ctxStep a else s
  | [] => s

/-- R371: the KIND of the grant at the head of a context's engine queue, as its descriptor now stands. -/
def State.grantKind (s : State) (a : Nat) : Option Nat :=
  match (s.ctx a).engine with
  | e :: _ => match e.op, e.data with
    | .grant _ _, d :: _ => some (bitsAt d 0 64)
    | .grant _ desc, [] => (s.ctxNat a desc 8).map (·.1)
    | _, _ => none
  | [] => none

/-- CTX_NEW_STEP (R384). -/
def execCtxNewStep (a : Nat) (s : State) : Host.Outcome State Fault Refusal :=
  done (s.ctxStepIf a (fun o => match o with | .new .. => true | _ => false))

/-- CORES (R371). -/
def execCores (a : Nat) (s : State) : Host.Outcome State Fault Refusal :=
  done (if s.grantKind a = some 1 then s.ctxStep a else s)
/-- WINDOW (R371). -/
def execWindow (a : Nat) (s : State) : Host.Outcome State Fault Refusal :=
  done (if s.grantKind a = some 2 then s.ctxStep a else s)
/-- QSLOT (R371). -/
def execQslot (a : Nat) (s : State) : Host.Outcome State Fault Refusal :=
  done (if s.grantKind a = some 3 then s.ctxStep a else s)
/-- BUDGET (R371). -/
def execBudget (a : Nat) (s : State) : Host.Outcome State Fault Refusal :=
  done (if s.grantKind a = some 4 then s.ctxStep a else s)
/-- MAP (R371). -/
def execMap (a : Nat) (s : State) : Host.Outcome State Fault Refusal :=
  done (if s.grantKind a = some 5 then s.ctxStep a else s)
/-- RECALL (R404). -/
def execRecall (a : Nat) (s : State) : Host.Outcome State Fault Refusal :=
  done (if s.grantKind a = some 6 then s.ctxStep a else s)

/-- CTX_WR_STEP (R384). -/
def execCtxWrStep (a : Nat) (s : State) : Host.Outcome State Fault Refusal :=
  done (s.ctxStepIf a (fun o => match o with | .wr .. => true | _ => false))

/-- CEN_WRITE (R386): root firmware or the context engine writes CEN of a context. -/
def execCenWrite (t : Nat) (v : Word) (s : State) : Host.Outcome State Fault Refusal :=
  done (s.writeBlock t 3 v 0#9)

/-- FEAT_WRITE (R374): a parent writes its child's FEAT. -/
def execFeatWrite (t : Nat) (v : Word) (s : State) : Host.Outcome State Fault Refusal :=
  done (match (s.ctx t).parent with
    | some (p, _) => s.writeBlock t 1 v (s.ctx p).feat
    | none => s)

/-- REKEY (R168, R369). (Log: DESIGN CHOICE 5) -/
def execRekey (t : Nat) (s : State) : Host.Outcome State Fault Refusal := done (s.writeBlock t 17 0#64 0#9)

/-- CTX_RUN_STEP (R384). -/
def execCtxRunStep (a : Nat) (s : State) : Host.Outcome State Fault Refusal :=
  done (s.ctxStepIf a (fun o => match o with | .run _ => true | _ => false))
/-- CTX_STOP_STEP (R384). -/
def execCtxStopStep (a : Nat) (s : State) : Host.Outcome State Fault Refusal :=
  done (s.ctxStepIf a (fun o => match o with | .stop _ => true | _ => false))
/-- CTX_KILL_STEP (R384). -/
def execCtxKillStep (a : Nat) (s : State) : Host.Outcome State Fault Refusal :=
  done (s.ctxStepIf a (fun o => match o with | .kill _ => true | _ => false))
/-- CTX_FREEZE_STEP (R386). -/
def execCtxFreezeStep (a : Nat) (s : State) : Host.Outcome State Fault Refusal :=
  done (s.ctxStepIf a (fun o => match o with | .freeze _ => true | _ => false))
/-- CTX_THAW_STEP (R386). -/
def execCtxThawStep (a : Nat) (s : State) : Host.Outcome State Fault Refusal :=
  done (s.ctxStepIf a (fun o => match o with | .thaw _ => true | _ => false))

/-! ### The instructions of major 30 (R388, R389) -/

/-- The frame of a major-30 instruction. -/
def ctxUse (word : Nat) (names reads : List (BitVec 6)) (pol : Option Policy) : Use :=
  { word := word, feat := some fContext, kern := true, names := names.map .x, reads := reads, pol := pol, awaitCode := 1, after := true }

/-- R389: the handle check. -/
def State.handleCheck (s : State) (x : Word) (self : Bool) (f : Nat → Res) : Res :=
  if x.toNat > 255 ∨ (x.toNat = 255 ∧ !self) then .trap tDESC x
  else match s.ofHandle s.th.ctx x.toNat with
    | none => .trap tDESC x
    | some t => f t

/-- R389: the check of a descriptor's address. -/
def descCheck (va : Word) (align : Nat) (f : Unit → Res) : Res :=
  if !canonical va then .trap tADDRESS va
  else if va.toNat % align ≠ 0 then .trap tMISALIGNED va
  else f ()

/-- R389: enter an operation in the issuer's context-engine queue; `before` is what the form waits for and does first.
(Log: DEDUCED 35) -/
def State.enterCtx (s : State) (op : CtxOp) (xa : Word) (before : State → Option State) : Res :=
  let w := s.oxr 3
  if barBad w then .trap tDESC (w.setWidth 64)
  else
    let first : List (Cause × Nat) := (if s.holding then [(.heldStores, 2)] else []) ++
      (if s.unordered 4 then [(.order 4, 3)] else []) ++ (if s.myCtx.engine.length ≥ 16 then [(.ctxFull, 4)] else [])
    match first ++ (if (before s).isNone then [(.noHandle, 5)] else []), before s with
    | (c, n) :: cs, _ => .nr (c :: cs.map (·.1)) n (if s.enqueueCauses.isEmpty then s else s.oweOrder)
    | [], s' =>
      let s := s'.getD s
      let who := s.issuer
      .next (s.modCtx s.th.ctx (fun c => { c with
        engine := putBefore (fun o => laterThan s.cycle who o.at_ o.who && o.step == 0) c.engine
          { who := who, op := op, bar := w, xa := xa, at_ := s.cycle } }))

/-- R389: the lowest free handle of a context. -/
def Ctx.freeHandle (c : Ctx) : Option Nat := (upTo 255).find? (fun h => (c.handles.find? h).isNone)

/-- R389: the child of a `ctx.new` before its creation has an ASID: a record under a number that is no ASID.
(Log: DESIGN CHOICE 36) -/
def State.newChild (s : State) (a h : Nat) : State :=
  let k := 4096 + s.nextEntry
  let c : Ctx := { parent := some (a, h), depth := (s.ctx a).depth + 1, phase := .built, op := 1, stepNo := 1 }
  let s : State := { s with nextEntry := s.nextEntry + 1, ctxs := s.ctxs.put k c }
  s.modCtx a (fun c => { c with handles := c.handles.put h k, usedChildren := c.usedChildren + 1 })

/-- R389 `ctx.new`. -/
def execCtxNew (p : Policy) (a d : BitVec 6) (s : State) : Host.Outcome State Fault Refusal :=
  done ((ctxUse (rpw p.bits 0 0#6 a d 30) [a, d] [a] (some p)).run s (fun s =>
    let va := s.xr a
    descCheck va 64 (fun _ =>
      let h := s.myCtx.freeHandle
      s.enterCtx (.new (h.getD 0) va.toNat) va (fun s =>
        match h with
        | none => none
        | some h =>
          if s.myCtx.children ≤ s.myCtx.usedChildren then none
          else some ((s.newChild s.th.ctx h).setX d (w64 h))))))

/-- R389 `ctx.grant`. -/
def execCtxGrant (p : Policy) (b a : BitVec 6) (s : State) : Host.Outcome State Fault Refusal :=
  let early (rs : List (BitVec 6)) (s : State) : Res :=
    if rs.contains a then descCheck (s.xr b) 32 (fun _ => .skip s) else s.handleCheck (s.xr a) true (fun _ => .skip s)
  done (({ (ctxUse (rpw p.bits 1 b a 0#6 30) [a, b] [a, b] (some p)) with
    early := fun rs s => if rs.contains a && rs.contains b then .skip s else early rs s } : Use).run s (fun s =>
    s.handleCheck (s.xr a) true (fun _ => descCheck (s.xr b) 32 (fun _ =>
      s.enterCtx (.grant (s.xr a).toNat (s.xr b).toNat) (s.xr a) some))))

/-- R389 `ctx.rd`; a read of DBT or TQT sees what their advances released (R375, R382). Decoding refuses a selector that R369 does not list; the value that such a term would read is
free. -/
def execCtxRd (sel a d : BitVec 6) (s : State) : Host.Outcome State Fault Refusal :=
  done ((ctxUse (rpw 0#2 2 sel a d 30) [a, d] [a] none).run s (fun s =>
    s.handleCheck (s.xr a) true (fun t =>
      match s.readBlock t sel.toNat with
      | some v =>
        let s := if sel.toNat = 9 ∨ sel.toNat = 12 then s.acquireAll s.cur else s
        .next (s.setX d v)
      | none => let p := s.free; .next (p.2.setX d (Config.freeWord p.1)))))

/-- R389 `ctx.wr`. -/
def execCtxWr (p : Policy) (b a sel : BitVec 6) (s : State) : Host.Outcome State Fault Refusal :=
  done (((ctxUse (rpw p.bits 3 b a sel 30) [a, b] [a, b] (some p)).carries a [b]).run s (fun s =>
    s.handleCheck (s.xr a) true (fun _ =>
      if !mayWrite ((s.xr a).toNat == 255) sel.toNat then .trap tDESC (w64 sel.toNat)
      else s.enterCtx (.wr (s.xr a).toNat sel.toNat (s.xr b)) (s.xr a) some)))

/-- R389: `ctx.run`, `ctx.stop` and `ctx.kill`. -/
def opCtx (m5 : Nat) (op : Nat → CtxOp) (p : Policy) (a : BitVec 6) (s : State) : State :=
  (ctxUse (rpw p.bits m5 0#6 a 0#6 30) [a] [a] (some p)).run s (fun s =>
    s.handleCheck (s.xr a) false (fun _ => s.enterCtx (op (s.xr a).toNat) (s.xr a) some))

/-- R389 `ctx.run`. -/
def execCtxRun (p : Policy) (a : BitVec 6) (s : State) : Host.Outcome State Fault Refusal :=
  done (opCtx 4 .run p a s)
/-- R389 `ctx.stop`. -/
def execCtxStop (p : Policy) (a : BitVec 6) (s : State) : Host.Outcome State Fault Refusal :=
  done (opCtx 5 .stop p a s)
/-- R389 `ctx.kill`. -/
def execCtxKill (p : Policy) (a : BitVec 6) (s : State) : Host.Outcome State Fault Refusal :=
  done (opCtx 6 .kill p a s)

/-- R377, R389 `ctx.resume`. -/
def execCtxResume (p : Policy) (c : BitVec 2) (a : BitVec 6) (s : State) : Host.Outcome State Fault Refusal :=
  done ((ctxUse (rpw p.bits 7 (0#4 ++ c) a 0#6 30) [a] [a] (some p)).run s (fun s =>
    match s.heldBy s.th.ctx (s.xr a) with
    | none => .trap tDESC (s.xr a)
    | some _ => s.enterCtx (.resume (s.xr a).toNat c.toNat) (s.xr a) some))

/-- R383, R389 `ctx.intr`. -/
def execCtxIntr (a : BitVec 6) (s : State) : Host.Outcome State Fault Refusal :=
  done ((ctxUse (rpw 0#2 8 0#6 a 0#6 30) [a] [a] none).run s (fun s =>
    if (s.xr a).toNat > 63 then .trap tDESC (s.xr a)
    else .next (s.interrupt s.th.ctx (s.xr a).toNat)))

end Sys2Proof.Machine
end

