-- ==== Sys2Proof/Machine/Fetch.lean ====
section
/-! DEFINITION. Instruction fetch: the filling of the instruction caches, prefetch, and the demand fetch of the parcels
at a pc (R210 to R214, R356, R437). -/

namespace Sys2Proof.Machine

/-- R358: a list of stage stamps none of which is out of date. -/
def State.stampsLive (s : State) (l : List (Nat × BitVec 32)) : Bool := l.all (fun p => (s.ctx p.1).stageGen == p.2)

/-- R210: put a line into an L1 instruction cache of 4 ways of 64 sets. Of a full set the line of the lowest number goes.
(Log: DESIGN CHOICE 86) -/
def l1iPut (l : Tab (BitVec 512)) (line : Nat) (d : BitVec 512) : Tab (BitVec 512) :=
  let set := l.filter (fun p => p.1 % 64 == line % 64)
  if set.length < 4 || (l.find? line).isSome then l.put line d
  else match set.head? with
    | some p => (l.drop p.1).put line d
    | none => l.put line d

/-- The bytes of a line of instructions, by its system line number: of this device's memory as its home holds it, or free
values that its owner elsewhere sends. (Log: DESIGN CHOICE 4) -/
def State.codeLine (s : State) (line : Nat) : BitVec 512 × State :=
  match s.machineOf (line * 64) with
  | some m => let s := s.mergeAll (m / 64); (s.lineData (m / 64), s)
  | none =>
    let f := s.freeCtr
    (BitVec.ofNat 512 (leNat ((upTo 64).map (fun i => Config.freeByte (f + i)))), { s with freeCtr := f + 64 })

/-- R210, R211, R437: a line arrives in a core's L1 instruction cache: from the cluster's L2 instruction cache where it
holds the line with stamps that are not out of date, and else from memory, entering the L2 (128 KiB) with its stamps. The
L2 instruction cache is fully associative, and where it is full the line of the lowest number goes.
(Log: DESIGN CHOICE 86) -/
def State.fillL1i (s : State) (cid line : Nat) (stamps : List (Nat × BitVec 32)) : State :=
  let hit : Option (BitVec 512) := match (s.cluster (cid / 8)).l2i.find? line with
    | some (d, st) => if s.stampsLive st then some d else none
    | none => none
  match hit with
  | some d => s.modCore cid (fun k => { k with l1i := l1iPut k.l1i line d })
  | none =>
    let r := s.codeLine line
    let s := r.2.modCluster (cid / 8) (fun c => { c with
      l2i := (if c.l2i.length < 2048 then c.l2i else c.l2i.drop (c.l2i.headD (0, 0#512, [])).1).put line (r.1, stamps) })
    s.modCore cid (fun k => { k with l1i := l1iPut k.l1i line r.1 })

/-- L1I_FILL (R210): the n-th owed job, where it is an instruction fill, is done. -/
def execL1iFill (n : Nat) (s : State) : Host.Outcome State Fault Refusal :=
  match s.due[n]? with
  | some (.fetch cid line st) => done (({ s with due := s.due.eraseIdx n } : State).fillL1i cid line st)
  | _ => done s

/-- R209, R214: an aligned word of instructions that reside elsewhere arrives from their owner: it enters no cache, and the
slot that fetches it keeps it for its issue. (Log: DEDUCED 79) -/
def State.fetchFar (s : State) (sid : Nat) (va : Word) : State :=
  match s.xlate (coreOf sid) (s.thread sid).ctx va.toNat (Kind.ofCode 2) with
  | none => s
  | some e =>
    if !e.x then s
    else
      let r := s.codeLine (e.sys va.toNat / 64)
      let base := va.toNat / 4 * 4
      r.2.modThread sid (fun h => { h with fetchedFor := h.pc, fetched :=
        (base, parcelOf r.1 base) :: (base + 2, parcelOf r.1 (base + 2)) :: h.fetched })

/-- The parcels that a thread has fetched for itself go once its pc has left them, and the instruction that waited for
them (R70). -/
def Thread.dropFetched (h : Thread) : Thread :=
  if h.fetchedFor = h.pc || h.fetched.any (fun e => e.1 == h.pc.toNat) then h else { h with fetched := [] }

/-- The offered cycle of a thread begins: parcels and elements that it has read for an instruction, and what was walked for
its probe, go once its pc has left it (R190, R364). -/
def Thread.opened (h : Thread) : Thread :=
  let pc := match h.cap with | some e => e.addr | none => h.pc
  let h := h.dropFetched
  let h := match h.probed with
    | some (at_, _) => if at_ = pc then h else { h with probed := none }
    | none => h
  if h.popped.1 = pc || h.popped.2.isEmpty then h else { h with popped := (0#64, []) }

/-- R212: the fetch unit prefetches the line of an address for the thread of a slot. What would trap, or post a fault
record, drops the prefetch, and so does a line that resides elsewhere. -/
def State.prefetch (s : State) (sid : Nat) (va : Word) : State :=
  let a := (s.thread sid).ctx
  match s.fetchParcel sid va with
  | .got _ => s
  | .fault => s
  | .wait (some (.fetch cid line st)) => s.fillL1i cid line st
  | .wait (some (.walk ..)) =>
    if s.faultPending (clusterOf sid) a (va.toNat / 4096) then s
    else match s.translateFor (clusterOf sid) true a va.toNat (Kind.ofCode 2) with
      | .fault .. => s
      | .ok w s => s.fillTlb (coreOf sid) a va.toNat w
  | .wait _ => s

/-- R212, R57, R65: the target of the direct branch or `call` that a word at a pc is: a branch of major 5, or major 6. -/
def wordTarget (pc : Word) (w : BitVec 32) : Option Word :=
  match (majorOf w).toNat with
  | 5 => some (pc + ((IFmt.imm12 w).signExtend 64 <<< 1))
  | 6 => some (pc + ((JFmt.off25 w).signExtend 64 <<< 1))
  | _ => none

/-- R212, R65: the target of a `j.n` at a pc. -/
def parcelTarget (pc : Word) (p : BitVec 16) : Option Word :=
  if p.extractLsb' 0 2 = 2#2 ∧ QJFmt.op3 p = 6#3 then some (pc + ((QJFmt.off11 p).signExtend 64 <<< 1)) else none

/-! ### The demand fetch (R213, R46, R71) -/

/-- What the demand fetch at a pc finds: a word, or the one parcel of a compact or a misplaced instruction (R45). -/
inductive Fetched where
  | one (p : BitVec 16)
  | two (w : BitVec 32)
  | fault
  | wait (j : Option Job)
deriving DecidableEq, Repr

/-- R46, R213: fetch the parcels of the instruction at an address for the thread of a slot. -/
def State.fetchAt (s : State) (sid : Nat) (pc : Word) : Fetched :=
  match s.fetchParcel sid pc with
  | .fault => .fault
  | .wait j => .wait j
  | .got p =>
    if p.extractLsb' 0 2 != 3#2 || pc.getLsbD 1 then .one p
    else match s.fetchParcel sid (pc + 2#64) with
      | .fault => .fault
      | .wait j => .wait j
      | .got q => .two (q ++ p)

/-- R212: the addresses whose lines the fetch unit prefetches while a slot fetches at a pc: the next line, and the target
of a direct branch or `call` there. -/
def State.prefetches (s : State) (sid : Nat) (pc : Word) : List Word :=
  w64 ((pc.toNat / 64 + 1) * 64) :: (match s.fetchAt sid pc with
    | .one p => (parcelTarget pc p).toList
    | .two w => (wordTarget pc w).toList
    | _ => [])

/-- R212: what the fetch unit prefetches on its own after a line that a slot fetched from. -/
def State.prefetchAll (s : State) (sid : Nat) (pc : Word) : State :=
  (s.prefetches sid pc).foldl (fun (s : State) va => s.prefetch sid va) s

/-- FETCH_PREFETCH (R212): of a line that the fetch unit of a slot's core prefetches. -/
def execFetchPrefetch (sid : Nat) (va : Word) (s : State) : Host.Outcome State Fault Refusal :=
  done (if (s.slot sid).occupied && (s.prefetches sid (s.thread sid).pc).any (fun a => a.toNat / 64 == va.toNat / 64) then
    s.prefetch sid va else s)

/-- R210, R212: what a fetch at the pc of the current thread waits for is owed; after a line has arrived the fetch unit
prefetches. -/
def State.demand (s : State) (j : Option Job) : State :=
  match j with
  | some (.fetch cid line st) => (s.owe (.fetch cid line st)).owe (.prefetch s.cur s.th.pc)
  | _ => s.oweOpt j

/-- R213: the fetch-fault trap of the current slot at its pc. -/
def State.fetchFault (s : State) : State := s.raise tFETCH s.th.pc

/-- R213: the demand fetch for a slot as an action of its own: it waits, raises the trap, or keeps the parcels fetched
for the issue that follows. -/
def State.demandFetch (s : State) (sid : Nat) : State :=
  let pc := (s.thread sid).pc
  match s.fetchAt sid pc with
  | .wait j => s.oweOpt j
  | .fault => { ({ s with cur := sid } : State).fetchFault with cur := s.cur }
  | .one p => s.modThread sid (fun h => { h with fetched := [(pc.toNat, p)] })
  | .two w => s.modThread sid (fun h => { h with
      fetched := [(pc.toNat, w.setWidth 16), ((pc + 2#64).toNat, w.extractLsb' 16 16)] })

/-- DEMAND_FETCH (R213). -/
def execDemandFetch (sid : Nat) (s : State) : Host.Outcome State Fault Refusal :=
  done (if (s.slot sid).st = .run ∧ (s.slot sid).occupied then s.demandFetch sid else s)

end Sys2Proof.Machine
end

