-- ==== Sys2Proof/Machine/Device.lean ====
section
/-! DEFINITION. The network and the Morsyn Link: flits, ports, the device identifier, permission maps, allotments, quotas,
utility monitors, hosts and their apertures, accesses forwarded from other devices, and access counters (R409 to R427). -/

namespace Sys2Proof.Machine

/-! ### Flits (R412, R421) -/

/-- R345: an access of a context that ends without its data, or without its effect, is counted and logged: kind 2 of a read,
3 of a write. -/
def State.logLost (s : State) (a kind addr : Nat) : State := (s.countErrors a 1).logError a 7 kind addr true

/-- R412, R345: a load of the thread of a slot has lost its packet: it gets zeros. -/
def State.loseLoad (s : State) (cid slot line : Nat) (pc : Word) : State :=
  let now := (s.core cid).cycle
  let c : L1Line := { data := 0#512, wt := 0, leaseEnd := 2 ^ 48, granted := now, asOf := s.performed, holds := [(slot, now)] }
  (s.modSlot (16 * cid + slot) (fun sl => { sl with bypass := some ⟨line, c, pc⟩ })).logLost
    (s.thread (16 * cid + slot)).ctx 2 (line * 64)

/-- R412, R345: a strong store or an atomic of the thread of a slot has lost its packet: it will be dropped, or get zeros. -/
def State.loseAccess (s : State) (cid slot line kind : Nat) : State :=
  (s.modThread (16 * cid + slot) (fun h => { h with lost := some h.rtcTag })).logLost
    (s.thread (16 * cid + slot)).ctx kind (line * 64)

/-- R412, R345: what a core holds back for a line, weak stores or updates, is dropped with its packet. -/
def State.loseLine (s : State) (cid line : Nat) (writers : List Nat) (f : Core → Core) : State :=
  (s.modCore cid f).logLost (s.thread (writers.headD (16 * cid))).ctx 3 (line * 64)

/-- R412, R345: the packet of a lost die-to-die flit is lost with it: a message or its reply, whose latch times out (R173), a
request, or an access to the home of a line, which end as R345 states, with zeros or a dropped store. A packet for whose end
the spec has no words is carried again. (Log: DEDUCED 52) -/
def State.losePacket (s : State) (n : Nat) : State :=
  let s' : State := { s with due := s.due.eraseIdx n }
  match s.due[n]? with
  | some (.arrive ..) => s'
  | some (.reply ..) => s'
  | some (.fill cid slot line pc) => s'.loseLoad cid slot line pc
  | some (.renew cid slot line pc) => s'.loseLoad cid slot line pc
  | some (.grant cid slot line) => s'.loseAccess cid slot line 3
  | some (.own cid slot line) => s'.loseAccess cid slot line 2
  | some (.drain cid line) =>
    match (s.core cid).comb.find? (fun e => e.line == line) with
    | some e => s'.loseLine cid line e.writers (fun k => { k with comb := k.comb.filter (fun e => e.line != line) })
    | none => s'
  | some (.merge cid line) =>
    match (s.core cid).upd.find? (fun u => u.line == line) with
    | some u => s'.loseLine cid line u.writers (fun k => { k with upd := k.upd.filter (fun u => u.line != line) })
    | none => s'
  | some (.request r) =>
    match r.op with
    | .inval .. => s
    | .amo _ _ m _ _ => ((s'.answer r 0 0#64 0).countErrors r.who.ctx 1).logError r.who.ctx 7 2 m true
    | .ff form _ o _ _ => ((s'.answer r 0 0#64 0).countErrors r.who.ctx 1).logError r.who.ctx 7 (if form < 2 then 2 else 3) o
    | .raw _ store _ o _ => ((s'.answer r 0 0#64 0).countErrors r.who.ctx 1).logError r.who.ctx 7 (if store then 3 else 2) o
  | _ => s

/-- R409, R412: the way of the n-th owed packet crosses an edge between dies. -/
def State.crossesDies (s : State) (n : Nat) : Bool :=
  match (s.due[n]?).bind s.wayOf with
  | some (_, a, b) => dieOf a != dieOf b
  | none => false

/-- DIE_LINK_FLIT_RETRY (R412): a flit that carries the n-th owed packet over a die-to-die link fails its CRC after a
number of retries: it is retried, which changes timing only, or after 8 dropped and counted. -/
def execDieLinkFlitRetry (link tries n : Nat) (s : State) : Host.Outcome State Fault Refusal :=
  done (if tries < 8 ∨ !s.crossesDies n then s
    else ({ s with dieLinks := s.dieLinks.upd 0 link (· + 1) } : State).losePacket n)

/-- Change a port. -/
def State.modPort (s : State) (n : Nat) (f : Port → Port) : State := { s with ports := s.ports.upd {} n f }

/-- The packet that answers a host: 0 done, 1 error, with the bytes of a read. -/
def State.hostReply (s : State) (ep code : Nat) (bs : List Byte) : State :=
  s.emit (1024 + ep) (leBytes code 1 ++ bs)

/-- R424: the writes of hosts to memory elsewhere of which no port keeps a flit any more are acknowledged, or end in error
where one was dropped. (Log: DEDUCED 56) -/
def State.hostAcks (s : State) : State :=
  let kept (n : Nat) : Bool := s.ports.any (fun p => p.2.replay.any (fun e => e.2.2.num == n) || p.2.held.any (fun e => e.num == n))
  let ended (q : HostReq) : Bool := !q.pkts.isEmpty && !q.pkts.any kept
  (s.hostWaits.filter ended).foldl (fun (s : State) q =>
    s.hostReply q.ep (b2n (!q.pkts.all (fun n => s.outbox.any (fun p => p.num == n)))) [])
      { s with hostWaits := s.hostWaits.filter (fun q => !ended q) }

/-- R421: an unacknowledged flit of a port fails its CRC: it is sent again, or after 8 retries dropped and counted. -/
def State.flitRetry (s : State) (port seq cl : Nat) : State :=
  match (s.ports.get {} port).replay.find? (fun e => e.1 == seq) with
  | none => s
  | some (_, tries, pkt) =>
    if tries < 8 then
      (s.modPort port (fun p => { p with
        retried := sat64 (p.retried + 1),
        replay := updWhere p.replay (fun e => e.1 == seq) (fun e => (e.1, e.2.1 + 1, e.2.2)) })).trace 7 0 cl 0
    else
      (({ s with outbox := s.outbox.filter (fun p => p.num != pkt.num) } : State).modPort port (fun p => { p with
        dropped := sat64 (p.dropped + 1), replay := p.replay.filter (fun e => e.1 != seq) })).hostAcks

/-- LINK_FLIT_RETRY (R421); `cl` is the cluster that a trace record names. -/
def execLinkFlitRetry (port seq cl : Nat) (s : State) : Host.Outcome State Fault Refusal :=
  done (s.flitRetry (port % 18) seq (cl % 1024))

/-- FLIT_ACKNOWLEDGEMENT (R421): the sender frees the flit. -/
def execFlitAcknowledgement (port seq : Nat) (s : State) : Host.Outcome State Fault Refusal :=
  done ((s.modPort (port % 18) (fun p => { p with replay := p.replay.filter (fun e => e.1 != seq) })).hostAcks)

/-! ### Ports (R420, R422) -/

/-- R422: a port starts to retrain, or tries again after a failed attempt; `ok` and `bad` are the FEC words corrected
and uncorrectable since its last report. -/
def Port.retrain (p : Port) (now ok bad : Nat) : Port :=
  let p := { p with fecOk := sat64 (p.fecOk + ok), fecBad := sat64 (p.fecBad + bad) }
  if p.down then p
  else if p.retraining then { p with attempts := p.attempts + 1 }
  else { p with retraining := true, attempts := 0, since := now, retrains := min (p.retrains + 1) (2 ^ 56 - 1) }

/-- PORT_RETRAIN (R422). -/
def execPortRetrain (port ok bad : Nat) (s : State) : Host.Outcome State Fault Refusal :=
  done (s.modPort (port % 18) (fun p => p.retrain s.cycle ok bad))

/-- R422, R420: training completes with 8 lanes, or 4: the port sends what it held, after what it replays. -/
def State.retrained (s : State) (port lanes : Nat) : State :=
  let p := s.ports.get {} port
  if !p.retraining || p.down || !(lanes == 8 || lanes == 4) then s
  else
    let sent := (p.held.zipIdx).map (fun e => (p.sendSeq + e.2, 0, e.1))
    { s with
      outbox := s.outbox ++ p.held,
      ports := s.ports.put port { p with
        retraining := false, attempts := 0, lanes := lanes, held := [], sendSeq := p.sendSeq + p.held.length,
        replay := p.replay ++ sent } }

/-- PORT_RETRAIN_COMPLETE (R422). -/
def execPortRetrainComplete (port lanes : Nat) (s : State) : Host.Outcome State Fault Refusal :=
  done (s.retrained (port % 18) lanes)

/-- R422: the flows on a port that have not ended: requests that still wait for their reply or their time limit. -/
def State.flowsOn (s : State) (port : Nat) : Bool :=
  s.cores.any (fun k => k.2.remote.any (fun r => s.portOf (ownerOf r.sys) == port))

/-- R422: once every flow on a port that is down has ended, the fabric manager gives the destinations that it served other
ports. (Log: DESIGN CHOICE 51) -/
def State.reroute (s : State) (port : Nat) : State :=
  let p := s.ports.get {} port
  if !p.down || p.routes.isEmpty || s.flowsOn port then s
  else
    { s with
      route := p.routes.foldl (fun (t : Tab Nat) e => if t.get 0 e.1 = port then t.put e.1 (e.2 % 18) else t) s.route,
      ports := s.ports.put port { p with routes := [] } }

/-- R422: after 3 failed attempts, or 2^19 cycles, a retraining port is down: what it kept and held is dropped and
counted. (Log: DESIGN CHOICE 51) -/
def State.portDown (s : State) (port : Nat) (routes : List (Nat × Nat)) : State :=
  let p := s.ports.get {} port
  if !p.retraining || !(3 ≤ p.attempts || p.since + 2 ^ 19 ≤ s.cycle) then s
  else
    ((({ s with
      outbox := s.outbox.filter (fun o => !p.replay.any (fun e => e.2.2.num == o.num)),
      ports := s.ports.put port { p with
        down := true, retraining := false, dropped := sat64 (p.dropped + p.replay.length + p.held.length), replay := [],
        held := [], routes := routes } } : State).hostAcks).reroute port)

/-- PORT_DOWN (R422). -/
def execPortDown (port : Nat) (routes : List (Nat × Nat)) (s : State) : Host.Outcome State Fault Refusal :=
  done (s.portDown (port % 18) routes)

/-- R422: a write of a port counter: 0 clears it, and no other value changes it; the lanes in use are no count. -/
def Port.clearCounter (p : Port) (off : Nat) : Port :=
  match off with
  | 0x00 => { p with fecOk := 0 }
  | 0x08 => { p with fecBad := 0 }
  | 0x10 => { p with retried := 0 }
  | 0x18 => { p with dropped := 0 }
  | 0x20 => { p with retrains := 0 }
  | _ => p

/-- PORT_COUNTER_CLEAR (R422). -/
def execPortCounterClear (port off : Nat) (v : Word) (s : State) : Host.Outcome State Fault Refusal :=
  done (if v = 0#64 then s.modPort (port % 18) (fun p => p.clearCounter off) else s)

/-- DEVICE_IDENTIFIER_ASSIGNMENT (R419): at span bring-up, while no context runs; the route table comes with it. -/
def execDeviceIdentifierAssignment (id : Nat) (routes : List (Nat × Nat)) (s : State) :
    Host.Outcome State Fault Refusal :=
  done (if s.ctxs.any (fun p => p.2.phase == .running) || decide (1024 ≤ id) then s
    else { s with
      devId := id, route := routes.foldl (fun (t : Tab Nat) e => t.put e.1 (e.2 % 18)) s.route })

/-! ### Permission maps, allotments, quotas and monitors (R414 to R418) -/

/-- R415: the tenants that hold a cluster are allotted devices. -/
def State.allotDevs (s : State) (cl : Nat) (l : List Nat) : State :=
  { s with ctxs := s.ctxs.map (fun (p : Nat × Ctx) =>
      if p.2.depth == 1 && p.2.vcls.any (fun e => e.phys == cl && !e.saved) then (p.1, { p.2 with devs := some l }) else p) }

/-- The numbers of the set bits of a map of 1,024 bits. -/
def mapBits (m : BitVec 1024) : List Nat := (upTo 1024).filter (fun i => m.getLsbD i)

/-- PERMISSION_MAP_WRITE (R414, R415): root firmware writes the cluster map or the device map of a cluster, once every
packet that passed its check under the old map has ended. A cluster's own bit always reads 1. The device map of a tenant's
cluster is the root's allotment to that tenant. (Log: DEDUCED 39) -/
def execPermissionMapWrite (cl : Nat) (device : Bool) (m : BitVec 1024) (s : State) : Host.Outcome State Fault Refusal :=
  done (if s.inFlightPackets then s
    else
      let s := if device then s.allotDevs (cl % 1024) (mapBits m) else s
      s.modCluster (cl % 1024) (fun c =>
        if device then { c with ptd := mapBits m, ptdAll := m == BitVec.allOnes 1024 }
        else { c with ptc := mapBits m, ptcAll := m == BitVec.allOnes 1024 }))

/-- R416: entry n of an allotment register. -/
def allotPut (r : Word) (n v : Nat) : Word :=
  w64 (r.toNat - bitsAt r.toNat (8 * n) 8 * 2 ^ (8 * n) + (v % 256 - bitsAt v 6 1 * 64) * 2 ^ (8 * n))

/-- ALLOTMENT_WRITE (R416): an entry of HBA of a die, while no cluster of the die has EN = 1 in the instance, or of CQA
of a field, while the queue is empty. -/
def execAllotmentWrite (barrier : Bool) (i n v : Nat) (s : State) : Host.Outcome State Fault Refusal :=
  let k := n % 4
  done (if barrier then
      if s.clusters.any (fun p => dieOf p.1 == i % 4 && hbEn (vrd p.2.hbc k)) then s
      else { s with hba := s.hba.put (i % 4) (allotPut (s.hbaOf (i % 4)) k v) }
    else if !(vrd (s.field (i % 8)).collq k).isEmpty then s
    else s.modField (i % 8) (fun f => { f with cqa := allotPut f.cqa k v }))

/-- QUOTA_WRITE (R418): the way mask of a tenant in the slice of a cluster, bits [15:1]. -/
def execQuotaWrite (cl tn : Nat) (v : Word) (s : State) : Host.Outcome State Fault Refusal :=
  let now := s.cycle
  done (s.modCluster (cl % 1024) (fun c => { c with
    quota := c.quota.put (tn % 64) (v.setWidth 16 &&& 0xFFFE#16), quotaOld := some (now, c.quotasAt now) }))

/-- UMON_CLEAR (R417): a write of 1 to CLR clears a monitor's 16 counters. -/
def execUmonClear (cl tn : Nat) (s : State) : Host.Outcome State Fault Refusal :=
  done (s.modCluster (cl % 1024) (fun c => { c with umon := c.umon.put (tn % 64) (List.replicate 16 0) }))

/-! ### Hosts (R423, R424) -/

/-- R423: the aperture of an endpoint. -/
def State.aperture (s : State) (ep ap : Nat) : Aperture := s.apertures.get {} (16 * ep + ap)

/-- R423: an aperture entry as it is written: its read-only bits stay 0. -/
def Aperture.masked (a : Aperture) : Aperture := { hi := a.hi &&& ~~~0xFFF#64, lo := a.lo &&& ~~~0x3FF0000000000#64 }

/-- R423, R424: a host access through its aperture: refused with an error completion, performed and acknowledged, or
waiting on a fault, as an engine's access waits. A write to memory elsewhere is acknowledged once its flits have been.
(Log: DEDUCED 56) -/
def State.hostAccess (s : State) (q : HostReq) : State :=
  let a := s.aperture q.ep q.ap
  let asid := bitsAt a.lo.toNat 50 11
  let ok := bitAt a.lo.toNat 63 && bitAt a.lo.toNat (if q.data.isSome then 62 else 61) &&
    decide (q.off < bitsAt a.lo.toNat 0 40 * 4096) && decide (q.off + q.len ≤ bitsAt a.lo.toNat 0 40 * 4096) && (s.ctxs.find? asid).isSome
  if !ok then s.hostReply q.ep 1 []
  else
    let va := (bitsAt a.hi.toNat 12 52 * 4096 + q.off) % 2 ^ 64
    let who : Issuer := ⟨hostSid, 0#8, asid, 0⟩
    let l := pagePieces va q.len
    match s.engErr 0 asid q.failedPage l [] with
    | some (4, _) => s.hostReply q.ep 1 []
    | _ => match s.engMap 0 who (Kind.ofCode (if q.data.isSome then 1 else 0)) l with
      | .wait p s => { s with hostWaits := s.hostWaits ++ [{ q with ctx := asid, waitPage := some p, failedPage := none }] }
      | .err _ _ s => s.hostReply q.ep 1 []
      | .ok l s =>
        match q.data with
        | some bs =>
          let n := s.nextPkt
          let s := s.engWrite asid l bs
          if s.nextPkt = n then s.hostReply q.ep 0 []
          else { s with hostWaits := s.hostWaits ++ [{ q with
            ctx := asid, waitPage := none, failedPage := none, pkts := (upTo (s.nextPkt - n)).map (n + ·) }] }
        | none => let r := s.engRead asid va l; r.2.hostReply q.ep 0 r.1

/-- R423: the host accesses whose faults have ended are tried again. -/
def State.hostRetry (s : State) : State :=
  let again (q : HostReq) : Bool := q.waitPage.isNone && q.pkts.isEmpty
  (s.hostWaits.filter again).foldl (fun s q => s.hostAccess q) { s with hostWaits := s.hostWaits.filter (fun q => !again q) }

/-- HOST_WRITE (R424). -/
def execHostWrite (ep ap off : Nat) (data : List Byte) (s : State) : Host.Outcome State Fault Refusal :=
  done (s.hostAccess { ep := ep % 1022, ap := ap % 16, off := off, data := some data, len := data.length })

/-- HOST_READ (R424). -/
def execHostRead (ep ap off len : Nat) (s : State) : Host.Outcome State Fault Refusal :=
  done (s.hostAccess { ep := ep % 1022, ap := ap % 16, off := off, data := none, len := len })

/-! ### Accesses forwarded from other devices, and access counters (R425 to R427) -/

/-- R426: a counter record counts a forwarded line. -/
def Access.forwarded (r : Access) (write : Bool) (dev : Nat) : Access :=
  if write then { r with rwr := min (r.rwr + 1) 65535, last := dev % 1024 }
  else { r with rrd := min (r.rrd + 1) 65535, last := dev % 1024 }

/-- The bytes of a line that a mask selects, at their machine addresses. -/
def maskedCells (line : Nat) (data : BitVec 512) (mask : BitVec 64) : List Host.Cell :=
  (cellsAt (line * 64) (leBytes data.toNat 64)).filter (fun c => mask.getLsbD (c.1 % 64))

/-- R425, R345: the owner serves an access to a line: kind 0 a load, 1 a store of masked bytes, 2 an atomic, 3 an
update; it answers with the line, or the old value. A read with an uncorrectable error counts at the root, for its context
is another device's. (Log: DESIGN CHOICE 67) -/
def State.forwarded (s : State) (dev kind sys op : Nat) (wide : Bool) (data : BitVec 512) (mask : BitVec 64) : State :=
  match (if sysReserved sys then none else s.machineOf sys) with
  | none => s.emit dev (leBytes 1 1)
  | some m =>
    let line := m / 64
    let s : State := { s with access := s.access.upd {} (recordOf line) (fun r => r.forwarded (kind != 0) dev) }
    let s := s.trace 8 0 (s.homeSlice line) (sys / 64)
    match kind with
    | 0 => let s := (s.mergeAll line).readLine line 0 m false true; s.emit dev (leBytes 0 1 ++ leBytes (s.lineData line).toNat 64)
    | 1 => (s.performWrite line (maskedCells line data mask) 0 none).emit dev (leBytes 0 1)
    | 2 =>
      let n := if wide then 8 else 4
      let q := s.amoHome op wide (m / n * n) (data.setWidth 64) (data.extractLsb' 64 64) 0 0 none []
      q.2.2.emit dev (leBytes 0 1 ++ leBytes q.1 8)
    | _ =>
      let s := (s.mergeAll line).readLine line 0 m false true
      let n := if wide then 8 else 4
      let a := m / n * n
      let v : Nat := if wide then updApply op true (Memory.nat s.mem a 8) data.toNat
        else updApply op false (Memory.nat s.mem a 4) (data.toNat % 2 ^ 32) % 2 ^ 32
      (s.performWrite line (cellsAt a (leBytes v n)) 0 none).emit dev (leBytes 0 1)

/-- FORWARDED_ACCESS (R425). -/
def execForwardedAccess (dev kind sys op : Nat) (wide : Bool) (data : BitVec 512) (mask : BitVec 64) (s : State) :
    Host.Outcome State Fault Refusal :=
  done (s.forwarded (dev % 1024) kind (sys % 2 ^ 56) op wide data mask)

/-- R426: the doubleword of a counter record; how many of the accesses that reached the homes HBM served is open.
(Log: DESIGN CHOICE 4) -/
def State.recordWord (s : State) (n : Nat) : Nat × State :=
  let r := s.access.get {} n
  let p := s.free
  (r.last + (r.sure + (Config.freeWord p.1).toNat % (r.loc - r.sure + 1)) * 2 ^ 16 + r.rwr * 2 ^ 32 + r.rrd * 2 ^ 48, p.2)

/-- R427: bytes of memory become 0 in one write of the base dies: every line there gets a new write time. -/
def State.zeroRange (s : State) (lo n : Nat) : State :=
  let inside (line : Nat) : Bool := decide (lo / 64 ≤ line) && decide (line < (lo + n) / 64)
  let s := s.home.foldl (fun (s : State) p => if inside p.1 then s.performWrite p.1 [] 0 none else s) s
  { s with mem := s.mem.filter (fun c => !(decide (lo ≤ c.1) && decide (c.1 < lo + n))) }

/-- R427: the eight base dies copy their records to the snapshot and clear them; then the sequence word goes up, a
release of scope `device`. -/
def State.snapshot (s : State) : State :=
  let at_ := Config.snapBase / 2 ^ 22 * 2 ^ 22 % 2 ^ 39
  let s := s.zeroRange at_ (2 ^ 21)
  let s := s.access.foldl (fun (s : State) p =>
    let r := s.recordWord p.1
    let a := at_ + 8 * p.1
    r.2.performWrite (a / 64) (cellsAt a (leBytes r.1 8)) 0 none) s
  let a := at_ + 2 ^ 21
  let cells := cellsAt a (leBytes (Memory.nat s.mem a 8 + 1) 8)
  let rels : List Rel := [{ upto := s.performed, scope := 4, cid := 0, ctx := 0 }]
  (({ s with access := [] } : State).performWrite (a / 64) cells 0 none).carry (a / 64) cells rels

/-- COUNTER_SNAPSHOT (R427). -/
def execCounterSnapshot (s : State) : Host.Outcome State Fault Refusal := done s.snapshot

end Sys2Proof.Machine
end

