-- ==== Sys2Proof/Machine/Debug.lean ====
section
/-! DEFINITION. The cluster debug module and the publication of counters (R428 to R435). -/

namespace Sys2Proof.Machine

/-! ### Halts (R430) -/

/-- R430: resume a core. -/
def State.resumeCore (s : State) (cid : Nat) : State := s.modCore cid (fun k => { k with halted := false })

/-- R430: a write of DMCTL: HLT sets bits and halts, RES resumes and clears them, and a resume wins over a halt. -/
def State.writeDmctl (s : State) (cl : Nat) (v : Word) : State :=
  let res := bitsAt v.toNat 8 8
  let s := s.modCluster cl (fun c => { c with
    dmctl := (v &&& 0x70000#64) ||| ((c.dmctl ||| v) &&& 0xFF#64 &&& ~~~(w64 res)) })
  (upTo 8).foldl (fun s i =>
    if bitAt res i then s.resumeCore (8 * cl + i) else if bitAt v.toNat i then s.haltCore (8 * cl + i) else s) s

/-- R431: a breakpoint or watch register of a cluster with a value. -/
def Cluster.writeWatch (c : Cluster) (off : Nat) (v : Word) : Cluster :=
  if 0x100 ≤ off ∧ off < 0x180 then
    let n := (off - 0x100) / 16
    { c with bp := vwr c.bp n (if off % 16 = 0 then { vrd c.bp n with lo := v, hi := v }
        else if off % 16 = 8 then { vrd c.bp n with ctl := v &&& 0xFFFE0000#64 } else vrd c.bp n) }
  else if 0x200 ≤ off ∧ off < 0x280 then
    let n := (off - 0x200) / 32
    let w := vrd c.wp n
    { c with wp := vwr c.wp n (match off % 32 with
        | 0 => { w with lo := v }
        | 8 => { w with hi := v }
        | 16 => { w with ctl := v &&& 0xFFFF8000#64 }
        | _ => w) }
  else c

/-- R429: a write of a counter register: 0 clears it; of the two at 0x340, CBX, which saturates (R279).
(Log: DEDUCED 46) -/
def State.clearDebugCounter (s : State) (cl off : Nat) : State :=
  if 0x300 ≤ off ∧ off < 0x340 then s.modCore (8 * cl + (off - 0x300) / 8) (fun k => { k with swl := 0 })
  else if off = 0x340 then s.modCluster cl (fun c => { c with cbx := 0#32 })
  else if off = 0x350 then s.modCluster cl (fun c => { c with cecc := 0 })
  else if 0x400 ≤ off ∧ off < 0x800 then
    s.modCore (8 * cl + (off - 0x400) / 128) (fun k => { k with da := vwr k.da ((off - 0x400) % 128 / 8) 0 })
  else s

/-- R429: root firmware writes a register of a cluster's debug module, by its offset. (Log: DEDUCED 46) -/
def State.writeDebug (s : State) (cl off : Nat) (v : Word) : State :=
  if off = 0 then s.writeDmctl cl v
  else if off < 0x300 then s.modCluster cl (fun c => c.writeWatch off v)
  else if v = 0#64 then s.clearDebugCounter cl off
  else s

/-! ### What the debug module reads (R224, R285, R399, R429) -/

/-- R429: DMSTAT. -/
def State.dmstat (s : State) (cl : Nat) : Nat :=
  (upTo 8).foldl (fun n i => n + b2n (s.core (8 * cl + i)).halted * 2 ^ i + b2n ((s.cluster cl).dmhits.contains i) * 2 ^ (8 + i)) 0

/-- R429, R393, R394: byte `off` of the window of a cluster's live slots: the frame and the extension of each in turn, of
2,048 bytes. (Log: DESIGN CHOICE 45) -/
def State.liveSlotByte (s : State) (cl off : Nat) : Byte :=
  let sid := 128 * cl + off / 2048
  ((s.thread sid).slotFrame ++ (s.thread sid).extension (s.slot sid).qo (s.slot sid).st.code).getD (off % 2048) 0#8

/-- R429: the doubleword that the debug module of a cluster reads at an offset; one that names no register reads as 0.
CRF and CBX share a doubleword. (Log: DEDUCED 46) -/
def State.debugRead (s : State) (cl off : Nat) : Word :=
  let c := s.cluster cl
  if off ≥ 0x10000 then w64 (leNat ((upTo 8).map (fun i => s.liveSlotByte cl (off - 0x10000 + i))))
  else if off ≥ 0x900 ∧ off < 0xB00 then s.parkWord cl ((off - 0x900) / 8)
  else if off ≥ 0x400 ∧ off < 0x800 then w64 (vrd (s.core (8 * cl + (off - 0x400) / 128)).da ((off - 0x400) % 128 / 8))
  else if off ≥ 0x300 ∧ off < 0x340 then w64 (s.core (8 * cl + (off - 0x300) / 8)).swl
  else if off ≥ 0x200 ∧ off < 0x280 then
    let w := vrd c.wp ((off - 0x200) / 32)
    match off % 32 with | 0 => w.lo | 8 => w.hi | 16 => w.ctl | _ => 0#64
  else if off ≥ 0x100 ∧ off < 0x180 then
    let w := vrd c.bp ((off - 0x100) / 16)
    match off % 16 with | 0 => w.lo | 8 => w.ctl | _ => 0#64
  else match off with
    | 0x000 => c.dmctl
    | 0x008 => w64 (s.dmstat cl)
    | 0x010 => c.trigSrc
    | 0x018 => w64 c.trigSkew
    | 0x340 => w64 (c.cbx.toNat + c.crf % 2 ^ 32 * 2 ^ 32)
    | 0x350 => w64 c.cecc
    | 0x800 => w64 (c.sqp s.cycle)
    | _ => 0#64

/-- HALT (R430): a write of DMCTL, whose HLT halts cores; at another offset, of the debug register there (R429). -/
def execHalt (cl off : Nat) (v : Word) (s : State) : Host.Outcome State Fault Refusal :=
  done (s.writeDebug (cl % 1024) off v)

/-- DEBUG_RESUME (R430): a write of RES. -/
def execDebugResume (cl mask : Nat) (s : State) : Host.Outcome State Fault Refusal :=
  let cl := cl % 1024
  done (s.writeDmctl cl (((s.cluster cl).dmctl &&& 0x70000#64) ||| w64 (mask % 256 * 256)))

/-! ### Cross triggers and breakpoints (R430 to R432) -/

/-- CROSS_TRIGGER (R430): the n-th owed job, where it is a trigger, reaches its cluster and halts it. -/
def execCrossTrigger (n : Nat) (s : State) : Host.Outcome State Fault Refusal :=
  match s.due[n]? with
  | some (.trigger a b since) => done (({ s with due := s.due.eraseIdx n } : State).triggerAt a b (s.cycle - since))
  | _ => done s

/-- R432: the lowest-numbered breakpoint that matches the current thread's next instruction. (Log: DEDUCED 46) -/
def State.breakpointAt (s : State) : Option Watch :=
  s.mine.bp.toList.find? (fun w => w.armed s.th.ctx && w.lo == s.th.pc)

/-- R431: the action of a control word. -/
def Watch.act (w : Watch) : Nat := bitsAt w.ctl.toNat 29 2

/-- R432: a breakpoint that matches takes its action. -/
def State.breakpointHit (s : State) (sid : Nat) : State :=
  let s1 : State := { s with cur := sid }
  match s1.breakpointAt with
  | none => s
  | some w => { s1.debugAct w.act s1.th.pc.toNat with cur := s.cur }

/-- BREAKPOINT_HIT (R432). -/
def execBreakpointHit (sid : Nat) (s : State) : Host.Outcome State Fault Refusal :=
  done (if (s.slot sid).st = .run ∧ (s.slot sid).occupied then s.breakpointHit sid else s)

/-- COUNTER_PUBLISH (R435). -/
def execCounterPublish (a : Nat) (s : State) : Host.Outcome State Fault Refusal :=
  done (if (s.ctxs.find? a).isSome then s.publish a else s)

end Sys2Proof.Machine
end

