-- ==== Sys2Proof/Machine/Float.lean ====
section
/-! DEFINITION. Scalar FP32 instructions, major 7 (R90 to R94). -/

namespace Sys2Proof.Machine

/-- R90: the FP32 operand in bits [31:0]. -/
def State.f32 (s : State) (r : BitVec 6) : Nat := (s.xr r).toNat % 2 ^ 32

/-- R91: the end of a scalar FP instruction: the trap of a step, with its detail, or the result written. -/
def fpEnd (s : State) (d : BitVec 6) (o : FOut) (f : Nat → Word := w64) : Res :=
  match o.stop with
  | some (n, _, x) => .trap (stepCode n) (w64 x)
  | none => .next (s.setX d (f o.res))

/-- A binary FP32 instruction, rounding by st.RM. -/
def opF2 (op : FOp) (b a d : BitVec 6) (s : State) : State :=
  (scalarUse [a, b] [d]).run s (fun s => fpEnd s d (fpLane fp32 (fpEnv s.th.st 7) op [s.f32 a, s.f32 b]))

/-- A fused FP32 instruction: d is a source and the destination. -/
def opF3 (op : FOp) (b a d : BitVec 6) (s : State) : State :=
  (scalarUse [a, b, d] []).run s (fun s =>
    fpEnd s d (fpLane fp32 (fpEnv s.th.st 7) op [s.f32 a, s.f32 b, s.f32 d]))

/-- A bit operation on the signs (R92). -/
def opSign (f : Bool → Bool → Bool) (b a d : BitVec 6) (s : State) : State :=
  (scalarUse [a, b] [d]).run s (fun s =>
    let x := s.f32 a
    let y := s.f32 b
    .next (s.setX d (w64 (x % 2 ^ 31 + (if f (bitAt x 31) (bitAt y 31) then 2 ^ 31 else 0)))))

/-- A conversion of FP32 to an integer of the range lo to hi (R93). -/
def opToInt (lo hi : Int) (f : Nat → Word) (r : BitVec 3) (a d : BitVec 6) (s : State) : State :=
  (scalarUse [a] [d]).run s (fun s =>
    fpEnd s d (fpToInt fp32 (fpEnv s.th.st r.toNat) lo hi (s.f32 a)) f)

/-- A conversion of an integer to FP32 (R93). -/
def opFromInt (f : Word → Int) (r : BitVec 3) (a d : BitVec 6) (s : State) : State :=
  (scalarUse [a] [d]).run s (fun s =>
    .next (s.setX d (w64 (intToFp fp32 (modeOf s.th.st r.toNat) (f (s.xr a))))))

/-- R91 `fadd`. -/
def execFadd (b a d : BitVec 6) (s : State) : Host.Outcome State Fault Refusal :=
  done (opF2 .add b a d s)

/-- R91 `fsub`. -/
def execFsub (b a d : BitVec 6) (s : State) : Host.Outcome State Fault Refusal :=
  done (opF2 .sub b a d s)

/-- R91 `fmul`. -/
def execFmul (b a d : BitVec 6) (s : State) : Host.Outcome State Fault Refusal :=
  done (opF2 .mul b a d s)

/-- R91 `fdiv`. -/
def execFdiv (b a d : BitVec 6) (s : State) : Host.Outcome State Fault Refusal :=
  done (opF2 .div b a d s)

/-- R91 `fmin`. -/
def execFmin (b a d : BitVec 6) (s : State) : Host.Outcome State Fault Refusal :=
  done (opF2 .min b a d s)

/-- R91 `fmax`. -/
def execFmax (b a d : BitVec 6) (s : State) : Host.Outcome State Fault Refusal :=
  done (opF2 .max b a d s)

/-- R91 `fmadd`. -/
def execFmadd (b a d : BitVec 6) (s : State) : Host.Outcome State Fault Refusal :=
  done (opF3 .madd b a d s)

/-- R91 `fmsub`. -/
def execFmsub (b a d : BitVec 6) (s : State) : Host.Outcome State Fault Refusal :=
  done (opF3 .msub b a d s)

/-- R91 `fsqrt`. -/
def execFsqrt (r : BitVec 3) (a d : BitVec 6) (s : State) : Host.Outcome State Fault Refusal :=
  done ((scalarUse [a] [d]).run s (fun s =>
    fpEnd s d (fpLane fp32 (fpEnv s.th.st r.toNat) .sqrt [s.f32 a])))

/-- R92 `fsgnj`. -/
def execFsgnj (b a d : BitVec 6) (s : State) : Host.Outcome State Fault Refusal :=
  done (opSign (fun _ y => y) b a d s)

/-- R92 `fsgnjn`. -/
def execFsgnjn (b a d : BitVec 6) (s : State) : Host.Outcome State Fault Refusal :=
  done (opSign (fun _ y => !y) b a d s)

/-- R92 `fsgnjx`. -/
def execFsgnjx (b a d : BitVec 6) (s : State) : Host.Outcome State Fault Refusal :=
  done (opSign (fun x y => x != y) b a d s)

/-- R91 `feq`. -/
def execFeq (b a d : BitVec 6) (s : State) : Host.Outcome State Fault Refusal :=
  done (opF2 .eq b a d s)

/-- R91 `flt`. -/
def execFlt (b a d : BitVec 6) (s : State) : Host.Outcome State Fault Refusal :=
  done (opF2 .lt b a d s)

/-- R91 `fle`. -/
def execFle (b a d : BitVec 6) (s : State) : Host.Outcome State Fault Refusal :=
  done (opF2 .le b a d s)

/-- R94 `fclass`. -/
def execFclass (a d : BitVec 6) (s : State) : Host.Outcome State Fault Refusal :=
  done ((scalarUse [a] [d]).run s (fun s => .next (s.setX d (w64 (fclassMask (s.f32 a))))))

/-- R93 `ftoi`. -/
def execFtoi (r : BitVec 3) (a d : BitVec 6) (s : State) : Host.Outcome State Fault Refusal :=
  done (opToInt (-2 ^ 31) (2 ^ 31 - 1) (fun n => sext32 (w64 n)) r a d s)

/-- R93 `ftou`. -/
def execFtou (r : BitVec 3) (a d : BitVec 6) (s : State) : Host.Outcome State Fault Refusal :=
  done (opToInt 0 (2 ^ 32 - 1) w64 r a d s)

/-- R93 `ftol`. -/
def execFtol (r : BitVec 3) (a d : BitVec 6) (s : State) : Host.Outcome State Fault Refusal :=
  done (opToInt (-2 ^ 63) (2 ^ 63 - 1) w64 r a d s)

/-- R93 `ftoul`. -/
def execFtoul (r : BitVec 3) (a d : BitVec 6) (s : State) : Host.Outcome State Fault Refusal :=
  done (opToInt 0 (2 ^ 64 - 1) w64 r a d s)

/-- R93 `itof`. -/
def execItof (r : BitVec 3) (a d : BitVec 6) (s : State) : Host.Outcome State Fault Refusal :=
  done (opFromInt (fun x => (x.setWidth 32).toInt) r a d s)

/-- R93 `utof`. -/
def execUtof (r : BitVec 3) (a d : BitVec 6) (s : State) : Host.Outcome State Fault Refusal :=
  done (opFromInt (fun x => ((x.setWidth 32).toNat : Int)) r a d s)

/-- R93 `ltof`. -/
def execLtof (r : BitVec 3) (a d : BitVec 6) (s : State) : Host.Outcome State Fault Refusal :=
  done (opFromInt (fun x => x.toInt) r a d s)

/-- R93 `ultof`. -/
def execUltof (r : BitVec 3) (a d : BitVec 6) (s : State) : Host.Outcome State Fault Refusal :=
  done (opFromInt (fun x => (x.toNat : Int)) r a d s)

/-- R92 `ftobf`. -/
def execFtobf (r : BitVec 3) (a d : BitVec 6) (s : State) : Host.Outcome State Fault Refusal :=
  done ((scalarUse [a] [d]).run s (fun s =>
    fpEnd s d (fpToBf (fpEnv s.th.st r.toNat) (s.f32 a))))

/-- R92 `bftof`. -/
def execBftof (a d : BitVec 6) (s : State) : Host.Outcome State Fault Refusal :=
  done ((scalarUse [a] [d]).run s (fun s => .next (s.setX d (w64 (bfToFp (s.f32 a))))))

end Sys2Proof.Machine
end

