-- ==== Sys2Proof/Machine/Platform.lean ====
section
/-! DEFINITION. Power modes, the orderly save, the self-test after transport, secure boot, and attestation (R440 to
R449). -/

namespace Sys2Proof.Machine

/-- Change the module. -/
def State.modModl (s : State) (f : Module → Module) : State := { s with modl := f s.modl }

/-! ### PWRS (R441) -/

/-- R441: MODE as PWRS gives it. -/
def PMode.code : PMode → Nat
  | .normal => 0
  | .slow => 1
  | .save => 2
  | .held => 3
  | .off => 0

/-- R441: the power state register as it is read. -/
def Module.pwrs (m : Module) : Word :=
  w64 (m.ovc * 2 ^ 32 + m.vin % 2 ^ 16 * 2 ^ 16 + m.drc * 2 ^ 8 + m.mode.code)

/-- R441: a write of PWRS: any bit set in OVC or DRC clears that count. -/
def Module.writePwrs (m : Module) (v : Word) : Module :=
  { m with
    ovc := if bitsAt v.toNat 32 8 = 0 then m.ovc else 0, drc := if bitsAt v.toNat 8 8 = 0 then m.drc else 0 }

/-- PWRS_WRITE (R441). -/
def execPwrsWrite (v : Word) (s : State) : Host.Outcome State Fault Refusal := done (s.modModl (·.writePwrs v))

/-! ### Power modes (R442, R443); voltages in units of 10 mV -/

/-- R441: VIN is live: an event that brings a voltage is a reading of it, whatever else it does. -/
def State.senses (s : State) (vin : Nat) : State := s.modModl (fun m => { m with vin := vin })

/-- SLOW_ENTRY (R442): VIN below 46.0 V. -/
def execSlowEntry (vin : Nat) (s : State) : Host.Outcome State Fault Refusal :=
  let s := s.senses vin
  done (if s.modl.mode = .normal ∧ vin < 4600 then
      s.modModl (fun m => { m with mode := .slow, drc := min (m.drc + 1) 255 })
    else s)

/-- NORMAL_RETURN (R442): VIN between 48.0 V and 60.0 V for 1 ms without a break. -/
def execNormalReturn (vin : Nat) (s : State) : Host.Outcome State Fault Refusal :=
  let s := s.senses vin
  done (if s.modl.mode = .slow ∧ 4800 ≤ vin ∧ vin ≤ 6000 then s.modModl (fun m => { m with mode := .normal }) else s)

/-- R385, R444: the children of the root that a run or a thaw, waiting in its queue or in progress there, makes active. -/
def State.starting (s : State) : List Nat :=
  (uniq ((s.ctx 0).engine.filterMap (fun e => match e.op with
    | .run h => s.ofHandle 0 h
    | .thaw t => if (s.ctx t).depth = 1 then some t else none
    | _ => none))).filter (· != 0)

/-- R444, R445: the orderly save begins: a freeze of every tenant enters the root's context-engine queue, that of one which
is about to run among them; a self-test in progress stops. -/
def State.beginSave (s : State) : State :=
  let s := (s.modModl (fun m => { m with mode := .save, testStep := 0 })).freezeBelow 0
  (s.starting.filter (fun t => !(s.ctx t).act)).foldl (fun s t => s.pushCtx 0 (.freeze t)) s

/-- SAVE_ENTRY (R442): VIN below 40.0 V, or below 46.0 V for 20 ms without a break. -/
def execSaveEntry (vin : Nat) (long : Bool) (s : State) : Host.Outcome State Fault Refusal :=
  let s := s.senses vin
  done (if s.modl.mode = .slow ∧ (vin < 4000 ∨ (vin < 4600 ∧ long)) then s.beginSave else s)

/-- OVERVOLTAGE_DISCONNECT (R442, R443): VIN above 60.0 V for 100 µs without a break, or 66.0 V at any instant.
(Log: DEDUCED 48) -/
def execOvervoltageDisconnect (vin : Nat) (long : Bool) (s : State) : Host.Outcome State Fault Refusal :=
  let s := s.senses vin
  done (if s.modl.disconnected ∨ s.modl.mode = .off ∨ !(decide (6600 ≤ vin) || (decide (6000 < vin) && long)) then s
    else (s.modModl (fun m => { m with disconnected := true, ovc := min (m.ovc + 1) 255 })).beginSave)

/-- R444: every tenant is inactive and the root's queue has no run, thaw or freeze left. (Log: DEDUCED 49) -/
def State.saved (s : State) : Bool :=
  !s.ctxs.any (fun p => p.2.depth == 1 && p.2.act) && s.starting.isEmpty &&
    !(s.ctx 0).engine.any (fun e => match e.op with | .freeze _ => true | _ => false)

/-- R444: what a unit owes that outlasts the cores and the caches: a message, a request or a launch on its way, a store
that is performed, and a step of a context, a queue or a log. (Log: DEDUCED 49) -/
def Job.lasts (j : Job) : Bool :=
  match j with
  | .request _ | .launch _ | .launchReply .. | .arrive .. | .reply .. | .parkWake .. | .closeBatch _ | .replayHeld _
  | .kick .. | .bell .. | .collStep .. | .ctxStep _ | .hostRetry | .errorLog .. => true
  | _ => false

/-- R442: the compute dies lose power: threads that no save region holds are gone, with what the cores and the caches of
the clusters held. (Log: DEDUCED 49) -/
def State.losePower (s : State) : State :=
  let s := s.emptySlots ((s.slots.filter (fun p => p.2.occupied)).map (·.1))
  { s with
    cores := [], due := s.due.filter (·.lasts), clusters := s.clusters.map (fun (p : Nat × Cluster) =>
      (p.1, { p.2.cleared with tlb := [], l2i := [], shadow := [] })),
    launches := s.launches.filter (fun p => p.2.ctx != 0) }

/-- SAVE_COMPLETE (R442). (Log: DEDUCED 49) -/
def execSaveComplete (s : State) : Host.Outcome State Fault Refusal :=
  done (if s.modl.mode = .save ∧ s.saved then s.losePower.modModl (fun m => { m with mode := .held }) else s)

/-! ### Attestation (R448, R449) -/

/-- The bytes of a 512-bit signature: r then s, each big-endian. -/
def sigBytes (v : BitVec 512) : List Byte := (leBytes v.toNat 64).reverse

/-- R449: bytes 0x00 to 0x4F of the report. -/
def State.reportBody (s : State) (nonce : List Byte) : List Byte :=
  nonce ++ leBytes s.modl.meas.toNat 32 ++ leBytes s.modl.boots 8 ++ leBytes s.devId 2 ++
    leBytes (b2n s.modl.testPassed + b2n s.modl.transport * 2) 2 ++ leBytes 0 4

/-- R449: the report to an endpoint. (Log: DESIGN CHOICE 6) -/
def State.attest (s : State) (ep : Nat) (nonce : List Byte) : State :=
  let p := s.free
  let b := s.reportBody nonce
  p.2.emit (1024 + ep) (b ++ sigBytes (Config.sign p.1 (Config.digest b)))

/-- ATTESTATION_REQUEST (R449): answered at once, or after SAVE and HELD. -/
def execAttestationRequest (ep : Nat) (nonce : BitVec 256) (s : State) : Host.Outcome State Fault Refusal :=
  let n := leBytes nonce.toNat 32
  done (match s.modl.mode with
    | .normal | .slow => s.attest (ep % 1022) n
    | .save | .held => s.modModl (fun m => { m with waiting := m.waiting ++ [(ep % 1022, n)] })
    | .off => s)

/-- R449: MODE is NORMAL again: the requests that waited are answered. -/
def State.attestWaiting (s : State) : State :=
  s.modl.waiting.foldl (fun (s : State) e => s.attest e.1 e.2) (s.modModl (fun m => { m with waiting := [] }))

/-! ### Return of power (R442, R444) -/

/-- R445, R228: failing clusters leave HRT, each entry of theirs going to a working cluster. -/
def hrtWithout (bad : List Nat) (hrt : Tab Nat) : Tab Nat :=
  let good := ((upTo 1024).find? (fun c => !bad.contains c)).getD 0
  (upTo 1024).foldl (fun (t : Tab Nat) i => if bad.contains (t.get i i) then t.put i good else t) hrt

/-- R445: failing ports are left down. -/
def portsWithout (bad : List Nat) (ports : Tab Port) : Tab Port :=
  bad.foldl (fun (t : Tab Port) n => t.upd {} n (fun p => { p with down := true })) ports

/-- HELD_RESTORE (R442, R444): VIN between 48.0 V and 58.0 V for 1 ms: the tenants are restored and thawed, and waiting
attestation requests answered. -/
def execHeldRestore (vin : Nat) (s : State) : Host.Outcome State Fault Refusal :=
  let s := s.senses vin
  done (if s.modl.mode = .held ∧ 4800 ≤ vin ∧ vin ≤ 5800 then
      (s.modModl (fun m => { m with mode := .normal, disconnected := false })).attestWaiting.thawBelow 0
    else s)

/-- HOLDUP_SPENT (R442): off; what HBM held is lost, and nothing but the secure element keeps its state, with what the
outside does to the module still to come. (Log: DEDUCED 49) -/
def execHoldupSpent (s : State) : Host.Outcome State Fault Refusal :=
  done (if s.modl.mode = .held then
      { State.reset with
        freeCtr := s.freeCtr, agenda := s.agenda, hrt := hrtWithout s.modl.bad State.reset.hrt,
        ports := portsWithout s.modl.badPorts State.reset.ports,
        modl := { mode := .off, ovc := 0, vin := s.modl.vin, transport := s.modl.transport,
                  testPassed := s.modl.testPassed, bad := s.modl.bad, badPorts := s.modl.badPorts, boots := s.modl.boots,
                  minVersion := s.modl.minVersion, revoked := s.modl.revoked, waiting := s.modl.waiting } }
    else s)

/-! ### Transport and self-test (R445) -/

/-- TRANSPORT_EVENT (R445): while the module is unpowered, an acceleration above 80 g, or above 40 g for longer than
6 ms. -/
def execTransportEvent (g ms : Nat) (s : State) : Host.Outcome State Fault Refusal :=
  done (if s.modl.mode = .off ∧ (80 < g ∨ (40 < g ∧ 6 < ms)) then s.modModl (fun m => { m with transport := true }) else s)

/-- R445: the next step of the extended self-test, with the clusters and ports that fail it. (Log: DESIGN CHOICE 54) -/
def State.selfTest (s : State) (clusters ports : List Nat) : State :=
  if s.modl.testStep = 0 ∨ s.ctxs.any (fun p => p.2.depth == 1 && decide (p.1 < 4096)) then s
  else
    let bad := uniq (clusters.map (· % 1024) ++ s.modl.bad)
    let badPorts := uniq (ports.map (· % 18) ++ s.modl.badPorts)
    let s : State := { s with
      hrt := if clusters.isEmpty then s.hrt else hrtWithout bad s.hrt, ports := portsWithout badPorts s.ports }
    let failed := s.modl.testFailed || !clusters.isEmpty || !ports.isEmpty
    s.modModl (fun m =>
      if m.testStep < 4 then { m with testStep := m.testStep + 1, testFailed := failed, bad := bad, badPorts := badPorts }
      else { m with
        testStep := 0, testFailed := failed, testPassed := !failed, transport := false, bad := bad, badPorts := badPorts })

/-- EXTENDED_SELF_TEST (R445). (Log: DESIGN CHOICE 54) -/
def execExtendedSelfTest (clusters ports : List Nat) (s : State) : Host.Outcome State Fault Refusal :=
  done (s.selfTest clusters ports)

/-! ### Secure boot (R446, R447) -/

/-- POWER_UP (R447, R444): the boot ROMs start with the image of kind 1, and a logged transport event starts the
self-test. -/
def execPowerUp (vin : Nat) (s : State) : Host.Outcome State Fault Refusal :=
  let s := s.senses vin
  done (if s.modl.mode = .off then
      (s.modModl (fun m => { m with
        mode := .normal, boots := m.boots + 1, meas := 0#256, bootKind := 0, recovery := false,
        testStep := b2n m.transport, testFailed := false })).attestWaiting
    else s)

/-- R446: a little-endian field of an image header. -/
def imgNat (b : List Byte) (off n : Nat) : Nat := leNat ((b.drop off).take n)

/-- R446, R447: the conditions under which an image of a kind is accepted. (Log: DESIGN CHOICE 6) -/
def Module.accepts (m : Module) (kind : Nat) (b : List Byte) : Bool :=
  let body := (b.drop 0x80).take (imgNat b 0x10 8)
  decide (0x80 + imgNat b 0x10 8 ≤ b.length) && imgNat b 0 4 == 0x494D4C54 && imgNat b 4 2 == kind &&
    decide (imgNat b 6 2 ≤ 3) && !m.revoked.contains (imgNat b 6 2) && imgNat b 0x0C 4 == 0 && imgNat b 0x78 8 == 0 &&
    Config.verify (imgNat b 6 2) (Config.digest (b.take 0x38)) (BitVec.ofNat 512 (leNat ((b.drop 0x38).take 64).reverse)) &&
    leNat ((b.drop 0x18).take 32) == (Config.digest body).toNat &&
    decide (vrd m.minVersion (kind - 1) ≤ imgNat b 8 4)

/-- R447: what a configuration image raises and revokes. -/
def Module.configure (m : Module) (c : ImageConfig) : Module :=
  { m with
    minVersion := c.minVersions.foldl (fun v e => vwr v e.1 (max (vrd v e.1) e.2)) m.minVersion,
    revoked := uniq (c.revoked ++ m.revoked) }

/-- R446: what the settings of a configuration image make of the tables that root firmware writes.
(Log: DESIGN CHOICE 53) -/
def State.configure (s : State) (c : ImageConfig) : State :=
  { (s.modModl (fun m => m.configure c)) with
    hrt := hrtWithout s.modl.bad (c.hrt.foldl (fun (t : Tab Nat) e => t.put (e.1 % 1024) (e.2 % 1024)) s.hrt),
    apertures := c.apertures.foldl (fun (t : Tab Aperture) e => t.put e.1 (Aperture.masked { hi := e.2.1, lo := e.2.2 })) s.apertures,
    fields := c.traceMasks.foldl (fun (t : Tab Field) e => t.upd {} (e.1 % 8) (fun f => { f with traceMask := e.2 }))
      s.fields }

/-- R367, R371, R373, R382, R447: the root context: it holds the device, every hardware queue slot and every feature, and its
daybook has the default length. (Log: DESIGN CHOICE 3) -/
def rootCtx : Ctx :=
  { phase := .running, act := true, feat := 0x1FF#9, slots := 131072, frames := 65535, children := 2047,
    qslots := upTo 255, dbb := 10#64 }

/-- R447: root firmware, once every image is loaded, creates the root context, with a secret of its own (R168).
(Log: DESIGN CHOICE 5; DEDUCED 47) -/
def State.createRoot (s : State) : State :=
  let p := s.free
  { p.2 with ctxs := p.2.ctxs.put 0 { rootCtx with secretNo := p.1 } }

/-- R447, R448: an accepted image. (Log: DEDUCED 47) -/
def State.acceptImage (s : State) (b : List Byte) (c : ImageConfig) : State :=
  let kind := s.modl.bootKind + 1
  let s := s.modModl (fun m => { m with
    bootKind := kind, recovery := false,
    meas := Config.digest (leBytes m.meas.toNat 32 ++ leBytes (Config.digest b).toNat 32) })
  if kind = 4 then (s.configure c).createRoot else s

/-- R447: the boot ROM tries the two slots of the next kind, or in recovery the image that comes in on port 0.
(Log: DESIGN CHOICE 10) -/
def State.loadImage (s : State) (port : Option Nat) (first second : List Byte) (c : ImageConfig) : State :=
  let m := s.modl
  if m.bootKind ≥ 4 ∨ !(m.mode = .normal ∨ m.mode = .slow) then s
  else match port with
    | some p =>
      if m.recovery ∧ p = 0 ∧ m.accepts (m.bootKind + 1) first then s.acceptImage first c else s
    | none =>
      if m.recovery then s
      else if m.accepts (m.bootKind + 1) first then s.acceptImage first c
      else if m.accepts (m.bootKind + 1) second then s.acceptImage second c
      else s.modModl (fun m => { m with recovery := true })

/-- IMAGE_LOAD (R447). -/
def execImageLoad (port : Option Nat) (first second : List Byte) (c : ImageConfig) (s : State) :
    Host.Outcome State Fault Refusal :=
  done (s.loadImage port first second c)

end Sys2Proof.Machine
end

