-- ==== Sys2Proof/Machine/Vector.lean ====
section
/-! DEFINITION. Vector, permute, reduction, vector memory, stream configuration, special-function and conversion
instructions: majors 16 to 23 (R66, R67, R179 to R200). -/

namespace Sys2Proof.Machine

/-! ### Late faults (R183, R184) -/

/-- R183: the late fault of lanes of width w: the lowest step whose trap stops an enabled lane, its lowest lane, and for
a subnormal operand its number (R184) and bits. -/
def laneFault (w : Nat) (en : BitVec 16) (opnd : Nat → Nat → Nat) (outs : List FOut) : Option (Nat × Word) :=
  let l := (outs.zipIdx).filterMap (fun p =>
    if en.getLsbD (p.2 * w / 32) then p.1.stop.map (fun t => (t.1, p.2, t.2.1, t.2.2)) else none)
  match (upTo 5).findSome? (fun k => l.find? (fun t => t.1 == k)) with
  | none => none
  | some (k, i, o, v) =>
    some (stepCode k, w64 ((if k = 1 then opnd i o * 2 ^ 38 + v % 2 ^ 32 else 0) + i * 2 ^ 32))

/-- The result of FP lanes of width w. -/
def lanesOut (w : Nat) (en : BitVec 16) (opnd : Nat → Nat → Nat) (outs : List FOut) : VOut :=
  { fault := laneFault w en opnd outs, w := w, lanes := outs.map (·.res) }

/-- The 32-bit lanes of the sources at a position. -/
def VIn.at (i : VIn) (j : Nat) : List Nat := i.src.map (fun v => lane 32 v j)

/-- R192: a lanewise FP operation; `last` is the operand number of a third source (2 vd, 3 op4). -/
def fpVec (op : FOp) (last : Nat) (i : VIn) : VOut :=
  lanesOut 32 i.en (fun _ o => if o = 2 then last else o) ((upTo 16).map (fun j => fpLane fp32 i.env op (i.at j)))

/-- A mask from a test of each position. -/
def maskOf (p : Nat → Bool) : BitVec 16 :=
  BitVec.ofNat 16 ((upTo 16).foldl (fun n j => n + (if p j then 2 ^ j else 0)) 0)

/-- R192: an FP comparison. -/
def fpCmp (op : FOp) (i : VIn) : VOut :=
  let outs := (upTo 16).map (fun j => fpLane fp32 i.env op (i.at j))
  { fault := laneFault 32 i.en (fun _ o => o) outs, mask := maskOf (fun j => (outs.getD j ⟨0, none⟩).res == 1) }

/-- A lanewise operation without exceptions on lanes of width w. -/
def mapLanes (w : Nat) (f : List Nat → Nat) (i : VIn) : VOut :=
  { w := w, lanes := (upTo (512 / w)).map (fun j => f (i.src.map (fun v => lane w v j))) }

/-- A lanewise operation of two sources. -/
def map2 (w : Nat) (f : Nat → Nat → Nat) : VIn → VOut :=
  mapLanes w (fun l => match l with | [a, b] => f a b % 2 ^ w | _ => 0)

/-- A comparison of two sources. -/
def cmp2 (f : Nat → Nat → Bool) (i : VIn) : VOut :=
  { mask := maskOf (fun j => match i.at j with | [a, b] => f a b | _ => false) }

/-- R193: the lane width that W selects. -/
def laneWidth (w : BitVec 2) : Nat := 32 / 2 ^ w.toNat

/-- R193: an integer operation of two lanes of width w. -/
inductive VIop where
  | add | sub | mul | sll | srl | sra | min | max | minu | maxu
deriving DecidableEq, Repr

/-- R193: the result of a lane. -/
def VIop.lane (op : VIop) (w a b : Nat) : Nat :=
  match op with
  | .add => a + b
  | .sub => a + 2 ^ w - b
  | .mul => a * b
  | .sll => a * 2 ^ (b % w)
  | .srl => a / 2 ^ (b % w)
  | .sra => ofSval w (sval w a / 2 ^ (b % w))
  | .min => if sval w a ≤ sval w b then a else b
  | .max => if sval w b ≤ sval w a then a else b
  | .minu => if a ≤ b then a else b
  | .maxu => if b ≤ a then a else b

/-! ### Reductions (R118, R194) -/

/-- A value in a reduction tree: its bits, the lowest lane it covers, and the steps at which combinations stopped with
their lanes. -/
structure RedV where
  v : Nat
  lane : Nat
  stops : List (Nat × Nat)

/-- R118, R194: one combination of an FP reduction: rounded sum, `fmax` or `fmin` of two values already read. -/
def redFp (f : Fmt) (op : FOp) (env : FpEnv) (a b : RedV) : RedV :=
  let o : FOut := match op with
    | .add =>
      let vs := [f.decode a.v, f.decode b.v]
      if vs.any (fun x => x == .nan true) || invAdd vs then ⟨f.qnan, if env.fve then some (2, 0, 0) else none⟩
      else (exAdd f env.mode vs).finish f env
    | op => fpLane f { env with dnm := true } op [a.v, b.v]
  { v := o.res, lane := min a.lane b.lane,
    stops := a.stops ++ b.stops ++ (match o.stop with | some t => [(t.1, min a.lane b.lane)] | none => []) }

/-- R194: an FP reduction of lanes of width w with 2^k lanes; `empty` is the result when all are absent. A signalling NaN
that no combination meets passes unchanged, without a fault. (Log: DESIGN CHOICE 85) -/
def reduceFp (f : Fmt) (w k : Nat) (op : FOp) (empty : Nat) (i : VIn) : VOut :=
  let v := i.src.headD 0#512
  let rd (j : Nat) : Nat := lane w v j
  let leaf (j : Nat) : Option RedV :=
    if !i.en.getLsbD (j * w / 32) then none
    else
      let x := rd j
      if f.isSub x then some ⟨f.flush x, j, if i.env.dnm then [] else [(1, j)]⟩ else some ⟨x, j, []⟩
  match tree (redFp f op i.env) k ((upTo (512 / w)).map leaf) with
  | none => { val := w64 empty }
  | some r =>
    let stops := r.stops ++ (if i.env.dnm then [] else
      ((upTo (512 / w)).filter (fun j => i.en.getLsbD (j * w / 32) && f.isSub (rd j))).map (fun j => (1, j)))
    { val := w64 r.v,
      fault := match (upTo 5).findSome? (fun n =>
          let ls := (stops.filter (fun t => t.1 == n)).map (·.2)
          match ls with | [] => none | l :: r => some (n, r.foldl min l)) with
        | none => none
        | some (n, l) => some (stepCode n, w64 (l * 2 ^ 32 + (if n = 1 then rd l else 0))) }

/-- R194: an integer reduction. -/
def reduceInt (w k : Nat) (op : Nat → Nat → Nat) (empty : Nat) (i : VIn) : VOut :=
  let v := i.src.headD 0#512
  let l := (upTo (512 / w)).map (fun j => if i.en.getLsbD (j * w / 32) then some (lane w v j) else none)
  { val := BitVec.ofInt 64 (sval w ((tree (fun a b => op a b % 2 ^ w) k l).getD empty)) }

/-! ### Special functions (R197, R198) -/

/-- R91, R183, R198: a special function of a lane; `f` gives the result and the step 3 or 4 that the lane meets. -/
def sfuLane (env : FpEnv) (ops : List Nat) (inv : List FV → Bool) (f : List FV → Nat × Nat) : FOut :=
  match (if env.dnm then none else firstSub fp32 ops 0) with
  | some (i, a) => ⟨0, some (1, i, a)⟩
  | none =>
    let vs := ops.map (fun a => fp32.decode (if fp32.isSub a then fp32.flush a else a))
    if vs.any (fun x => x == .nan true) || inv vs then ⟨fp32.qnan, if env.fve then some (2, 0, 0) else none⟩
    else
      let r := f vs
      ⟨r.1, if (r.2 = 3 && env.fze) || (r.2 = 4 && env.foe) then some (r.2, 0, 0) else none⟩

/-- A value below zero, for which a root and a logarithm are invalid. -/
def belowZero (l : List FV) : Bool :=
  match l with
  | [.inf n] => n
  | [.fin n m _] => n && m != 0
  | _ => false

/-- R198 `vrcp.a`. -/
def fRcp (l : List FV) : Nat × Nat :=
  match l with
  | [.inf n] => (fp32.sgn n, 0)
  | [.fin n m e] => if m = 0 then (fp32.sgn n + fp32.infBits, 3) else ((rcpApprox n m e).2, 0)
  | _ => (fp32.qnan, 0)

/-- R198 `vrsq.a`. -/
def fRsq (l : List FV) : Nat × Nat :=
  match l with
  | [.inf _] => (0, 0)
  | [.fin n m e] => if m = 0 then (fp32.sgn n + fp32.infBits, 3) else ((rsqApprox m e).2, 0)
  | _ => (fp32.qnan, 0)

/-- R198 `vexp2.a`. -/
def fExp2 (l : List FV) : Nat × Nat :=
  match l with
  | [.inf n] => (if n then 0 else fp32.infBits, 0)
  | [.fin n m e] => let r := exp2Approx n m e; (r.2, if r.1 then 4 else 0)
  | _ => (fp32.qnan, 0)

/-- R198 `vlog2.a`. -/
def fLog2 (l : List FV) : Nat × Nat :=
  match l with
  | [.inf _] => (fp32.infBits, 0)
  | [.fin _ m e] => if m = 0 then (fp32.sgn true + fp32.infBits, 3) else (log2Approx m e, 0)
  | _ => (fp32.qnan, 0)

/-- The exact sum of two finite values. -/
def FV.addX (a b : FV) : FV :=
  match a, b with
  | .fin n1 m1 e1, .fin n2 m2 e2 =>
    let p := common n1 m1 e1 n2 m2 e2
    .fin (p.1 + p.2 < 0) (p.1 + p.2).natAbs (min e1 e2)
  | _, _ => .nan false

/-- R198: the operand y unchanged, where it is ±0 or ±∞. -/
def keepY (y : FV) : Bool := match y with | .inf _ => true | .fin _ m _ => m == 0 | .nan _ => false

/-- The bits and the overflow step of an exact value rounded by the mode. -/
def Ex.steps (env : FpEnv) (x : Ex) : Nat × Nat :=
  match x with
  | .num n m e st => let p := fp32.round env.mode n m e st; (p.1, if p.2 then 4 else 0)
  | .bits b => (b, 0)
  | .divZero n => (fp32.sgn n + fp32.infBits, 3)

/-- R197, R198 `vrcp.s`: y + y·(1 − x·y), rounded once. -/
def fRcpS (env : FpEnv) (l : List FV) : Nat × Nat :=
  match l with
  | [.nan _, _] => (fp32.qnan, 0)
  | [_, .nan _] => (fp32.qnan, 0)
  | [x, y] =>
    if keepY y then (y.into fp32 .rne, 0)
    else match x with
      | .inf n => (fp32.sgn (!n) + fp32.infBits, 0)
      | x =>
        let t := (FV.fin false 1 0).addX (x.mul y).negate
        (exAdd fp32 env.mode [y, y.mul t]).steps env
  | _ => (fp32.qnan, 0)

/-- R197, R198 `vrsq.s`: y·(1.5 − 0.5·x·y·y), rounded once. An inner zero has the sign that the mode gives a sum.
(Log: DESIGN CHOICE 44) -/
def fRsqS (env : FpEnv) (l : List FV) : Nat × Nat :=
  match l with
  | [.nan _, _] => (fp32.qnan, 0)
  | [_, .nan _] => (fp32.qnan, 0)
  | [x, y] =>
    if keepY y then (y.into fp32 .rne, 0)
    else match x with
      | .inf n => (fp32.sgn (y.neg != !n) + fp32.infBits, 0)
      | x =>
        let t := (FV.fin false 3 (-1)).addX (((x.mul y).mul y).scale (-1)).negate
        let t := match t with | .fin n m e => if m = 0 then .fin (env.mode == .rdn) 0 e else .fin n m e | z => z
        ((y.mul t).toEx fp32).steps env
  | _ => (fp32.qnan, 0)

/-- A special function over the lanes. -/
def sfuVec (inv : List FV → Bool) (f : FpEnv → List FV → Nat × Nat) (i : VIn) : VOut :=
  lanesOut 32 i.en (fun _ o => o) ((upTo 16).map (fun j => sfuLane i.env (i.at j) inv (f i.env)))

/-! ### Conversions (R199, R200) -/

/-- A conversion of FP32 lanes. -/
def cvtVec (f : FpEnv → Nat → FOut) (i : VIn) : VOut :=
  lanesOut 32 i.en (fun _ o => o) ((upTo 16).map (fun j =>
    let o := f i.env ((i.at j).headD 0)
    ⟨o.res % 2 ^ 32, o.stop⟩))

/-- R199 `vcvt.bf.f`: lanes 0 to 15 from a, 16 to 31 from b. A fault reports the lane of the destination, 0 to 31.
(Log: DESIGN CHOICE 75) -/
def cvtBf (i : VIn) : VOut :=
  lanesOut 16 i.en (fun k _ => k / 16) ((upTo 32).map (fun k =>
    fpToBf i.env (lane 32 (i.src.getD (k / 16) 0#512) (k % 16))))

/-- 16 lanes of width w from a quarter or half of the source, each converted to 32 bits. -/
def pickLanes (w base : Nat) (f : Nat → Nat) (i : VIn) : VOut :=
  { lanes := (upTo 16).map (fun j => f (lane w (i.src.headD 0#512) (16 * base + j))) }

/-- A 32-bit lane saturated to w bits, and whether it saturated. -/
def satLane (w v : Nat) : Nat × Bool :=
  let n := sval 32 v
  let hi : Int := 2 ^ (w - 1) - 1
  let lo : Int := -(2 ^ (w - 1))
  if n > hi then (ofSval w hi, true) else if n < lo then (ofSval w lo, true) else (ofSval w n, false)

/-- R199 `vpack.i16`. -/
def packVec (i : VIn) : VOut :=
  let l := (upTo 32).map (fun k => satLane 16 (lane 32 (i.src.getD (k / 16) 0#512) (k % 16)))
  { w := 16, lanes := l.map (·.1),
    qsat := ((l.zipIdx).filter (fun p => i.en.getLsbD (p.2 / 2) && p.1.2)).length }

/-- R183, R200: the steps that a source element of `vquant` meets: a subnormal number, and a signalling NaN. -/
def quantStep (env : FpEnv) (a : Nat) : FOut :=
  if !env.dnm && fp32.isSub a then ⟨0, some (1, 0, a)⟩
  else if fp32.decode a == .nan true && env.fve then ⟨0, some (2, 0, 0)⟩
  else ⟨0, none⟩

/-- R200 `vquant`. The block is of all 32 elements; where a stream disables positions, the steps are checked, and the
saturations counted, for the elements whose codes are written (R199). (Log: DESIGN CHOICE 75) -/
def quantVec (t : Nat) (i : VIn) : VOut :=
  let raw := (upTo 32).map (fun k => lane 32 (i.src.getD (k / 16) 0#512) (k % 16))
  let xs := raw.map (fun a => fp32.decode (if fp32.isSub a then fp32.flush a else a))
  let on := (upTo 32).map (fun k => i.en.getLsbD (k / 4))
  let q := quantiseBlock xs (112 + t)
  let sats := (xs.zip on).filter (fun p => p.2 && (encodeMk8 (p.1.scale (127 - q.1))).2)
  { w := 8, lanes := q.2.1 ++ [q.1] ++ List.replicate 31 0, qsat := sats.length,
    fault := laneFault 8 i.en (fun _ _ => 0) (raw.map (quantStep i.env)) }

/-! ### Vector memory (R195, R196) -/

/-- R195: the effective address or offset. -/
def vecAddr (x : Word) (o : BitVec 5) : Word := x + (o.signExtend 64) * 64#64

/-- The 64 bytes of a register, absent where their position is disabled. -/
def maskedBytes (en : BitVec 16) (v : VWord) : List (Option Byte) :=
  ((leBytes v.toNat 64).zipIdx).map (fun p => if en.getLsbD (p.2 / 4) then some p.1 else none)

/-- R195 `vld`, `vld.wk`. (Log: DEDUCED 16) -/
def vecLoad (strong : Bool) (o : BitVec 5) (i : VIn) (s : State) : Acc VOut :=
  (s.loadMem (vecAddr i.x o) 64 64 strong).bind (fun v s => .ok { lanes := lanes 32 (BitVec.ofNat 512 v) } s)

/-- R185: the store of a line of memory, where it can wait in the ring: its page is here, and no fault is pending on it. -/
def State.lateMem (s : State) (strong : Bool) (va : Word) (bs : List (Option Byte)) : Option LateStore :=
  if s.pending (va.toNat / 4096) || s.heldOn (va.toNat / 4096) then none
  else (s.xlate (coreOf s.cur) s.th.ctx va.toNat (Kind.ofCode 1)).bind (fun e =>
    (s.machineOf (e.sys va.toNat)).map (fun m => {
      dest := if strong then .strong else .weak, va := va.toNat, at_ := m, bytes := bs, quiet := s.th.broke }))

/-- R195 `vst`, `vst.wk`. A store with no enabled lane makes its checks only. (Log: DEDUCED 16) -/
def vecStore (strong : Bool) (o : BitVec 5) (i : VIn) (s : State) : Acc VOut :=
  let va := vecAddr i.x o
  let bs := maskedBytes i.en (i.src.headD 0#512)
  (if i.en = 0#16 then (s.resolve va 64 (Kind.ofCode 1)).bind (fun _ s => .ok () s)
   else if strong then s.storeStrong va bs 64 else s.storeWeak va bs 64).bind (fun _ s2 =>
     .ok { store := if i.en = 0#16 then none else s.lateMem strong va bs,
           away := i.en != 0#16 && (s.lateMem strong va bs).isNone } s2)

/-- R195: the checks of a scratchpad form of n bytes. -/
def spRange {α : Type} (o : Word) (n align : Nat) (f : Unit → Acc α) : Acc α :=
  if o.toNat + n > spLimit then .trap tADDRESS o
  else if o.toNat % align ≠ 0 then .trap tMISALIGNED o
  else f ()

/-- R195 `vld.sp`. -/
def vecLoadSp (o : BitVec 5) (i : VIn) (s : State) : Acc VOut :=
  let a := vecAddr i.x o
  spRange a 64 16 (fun _ =>
    let r := s.spLoad (clusterOf s.cur) a.toNat 64
    .ok { lanes := lanes 32 (BitVec.ofNat 512 r.1) } r.2)

/-- The bytes of the elements of es bytes, absent where their position is disabled. -/
def elemBytes (en : BitVec 16) (es : Nat) (l : List Nat) : List (Option Byte) :=
  (l.zipIdx).flatMap (fun p => (leBytes p.1 es).map (fun b => if en.getLsbD p.2 then some b else none))

/-- R195, R196, R185: a store of elements to the scratchpad of the thread's cluster. A store with no enabled lane makes its
checks only. -/
def State.storeElems (s : State) (i : VIn) (a es : Nat) (l : List Nat) (out : VOut) : Acc VOut :=
  if i.en = 0#16 then .ok out s
  else
    let cl := clusterOf s.cur
    let bs := elemBytes i.en es l
    .ok { out with store := some { dest := .sp, at_ := a, bytes := bs } } (s.spStore cl a (16 * es) (presentCells bs a))

/-- R195 `vst.sp`. -/
def vecStoreSp (o : BitVec 5) (i : VIn) (s : State) : Acc VOut :=
  let a := vecAddr i.x o
  spRange a 64 16 (fun _ =>
    s.storeElems i a.toNat 4 (lanes 32 (i.src.headD 0#512)) {})

/-- R196: the bytes of 16 lanes in a format. -/
def winBytes (fmt : Nat) : Nat :=
  match fmt with
  | 1 | 2 => 16
  | 3 => 32
  | _ => 64

/-- R196: the window of a transfer, and its format (0 raw). -/
def State.winAt (s : State) (a : Word) : Nat × Option Win :=
  if a.toNat ≥ spLimit then (0, none)
  else match windowOf (s.mine.winsAt s.cycle).toList a.toNat with
    | some w => (w.fmt, some w)
    | none => (0, none)

/-- R185, R222: the scale of the element at an offset, its byte read as any other byte of the scratchpad is; only an MK8
window has scales. -/
def State.readScale (s : State) (w : Option Win) (o : Nat) : Nat × State :=
  match w with
  | some w => if w.fmt = 1 then s.spLoad (clusterOf s.cur) (w.scaleAt o) 1 else (127, s)
  | none => (127, s)

/-- R196 `vld.win`. -/
def vecLoadWin (o : BitVec 5) (i : VIn) (s : State) : Acc VOut :=
  let a := vecAddr i.x o
  let w := s.winAt a
  let n := winBytes w.1
  spRange a n n (fun _ =>
    let r := s.spLoad (clusterOf s.cur) a.toNat n
    let es := n / 16
    let q := r.2.readScale w.2 a.toNat
    let sc := q.1
    let f (v : Nat) : Nat := match w.1 with
      | 1 => (scaledMk8 v sc).into fp32 .rne
      | 2 => ofSval 32 (sval 8 v)
      | 3 => bfToFp v
      | _ => v
    .ok { lanes := (upTo 16).map (fun j => f (bitsAt r.1 (8 * es * j) (8 * es))) } q.2)

/-- R196: an FP32 lane encoded for an MK8 window under the block's scale. -/
def mk8Store (env : FpEnv) (sc v : Nat) : FOut × Bool :=
  if !env.dnm && fp32.isSub v then (⟨0, some (1, 2, v)⟩, false)
  else if sc = 255 then (⟨0x80, none⟩, false)
  else
    let r := encodeMk8 ((fp32.decode (if fp32.isSub v then fp32.flush v else v)).scale (127 - sc))
    (⟨r.1, none⟩, r.2)

/-- R196 `vst.win`; its traps are precise (R185), and a subnormal operand reports its bits (R91). (Log: DEDUCED 42) -/
def vecStoreWin (o : BitVec 5) (i : VIn) (s : State) : Acc VOut :=
  let a := vecAddr i.x o
  let w := s.winAt a
  let n := winBytes w.1
  spRange a n n (fun _ =>
    let es := n / 16
    let q := if i.en = 0#16 then (127, s) else s.readScale w.2 a.toNat
    let sc := q.1
    let outs := (lanes 32 (i.src.headD 0#512)).map (fun v => match w.1 with
      | 1 => mk8Store i.env sc v
      | 2 => let r := satLane 8 v; (⟨r.1, none⟩, r.2)
      | 3 => (fpToBf i.env v, false)
      | _ => (⟨v, none⟩, false))
    match laneFault 32 i.en (fun _ _ => 0) (outs.map (·.1)) with
    | some (c, v) => .trap c (v &&& 0xFFFFFFFF#64)
    | none => q.2.storeElems i a.toNat es (outs.map (·.1.res))
        { qsat := ((outs.zipIdx).filter (fun p => i.en.getLsbD p.2 && p.1.2)).length })

/-- The result of a computation without accesses. -/
def pureV (f : VIn → VOut) (i : VIn) (s : State) : Acc VOut := .ok (f i) s

/-! ### The instructions -/

/-- R66, R67 `pfx`: the prefix latch is set for the base word that follows. -/
def execPfx (z : BitVec 1) (o : BitVec 5) (r : BitVec 3) (e : BitVec 1) (k : BitVec 3) (s : State) :
    Host.Outcome State Fault Refusal :=
  done (s.modTh (fun h => { h with
    prefixLatch := some { z := z == 1#1, op4 := o, rm := r, me := e == 1#1, maskReg := k },
    pfxWord := PFmt.pack 0#12 z o r e k 22#5 }))

/-- R181: the fourth operand. -/
def State.op4 (s : State) : BitVec 5 := match s.th.prefixLatch with | some p => p.op4 | none => 0#5

/-- The frame of a major-20 instruction: no policy, no ring entry. -/
def strUse (word : Nat) (names : List RegN) (reads : List (BitVec 6)) : Use :=
  { word := word, feat := some fVector, names := names, reads := reads }

/-- R191: the stream registers v12 to v15. -/
def streamReg (n : BitVec 2) : BitVec 5 := 3#3 ++ n

/-- R191: end or begin a stream: pops of entries of the ring are no longer undone on it. (Log: DESIGN CHOICE 75) -/
def Thread.setStream (h : Thread) (n : BitVec 2) (t : Option Stream) : Thread :=
  { h with
    streams := vwr h.streams n.toNat t
    ring := h.ring.map (fun e => { e with pops := e.pops.filter (fun p => p.1 != 12 + n.toNat) }) }

/-- R191: the conditions of the bad-descriptor trap of `scfg`. -/
def Stream.bad (t : Stream) : Bool :=
  let n : Int := ecSize t.ec
  t.n0 == 0 || t.n1 == 0 || t.n2 == 0 || bitsAt t.ctl.toNat 6 10 != 0 || t.ec > 6 ||
    (t.base.toNat : Int) % n != 0 || t.s0 % n != 0 || t.s1.toInt % n != 0 || t.s2.toInt % n != 0

/-- R191 `scfg`. -/
def execScfg (b a : BitVec 6) (n : BitVec 2) (s : State) : Host.Outcome State Fault Refusal :=
  done ((strUse (rw 0 b a (0#1 ++ streamReg n) 20) [.x a, .x b, .v (streamReg n)] [a, b]).run s (fun s =>
    let t : Stream := { base := s.xr a, ctl := s.xr b, ox0 := s.oxr 0, s1 := s.oxr 1, s2 := s.oxr 2 }
    if t.bad then .trap tDESC (s.xr b) else .next (s.modTh (fun h => h.setStream n (some t)))))

/-- R191 `sclr`. -/
def execSclr (n : BitVec 2) (s : State) : Host.Outcome State Fault Refusal :=
  done ((strUse (rw 1 0#6 0#6 (0#1 ++ streamReg n) 20) [.v (streamReg n)] []).run s (fun s =>
    .next ((s.modTh (fun h => h.setStream n none)).setV (streamReg n) 0#512)))

/-- R191 `srem`. -/
def execSrem (n : BitVec 2) (d : BitVec 6) (s : State) : Host.Outcome State Fault Refusal :=
  done ((strUse (rw 2 0#6 (0#1 ++ streamReg n) d 20) [.v (streamReg n), .x d] []).run s (fun s =>
    .next (s.setX d (w64 (match s.th.streamOf (streamReg n) with | some t => t.len - t.p | none => 0)))))

/-- R192 `vfadd`. -/
def execVfadd (p : Policy) (h : BitVec 2) (b : BitVec 5) (a : BitVec 5) (d : BitVec 5) (s : State) : Host.Outcome State Fault Refusal :=
  ({ word := vw 0 p h b a d 16, pol := p, hold := h, req := 1, srcs := [a, b], dst := some d } : VOp).run s (pureV (fpVec .add 2))

/-- R192 `vfsub`. -/
def execVfsub (p : Policy) (h : BitVec 2) (b : BitVec 5) (a : BitVec 5) (d : BitVec 5) (s : State) : Host.Outcome State Fault Refusal :=
  ({ word := vw 1 p h b a d 16, pol := p, hold := h, req := 1, srcs := [a, b], dst := some d } : VOp).run s (pureV (fpVec .sub 2))

/-- R192 `vfmul`. -/
def execVfmul (p : Policy) (h : BitVec 2) (b : BitVec 5) (a : BitVec 5) (d : BitVec 5) (s : State) : Host.Outcome State Fault Refusal :=
  ({ word := vw 2 p h b a d 16, pol := p, hold := h, req := 1, srcs := [a, b], dst := some d } : VOp).run s (pureV (fpVec .mul 2))

/-- R192 `vfmin`. -/
def execVfmin (p : Policy) (h : BitVec 2) (b : BitVec 5) (a : BitVec 5) (d : BitVec 5) (s : State) : Host.Outcome State Fault Refusal :=
  ({ word := vw 3 p h b a d 16, pol := p, hold := h, req := 0, srcs := [a, b], dst := some d } : VOp).run s (pureV (fpVec .min 2))

/-- R192 `vfmax`. -/
def execVfmax (p : Policy) (h : BitVec 2) (b : BitVec 5) (a : BitVec 5) (d : BitVec 5) (s : State) : Host.Outcome State Fault Refusal :=
  ({ word := vw 4 p h b a d 16, pol := p, hold := h, req := 0, srcs := [a, b], dst := some d } : VOp).run s (pureV (fpVec .max 2))

/-- R192 `vfabs`. -/
def execVfabs (p : Policy) (h : BitVec 2) (a : BitVec 5) (d : BitVec 5) (s : State) : Host.Outcome State Fault Refusal :=
  ({ word := vw 5 p h 0#5 a d 16, pol := p, hold := h, req := 0, srcs := [a], dst := some d } : VOp).run s (pureV (mapLanes 32 (fun l => (fun x => x % 2 ^ 31) (l.headD 0))))

/-- R192 `vfneg`. -/
def execVfneg (p : Policy) (h : BitVec 2) (a : BitVec 5) (d : BitVec 5) (s : State) : Host.Outcome State Fault Refusal :=
  ({ word := vw 6 p h 0#5 a d 16, pol := p, hold := h, req := 0, srcs := [a], dst := some d } : VOp).run s (pureV (mapLanes 32 (fun l => (fun x => (x + 2 ^ 31) % 2 ^ 32) (l.headD 0))))

/-- R192 `vfma`. -/
def execVfma (p : Policy) (h : BitVec 2) (b : BitVec 5) (a : BitVec 5) (d : BitVec 5) (s : State) : Host.Outcome State Fault Refusal :=
  ({ word := vw 8 p h b a d 16, pol := p, hold := h, req := 1, srcs := [a, b, d], dst := some d } : VOp).run s (pureV (fpVec .madd 2))

/-- R192 `vfms`. -/
def execVfms (p : Policy) (h : BitVec 2) (b : BitVec 5) (a : BitVec 5) (d : BitVec 5) (s : State) : Host.Outcome State Fault Refusal :=
  ({ word := vw 9 p h b a d 16, pol := p, hold := h, req := 1, srcs := [a, b, d], dst := some d } : VOp).run s (pureV (fpVec .msub 2))

/-- R192 `vfma4`. -/
def execVfma4 (p : Policy) (h : BitVec 2) (b : BitVec 5) (a : BitVec 5) (d : BitVec 5) (s : State) : Host.Outcome State Fault Refusal :=
  ({ word := vw 10 p h b a d 16, pol := p, hold := h, req := 1, srcs := [a, b, s.op4], dst := some d } : VOp).run s (pureV (fpVec .madd 3))

/-- R192 `vfeq`. -/
def execVfeq (p : Policy) (h : BitVec 2) (b : BitVec 5) (a : BitVec 5) (k : BitVec 3) (s : State) : Host.Outcome State Fault Refusal :=
  ({ word := vw 16 p h b a (0#2 ++ k) 16, pol := p, hold := h, req := 0, srcs := [a, b], dx := some (.k k) } : VOp).run s (pureV (fpCmp .eq))

/-- R192 `vflt`. -/
def execVflt (p : Policy) (h : BitVec 2) (b : BitVec 5) (a : BitVec 5) (k : BitVec 3) (s : State) : Host.Outcome State Fault Refusal :=
  ({ word := vw 17 p h b a (0#2 ++ k) 16, pol := p, hold := h, req := 0, srcs := [a, b], dx := some (.k k) } : VOp).run s (pureV (fpCmp .lt))

/-- R192 `vfle`. -/
def execVfle (p : Policy) (h : BitVec 2) (b : BitVec 5) (a : BitVec 5) (k : BitVec 3) (s : State) : Host.Outcome State Fault Refusal :=
  ({ word := vw 18 p h b a (0#2 ++ k) 16, pol := p, hold := h, req := 0, srcs := [a, b], dx := some (.k k) } : VOp).run s (pureV (fpCmp .le))

/-- R193 `vadd`. -/
def execVadd (w : BitVec 2) (p : Policy) (h : BitVec 2) (b : BitVec 5) (a : BitVec 5) (d : BitVec 5) (s : State) : Host.Outcome State Fault Refusal :=
  ({ word := vw (16 * w.toNat + 0) p h b a d 17, pol := p, hold := h, req := 0, srcs := [a, b], dst := some d } : VOp).run s (pureV (map2 (laneWidth w) (VIop.add.lane (laneWidth w))))

/-- R193 `vsub`. -/
def execVsub (w : BitVec 2) (p : Policy) (h : BitVec 2) (b : BitVec 5) (a : BitVec 5) (d : BitVec 5) (s : State) : Host.Outcome State Fault Refusal :=
  ({ word := vw (16 * w.toNat + 1) p h b a d 17, pol := p, hold := h, req := 0, srcs := [a, b], dst := some d } : VOp).run s (pureV (map2 (laneWidth w) (VIop.sub.lane (laneWidth w))))

/-- R193 `vmul`. -/
def execVmul (w : BitVec 2) (p : Policy) (h : BitVec 2) (b : BitVec 5) (a : BitVec 5) (d : BitVec 5) (s : State) : Host.Outcome State Fault Refusal :=
  ({ word := vw (16 * w.toNat + 2) p h b a d 17, pol := p, hold := h, req := 0, srcs := [a, b], dst := some d } : VOp).run s (pureV (map2 (laneWidth w) (VIop.mul.lane (laneWidth w))))

/-- R193 `vsll`. -/
def execVsll (w : BitVec 2) (p : Policy) (h : BitVec 2) (b : BitVec 5) (a : BitVec 5) (d : BitVec 5) (s : State) : Host.Outcome State Fault Refusal :=
  ({ word := vw (16 * w.toNat + 3) p h b a d 17, pol := p, hold := h, req := 0, srcs := [a, b], dst := some d } : VOp).run s (pureV (map2 (laneWidth w) (VIop.sll.lane (laneWidth w))))

/-- R193 `vsrl`. -/
def execVsrl (w : BitVec 2) (p : Policy) (h : BitVec 2) (b : BitVec 5) (a : BitVec 5) (d : BitVec 5) (s : State) : Host.Outcome State Fault Refusal :=
  ({ word := vw (16 * w.toNat + 4) p h b a d 17, pol := p, hold := h, req := 0, srcs := [a, b], dst := some d } : VOp).run s (pureV (map2 (laneWidth w) (VIop.srl.lane (laneWidth w))))

/-- R193 `vsra`. -/
def execVsra (w : BitVec 2) (p : Policy) (h : BitVec 2) (b : BitVec 5) (a : BitVec 5) (d : BitVec 5) (s : State) : Host.Outcome State Fault Refusal :=
  ({ word := vw (16 * w.toNat + 5) p h b a d 17, pol := p, hold := h, req := 0, srcs := [a, b], dst := some d } : VOp).run s (pureV (map2 (laneWidth w) (VIop.sra.lane (laneWidth w))))

/-- R193 `vmin`. -/
def execVmin (w : BitVec 2) (p : Policy) (h : BitVec 2) (b : BitVec 5) (a : BitVec 5) (d : BitVec 5) (s : State) : Host.Outcome State Fault Refusal :=
  ({ word := vw (16 * w.toNat + 6) p h b a d 17, pol := p, hold := h, req := 0, srcs := [a, b], dst := some d } : VOp).run s (pureV (map2 (laneWidth w) (VIop.min.lane (laneWidth w))))

/-- R193 `vmax`. -/
def execVmax (w : BitVec 2) (p : Policy) (h : BitVec 2) (b : BitVec 5) (a : BitVec 5) (d : BitVec 5) (s : State) : Host.Outcome State Fault Refusal :=
  ({ word := vw (16 * w.toNat + 7) p h b a d 17, pol := p, hold := h, req := 0, srcs := [a, b], dst := some d } : VOp).run s (pureV (map2 (laneWidth w) (VIop.max.lane (laneWidth w))))

/-- R193 `vminu`. -/
def execVminu (w : BitVec 2) (p : Policy) (h : BitVec 2) (b : BitVec 5) (a : BitVec 5) (d : BitVec 5) (s : State) : Host.Outcome State Fault Refusal :=
  ({ word := vw (16 * w.toNat + 8) p h b a d 17, pol := p, hold := h, req := 0, srcs := [a, b], dst := some d } : VOp).run s (pureV (map2 (laneWidth w) (VIop.minu.lane (laneWidth w))))

/-- R193 `vmaxu`. -/
def execVmaxu (w : BitVec 2) (p : Policy) (h : BitVec 2) (b : BitVec 5) (a : BitVec 5) (d : BitVec 5) (s : State) : Host.Outcome State Fault Refusal :=
  ({ word := vw (16 * w.toNat + 9) p h b a d 17, pol := p, hold := h, req := 0, srcs := [a, b], dst := some d } : VOp).run s (pureV (map2 (laneWidth w) (VIop.maxu.lane (laneWidth w))))

/-- R193 `vand`. -/
def execVand (p : Policy) (h : BitVec 2) (b : BitVec 5) (a : BitVec 5) (d : BitVec 5) (s : State) : Host.Outcome State Fault Refusal :=
  ({ word := vw 10 p h b a d 17, pol := p, hold := h, req := 0, srcs := [a, b], dst := some d } : VOp).run s (pureV (map2 32 (fun x y => x &&& y)))

/-- R193 `vor`. -/
def execVor (p : Policy) (h : BitVec 2) (b : BitVec 5) (a : BitVec 5) (d : BitVec 5) (s : State) : Host.Outcome State Fault Refusal :=
  ({ word := vw 11 p h b a d 17, pol := p, hold := h, req := 0, srcs := [a, b], dst := some d } : VOp).run s (pureV (map2 32 (fun x y => x ||| y)))

/-- R193 `vxor`. -/
def execVxor (p : Policy) (h : BitVec 2) (b : BitVec 5) (a : BitVec 5) (d : BitVec 5) (s : State) : Host.Outcome State Fault Refusal :=
  ({ word := vw 12 p h b a d 17, pol := p, hold := h, req := 0, srcs := [a, b], dst := some d } : VOp).run s (pureV (map2 32 (fun x y => x ^^^ y)))

/-- R193 `vandn`. -/
def execVandn (p : Policy) (h : BitVec 2) (b : BitVec 5) (a : BitVec 5) (d : BitVec 5) (s : State) : Host.Outcome State Fault Refusal :=
  ({ word := vw 13 p h b a d 17, pol := p, hold := h, req := 0, srcs := [a, b], dst := some d } : VOp).run s (pureV (map2 32 (fun x y => x &&& (2 ^ 32 - 1 - y))))

/-- R193 `vieq`. -/
def execVieq (p : Policy) (h : BitVec 2) (b : BitVec 5) (a : BitVec 5) (k : BitVec 3) (s : State) : Host.Outcome State Fault Refusal :=
  ({ word := vw 48 p h b a (0#2 ++ k) 17, pol := p, hold := h, req := 0, srcs := [a, b], dx := some (.k k) } : VOp).run s (pureV (cmp2 (fun x y => x == y)))

/-- R193 `vilt`. -/
def execVilt (p : Policy) (h : BitVec 2) (b : BitVec 5) (a : BitVec 5) (k : BitVec 3) (s : State) : Host.Outcome State Fault Refusal :=
  ({ word := vw 49 p h b a (0#2 ++ k) 17, pol := p, hold := h, req := 0, srcs := [a, b], dx := some (.k k) } : VOp).run s (pureV (cmp2 (fun x y => decide (sval 32 x < sval 32 y))))

/-- R193 `viltu`. -/
def execViltu (p : Policy) (h : BitVec 2) (b : BitVec 5) (a : BitVec 5) (k : BitVec 3) (s : State) : Host.Outcome State Fault Refusal :=
  ({ word := vw 50 p h b a (0#2 ++ k) 17, pol := p, hold := h, req := 0, srcs := [a, b], dx := some (.k k) } : VOp).run s (pureV (cmp2 (fun x y => decide (x < y))))

/-- R193 `vbcast`. -/
def execVbcast (p : Policy) (h : BitVec 2) (a : BitVec 5) (d : BitVec 5) (s : State) : Host.Outcome State Fault Refusal :=
  ({ word := vw 51 p h 0#5 a d 17, pol := p, hold := h, req := 0, xs := some a, plain := true, dst := some d } : VOp).run s (pureV (fun i => { lanes := List.replicate 16 (i.x.toNat % 2 ^ 32) }))

/-- R193 `kget`. -/
def execKget (p : Policy) (h : BitVec 2) (k : BitVec 3) (d : BitVec 5) (s : State) : Host.Outcome State Fault Refusal :=
  ({ word := vw 52 p h 0#5 (0#2 ++ k) d 17, pol := p, hold := h, req := 0, ks := some k, dx := some (.x (xreg d)) } : VOp).run s (pureV (fun i => { val := i.k.setWidth 64 }))

/-- R193 `kset`. -/
def execKset (p : Policy) (h : BitVec 2) (a : BitVec 5) (k : BitVec 3) (s : State) : Host.Outcome State Fault Refusal :=
  ({ word := vw 53 p h 0#5 a (0#2 ++ k) 17, pol := p, hold := h, req := 0, xs := some a, plain := true, dx := some (.k k) } : VOp).run s (pureV (fun i => { mask := i.x.setWidth 16 }))

/-- R194 `vperm`. -/
def execVperm (p : Policy) (h : BitVec 2) (b : BitVec 5) (a : BitVec 5) (d : BitVec 5) (s : State) : Host.Outcome State Fault Refusal :=
  ({ word := vw 0 p h b a d 18, pol := p, hold := h, req := 1, srcs := [a, b], dst := some d } : VOp).run s (pureV (fun i => match i.src with
    | [u, v] => { lanes := (lanes 32 v).map (fun j => lane 32 u (j % 16)) }
    | _ => {}))

/-- R194 `vperm2`. -/
def execVperm2 (p : Policy) (h : BitVec 2) (b : BitVec 5) (a : BitVec 5) (d : BitVec 5) (s : State) : Host.Outcome State Fault Refusal :=
  ({ word := vw 1 p h b a d 18, pol := p, hold := h, req := 1, srcs := [a, b, s.op4], dst := some d } : VOp).run s (pureV (fun i => match i.src with
    | [u, v, w] => { lanes := (lanes 32 v).map (fun j => lane 32 (if bitAt j 4 then w else u) (j % 16)) }
    | _ => {}))

/-- R194 `vrot`. -/
def execVrot (p : Policy) (h : BitVec 2) (n : BitVec 4) (a : BitVec 5) (d : BitVec 5) (s : State) : Host.Outcome State Fault Refusal :=
  ({ word := vw 2 p h (0#1 ++ n) a d 18, pol := p, hold := h, req := 1, srcs := [a], dst := some d } : VOp).run s (pureV (fun i =>
    { lanes := (upTo 16).map (fun j => lane 32 (i.src.headD 0#512) ((j + n.toNat) % 16)) }))

/-- R194 `vins`. Into a write stream, every enabled lane but n pushes 0. (Log: DESIGN CHOICE 75) -/
def execVins (p : Policy) (h : BitVec 2) (n : BitVec 4) (a : BitVec 5) (d : BitVec 5) (s : State) : Host.Outcome State Fault Refusal :=
  ({ word := vw 3 p h (0#1 ++ n) a d 18, pol := p, hold := h, req := 0, xs := some a, plain := true, dst := some d, rmw := true } : VOp).run s (pureV (fun i =>
    { lanes := (upTo 16).map (fun j => if j = n.toNat then i.x.toNat % 2 ^ 32 else lane 32 i.old j) }))

/-- R194 `vext`. -/
def execVext (p : Policy) (h : BitVec 2) (n : BitVec 4) (a : BitVec 5) (d : BitVec 5) (s : State) : Host.Outcome State Fault Refusal :=
  ({ word := vw 4 p h (0#1 ++ n) a d 18, pol := p, hold := h, req := 1, srcs := [a], dx := some (.x (xreg d)) } : VOp).run s (pureV (fun i =>
    { val := sext32 (w64 (lane 32 (i.src.headD 0#512) n.toNat)) }))

/-- R194 `vsum.f`. -/
def execVsumF (p : Policy) (h : BitVec 2) (a : BitVec 5) (d : BitVec 5) (s : State) : Host.Outcome State Fault Refusal :=
  ({ word := vw 5 p h 0#5 a d 18, pol := p, hold := h, req := 2, srcs := [a], dx := some (.x (xreg d)) } : VOp).run s (pureV (reduceFp fp32 32 4 .add 0))

/-- R194 `vmax.f`. -/
def execVmaxF (p : Policy) (h : BitVec 2) (a : BitVec 5) (d : BitVec 5) (s : State) : Host.Outcome State Fault Refusal :=
  ({ word := vw 6 p h 0#5 a d 18, pol := p, hold := h, req := 2, srcs := [a], dx := some (.x (xreg d)) } : VOp).run s (pureV (reduceFp fp32 32 4 .max 0xFF800000))

/-- R194 `vmin.f`. -/
def execVminF (p : Policy) (h : BitVec 2) (a : BitVec 5) (d : BitVec 5) (s : State) : Host.Outcome State Fault Refusal :=
  ({ word := vw 7 p h 0#5 a d 18, pol := p, hold := h, req := 2, srcs := [a], dx := some (.x (xreg d)) } : VOp).run s (pureV (reduceFp fp32 32 4 .min 0x7F800000))

/-- R194 `vsum.i32`. -/
def execVsumI32 (p : Policy) (h : BitVec 2) (a : BitVec 5) (d : BitVec 5) (s : State) : Host.Outcome State Fault Refusal :=
  ({ word := vw 8 p h 0#5 a d 18, pol := p, hold := h, req := 2, srcs := [a], dx := some (.x (xreg d)) } : VOp).run s (pureV (reduceInt 32 4 (fun x y => x + y) 0))

/-- R194 `vmax.i32`. -/
def execVmaxI32 (p : Policy) (h : BitVec 2) (a : BitVec 5) (d : BitVec 5) (s : State) : Host.Outcome State Fault Refusal :=
  ({ word := vw 9 p h 0#5 a d 18, pol := p, hold := h, req := 2, srcs := [a], dx := some (.x (xreg d)) } : VOp).run s (pureV (reduceInt 32 4 (VIop.max.lane 32) (2 ^ 31)))

/-- R194 `vmin.i32`. -/
def execVminI32 (p : Policy) (h : BitVec 2) (a : BitVec 5) (d : BitVec 5) (s : State) : Host.Outcome State Fault Refusal :=
  ({ word := vw 10 p h 0#5 a d 18, pol := p, hold := h, req := 2, srcs := [a], dx := some (.x (xreg d)) } : VOp).run s (pureV (reduceInt 32 4 (VIop.min.lane 32) (2 ^ 31 - 1)))

/-- R194 `vsum.i16`. -/
def execVsumI16 (p : Policy) (h : BitVec 2) (a : BitVec 5) (d : BitVec 5) (s : State) : Host.Outcome State Fault Refusal :=
  ({ word := vw 11 p h 0#5 a d 18, pol := p, hold := h, req := 2, srcs := [a], dx := some (.x (xreg d)) } : VOp).run s (pureV (reduceInt 16 5 (fun x y => x + y) 0))

/-- R194 `vsum.i8`. -/
def execVsumI8 (p : Policy) (h : BitVec 2) (a : BitVec 5) (d : BitVec 5) (s : State) : Host.Outcome State Fault Refusal :=
  ({ word := vw 12 p h 0#5 a d 18, pol := p, hold := h, req := 2, srcs := [a], dx := some (.x (xreg d)) } : VOp).run s (pureV (reduceInt 8 6 (fun x y => x + y) 0))

/-- R194 `vsum.bf`. -/
def execVsumBf (p : Policy) (h : BitVec 2) (a : BitVec 5) (d : BitVec 5) (s : State) : Host.Outcome State Fault Refusal :=
  ({ word := vw 13 p h 0#5 a d 18, pol := p, hold := h, req := 2, srcs := [a], dx := some (.x (xreg d)) } : VOp).run s (pureV (reduceFp bf16 16 5 .add 0))

/-- R195 `vld`. -/
def execVld (p : Policy) (h : BitVec 2) (o : BitVec 5) (a : BitVec 5) (d : BitVec 5) (s : State) : Host.Outcome State Fault Refusal :=
  ({ word := vw 0 p h o a d 19, pol := p, hold := h, req := 0, xs := some a, dst := some d } : VOp).run s (vecLoad true o)

/-- R195 `vld.wk`. -/
def execVldWk (p : Policy) (h : BitVec 2) (o : BitVec 5) (a : BitVec 5) (d : BitVec 5) (s : State) : Host.Outcome State Fault Refusal :=
  ({ word := vw 1 p h o a d 19, pol := p, hold := h, req := 0, xs := some a, dst := some d } : VOp).run s (vecLoad false o)

/-- R195 `vst`. -/
def execVst (p : Policy) (h : BitVec 2) (o : BitVec 5) (a : BitVec 5) (d : BitVec 5) (s : State) : Host.Outcome State Fault Refusal :=
  ({ word := vw 2 p h o a d 19, pol := p, hold := h, req := 0, xs := some a, srcs := [d], store := true } : VOp).run s (vecStore true o)

/-- R195 `vst.wk`. -/
def execVstWk (p : Policy) (h : BitVec 2) (o : BitVec 5) (a : BitVec 5) (d : BitVec 5) (s : State) : Host.Outcome State Fault Refusal :=
  ({ word := vw 3 p h o a d 19, pol := p, hold := h, req := 0, xs := some a, srcs := [d], store := true } : VOp).run s (vecStore false o)

/-- R195 `vld.sp`. -/
def execVldSp (p : Policy) (h : BitVec 2) (o : BitVec 5) (a : BitVec 5) (d : BitVec 5) (s : State) : Host.Outcome State Fault Refusal :=
  ({ word := vw 4 p h o a d 19, pol := p, hold := h, req := 0, xs := some a, dst := some d } : VOp).run s (vecLoadSp o)

/-- R195 `vst.sp`. -/
def execVstSp (p : Policy) (h : BitVec 2) (o : BitVec 5) (a : BitVec 5) (d : BitVec 5) (s : State) : Host.Outcome State Fault Refusal :=
  ({ word := vw 5 p h o a d 19, pol := p, hold := h, req := 0, xs := some a, srcs := [d], store := true } : VOp).run s (vecStoreSp o)

/-- R196 `vld.win`. -/
def execVldWin (p : Policy) (h : BitVec 2) (o : BitVec 5) (a : BitVec 5) (d : BitVec 5) (s : State) : Host.Outcome State Fault Refusal :=
  ({ word := vw 6 p h o a d 19, pol := p, hold := h, req := 1, xs := some a, dst := some d } : VOp).run s (vecLoadWin o)

/-- R196 `vst.win`. -/
def execVstWin (p : Policy) (h : BitVec 2) (o : BitVec 5) (a : BitVec 5) (d : BitVec 5) (s : State) : Host.Outcome State Fault Refusal :=
  ({ word := vw 7 p h o a d 19, pol := p, hold := h, req := 0, xs := some a, srcs := [d], store := true } : VOp).run s (vecStoreWin o)

/-- R197 `vrcp.a`. -/
def execVrcpA (p : Policy) (h : BitVec 2) (a : BitVec 5) (d : BitVec 5) (s : State) : Host.Outcome State Fault Refusal :=
  ({ word := vw 0 p h 0#5 a d 21, pol := p, hold := h, req := 2, srcs := [a], dst := some d } : VOp).run s (pureV (sfuVec (fun _ => false) (fun _ => fRcp)))

/-- R197 `vrsq.a`. -/
def execVrsqA (p : Policy) (h : BitVec 2) (a : BitVec 5) (d : BitVec 5) (s : State) : Host.Outcome State Fault Refusal :=
  ({ word := vw 1 p h 0#5 a d 21, pol := p, hold := h, req := 2, srcs := [a], dst := some d } : VOp).run s (pureV (sfuVec (belowZero) (fun _ => fRsq)))

/-- R197 `vrcp.s`. -/
def execVrcpS (p : Policy) (h : BitVec 2) (b : BitVec 5) (a : BitVec 5) (d : BitVec 5) (s : State) : Host.Outcome State Fault Refusal :=
  ({ word := vw 2 p h b a d 21, pol := p, hold := h, req := 2, srcs := [a, b], dst := some d } : VOp).run s (pureV (sfuVec (fun _ => false) fRcpS))

/-- R197 `vrsq.s`. -/
def execVrsqS (p : Policy) (h : BitVec 2) (b : BitVec 5) (a : BitVec 5) (d : BitVec 5) (s : State) : Host.Outcome State Fault Refusal :=
  ({ word := vw 3 p h b a d 21, pol := p, hold := h, req := 2, srcs := [a, b], dst := some d } : VOp).run s (pureV (sfuVec (fun _ => false) fRsqS))

/-- R197 `vexp2.a`. -/
def execVexp2A (p : Policy) (h : BitVec 2) (a : BitVec 5) (d : BitVec 5) (s : State) : Host.Outcome State Fault Refusal :=
  ({ word := vw 4 p h 0#5 a d 21, pol := p, hold := h, req := 3, srcs := [a], dst := some d } : VOp).run s (pureV (sfuVec (fun _ => false) (fun _ => fExp2)))

/-- R197 `vlog2.a`. -/
def execVlog2A (p : Policy) (h : BitVec 2) (a : BitVec 5) (d : BitVec 5) (s : State) : Host.Outcome State Fault Refusal :=
  ({ word := vw 5 p h 0#5 a d 21, pol := p, hold := h, req := 3, srcs := [a], dst := some d } : VOp).run s (pureV (sfuVec (belowZero) (fun _ => fLog2)))

/-- R199 `vcvt.f.i`. -/
def execVcvtFI (p : Policy) (h : BitVec 2) (a : BitVec 5) (d : BitVec 5) (s : State) : Host.Outcome State Fault Refusal :=
  ({ word := vw 0 p h 0#5 a d 23, pol := p, hold := h, req := 1, srcs := [a], dst := some d } : VOp).run s (pureV (fun i =>
    { lanes := (upTo 16).map (fun j => intToFp fp32 i.env.mode (sval 32 ((i.at j).headD 0))) }))

/-- R199 `vcvt.i.f`. -/
def execVcvtIF (p : Policy) (h : BitVec 2) (a : BitVec 5) (d : BitVec 5) (s : State) : Host.Outcome State Fault Refusal :=
  ({ word := vw 1 p h 0#5 a d 23, pol := p, hold := h, req := 1, srcs := [a], dst := some d } : VOp).run s (pureV (cvtVec (fun v x => fpToInt fp32 v (-2 ^ 31) (2 ^ 31 - 1) x)))

/-- R199 `vcvt.bf.f`. -/
def execVcvtBfF (p : Policy) (h : BitVec 2) (b : BitVec 5) (a : BitVec 5) (d : BitVec 5) (s : State) : Host.Outcome State Fault Refusal :=
  ({ word := vw 2 p h b a d 23, pol := p, hold := h, req := 1, srcs := [a, b], dst := some d } : VOp).run s (pureV cvtBf)

/-- R199 `vcvt.f.bf`. -/
def execVcvtFBf (p : Policy) (h : BitVec 2) (g : BitVec 1) (a : BitVec 5) (d : BitVec 5) (s : State) : Host.Outcome State Fault Refusal :=
  ({ word := vw 3 p h (0#4 ++ g) a d 23, pol := p, hold := h, req := 1, srcs := [a], dst := some d } : VOp).run s (pureV (pickLanes 16 g.toNat bfToFp))

/-- R199 `vcvt.f.mk8`. -/
def execVcvtFMk8 (p : Policy) (h : BitVec 2) (q : BitVec 2) (a : BitVec 5) (d : BitVec 5) (s : State) : Host.Outcome State Fault Refusal :=
  ({ word := vw 4 p h (0#3 ++ q) a d 23, pol := p, hold := h, req := 1, srcs := [a], dst := some d } : VOp).run s (pureV (pickLanes 8 q.toNat (fun c => (decodeMk8 c).into fp32 .rne)))

/-- R199 `vpack.i16`. -/
def execVpackI16 (p : Policy) (h : BitVec 2) (b : BitVec 5) (a : BitVec 5) (d : BitVec 5) (s : State) : Host.Outcome State Fault Refusal :=
  ({ word := vw 5 p h b a d 23, pol := p, hold := h, req := 1, srcs := [a, b], dst := some d } : VOp).run s (pureV packVec)

/-- R199 `vunpk.i16`. -/
def execVunpkI16 (p : Policy) (h : BitVec 2) (g : BitVec 1) (a : BitVec 5) (d : BitVec 5) (s : State) : Host.Outcome State Fault Refusal :=
  ({ word := vw 6 p h (0#4 ++ g) a d 23, pol := p, hold := h, req := 1, srcs := [a], dst := some d } : VOp).run s (pureV (pickLanes 16 g.toNat (fun x => ofSval 32 (sval 16 x))))

/-- R199 `vunpk.i8`. -/
def execVunpkI8 (p : Policy) (h : BitVec 2) (q : BitVec 2) (a : BitVec 5) (d : BitVec 5) (s : State) : Host.Outcome State Fault Refusal :=
  ({ word := vw 7 p h (0#3 ++ q) a d 23, pol := p, hold := h, req := 1, srcs := [a], dst := some d } : VOp).run s (pureV (pickLanes 8 q.toNat (fun x => ofSval 32 (sval 8 x))))

/-- R200 `vquant`. -/
def execVquant (p : Policy) (h : BitVec 2) (t : BitVec 5) (a : BitVec 4) (d : BitVec 5) (s : State) : Host.Outcome State Fault Refusal :=
  ({ word := vw 8 p h t (a ++ 0#1) d 23, pol := p, hold := h, req := 3, srcs := [a ++ 0#1, a ++ 1#1], dst := some d } : VOp).run s (pureV (quantVec t.toNat))

end Sys2Proof.Machine
end

