-- ==== Sys2Proof/Machine/Dispatch.lean ====
section
/-! DEFINITION. One arm per constructor: the meaning of the instruction. -/

namespace Sys2Proof.Machine

/-- The effect of one instruction or event. -/
def exec (i : Instr) (s : State) : Host.Outcome State Fault Refusal :=
  match i with
  | .add b a d => Sys2Proof.Machine.execAdd b a d s
  | .sub b a d => Sys2Proof.Machine.execSub b a d s
  | .and b a d => Sys2Proof.Machine.execAnd b a d s
  | .or b a d => Sys2Proof.Machine.execOr b a d s
  | .xor b a d => Sys2Proof.Machine.execXor b a d s
  | .sll b a d => Sys2Proof.Machine.execSll b a d s
  | .srl b a d => Sys2Proof.Machine.execSrl b a d s
  | .sra b a d => Sys2Proof.Machine.execSra b a d s
  | .slt b a d => Sys2Proof.Machine.execSlt b a d s
  | .sltu b a d => Sys2Proof.Machine.execSltu b a d s
  | .min b a d => Sys2Proof.Machine.execMin b a d s
  | .max b a d => Sys2Proof.Machine.execMax b a d s
  | .minu b a d => Sys2Proof.Machine.execMinu b a d s
  | .maxu b a d => Sys2Proof.Machine.execMaxu b a d s
  | .mv a d => Sys2Proof.Machine.execMv a d s
  | .addw b a d => Sys2Proof.Machine.execAddw b a d s
  | .subw b a d => Sys2Proof.Machine.execSubw b a d s
  | .sllw b a d => Sys2Proof.Machine.execSllw b a d s
  | .srlw b a d => Sys2Proof.Machine.execSrlw b a d s
  | .sraw b a d => Sys2Proof.Machine.execSraw b a d s
  | .sh1add b a d => Sys2Proof.Machine.execSh1add b a d s
  | .sh2add b a d => Sys2Proof.Machine.execSh2add b a d s
  | .sh3add b a d => Sys2Proof.Machine.execSh3add b a d s
  | .sh4add b a d => Sys2Proof.Machine.execSh4add b a d s
  | .lix n d => Sys2Proof.Machine.execLix n d s
  | .lixu n d => Sys2Proof.Machine.execLixu n d s
  | .insh n d => Sys2Proof.Machine.execInsh n d s
  | .jr a => Sys2Proof.Machine.execJr a s
  | .callr a => Sys2Proof.Machine.execCallr a s
  | .ret => Sys2Proof.Machine.execRet s
  | .land => Sys2Proof.Machine.execLand s
  | .enter l h => Sys2Proof.Machine.execEnter l h s
  | .enterFp l h r => Sys2Proof.Machine.execEnterFp l h r s
  | .leave l h => Sys2Proof.Machine.execLeave l h s
  | .leaveFp l h r => Sys2Proof.Machine.execLeaveFp l h r s
  | .kpack n d => Sys2Proof.Machine.execKpack n d s
  | .kunpack n a => Sys2Proof.Machine.execKunpack n a s
  | .addi i1 a d => Sys2Proof.Machine.execAddi i1 a d s
  | .li i1 j d => Sys2Proof.Machine.execLi i1 j d s
  | .andi i1 a d => Sys2Proof.Machine.execAndi i1 a d s
  | .ori i1 a d => Sys2Proof.Machine.execOri i1 a d s
  | .xori i1 a d => Sys2Proof.Machine.execXori i1 a d s
  | .slti i1 a d => Sys2Proof.Machine.execSlti i1 a d s
  | .sltiu i1 a d => Sys2Proof.Machine.execSltiu i1 a d s
  | .slli s1 a d => Sys2Proof.Machine.execSlli s1 a d s
  | .srli s1 a d => Sys2Proof.Machine.execSrli s1 a d s
  | .srai s1 a d => Sys2Proof.Machine.execSrai s1 a d s
  | .rori s1 a d => Sys2Proof.Machine.execRori s1 a d s
  | .mul b a d => Sys2Proof.Machine.execMul b a d s
  | .mulh b a d => Sys2Proof.Machine.execMulh b a d s
  | .mulhu b a d => Sys2Proof.Machine.execMulhu b a d s
  | .mulhsu b a d => Sys2Proof.Machine.execMulhsu b a d s
  | .mulw b a d => Sys2Proof.Machine.execMulw b a d s
  | .div b a d => Sys2Proof.Machine.execDiv b a d s
  | .divu b a d => Sys2Proof.Machine.execDivu b a d s
  | .rem b a d => Sys2Proof.Machine.execRem b a d s
  | .remu b a d => Sys2Proof.Machine.execRemu b a d s
  | .divw b a d => Sys2Proof.Machine.execDivw b a d s
  | .divuw b a d => Sys2Proof.Machine.execDivuw b a d s
  | .remw b a d => Sys2Proof.Machine.execRemw b a d s
  | .remuw b a d => Sys2Proof.Machine.execRemuw b a d s
  | .clz a d => Sys2Proof.Machine.execClz a d s
  | .ctz a d => Sys2Proof.Machine.execCtz a d s
  | .cpop a d => Sys2Proof.Machine.execCpop a d s
  | .rev8 a d => Sys2Proof.Machine.execRev8 a d s
  | .brev a d => Sys2Proof.Machine.execBrev a d s
  | .andn b a d => Sys2Proof.Machine.execAndn b a d s
  | .orn b a d => Sys2Proof.Machine.execOrn b a d s
  | .xnor b a d => Sys2Proof.Machine.execXnor b a d s
  | .rol b a d => Sys2Proof.Machine.execRol b a d s
  | .ror b a d => Sys2Proof.Machine.execRor b a d s
  | .bset b a d => Sys2Proof.Machine.execBset b a d s
  | .bclr b a d => Sys2Proof.Machine.execBclr b a d s
  | .binv b a d => Sys2Proof.Machine.execBinv b a d s
  | .bext b a d => Sys2Proof.Machine.execBext b a d s
  | .ext b a d => Sys2Proof.Machine.execExt b a d s
  | .sextb a d => Sys2Proof.Machine.execSextb a d s
  | .sexth a d => Sys2Proof.Machine.execSexth a d s
  | .sextw a d => Sys2Proof.Machine.execSextw a d s
  | .mod31 a d => Sys2Proof.Machine.execMod31 a d s
  | .div31 a d => Sys2Proof.Machine.execDiv31 a d s
  | .bankof a d => Sys2Proof.Machine.execBankof a d s
  | .rowof a d => Sys2Proof.Machine.execRowof a d s
  | .spa b a d => Sys2Proof.Machine.execSpa b a d s
  | .addm31 b a d => Sys2Proof.Machine.execAddm31 b a d s
  | .oxl i1 n => Sys2Proof.Machine.execOxl i1 n s
  | .oxh i1 n => Sys2Proof.Machine.execOxh i1 n s
  | .beq o b a => Sys2Proof.Machine.execBeq o b a s
  | .bne o b a => Sys2Proof.Machine.execBne o b a s
  | .blt o b a => Sys2Proof.Machine.execBlt o b a s
  | .bge o b a => Sys2Proof.Machine.execBge o b a s
  | .bltu o b a => Sys2Proof.Machine.execBltu o b a s
  | .bgeu o b a => Sys2Proof.Machine.execBgeu o b a s
  | .bnr o => Sys2Proof.Machine.execBnr o s
  | .brd o => Sys2Proof.Machine.execBrd o s
  | .j o => Sys2Proof.Machine.execJ o s
  | .call o => Sys2Proof.Machine.execCall o s
  | .fadd b a d => Sys2Proof.Machine.execFadd b a d s
  | .fsub b a d => Sys2Proof.Machine.execFsub b a d s
  | .fmul b a d => Sys2Proof.Machine.execFmul b a d s
  | .fdiv b a d => Sys2Proof.Machine.execFdiv b a d s
  | .fmin b a d => Sys2Proof.Machine.execFmin b a d s
  | .fmax b a d => Sys2Proof.Machine.execFmax b a d s
  | .fmadd b a d => Sys2Proof.Machine.execFmadd b a d s
  | .fmsub b a d => Sys2Proof.Machine.execFmsub b a d s
  | .fsqrt r a d => Sys2Proof.Machine.execFsqrt r a d s
  | .fsgnj b a d => Sys2Proof.Machine.execFsgnj b a d s
  | .fsgnjn b a d => Sys2Proof.Machine.execFsgnjn b a d s
  | .fsgnjx b a d => Sys2Proof.Machine.execFsgnjx b a d s
  | .feq b a d => Sys2Proof.Machine.execFeq b a d s
  | .flt b a d => Sys2Proof.Machine.execFlt b a d s
  | .fle b a d => Sys2Proof.Machine.execFle b a d s
  | .fclass a d => Sys2Proof.Machine.execFclass a d s
  | .ftoi r a d => Sys2Proof.Machine.execFtoi r a d s
  | .ftou r a d => Sys2Proof.Machine.execFtou r a d s
  | .ftol r a d => Sys2Proof.Machine.execFtol r a d s
  | .ftoul r a d => Sys2Proof.Machine.execFtoul r a d s
  | .itof r a d => Sys2Proof.Machine.execItof r a d s
  | .utof r a d => Sys2Proof.Machine.execUtof r a d s
  | .ltof r a d => Sys2Proof.Machine.execLtof r a d s
  | .ultof r a d => Sys2Proof.Machine.execUltof r a d s
  | .ftobf r a d => Sys2Proof.Machine.execFtobf r a d s
  | .bftof a d => Sys2Proof.Machine.execBftof a d s
  | .ldW o p b d => Sys2Proof.Machine.execLdW o p b d s
  | .ldD o p b d => Sys2Proof.Machine.execLdD o p b d s
  | .stW o p b d => Sys2Proof.Machine.execStW o p b d s
  | .stD o p b d => Sys2Proof.Machine.execStD o p b d s
  | .ldMn p q z o a d => Sys2Proof.Machine.execLdMn p q z o a d s
  | .stMn p q z o a d => Sys2Proof.Machine.execStMn p q z o a d s
  | .ldSp p z o a d => Sys2Proof.Machine.execLdSp p z o a d s
  | .stSp p z o a d => Sys2Proof.Machine.execStSp p z o a d s
  | .ldVm p z o a d => Sys2Proof.Machine.execLdVm p z o a d s
  | .stVm p z o a d => Sys2Proof.Machine.execStVm p z o a d s
  | .amoSwap p w s1 a d => Sys2Proof.Machine.execAmoSwap p w s1 a d s
  | .amoCas p w s1 a d => Sys2Proof.Machine.execAmoCas p w s1 a d s
  | .amoAdd p w s1 a d => Sys2Proof.Machine.execAmoAdd p w s1 a d s
  | .amoAnd p w s1 a d => Sys2Proof.Machine.execAmoAnd p w s1 a d s
  | .amoOr p w s1 a d => Sys2Proof.Machine.execAmoOr p w s1 a d s
  | .amoXor p w s1 a d => Sys2Proof.Machine.execAmoXor p w s1 a d s
  | .amoMin p w s1 a d => Sys2Proof.Machine.execAmoMin p w s1 a d s
  | .amoMax p w s1 a d => Sys2Proof.Machine.execAmoMax p w s1 a d s
  | .amoMinu p w s1 a d => Sys2Proof.Machine.execAmoMinu p w s1 a d s
  | .amoMaxu p w s1 a d => Sys2Proof.Machine.execAmoMaxu p w s1 a d s
  | .updAdd p w a d => Sys2Proof.Machine.execUpdAdd p w a d s
  | .updMin p w a d => Sys2Proof.Machine.execUpdMin p w a d s
  | .updMax p w a d => Sys2Proof.Machine.execUpdMax p w a d s
  | .amoSpSwap p s1 a d => Sys2Proof.Machine.execAmoSpSwap p s1 a d s
  | .amoSpCas p s1 a d => Sys2Proof.Machine.execAmoSpCas p s1 a d s
  | .amoSpAdd p s1 a d => Sys2Proof.Machine.execAmoSpAdd p s1 a d s
  | .amoVmSwap p s1 a d => Sys2Proof.Machine.execAmoVmSwap p s1 a d s
  | .amoVmCas p s1 a d => Sys2Proof.Machine.execAmoVmCas p s1 a d s
  | .amoVmAdd p s1 a d => Sys2Proof.Machine.execAmoVmAdd p s1 a d s
  | .fenceS p s1 => Sys2Proof.Machine.execFenceS p s1 s
  | .fenceI => Sys2Proof.Machine.execFenceI s
  | .stRelW p s1 a d => Sys2Proof.Machine.execStRelW p s1 a d s
  | .stRelD p s1 a d => Sys2Proof.Machine.execStRelD p s1 a d s
  | .ldff p a d => Sys2Proof.Machine.execLdff p a d s
  | .ldfe p a d => Sys2Proof.Machine.execLdfe p a d s
  | .stef p a d => Sys2Proof.Machine.execStef p a d s
  | .stff p a d => Sys2Proof.Machine.execStff p a d s
  | .feEmpty a => Sys2Proof.Machine.execFeEmpty a s
  | .feTest p a d => Sys2Proof.Machine.execFeTest p a d s
  | .ldffPlace p c a d => Sys2Proof.Machine.execLdffPlace p c a d s
  | .ldfePlace p c a d => Sys2Proof.Machine.execLdfePlace p c a d s
  | .stefPlace p c a d => Sys2Proof.Machine.execStefPlace p c a d s
  | .stffPlace p c a d => Sys2Proof.Machine.execStffPlace p c a d s
  | .ldSpDPlace p c a d => Sys2Proof.Machine.execLdSpDPlace p c a d s
  | .stSpDPlace p c a d => Sys2Proof.Machine.execStSpDPlace p c a d s
  | .ldVmDPlace p c a d => Sys2Proof.Machine.execLdVmDPlace p c a d s
  | .stVmDPlace p c a d => Sys2Proof.Machine.execStVmDPlace p c a d s
  | .park p a => Sys2Proof.Machine.execPark p a s
  | .pin p a d => Sys2Proof.Machine.execPin p a d s
  | .unpin a => Sys2Proof.Machine.execUnpin a s
  | .unpinAll => Sys2Proof.Machine.execUnpinAll s
  | .pf a => Sys2Proof.Machine.execPf a s
  | .hbarArr p n d => Sys2Proof.Machine.execHbarArr p n d s
  | .hbarWt p n a d => Sys2Proof.Machine.execHbarWt p n a d s
  | .arm e n a => Sys2Proof.Machine.execArm e n a s
  | .disarm g n a => Sys2Proof.Machine.execDisarm g n a s
  | .mint r n a d => Sys2Proof.Machine.execMint r n a d s
  | .snd p b a i1 => Sys2Proof.Machine.execSnd p b a i1 s
  | .rcv p a d => Sys2Proof.Machine.execRcv p a d s
  | .fabst c d => Sys2Proof.Machine.execFabst c d s
  | .sndA p i1 b a d => Sys2Proof.Machine.execSndA p i1 b a d s
  | .yield n => Sys2Proof.Machine.execYield n s
  | .sleep n d => Sys2Proof.Machine.execSleep n d s
  | .wake a => Sys2Proof.Machine.execWake a s
  | .hold p => Sys2Proof.Machine.execHold p s
  | .exit => Sys2Proof.Machine.execExit s
  | .selfid d => Sys2Proof.Machine.execSelfid d s
  | .rdskip c d => Sys2Proof.Machine.execRdskip c d s
  | .hint p h b a d => Sys2Proof.Machine.execHint p h b a d s
  | .launch p b a => Sys2Proof.Machine.execLaunch p b a s
  | .cast p b a c => Sys2Proof.Machine.execCast p b a c s
  | .recast p c => Sys2Proof.Machine.execRecast p c s
  | .place a d => Sys2Proof.Machine.execPlace a d s
  | .placeSelf d => Sys2Proof.Machine.execPlaceSelf d s
  | .placeLoad d => Sys2Proof.Machine.execPlaceLoad d s
  | .vfadd p h b a d => Sys2Proof.Machine.execVfadd p h b a d s
  | .vfsub p h b a d => Sys2Proof.Machine.execVfsub p h b a d s
  | .vfmul p h b a d => Sys2Proof.Machine.execVfmul p h b a d s
  | .vfmin p h b a d => Sys2Proof.Machine.execVfmin p h b a d s
  | .vfmax p h b a d => Sys2Proof.Machine.execVfmax p h b a d s
  | .vfabs p h a d => Sys2Proof.Machine.execVfabs p h a d s
  | .vfneg p h a d => Sys2Proof.Machine.execVfneg p h a d s
  | .vfma p h b a d => Sys2Proof.Machine.execVfma p h b a d s
  | .vfms p h b a d => Sys2Proof.Machine.execVfms p h b a d s
  | .vfma4 p h b a d => Sys2Proof.Machine.execVfma4 p h b a d s
  | .vfeq p h b a k => Sys2Proof.Machine.execVfeq p h b a k s
  | .vflt p h b a k => Sys2Proof.Machine.execVflt p h b a k s
  | .vfle p h b a k => Sys2Proof.Machine.execVfle p h b a k s
  | .vadd w p h b a d => Sys2Proof.Machine.execVadd w p h b a d s
  | .vsub w p h b a d => Sys2Proof.Machine.execVsub w p h b a d s
  | .vmul w p h b a d => Sys2Proof.Machine.execVmul w p h b a d s
  | .vsll w p h b a d => Sys2Proof.Machine.execVsll w p h b a d s
  | .vsrl w p h b a d => Sys2Proof.Machine.execVsrl w p h b a d s
  | .vsra w p h b a d => Sys2Proof.Machine.execVsra w p h b a d s
  | .vmin w p h b a d => Sys2Proof.Machine.execVmin w p h b a d s
  | .vmax w p h b a d => Sys2Proof.Machine.execVmax w p h b a d s
  | .vminu w p h b a d => Sys2Proof.Machine.execVminu w p h b a d s
  | .vmaxu w p h b a d => Sys2Proof.Machine.execVmaxu w p h b a d s
  | .vand p h b a d => Sys2Proof.Machine.execVand p h b a d s
  | .vor p h b a d => Sys2Proof.Machine.execVor p h b a d s
  | .vxor p h b a d => Sys2Proof.Machine.execVxor p h b a d s
  | .vandn p h b a d => Sys2Proof.Machine.execVandn p h b a d s
  | .vieq p h b a k => Sys2Proof.Machine.execVieq p h b a k s
  | .vilt p h b a k => Sys2Proof.Machine.execVilt p h b a k s
  | .viltu p h b a k => Sys2Proof.Machine.execViltu p h b a k s
  | .vbcast p h a d => Sys2Proof.Machine.execVbcast p h a d s
  | .kget p h k d => Sys2Proof.Machine.execKget p h k d s
  | .kset p h a k => Sys2Proof.Machine.execKset p h a k s
  | .vperm p h b a d => Sys2Proof.Machine.execVperm p h b a d s
  | .vperm2 p h b a d => Sys2Proof.Machine.execVperm2 p h b a d s
  | .vrot p h s1 a d => Sys2Proof.Machine.execVrot p h s1 a d s
  | .vins p h s1 a d => Sys2Proof.Machine.execVins p h s1 a d s
  | .vext p h s1 a d => Sys2Proof.Machine.execVext p h s1 a d s
  | .vsumF p h a d => Sys2Proof.Machine.execVsumF p h a d s
  | .vmaxF p h a d => Sys2Proof.Machine.execVmaxF p h a d s
  | .vminF p h a d => Sys2Proof.Machine.execVminF p h a d s
  | .vsumI32 p h a d => Sys2Proof.Machine.execVsumI32 p h a d s
  | .vmaxI32 p h a d => Sys2Proof.Machine.execVmaxI32 p h a d s
  | .vminI32 p h a d => Sys2Proof.Machine.execVminI32 p h a d s
  | .vsumI16 p h a d => Sys2Proof.Machine.execVsumI16 p h a d s
  | .vsumI8 p h a d => Sys2Proof.Machine.execVsumI8 p h a d s
  | .vsumBf p h a d => Sys2Proof.Machine.execVsumBf p h a d s
  | .vld p h o a d => Sys2Proof.Machine.execVld p h o a d s
  | .vldWk p h o a d => Sys2Proof.Machine.execVldWk p h o a d s
  | .vst p h o a d => Sys2Proof.Machine.execVst p h o a d s
  | .vstWk p h o a d => Sys2Proof.Machine.execVstWk p h o a d s
  | .vldSp p h o a d => Sys2Proof.Machine.execVldSp p h o a d s
  | .vstSp p h o a d => Sys2Proof.Machine.execVstSp p h o a d s
  | .vldWin p h o a d => Sys2Proof.Machine.execVldWin p h o a d s
  | .vstWin p h o a d => Sys2Proof.Machine.execVstWin p h o a d s
  | .scfg b a n => Sys2Proof.Machine.execScfg b a n s
  | .sclr n => Sys2Proof.Machine.execSclr n s
  | .srem n d => Sys2Proof.Machine.execSrem n d s
  | .vrcpA p h a d => Sys2Proof.Machine.execVrcpA p h a d s
  | .vrsqA p h a d => Sys2Proof.Machine.execVrsqA p h a d s
  | .vrcpS p h b a d => Sys2Proof.Machine.execVrcpS p h b a d s
  | .vrsqS p h b a d => Sys2Proof.Machine.execVrsqS p h b a d s
  | .vexp2A p h a d => Sys2Proof.Machine.execVexp2A p h a d s
  | .vlog2A p h a d => Sys2Proof.Machine.execVlog2A p h a d s
  | .pfx z o r e k => Sys2Proof.Machine.execPfx z o r e k s
  | .vcvtFI p h a d => Sys2Proof.Machine.execVcvtFI p h a d s
  | .vcvtIF p h a d => Sys2Proof.Machine.execVcvtIF p h a d s
  | .vcvtBfF p h b a d => Sys2Proof.Machine.execVcvtBfF p h b a d s
  | .vcvtFBf p h g a d => Sys2Proof.Machine.execVcvtFBf p h g a d s
  | .vcvtFMk8 p h q a d => Sys2Proof.Machine.execVcvtFMk8 p h q a d s
  | .vpackI16 p h b a d => Sys2Proof.Machine.execVpackI16 p h b a d s
  | .vunpkI16 p h g a d => Sys2Proof.Machine.execVunpkI16 p h g a d s
  | .vunpkI8 p h q a d => Sys2Proof.Machine.execVunpkI8 p h q a d s
  | .vquant p h t a d => Sys2Proof.Machine.execVquant p h t a d s
  | .mlease p d => Sys2Proof.Machine.execMlease p d s
  | .mrel => Sys2Proof.Machine.execMrel s
  | .tsh p a t => Sys2Proof.Machine.execTsh p a t s
  | .tshr p t d => Sys2Proof.Machine.execTshr p t d s
  | .tld p b a t => Sys2Proof.Machine.execTld p b a t s
  | .tst p b a t => Sys2Proof.Machine.execTst p b a t s
  | .tzero p t => Sys2Proof.Machine.execTzero p t s
  | .mma p b a f z c => Sys2Proof.Machine.execMma p b a f z c s
  | .tqnt p b u t => Sys2Proof.Machine.execTqnt p b u t s
  | .cpMm p b a r w q => Sys2Proof.Machine.execCpMm p b a r w q s
  | .cpMs p b a r w q => Sys2Proof.Machine.execCpMs p b a r w q s
  | .cpMv p b a r w q => Sys2Proof.Machine.execCpMv p b a r w q s
  | .cpSm p b a r w q => Sys2Proof.Machine.execCpSm p b a r w q s
  | .cpSs p b a r w q => Sys2Proof.Machine.execCpSs p b a r w q s
  | .cpSv p b a r w q => Sys2Proof.Machine.execCpSv p b a r w q s
  | .cpVm p b a r w q => Sys2Proof.Machine.execCpVm p b a r w q s
  | .cpVs p b a r w q => Sys2Proof.Machine.execCpVs p b a r w q s
  | .cpVv p b a r w q => Sys2Proof.Machine.execCpVv p b a r w q s
  | .cpGth p b a r w q => Sys2Proof.Machine.execCpGth p b a r w q s
  | .cpSct p b a r w q => Sys2Proof.Machine.execCpSct p b a r w q s
  | .qfCp p a q => Sys2Proof.Machine.execQfCp p a q s
  | .clAredSum p b a q => Sys2Proof.Machine.execClAredSum p b a q s
  | .clAredMax p b a q => Sys2Proof.Machine.execClAredMax p b a q s
  | .clAredMin p b a q => Sys2Proof.Machine.execClAredMin p b a q s
  | .clBcst p b a q => Sys2Proof.Machine.execClBcst p b a q s
  | .clGath p b a q => Sys2Proof.Machine.execClGath p b a q s
  | .qfCl p a q => Sys2Proof.Machine.execQfCl p a q s
  | .cbInit p b a => Sys2Proof.Machine.execCbInit p b a s
  | .cbArr p a d => Sys2Proof.Machine.execCbArr p a d s
  | .cbWt p b a d => Sys2Proof.Machine.execCbWt p b a d s
  | .cbClr p a => Sys2Proof.Machine.execCbClr p a s
  | .mfsr s1 d => Sys2Proof.Machine.execMfsr s1 d s
  | .mtsr s1 a => Sys2Proof.Machine.execMtsr s1 a s
  | .mfcr a d => Sys2Proof.Machine.execMfcr a d s
  | .mtcr b a => Sys2Proof.Machine.execMtcr b a s
  | .hret => Sys2Proof.Machine.execHret s
  | .trap n => Sys2Proof.Machine.execTrap n s
  | .copRd n a d => Sys2Proof.Machine.execCopRd n a d s
  | .copReplay a => Sys2Proof.Machine.execCopReplay a s
  | .fltDone b a => Sys2Proof.Machine.execFltDone b a s
  | .tlbInv p b a => Sys2Proof.Machine.execTlbInv p b a s
  | .tlbInva p => Sys2Proof.Machine.execTlbInva p s
  | .tlbProbe p a d => Sys2Proof.Machine.execTlbProbe p a d s
  | .atpRd d => Sys2Proof.Machine.execAtpRd d s
  | .atpWr p a => Sys2Proof.Machine.execAtpWr p a s
  | .ctxNew p a d => Sys2Proof.Machine.execCtxNew p a d s
  | .ctxGrant p b a => Sys2Proof.Machine.execCtxGrant p b a s
  | .ctxRd s1 a d => Sys2Proof.Machine.execCtxRd s1 a d s
  | .ctxWr p b a s1 => Sys2Proof.Machine.execCtxWr p b a s1 s
  | .ctxRun p a => Sys2Proof.Machine.execCtxRun p a s
  | .ctxStop p a => Sys2Proof.Machine.execCtxStop p a s
  | .ctxKill p a => Sys2Proof.Machine.execCtxKill p a s
  | .ctxResume p c a => Sys2Proof.Machine.execCtxResume p c a s
  | .ctxIntr a => Sys2Proof.Machine.execCtxIntr a s
  | .addN d b => Sys2Proof.Machine.execAddN d b s
  | .subN d b => Sys2Proof.Machine.execSubN d b s
  | .andN d b => Sys2Proof.Machine.execAndN d b s
  | .orN d b => Sys2Proof.Machine.execOrN d b s
  | .xorN d b => Sys2Proof.Machine.execXorN d b s
  | .sllN d b => Sys2Proof.Machine.execSllN d b s
  | .srlN d b => Sys2Proof.Machine.execSrlN d b s
  | .sraN d b => Sys2Proof.Machine.execSraN d b s
  | .mulN d b => Sys2Proof.Machine.execMulN d b s
  | .jrN b => Sys2Proof.Machine.execJrN b s
  | .callrN b => Sys2Proof.Machine.execCallrN b s
  | .retN => Sys2Proof.Machine.execRetN s
  | .addiN d i1 => Sys2Proof.Machine.execAddiN d i1 s
  | .liN d i1 => Sys2Proof.Machine.execLiN d i1 s
  | .slliN d i1 => Sys2Proof.Machine.execSlliN d i1 s
  | .srliN d i1 => Sys2Proof.Machine.execSrliN d i1 s
  | .sraiN d i1 => Sys2Proof.Machine.execSraiN d i1 s
  | .andiN d i1 => Sys2Proof.Machine.execAndiN d i1 s
  | .addiNSp i1 => Sys2Proof.Machine.execAddiNSp i1 s
  | .nopN => Sys2Proof.Machine.execNopN s
  | .ldDN d b u p => Sys2Proof.Machine.execLdDN d b u p s
  | .stDN s1 b u p => Sys2Proof.Machine.execStDN s1 b u p s
  | .ldWN d b u p => Sys2Proof.Machine.execLdWN d b u p s
  | .stWN s1 b u p => Sys2Proof.Machine.execStWN s1 b u p s
  | .ldDNSp d u p => Sys2Proof.Machine.execLdDNSp d u p s
  | .stDNSp s1 u p => Sys2Proof.Machine.execStDNSp s1 u p s
  | .jN o => Sys2Proof.Machine.execJN o s
  | .ydSleepWake sid => Sys2Proof.Machine.execYdSleepWake sid s
  | .ydSleepTimeout sid => Sys2Proof.Machine.execYdSleepTimeout sid s
  | .preciseTrapDelivery sid => Sys2Proof.Machine.execPreciseTrapDelivery sid s
  | .lateFaultDelivery sid => Sys2Proof.Machine.execLateFaultDelivery sid s
  | .overwriteTrap sid => Sys2Proof.Machine.execOverwriteTrap sid s
  | .trapReflection sid => Sys2Proof.Machine.execTrapReflection sid s
  | .coreReset cid => Sys2Proof.Machine.execCoreReset cid s
  | .holdSkipEnd sid => Sys2Proof.Machine.execHoldSkipEnd sid s
  | .heldResultWrite sid => Sys2Proof.Machine.execHeldResultWrite sid s
  | .l1LineFill cid slot line => Sys2Proof.Machine.execL1LineFill cid slot line s
  | .arrivalHoldExpiry cid line => Sys2Proof.Machine.execArrivalHoldExpiry cid line s
  | .yieldEnd sid => Sys2Proof.Machine.execYieldEnd sid s
  | .sleepTimeout sid => Sys2Proof.Machine.execSleepTimeout sid s
  | .threadExitComplete sid => Sys2Proof.Machine.execThreadExitComplete sid s
  | .slotArbitration => Sys2Proof.Machine.execSlotArbitration s
  | .launchRequest n => Sys2Proof.Machine.execLaunchRequest n s
  | .launchReply n => Sys2Proof.Machine.execLaunchReply n s
  | .launchAdmit cl => Sys2Proof.Machine.execLaunchAdmit cl s
  | .lightThreadMove cl => Sys2Proof.Machine.execLightThreadMove cl s
  | .lightThreadArrival sid => Sys2Proof.Machine.execLightThreadArrival sid s
  | .messageDeparture cid => Sys2Proof.Machine.execMessageDeparture cid s
  | .fabricMessageArrival far n dev ctx idx clock cap v ack => Sys2Proof.Machine.execFabricMessageArrival far n dev ctx idx clock cap v ack s
  | .inboxDeferredReply cid => Sys2Proof.Machine.execInboxDeferredReply cid s
  | .sendReply far n sid gen since code => Sys2Proof.Machine.execSendReply far n sid gen since code s
  | .sendLatchTimeout sid => Sys2Proof.Machine.execSendLatchTimeout sid s
  | .streamWriteDrain sid => Sys2Proof.Machine.execStreamWriteDrain sid s
  | .l1iFill n => Sys2Proof.Machine.execL1iFill n s
  | .fetchPrefetch sid va => Sys2Proof.Machine.execFetchPrefetch sid va s
  | .demandFetch sid => Sys2Proof.Machine.execDemandFetch sid s
  | .combineDrain cid line => Sys2Proof.Machine.execCombineDrain cid line s
  | .combineAgeExpiry cid => Sys2Proof.Machine.execCombineAgeExpiry cid s
  | .leaseAgeExpiry cid line => Sys2Proof.Machine.execLeaseAgeExpiry cid line s
  | .leaseRenewal cid slot line => Sys2Proof.Machine.execLeaseRenewal cid slot line s
  | .writeGrant cid slot line => Sys2Proof.Machine.execWriteGrant cid slot line s
  | .ownershipGrant cid slot line => Sys2Proof.Machine.execOwnershipGrant cid slot line s
  | .updateMerge cid line => Sys2Proof.Machine.execUpdateMerge cid line s
  | .remoteReply cid n refused data => Sys2Proof.Machine.execRemoteReply cid n refused data s
  | .forwardedAccess dev kind sys op wide data mask => Sys2Proof.Machine.execForwardedAccess dev kind sys op wide data mask s
  | .remoteTimeout cid n => Sys2Proof.Machine.execRemoteTimeout cid n s
  | .vsegWrite cl v => Sys2Proof.Machine.execVsegWrite cl v s
  | .vsegSegmentStep cl => Sys2Proof.Machine.execVsegSegmentStep cl s
  | .winWrite cl n v => Sys2Proof.Machine.execWinWrite cl n v s
  | .scopeEntryWrite a i1 v => Sys2Proof.Machine.execScopeEntryWrite a i1 v s
  | .hbcWrite cl n v => Sys2Proof.Machine.execHbcWrite cl n v s
  | .fqbWrite a v => Sys2Proof.Machine.execFqbWrite a v s
  | .fqhWrite a v => Sys2Proof.Machine.execFqhWrite a v s
  | .erbWrite a v => Sys2Proof.Machine.execErbWrite a v s
  | .ercWrite a v => Sys2Proof.Machine.execErcWrite a v s
  | .heldStoreReplay cl => Sys2Proof.Machine.execHeldStoreReplay cl s
  | .requestReply sid => Sys2Proof.Machine.execRequestReply sid s
  | .placeRequest n => Sys2Proof.Machine.execPlaceRequest n s
  | .parkedValueDelivery n => Sys2Proof.Machine.execParkedValueDelivery n s
  | .parkReservationExpiry cl => Sys2Proof.Machine.execParkReservationExpiry cl s
  | .queueReservationExpiry kind i1 q => Sys2Proof.Machine.execQueueReservationExpiry kind i1 q s
  | .hbarAdvance die n => Sys2Proof.Machine.execHbarAdvance die n s
  | .hbarTimeout cl n => Sys2Proof.Machine.execHbarTimeout cl n s
  | .queueFencePerform kind i1 q => Sys2Proof.Machine.execQueueFencePerform kind i1 q s
  | .copyEntryStart cl q => Sys2Proof.Machine.execCopyEntryStart cl q s
  | .copyRow cl q => Sys2Proof.Machine.execCopyRow cl q s
  | .leaseGrant cl => Sys2Proof.Machine.execLeaseGrant cl s
  | .leaseHoldEnd cl => Sys2Proof.Machine.execLeaseHoldEnd cl s
  | .leaseCycleLimit cl => Sys2Proof.Machine.execLeaseCycleLimit cl s
  | .tshPerform cl => Sys2Proof.Machine.execTshPerform cl s
  | .tldRow cl => Sys2Proof.Machine.execTldRow cl s
  | .tstRow cl => Sys2Proof.Machine.execTstRow cl s
  | .tzeroPerform cl => Sys2Proof.Machine.execTzeroPerform cl s
  | .mmaStep cl => Sys2Proof.Machine.execMmaStep cl s
  | .tqntRow cl => Sys2Proof.Machine.execTqntRow cl s
  | .collectiveMatch f q err parts => Sys2Proof.Machine.execCollectiveMatch f q err parts s
  | .collectiveStep f q => Sys2Proof.Machine.execCollectiveStep f q s
  | .faultRecord sid va kind => Sys2Proof.Machine.execFaultRecord sid va kind s
  | .sorterBatchClose field => Sys2Proof.Machine.execSorterBatchClose field s
  | .scrivenerWalk n => Sys2Proof.Machine.execScrivenerWalk n s
  | .tlbFillHoldExpiry cid => Sys2Proof.Machine.execTlbFillHoldExpiry cid s
  | .invalidationComplete n => Sys2Proof.Machine.execInvalidationComplete n s
  | .kick a q => Sys2Proof.Machine.execKick a q s
  | .ctxNewStep a => Sys2Proof.Machine.execCtxNewStep a s
  | .cores a => Sys2Proof.Machine.execCores a s
  | .window a => Sys2Proof.Machine.execWindow a s
  | .qslot a => Sys2Proof.Machine.execQslot a s
  | .budget a => Sys2Proof.Machine.execBudget a s
  | .map a => Sys2Proof.Machine.execMap a s
  | .recallMapped a => Sys2Proof.Machine.execRecall a s
  | .ctxWrStep a => Sys2Proof.Machine.execCtxWrStep a s
  | .cenWrite t v => Sys2Proof.Machine.execCenWrite t v s
  | .featWrite t v => Sys2Proof.Machine.execFeatWrite t v s
  | .rekey t => Sys2Proof.Machine.execRekey t s
  | .ctxRunStep a => Sys2Proof.Machine.execCtxRunStep a s
  | .ctxStopStep a => Sys2Proof.Machine.execCtxStopStep a s
  | .ctxKillStep a => Sys2Proof.Machine.execCtxKillStep a s
  | .ctxFreezeStep a => Sys2Proof.Machine.execCtxFreezeStep a s
  | .ctxThawStep a => Sys2Proof.Machine.execCtxThawStep a s
  | .tokenResume a token => Sys2Proof.Machine.execTokenResume a token s
  | .tokenDown a token => Sys2Proof.Machine.execTokenDown a token s
  | .tokenUp a token => Sys2Proof.Machine.execTokenUp a token s
  | .tokenKill a token => Sys2Proof.Machine.execTokenKill a token s
  | .corePreempt cid => Sys2Proof.Machine.execCorePreempt cid s
  | .clusterSave t v => Sys2Proof.Machine.execClusterSave t v s
  | .clusterRestore t v => Sys2Proof.Machine.execClusterRestore t v s
  | .liveMigration sid dst => Sys2Proof.Machine.execLiveMigration sid dst s
  | .queueSwitchOut a q => Sys2Proof.Machine.execQueueSwitchOut a q s
  | .clusterReset cl => Sys2Proof.Machine.execClusterReset cl s
  | .dieLinkFlitRetry link tries n => Sys2Proof.Machine.execDieLinkFlitRetry link tries n s
  | .linkFlitRetry port seq cl => Sys2Proof.Machine.execLinkFlitRetry port seq cl s
  | .portRetrain port ok bad => Sys2Proof.Machine.execPortRetrain port ok bad s
  | .portRetrainComplete port lanes => Sys2Proof.Machine.execPortRetrainComplete port lanes s
  | .portDown port routes => Sys2Proof.Machine.execPortDown port routes s
  | .portCounterClear port off v => Sys2Proof.Machine.execPortCounterClear port off v s
  | .hostWrite ep ap off data => Sys2Proof.Machine.execHostWrite ep ap off data s
  | .hostRead ep ap off len => Sys2Proof.Machine.execHostRead ep ap off len s
  | .permissionMapWrite cl device m => Sys2Proof.Machine.execPermissionMapWrite cl device m s
  | .allotmentWrite barrier i1 n v => Sys2Proof.Machine.execAllotmentWrite barrier i1 n v s
  | .quotaWrite cl tn v => Sys2Proof.Machine.execQuotaWrite cl tn v s
  | .umonClear cl tn => Sys2Proof.Machine.execUmonClear cl tn s
  | .counterSnapshot => Sys2Proof.Machine.execCounterSnapshot s
  | .counterPublish a => Sys2Proof.Machine.execCounterPublish a s
  | .halt cl off v => Sys2Proof.Machine.execHalt cl off v s
  | .debugResume cl mask => Sys2Proof.Machine.execDebugResume cl mask s
  | .crossTrigger n => Sys2Proof.Machine.execCrossTrigger n s
  | .breakpointHit sid => Sys2Proof.Machine.execBreakpointHit sid s
  | .pwrsWrite v => Sys2Proof.Machine.execPwrsWrite v s
  | .slowEntry vin => Sys2Proof.Machine.execSlowEntry vin s
  | .normalReturn vin => Sys2Proof.Machine.execNormalReturn vin s
  | .saveEntry vin long => Sys2Proof.Machine.execSaveEntry vin long s
  | .overvoltageDisconnect vin long => Sys2Proof.Machine.execOvervoltageDisconnect vin long s
  | .saveComplete => Sys2Proof.Machine.execSaveComplete s
  | .heldRestore vin => Sys2Proof.Machine.execHeldRestore vin s
  | .holdupSpent => Sys2Proof.Machine.execHoldupSpent s
  | .transportEvent g ms => Sys2Proof.Machine.execTransportEvent g ms s
  | .extendedSelfTest clusters ports => Sys2Proof.Machine.execExtendedSelfTest clusters ports s
  | .powerUp vin => Sys2Proof.Machine.execPowerUp vin s
  | .imageLoad port first second c => Sys2Proof.Machine.execImageLoad port first second c s
  | .attestationRequest ep nonce => Sys2Proof.Machine.execAttestationRequest ep nonce s
  | .streamElementArrival sid n => Sys2Proof.Machine.execStreamElementArrival sid n s
  | .flitAcknowledgement port seq => Sys2Proof.Machine.execFlitAcknowledgement port seq s
  | .deviceIdentifierAssignment id routes => Sys2Proof.Machine.execDeviceIdentifierAssignment id routes s

end Sys2Proof.Machine
end

