-- ==== Sys2Proof/Machine/Units.lean ====
section
/-! DEFINITION. The units that act on their own: the performing of owed jobs, soft errors, and what the hardware does at a
rotation boundary (R122, R157, and the time limits and engine steps of their chapters). -/

namespace Sys2Proof.Machine

/-- R346, R347: an uncorrectable error that a reader has met is counted and logged, under the virtual number of its
cluster. -/
def State.logRead (s : State) (a kind src addr : Nat) (ma : Bool) (time : Nat) : State :=
  let addr := if 3 ≤ src ∧ src ≤ 5 then s.vclOf a (addr / 2 ^ 54) * 2 ^ 54 + addr % 2 ^ 54 else addr
  (s.countErrors a 1).logError a src kind addr ma (some time)

/-- Perform a job that a unit owes. A tile engine's 16 steps are those of a rotation (R303).
(Log: DESIGN CHOICE 11; DESIGN CHOICE 13) -/
def State.perform (s : State) : Job → State
  | .walk cid ctx va kind who eng => s.scrivenerWalk cid ctx va (Kind.ofCode kind) who eng
  | .probe who va pc => s.probeWalk who va pc
  | .fill cid slot line pc => s.fillLine cid slot line pc
  | .renew cid slot line pc => s.renewLease cid slot line pc
  | .grant cid slot line => s.giveGrant cid slot line
  | .own cid slot line => s.grantOwner cid slot line
  | .merge cid line => s.mergeLine cid line
  | .drain cid line => s.drainComb cid line
  | .fetch cid line st => s.fillL1i cid line st
  | .fetchFar sid va => s.fetchFar sid va
  | .prefetch sid pc => s.prefetchAll sid pc
  | .request r => s.performRequest r
  | .launch w => s.launchRequest w
  | .launchReply who code id _ => s.launchReplied who code id
  | .depart cid => s.depart cid
  | .arrive cl m => s.arrive cl m
  | .reply m code _ => s.sendReply m code
  | .ringDrain sid => s.performDrains sid
  | .vsegStep cl => s.vsegStep cl
  | .parkWake ctx frame => s.parkWake ctx frame
  | .lightArrive sid => s.lightArrive sid
  | .reflect sid => s.reflect sid
  | .closeBatch field => s.closeBatch field
  | .replayHeld cl => s.replayHeld cl
  | .kick ctx q => s.kick ctx q
  | .bell ctx bell v => s.doorbell ctx bell v
  | .copyRow cl q => s.copyStep cl q
  | .leaseGrant cl => s.leaseGrant cl
  | .tileStep cl => (upTo 16).foldl (fun (s : State) _ => s.tileStep cl) s
  | .collStep field q => s.collQueueStep field q
  | .ctxStep ctx => s.ctxStep ctx
  | .hbar die n => s.hbarStep die n
  | .trigger a b since => s.triggerAt a b (s.cycle - since)
  | .hostRetry => s.hostRetry
  | .errorLog a kind src addr ma time => s.logRead a kind src addr ma time

/-- R346: a soft error strikes a unit of an array with check bits; one that cannot be corrected stays so.
(Log: DESIGN CHOICE 67) -/
def State.upset (s : State) (u : EccAt) (uncorrectable : Bool) : State :=
  let old := s.ecc.any (fun e => e.1 == u && e.2)
  { s with ecc := s.ecc.filter (fun e => e.1 != u) ++ [(u, uncorrectable || old)] }

/-- R306: a soft error strikes the next n attempts of a cluster's matrix array at a step. (Log: DESIGN CHOICE 67) -/
def State.arrayUpset (s : State) (cl n : Nat) : State := s.modCluster cl (fun k => { k with arrayBad := n })

/-! ### Rotation boundaries -/

/-- The time limits of a core: R233 its combining entries, R170 its deferred replies, R345 its remote accesses; and R391 the
slots of a pre-empted core become FREE. -/
def State.upkeepCore (s : State) (cid : Nat) : State :=
  let s := ((s.expireComb cid).modCore cid Core.fillInbox).keepCore cid
  let s := if (upTo 16).any (fun i => (s.slot (16 * cid + i)).occupied) then s else s.flushPort cid
  (upTo (s.core cid).remote.length).reverse.foldl (fun (s : State) n => s.remoteTimeout cid n) s

/-- R173: the send latches of threads in no slot that have stayed BUSY for their time. -/
def State.awayTimeouts (s : State) : State :=
  let late (h : Thread) : Bool := h.sl.st == .busy && decide (h.sl.since + 65536 ≤ s.cycle)
  let uids := s.ctxs.flatMap (fun p => (p.2.framesIn.filter (fun f => late f.th)).map (fun f => f.th.uid)) ++
    s.cores.flatMap (fun p => (p.2.kept.filter (fun q => late q.2.th)).map (fun q => q.2.th.uid)) ++
    s.saves.flatMap (fun g => (g.slots.filter (fun p => late p.2.th)).map (fun p => p.2.th.uid))
  uids.foldl (fun (s : State) u => s.modAway u (fun h => h.sendTimeout s.cycle)) s

/-- The time limits of a slot: R173 its send latch, R13 its `.yd` sleep, which stands still while its core is halted
(R430), and R375 a reflection that waits. -/
def State.upkeepSlot (s : State) (sid : Nat) : State :=
  let s := s.modThread sid (fun h => h.sendTimeout s.cycle)
  let s := if (s.core (coreOf sid)).halted then s else s.ydWake sid
  if (s.slot sid).reflecting then s.owe (.reflect sid) else s

/-- The time limits and the steps owed of a cluster: R225, R275 reservations, R148 held launches, R269 barriers, and its
engines. While the holder's core is halted no cycle counts towards its lease (R430).
(Log: DESIGN CHOICE 13; DESIGN CHOICE 24) -/
def State.upkeepCluster (s : State) (cl : Nat) : State :=
  let now := s.cycle
  let s := (s.parkExpire cl).launchAdmit cl
  let s := s.modCluster cl (fun c => { c with
    copyCtl := c.copyCtl.map (fun q => q.expire now), tileCtl := c.tileCtl.expire now })
  let s := (upTo 4).foldl (fun (s : State) n =>
    let w := vrd (s.cluster cl).hbc n
    if s.hbarExpired cl n then s.hbarAdvanceAll (dieOf cl) n true
    else if hbEn w && hbArr w == hbCnt w then s.owe (.hbar (dieOf cl) n) else s) s
  let s := match (s.cluster cl).lease.holder with
    | some c =>
      if (s.core (8 * cl + c)).halted then s.modLease cl (fun l => { l with since := l.since + 16 }) else s
    | none => s
  let s := (upTo 8).foldl (fun (s : State) q => if (s.copyHead cl q).isSome then s.owe (.copyRow cl q) else s) s
  let s := if (s.cluster cl).lease.holder.isSome || (s.tileHead cl).isSome then s.owe (.tileStep cl) else s
  let s := if (s.cluster cl).lease.reqs.isEmpty then s else s.owe (.leaseGrant cl)
  let s := if (s.cluster cl).vsegTo.isSome then s.owe (.vsegStep cl) else s
  if (s.cluster cl).replay.any (·.released.isSome) then s.owe (.replayHeld cl) else s

/-- The steps owed of a field. -/
def State.upkeepField (s : State) (f : Nat) : State :=
  let now := s.cycle
  let s := s.modField f (fun c => { c with collCtl := c.collCtl.map (fun q => q.expire now) })
  let s := (upTo 4).foldl (fun (s : State) q => if (s.collHead f q).isSome then s.owe (.collStep f q) else s) s
  if (s.field f).batch.isEmpty && (s.field f).closed.isEmpty then s else s.owe (.closeBatch f)

/-- The steps owed of a context: its engine, its queues with commands not yet accepted, and its parked threads. -/
def State.upkeepCtx (s : State) (a : Nat) : State :=
  let c := s.ctx a
  let s := if c.act && !s.frozenQueues a && !c.engine.isEmpty then s.owe (.ctxStep a) else s
  c.queues.foldl (fun (s : State) q => if s.isLive a q.1 && q.2.head != q.2.tail then s.owe (.kick a q.1) else s) s

/-- The clusters that the tables of the device name. -/
def State.someClusters (s : State) : List Nat := uniq (s.clusters.map (·.1) ++ s.slots.map (fun p => clusterOf p.1))

/-- R434: the records that the trace units have made lie in their rings. -/
def State.flushTrace (s : State) : State :=
  s.fields.foldl (fun (s : State) p =>
    if p.2.traced ≥ p.2.trace.length then s
    else (((p.2.trace.drop p.2.traced).zipIdx).foldl (fun (s : State) e =>
      let m := (Config.traceBase p.1 + 16 * (p.2.traced + e.2)) % 2 ^ 39
      s.performWrite (m / 64) (cellsAt m (leBytes e.1.toNat 16)) 0 none) s).modField p.1 (fun f =>
        { f with traced := p.2.trace.length })) s

/-- R435, R427: every 65,536 cycles the counters of the active contexts are published, and at their own period the access
counters are copied to their snapshot. -/
def State.publishAll (s : State) : State :=
  if s.cycle % 65536 ≠ 0 then s
  else
    let s := (s.ctxs.filter (fun p => p.2.act)).foldl (fun (s : State) p => s.publish p.1) s
    if s.cycle % 2 ^ (16 + Config.snapPeriod.val) = 0 then s.snapshot else s

/-- R122: what the units of clusters, fields and contexts do once every 16 cycles. (Log: DESIGN CHOICE 13) -/
def State.upkeepAll (s : State) : State :=
  if s.cycle % 16 ≠ 0 then s
  else
    let s := s.someClusters.foldl State.upkeepCluster s
    let s := s.fields.foldl (fun (s : State) p => s.upkeepField p.1) s
    let s := s.ports.foldl (fun (s : State) p => s.reroute p.1) s
    (s.ctxs.foldl (fun (s : State) p => s.upkeepCtx p.1) s).awayTimeouts.publishAll

/-- R160: a cluster load register takes the counts of a boundary. -/
def State.takeLoad (s : State) (cl : Nat) : State :=
  let w := s.loadWord cl
  if (s.cluster cl).loadReg = w then s else s.modCluster cl (fun c => { c with loadReg := w })

/-- R122, R157: what happens at the rotation boundaries of a cycle: slots are arbitrated, the cores and slots at their
boundary and the units meet their time limits, light threads leave, and the cluster load registers are taken anew.
(Log: DESIGN CHOICE 13; DESIGN CHOICE 73) -/
def State.boundary (s : State) : State :=
  let s : State := { s.arbitrateNow with acted := s.cycle }
  let s := (s.cores.filter (fun p => s.atOwn p.1)).foldl (fun (s : State) p => s.upkeepCore p.1) s
  let s := (s.slots.filter (fun p => s.atOwn (coreOf p.1))).foldl (fun (s : State) p => s.upkeepSlot p.1) s
  let s := s.upkeepAll
  let s := s.someClusters.foldl State.lightMove s
  s.someClusters.foldl State.takeLoad s

end Sys2Proof.Machine
end

