-- ==== Sys2Proof/Machine/Issue.lean ====
section
/-! DEFINITION. The offered cycle of a core: what its slot does in it, the demand fetch and decoding of an instruction or
prefixed pair, its issue, and the reissue of the replay list (R45, R66 to R68, R122 to R142, R184, R210, R213, R329 to
R331, R430 to R432). -/

namespace Sys2Proof.Machine

/-! ### What stands at a pc (R45, R61, R66 to R68) -/

/-- What the demand fetch and the decoder find at a pc. -/
inductive Item where
  | instr (i : Instr)
  | pair (p i : Instr)
  | illegal (info : Word)
  | fault
  | wait (j : Option Job)

/-- R68: majors whose V-format instructions may follow a `pfx`. -/
def pairMajor (w : BitVec 32) : Bool := [16, 17, 18, 19, 21, 23].contains (majorOf w).toNat

/-- R67, R184, R200: the prefix fields that a base instruction takes: op4 is 0 but for `vfma4` and `vperm2`, and some take
no mask and no zeroing. -/
def pairFits (i : Instr) (z : BitVec 1) (o : BitVec 5) (e : BitVec 1) : Bool :=
  match i with
  | .vfma4 .. | .vperm2 .. => true
  | .kget .. | .kset .. | .vext .. | .vquant .. => o == 0#5 && z == 0#1 && e == 0#1
  | _ => o == 0#5

/-- R66 to R68: the pair of a `pfx` word and the base word after it. -/
noncomputable def pairOf (w b : BitVec 32) : Option (Instr × Instr) :=
  match decodeWord w with
  | some (.pfx z o r e k) =>
    if pairMajor b then
      match decodeWordIn (isStream o) b with
      | some i => if pairFits i z o e then some (.pfx z o r e k, i) else none
      | none => none
    else none
  | _ => none

/-- R68: the record of an illegal pair: the `pfx` word, and the first parcel of the word after it. -/
def pairInfo (w : BitVec 32) (q : BitVec 16) : Word := w64 (w.toNat + q.toNat * 2 ^ 32)

/-- R45, R61, R66, R68, R213: what stands at the pc of the thread of a slot. -/
noncomputable def State.itemAt (s : State) (sid : Nat) (pc : Word) : Item :=
  match s.fetchAt sid pc with
  | .fault => .fault
  | .wait j => .wait j
  | .one p =>
    match decodeParcel p with
    | some i => .instr i
    | none => .illegal (p.setWidth 64)
  | .two w =>
    if (majorOf w).toNat = 22 then
      match s.fetchAt sid (pc + 4#64) with
      | .fault => .fault
      | .wait j => .wait j
      | .one q => .illegal (pairInfo w q)
      | .two b =>
        match pairOf w b with
        | some (p, i) => .pair p i
        | none => .illegal (pairInfo w (b.setWidth 16))
    else
      match decodeWord w with
      | some i => .instr i
      | none => .illegal (w.setWidth 64)

/-- The pair of an instruction and its prefix, in one step. -/
def execPair (p i : Instr) (s : State) : Host.Outcome State Fault Refusal :=
  match exec p s with
  | .next s => exec i s
  | o => o

/-- R45, R213: the issue at the pc of the current thread. -/
noncomputable def State.issueAt (s : State) : Host.Outcome State Fault Refusal :=
  match s.itemAt s.cur s.th.pc with
  | .wait j => .next (s.demand j)
  | .fault => .next s.fetchFault
  | .illegal info => .next (s.raise tILLEGAL info)
  | .instr i => exec i s
  | .pair p i => execPair p i s

/-! ### The replay list (R331) -/

/-- R331: `cop.replay` reissues an entry: the thread stands at the entry's address with its prefix; the retry counter
counts at the pc of `cop.replay`. (Log: DEDUCED 22) -/
def Thread.reissue (h : Thread) (e : RingEntry) : Thread :=
  { h with pc := e.addr, prefixLatch := e.pfx, rtcTag := if h.rtcTag = h.pc then e.addr else h.rtcTag }

/-- R331: after the reissue: an entry that has issued leaves the list, and the pc advances after the last; one that has
not is reissued at the next offered cycle. A trap delivered meanwhile stands. (Log: DEDUCED 22) -/
def Thread.reissued (h old : Thread) (e : RingEntry) : Thread :=
  if h.cap.isNone then h
  else
    let tag := if h.rtcTag = e.addr then old.pc else h.rtcTag
    if h.nextSeq != old.nextSeq then
      match old.replay.drop 1 with
      | [] => { h with replay := [], cap := none, pc := old.pc + 4#64, prefixLatch := none, rtcTag := tag }
      | n :: r => { h with replay := n :: r, cap := some n, pc := old.pc, prefixLatch := none, rtcTag := tag }
    else { h with pc := old.pc, prefixLatch := none, rtcTag := tag }

/-- R331: the reissue of the entry that the current thread's `cop.replay` has reached. -/
noncomputable def State.replayIssue (s : State) (e : RingEntry) : Host.Outcome State Fault Refusal :=
  let old := s.th
  let o5 : Bool := match e.pfx with | some p => isStream p.op4 | none => false
  match decodeWordIn o5 e.word with
  | none => .next (s.raise tILLEGAL (e.word.setWidth 64))
  | some i =>
    match exec i (s.modTh (fun h => h.reissue e)) with
    | .next s' =>
      let s' := s'.modTh (fun h => h.reissued old e)
      if s'.th.cap.isNone then .next s'
      else .next (s'.modSlot s'.cur (fun sl => match sl.st with | .sleep (.policy _) _ => { sl with st := .run } | _ => sl))
    | o => o

/-! ### One offered cycle of a slot -/

/-- R150, R70: the first fetch of a new thread is an indirect branch to its entry. -/
noncomputable def State.issueFresh (s : State) : Host.Outcome State Fault Refusal :=
  let pc := s.th.pc
  match s.checkTarget .indirect pc with
  | .ok => (s.modTh (fun h => { h with fresh := false })).issueAt
  | .trap c => .next ((s.modTh (fun h => { h with fresh := false })).raise c pc)
  | .wait j => .next (s.oweOpt j)

/-- R432: the issue of the current thread, which a breakpoint that halts prevents. (Log: DEDUCED 46) -/
noncomputable def State.issue (s : State) : Host.Outcome State Fault Refusal :=
  match s.th.cap with
  | some e => s.replayIssue e
  | none =>
    match s.breakpointAt with
    | some w =>
      let s := (s.debugAct w.act s.th.pc.toNat).modTh (fun h => { h with broke := decide (2 ≤ w.act) })
      if w.act < 2 then .next s else if s.th.fresh then s.issueFresh else s.issueAt
    | none => if s.th.fresh then s.issueFresh else s.issueAt

/-- R329: the asynchronous deliveries and waiting traps of the current thread, and otherwise its issue. A trap that has
waited for older entries is delivered as its thread's offered cycle begins, so that the handler's first instruction issues
in it (R132). -/
noncomputable def State.runSlot (s : State) : Host.Outcome State Fault Refusal :=
  let h := s.th
  match h.lateFault with
  | some e => .next (s.deliverLate e)
  | none =>
    if h.trapWait.isSome then
      if h.inFlight then .next s.skipCounted
      else
        let s := s.deliverWaiting s.cur
        if (s.slot s.cur).st = .run then s.issue else .next s
    else if h.pendOv.isSome && !stBit h.st 7 then
      .next (if h.inFlight then s.skipCounted else s.overwriteTrap s.cur)
    else s.issue

/-- R131, R13, R139, R140: the offered cycle of the current slot, by its state. A late fault ends a `.yd` sleep, and no
other (R139, R141). (Log: DESIGN CHOICE 13; DEDUCED 80) -/
noncomputable def State.offerSlot (s : State) : Host.Outcome State Fault Refusal :=
  let rest (st : SlotSt) : Host.Outcome State Fault Refusal := .next (s.modSlot s.cur (fun sl => { sl with st := st }))
  match (s.slot s.cur).st with
  | .free => .next s
  | .run => s.runSlot
  | .skip (n + 1) => rest (.skip n)
  | .skip 0 => (s.modSlot s.cur (fun sl => { sl with st := .run })).runSlot
  | .sleep (.reflect _) _ => .next s
  | .sleep w 0 => let _ := w; (s.endSleep s.cur).runSlot
  | .sleep (.policy cs) (n + 1) => if s.th.lateFault.isSome then (s.endSleep s.cur).runSlot else rest (.sleep (.policy cs) n)
  | .sleep w (n + 1) => rest (.sleep w n)

/-- R430, R391: what a halted core still does for its slot: held results are written and traps found are delivered.
(Log: DEDUCED 21) -/
def State.haltedSlot (s : State) : State :=
  match s.th.lateFault with
  | some e => s.deliverLate e
  | none => s.deliverWaiting s.cur

/-- R386, R404: the current thread's context is active, and its core does not depart from it. (Log: DEDUCED 21) -/
def State.mayIssue (s : State) : Bool := (s.slot s.cur).occupied && !(s.slot s.cur).stopped && s.myCtx.act

/-- R122: what the offered cycle of the current slot does. -/
noncomputable def State.slotCycle (s : State) : Host.Outcome State Fault Refusal :=
  if s.me.stopped || !s.mayIssue then .next s
  else if s.me.halted then .next s.haltedSlot else s.offerSlot

/-- R122: the number of the device's cycle as a core counts it. -/
def State.coreCycle (s : State) (cid : Nat) : Nat := s.cycle - (s.core cid).start

/-- R122: the slot that a core offers issue to in this cycle. -/
def State.nextSlot (s : State) (cid : Nat) : Nat := 16 * cid + s.coreCycle cid % 16

/-- R122, R128: a cycle of a core begins: its slot is the current one, and no shared register has been written in it. -/
def State.openCycle (s : State) (cid : Nat) : State :=
  let n := s.coreCycle cid
  let sid := s.nextSlot cid
  (({ s with cur := sid } : State).modThread sid Thread.opened).modCore cid (fun k => { k with
    cycle := n, wrote := [], disarmed := [], ported := false })

/-- R131: the results of the slot that a core offers issue to next are written as the cycle before it ends.
(Log: DESIGN CHOICE 77) -/
def State.tickNext (s : State) (cid : Nat) : State :=
  let t : State := { s with cur := 16 * cid + (s.coreCycle cid + 1) % 16 }
  if t.me.stopped || !t.mayIssue then s else { t.tick with cur := s.cur }

/-- R122, R128: a cycle of a core ends: the results due are written, and then its fabric port applies an arrival. -/
def State.closeCycle (s : State) (cid : Nat) : State :=
  let n := s.coreCycle cid
  let s := s.modTh (fun h => if h.broke then { h with broke := false } else h)
  ((s.tickNext cid).portStep cid).modCore cid (fun k => { k with cycle := n + 1 })

/-- R122: the device's cycle of a core, which it has not had. (Log: DESIGN CHOICE 11) -/
noncomputable def State.offerCore (s : State) (cid : Nat) : Host.Outcome State Fault Refusal :=
  match (s.openCycle cid).slotCycle with
  | .next s => .next (s.closeCycle cid)
  | o => o

/-- R122: the first core with a thread that has not had the device's cycle. (Log: DESIGN CHOICE 11) -/
def State.nextCore (s : State) : Option Nat :=
  let l := uniq ((s.slots.filter (fun p => p.2.occupied)).map (fun p => coreOf p.1))
  (l.filter s.behind).foldl (fun b c => match b with | none => some c | some d => some (min c d)) none

/-- R291: a hold of the lease whose sequencer has no step in progress ends in the cycle in which CYC reaches its limit. -/
def State.idleLimit (s : State) (cl : Nat) : State :=
  let k := s.cluster cl
  let idle : Bool := match k.tileq with | e :: _ => e.shapes.isNone | [] => true
  if k.lease.holder.isSome && idle && decide (k.lease.since + 8192 ≤ s.cycle) then s.holdLimit cl else s

/-- R122: the device's cycle ends when every core with a thread has had it; the kicks of its writes are seen (R380)
and its trace records written (R434). (Log: DESIGN CHOICE 11; DEDUCED 23) -/
def State.endCycle (s : State) : State :=
  let n := s.cycle + 1
  let s : State := { s with
    cycle := n, cores := s.cores.map (fun (p : Nat × Core) => (p.1, { p.2 with cycle := n - p.2.start })) }
  (s.clusters.foldl (fun (s : State) p => s.idleLimit p.1) s).flushKicks.flushTrace

/-! ### What is scheduled -/

/-- R442: the compute dies have power. -/
def State.powered (s : State) : Bool := s.modl.mode != .off && s.modl.mode != .held

/-- A core has the device's cycle, after the boundaries of that cycle, unless it has had it. -/
noncomputable def State.offerNow (s : State) (cid : Nat) : Host.Outcome State Fault Refusal :=
  if !s.powered || !s.behind cid then .next s
  else (if s.atBoundary then s.boundary else s).offerCore cid

/-- R423, R369: a write of root firmware, to an aperture or to the root's own context block. (Log: DESIGN CHOICE 53) -/
def State.firmware (s : State) : FirmwareWrite → State
  | .aperture ep ap hi lo => { s with apertures := s.apertures.put (16 * (ep % 1022) + ap % 16) (Aperture.masked ⟨hi, lo⟩) }
  | .block sel v =>
    if (s.ctxs.find? 0).isSome && [6, 7, 8, 10, 13, 14].contains sel then s.writeBlock 0 sel v 0#9 else s

/-- R442, R445, R449: what happens to a module whose compute dies have no power. -/
def offEvent (i : Instr) : Bool :=
  match i with
  | .heldRestore .. | .holdupSpent | .transportEvent .. | .powerUp .. | .attestationRequest .. | .overvoltageDisconnect ..
  | .slowEntry .. | .normalReturn .. | .saveEntry .. => true
  | _ => false

/-- What is scheduled to happen. Without power nothing does but to the module itself (R442). -/
noncomputable def State.act (s : State) : Act → Host.Outcome State Fault Refusal
  | .event i => if s.powered || offEvent i then exec i s else .next s
  | .offer cid => s.offerNow cid
  | .job n =>
    if !s.powered then .next s
    else match s.takeJob n with
    | some (j, s) => .next (s.perform j)
    | none => .next s
  | .firmware w => .next (if s.powered then s.firmware w else s)
  | .upset u bad => .next (s.upset u bad)
  | .arrayUpset cl n => .next (s.arrayUpset cl n)

end Sys2Proof.Machine
end

