-- ==== Sys2Proof/Machine/Step.lean ====
section
/-! DEFINITION. The step of the machine, and the placing of an instruction where the next step fetches it. -/

namespace Sys2Proof.Machine

/-- One step: what is scheduled, then what units owe, then the rotation boundaries of the device's cycle, then that cycle of
each core in turn, and its end. (Log: DESIGN CHOICE 11; DESIGN CHOICE 57) -/
noncomputable def step (s : State) : Host.Outcome State Fault Refusal :=
  match s.agenda with
  | a :: r => ({ s with agenda := r } : State).act a
  | [] =>
    if !s.powered then .fault .noPower
    else match s.due with
      | j :: r => .next (({ s with due := r } : State).perform j)
      | [] =>
        if s.atBoundary then .next s.boundary
        else match s.nextCore with
          | some cid => s.offerCore cid
          | none => .next s.endCycle

/-- Where `withFetchWord` places an instruction: a virtual address of the root, whose stage is Bare, so that it is the
machine address too (R35, R348). (Log: DESIGN CHOICE 10) -/
def fetchBase : Nat := 0x400000

/-- The state in which the next step fetches and runs the instruction with given bits: the root context is active, a
kernel thread of it runs in slot 0 of core 0 at `fetchBase`, the bytes of the instruction are in memory, and their line
and translation are in the core's L1 instruction cache and TLB. (Log: DESIGN CHOICE 10) -/
def State.withFetchWord (s : State) (nbits w : Nat) : State :=
  let mem := Memory.putNat s.mem fetchBase 8 (w % 2 ^ nbits)
  let s := s.createRoot
  let root : Ctx := { s.ctx 0 with usedSlots := 1 }
  let th : Thread := { (s.slot 0).th with ctx := 0, kern := true, pc := w64 fetchBase, uid := s.nextThread }
  let e : TlbEntry := { asid := 0, vpn := fetchBase / 4096, pages := 1, spn := fetchBase / 4096, r := true, w := true,
                        x := true, dset := true, stamps := [(0, root.stageGen)] }
  { s with
    mem := mem, ctxs := s.ctxs.put 0 root, cur := 0, agenda := [], due := [], acted := s.cycle, arbed := s.cycle,
    nextThread := s.nextThread + 1,
    modl := { s.modl with mode := .normal },
    slots := s.slots.upd {} 0 (fun sl => { sl with st := .run, dying := false, th := th }),
    cores := s.cores.upd {} 0 (fun k => { k with
      cycle := 0, start := s.cycle, halted := false, stopped := false, emptying := false, tlb := [e],
      l1i := [(fetchBase / 64, BitVec.ofNat 512 (Memory.nat mem (fetchBase / 64 * 64) 64))] }) }

end Sys2Proof.Machine
end

