-- ==== Sys2Proof/Laws/Encoding.lean ====
section
/-! SUPPORT. The fields of a packed word or parcel, format by format, and how the tables of the decoder are reached. -/

namespace Sys2Proof

theorem ex_hi {n m : Nat} (x : BitVec n) (y : BitVec m) (s l : Nat) (h : m ≤ s) :
    (x ++ y).extractLsb' s l = x.extractLsb' (s - m) l := BitVec.extractLsb'_append_eq_of_le h

theorem ex_lo {n m : Nat} (x : BitVec n) (y : BitVec m) (s l : Nat) (h : s + l ≤ m) :
    (x ++ y).extractLsb' s l = y.extractLsb' s l := BitVec.extractLsb'_append_eq_of_add_le h

theorem ex_all {n : Nat} (x : BitVec n) : x.extractLsb' 0 n = x := by simp

/-! ### R -/

@[simp] theorem RFmt.minor7_pack (minor7 : BitVec 7) (b : BitVec 6) (a : BitVec 6) (d : BitVec 6) (major : BitVec 5) :
    RFmt.minor7 (RFmt.pack minor7 b a d major) = minor7 := by
  simp (disch := decide) only [RFmt.minor7, RFmt.pack, ex_hi, Nat.reduceSub, ex_all]

@[simp] theorem RFmt.b_pack (minor7 : BitVec 7) (b : BitVec 6) (a : BitVec 6) (d : BitVec 6) (major : BitVec 5) :
    RFmt.b (RFmt.pack minor7 b a d major) = b := by
  simp (disch := decide) only [RFmt.b, RFmt.pack, ex_hi, ex_lo, Nat.reduceSub, ex_all]

@[simp] theorem RFmt.a_pack (minor7 : BitVec 7) (b : BitVec 6) (a : BitVec 6) (d : BitVec 6) (major : BitVec 5) :
    RFmt.a (RFmt.pack minor7 b a d major) = a := by
  simp (disch := decide) only [RFmt.a, RFmt.pack, ex_hi, ex_lo, Nat.reduceSub, ex_all]

@[simp] theorem RFmt.d_pack (minor7 : BitVec 7) (b : BitVec 6) (a : BitVec 6) (d : BitVec 6) (major : BitVec 5) :
    RFmt.d (RFmt.pack minor7 b a d major) = d := by
  simp (disch := decide) only [RFmt.d, RFmt.pack, ex_hi, ex_lo, Nat.reduceSub, ex_all]

@[simp] theorem RFmt.major_pack (minor7 : BitVec 7) (b : BitVec 6) (a : BitVec 6) (d : BitVec 6) (major : BitVec 5) :
    majorOf (RFmt.pack minor7 b a d major) = major := by
  simp (disch := decide) only [majorOf, RFmt.pack, ex_hi, ex_lo, Nat.reduceSub, ex_all]

@[simp] theorem RFmt.low_pack (minor7 : BitVec 7) (b : BitVec 6) (a : BitVec 6) (d : BitVec 6) (major : BitVec 5) :
    (RFmt.pack minor7 b a d major).extractLsb' 0 2 = 3#2 := by
  simp (disch := decide) only [RFmt.pack, ex_lo, ex_all]

/-! ### RP -/

@[simp] theorem RPFmt.pol_pack (pol : BitVec 2) (minor5 : BitVec 5) (b : BitVec 6) (a : BitVec 6) (d : BitVec 6) (major : BitVec 5) :
    RPFmt.pol (RPFmt.pack pol minor5 b a d major) = pol := by
  simp (disch := decide) only [RPFmt.pol, RPFmt.pack, ex_hi, Nat.reduceSub, ex_all]

@[simp] theorem RPFmt.minor5_pack (pol : BitVec 2) (minor5 : BitVec 5) (b : BitVec 6) (a : BitVec 6) (d : BitVec 6) (major : BitVec 5) :
    RPFmt.minor5 (RPFmt.pack pol minor5 b a d major) = minor5 := by
  simp (disch := decide) only [RPFmt.minor5, RPFmt.pack, ex_hi, ex_lo, Nat.reduceSub, ex_all]

@[simp] theorem RPFmt.b_pack (pol : BitVec 2) (minor5 : BitVec 5) (b : BitVec 6) (a : BitVec 6) (d : BitVec 6) (major : BitVec 5) :
    RPFmt.b (RPFmt.pack pol minor5 b a d major) = b := by
  simp (disch := decide) only [RPFmt.b, RPFmt.pack, ex_hi, ex_lo, Nat.reduceSub, ex_all]

@[simp] theorem RPFmt.a_pack (pol : BitVec 2) (minor5 : BitVec 5) (b : BitVec 6) (a : BitVec 6) (d : BitVec 6) (major : BitVec 5) :
    RPFmt.a (RPFmt.pack pol minor5 b a d major) = a := by
  simp (disch := decide) only [RPFmt.a, RPFmt.pack, ex_hi, ex_lo, Nat.reduceSub, ex_all]

@[simp] theorem RPFmt.d_pack (pol : BitVec 2) (minor5 : BitVec 5) (b : BitVec 6) (a : BitVec 6) (d : BitVec 6) (major : BitVec 5) :
    RPFmt.d (RPFmt.pack pol minor5 b a d major) = d := by
  simp (disch := decide) only [RPFmt.d, RPFmt.pack, ex_hi, ex_lo, Nat.reduceSub, ex_all]

@[simp] theorem RPFmt.major_pack (pol : BitVec 2) (minor5 : BitVec 5) (b : BitVec 6) (a : BitVec 6) (d : BitVec 6) (major : BitVec 5) :
    majorOf (RPFmt.pack pol minor5 b a d major) = major := by
  simp (disch := decide) only [majorOf, RPFmt.pack, ex_hi, ex_lo, Nat.reduceSub, ex_all]

@[simp] theorem RPFmt.low_pack (pol : BitVec 2) (minor5 : BitVec 5) (b : BitVec 6) (a : BitVec 6) (d : BitVec 6) (major : BitVec 5) :
    (RPFmt.pack pol minor5 b a d major).extractLsb' 0 2 = 3#2 := by
  simp (disch := decide) only [RPFmt.pack, ex_lo, ex_all]

/-! ### I -/

@[simp] theorem IFmt.imm12_pack (imm12 : BitVec 12) (f3 : BitVec 3) (a5 : BitVec 5) (d5 : BitVec 5) (major : BitVec 5) :
    IFmt.imm12 (IFmt.pack imm12 f3 a5 d5 major) = imm12 := by
  simp (disch := decide) only [IFmt.imm12, IFmt.pack, ex_hi, Nat.reduceSub, ex_all]

@[simp] theorem IFmt.f3_pack (imm12 : BitVec 12) (f3 : BitVec 3) (a5 : BitVec 5) (d5 : BitVec 5) (major : BitVec 5) :
    IFmt.f3 (IFmt.pack imm12 f3 a5 d5 major) = f3 := by
  simp (disch := decide) only [IFmt.f3, IFmt.pack, ex_hi, ex_lo, Nat.reduceSub, ex_all]

@[simp] theorem IFmt.a5_pack (imm12 : BitVec 12) (f3 : BitVec 3) (a5 : BitVec 5) (d5 : BitVec 5) (major : BitVec 5) :
    IFmt.a5 (IFmt.pack imm12 f3 a5 d5 major) = a5 := by
  simp (disch := decide) only [IFmt.a5, IFmt.pack, ex_hi, ex_lo, Nat.reduceSub, ex_all]

@[simp] theorem IFmt.d5_pack (imm12 : BitVec 12) (f3 : BitVec 3) (a5 : BitVec 5) (d5 : BitVec 5) (major : BitVec 5) :
    IFmt.d5 (IFmt.pack imm12 f3 a5 d5 major) = d5 := by
  simp (disch := decide) only [IFmt.d5, IFmt.pack, ex_hi, ex_lo, Nat.reduceSub, ex_all]

@[simp] theorem IFmt.major_pack (imm12 : BitVec 12) (f3 : BitVec 3) (a5 : BitVec 5) (d5 : BitVec 5) (major : BitVec 5) :
    majorOf (IFmt.pack imm12 f3 a5 d5 major) = major := by
  simp (disch := decide) only [majorOf, IFmt.pack, ex_hi, ex_lo, Nat.reduceSub, ex_all]

@[simp] theorem IFmt.low_pack (imm12 : BitVec 12) (f3 : BitVec 3) (a5 : BitVec 5) (d5 : BitVec 5) (major : BitVec 5) :
    (IFmt.pack imm12 f3 a5 d5 major).extractLsb' 0 2 = 3#2 := by
  simp (disch := decide) only [IFmt.pack, ex_lo, ex_all]

/-! ### M -/

@[simp] theorem MFmt.imm12_pack (imm12 : BitVec 12) (pol18 : BitVec 2) (wbit : BitVec 1) (a5 : BitVec 5) (d5 : BitVec 5) (major : BitVec 5) :
    MFmt.imm12 (MFmt.pack imm12 pol18 wbit a5 d5 major) = imm12 := by
  simp (disch := decide) only [MFmt.imm12, MFmt.pack, ex_hi, Nat.reduceSub, ex_all]

@[simp] theorem MFmt.pol18_pack (imm12 : BitVec 12) (pol18 : BitVec 2) (wbit : BitVec 1) (a5 : BitVec 5) (d5 : BitVec 5) (major : BitVec 5) :
    MFmt.pol18 (MFmt.pack imm12 pol18 wbit a5 d5 major) = pol18 := by
  simp (disch := decide) only [MFmt.pol18, MFmt.pack, ex_hi, ex_lo, Nat.reduceSub, ex_all]

@[simp] theorem MFmt.wbit_pack (imm12 : BitVec 12) (pol18 : BitVec 2) (wbit : BitVec 1) (a5 : BitVec 5) (d5 : BitVec 5) (major : BitVec 5) :
    MFmt.wbit (MFmt.pack imm12 pol18 wbit a5 d5 major) = wbit := by
  simp (disch := decide) only [MFmt.wbit, MFmt.pack, ex_hi, ex_lo, Nat.reduceSub, ex_all]

@[simp] theorem MFmt.a5_pack (imm12 : BitVec 12) (pol18 : BitVec 2) (wbit : BitVec 1) (a5 : BitVec 5) (d5 : BitVec 5) (major : BitVec 5) :
    MFmt.a5 (MFmt.pack imm12 pol18 wbit a5 d5 major) = a5 := by
  simp (disch := decide) only [MFmt.a5, MFmt.pack, ex_hi, ex_lo, Nat.reduceSub, ex_all]

@[simp] theorem MFmt.d5_pack (imm12 : BitVec 12) (pol18 : BitVec 2) (wbit : BitVec 1) (a5 : BitVec 5) (d5 : BitVec 5) (major : BitVec 5) :
    MFmt.d5 (MFmt.pack imm12 pol18 wbit a5 d5 major) = d5 := by
  simp (disch := decide) only [MFmt.d5, MFmt.pack, ex_hi, ex_lo, Nat.reduceSub, ex_all]

@[simp] theorem MFmt.major_pack (imm12 : BitVec 12) (pol18 : BitVec 2) (wbit : BitVec 1) (a5 : BitVec 5) (d5 : BitVec 5) (major : BitVec 5) :
    majorOf (MFmt.pack imm12 pol18 wbit a5 d5 major) = major := by
  simp (disch := decide) only [majorOf, MFmt.pack, ex_hi, ex_lo, Nat.reduceSub, ex_all]

@[simp] theorem MFmt.low_pack (imm12 : BitVec 12) (pol18 : BitVec 2) (wbit : BitVec 1) (a5 : BitVec 5) (d5 : BitVec 5) (major : BitVec 5) :
    (MFmt.pack imm12 pol18 wbit a5 d5 major).extractLsb' 0 2 = 3#2 := by
  simp (disch := decide) only [MFmt.pack, ex_lo, ex_all]

/-! ### MN -/

@[simp] theorem MNFmt.pol_pack (pol : BitVec 2) (sbit : BitVec 1) (qbit : BitVec 1) (sz : BitVec 3) (cbit : BitVec 1) (off5 : BitVec 5) (a : BitVec 6) (d : BitVec 6) (major : BitVec 5) :
    MNFmt.pol (MNFmt.pack pol sbit qbit sz cbit off5 a d major) = pol := by
  simp (disch := decide) only [MNFmt.pol, MNFmt.pack, ex_hi, Nat.reduceSub, ex_all]

@[simp] theorem MNFmt.sbit_pack (pol : BitVec 2) (sbit : BitVec 1) (qbit : BitVec 1) (sz : BitVec 3) (cbit : BitVec 1) (off5 : BitVec 5) (a : BitVec 6) (d : BitVec 6) (major : BitVec 5) :
    MNFmt.sbit (MNFmt.pack pol sbit qbit sz cbit off5 a d major) = sbit := by
  simp (disch := decide) only [MNFmt.sbit, MNFmt.pack, ex_hi, ex_lo, Nat.reduceSub, ex_all]

@[simp] theorem MNFmt.qbit_pack (pol : BitVec 2) (sbit : BitVec 1) (qbit : BitVec 1) (sz : BitVec 3) (cbit : BitVec 1) (off5 : BitVec 5) (a : BitVec 6) (d : BitVec 6) (major : BitVec 5) :
    MNFmt.qbit (MNFmt.pack pol sbit qbit sz cbit off5 a d major) = qbit := by
  simp (disch := decide) only [MNFmt.qbit, MNFmt.pack, ex_hi, ex_lo, Nat.reduceSub, ex_all]

@[simp] theorem MNFmt.sz_pack (pol : BitVec 2) (sbit : BitVec 1) (qbit : BitVec 1) (sz : BitVec 3) (cbit : BitVec 1) (off5 : BitVec 5) (a : BitVec 6) (d : BitVec 6) (major : BitVec 5) :
    MNFmt.sz (MNFmt.pack pol sbit qbit sz cbit off5 a d major) = sz := by
  simp (disch := decide) only [MNFmt.sz, MNFmt.pack, ex_hi, ex_lo, Nat.reduceSub, ex_all]

@[simp] theorem MNFmt.cbit_pack (pol : BitVec 2) (sbit : BitVec 1) (qbit : BitVec 1) (sz : BitVec 3) (cbit : BitVec 1) (off5 : BitVec 5) (a : BitVec 6) (d : BitVec 6) (major : BitVec 5) :
    MNFmt.cbit (MNFmt.pack pol sbit qbit sz cbit off5 a d major) = cbit := by
  simp (disch := decide) only [MNFmt.cbit, MNFmt.pack, ex_hi, ex_lo, Nat.reduceSub, ex_all]

@[simp] theorem MNFmt.off5_pack (pol : BitVec 2) (sbit : BitVec 1) (qbit : BitVec 1) (sz : BitVec 3) (cbit : BitVec 1) (off5 : BitVec 5) (a : BitVec 6) (d : BitVec 6) (major : BitVec 5) :
    MNFmt.off5 (MNFmt.pack pol sbit qbit sz cbit off5 a d major) = off5 := by
  simp (disch := decide) only [MNFmt.off5, MNFmt.pack, ex_hi, ex_lo, Nat.reduceSub, ex_all]

@[simp] theorem MNFmt.a_pack (pol : BitVec 2) (sbit : BitVec 1) (qbit : BitVec 1) (sz : BitVec 3) (cbit : BitVec 1) (off5 : BitVec 5) (a : BitVec 6) (d : BitVec 6) (major : BitVec 5) :
    MNFmt.a (MNFmt.pack pol sbit qbit sz cbit off5 a d major) = a := by
  simp (disch := decide) only [MNFmt.a, MNFmt.pack, ex_hi, ex_lo, Nat.reduceSub, ex_all]

@[simp] theorem MNFmt.d_pack (pol : BitVec 2) (sbit : BitVec 1) (qbit : BitVec 1) (sz : BitVec 3) (cbit : BitVec 1) (off5 : BitVec 5) (a : BitVec 6) (d : BitVec 6) (major : BitVec 5) :
    MNFmt.d (MNFmt.pack pol sbit qbit sz cbit off5 a d major) = d := by
  simp (disch := decide) only [MNFmt.d, MNFmt.pack, ex_hi, ex_lo, Nat.reduceSub, ex_all]

@[simp] theorem MNFmt.major_pack (pol : BitVec 2) (sbit : BitVec 1) (qbit : BitVec 1) (sz : BitVec 3) (cbit : BitVec 1) (off5 : BitVec 5) (a : BitVec 6) (d : BitVec 6) (major : BitVec 5) :
    majorOf (MNFmt.pack pol sbit qbit sz cbit off5 a d major) = major := by
  simp (disch := decide) only [majorOf, MNFmt.pack, ex_hi, ex_lo, Nat.reduceSub, ex_all]

@[simp] theorem MNFmt.low_pack (pol : BitVec 2) (sbit : BitVec 1) (qbit : BitVec 1) (sz : BitVec 3) (cbit : BitVec 1) (off5 : BitVec 5) (a : BitVec 6) (d : BitVec 6) (major : BitVec 5) :
    (MNFmt.pack pol sbit qbit sz cbit off5 a d major).extractLsb' 0 2 = 3#2 := by
  simp (disch := decide) only [MNFmt.pack, ex_lo, ex_all]

/-! ### J -/

@[simp] theorem JFmt.off25_pack (off25 : BitVec 25) (major : BitVec 5) :
    JFmt.off25 (JFmt.pack off25 major) = off25 := by
  simp (disch := decide) only [JFmt.off25, JFmt.pack, ex_hi, Nat.reduceSub, ex_all]

@[simp] theorem JFmt.major_pack (off25 : BitVec 25) (major : BitVec 5) :
    majorOf (JFmt.pack off25 major) = major := by
  simp (disch := decide) only [majorOf, JFmt.pack, ex_hi, ex_lo, Nat.reduceSub, ex_all]

@[simp] theorem JFmt.low_pack (off25 : BitVec 25) (major : BitVec 5) :
    (JFmt.pack off25 major).extractLsb' 0 2 = 3#2 := by
  simp (disch := decide) only [JFmt.pack, ex_lo, ex_all]

/-! ### V -/

@[simp] theorem VFmt.minor6_pack (minor6 : BitVec 6) (pol24 : BitVec 2) (hold : BitVec 2) (vb : BitVec 5) (a5 : BitVec 5) (d5 : BitVec 5) (major : BitVec 5) :
    VFmt.minor6 (VFmt.pack minor6 pol24 hold vb a5 d5 major) = minor6 := by
  simp (disch := decide) only [VFmt.minor6, VFmt.pack, ex_hi, Nat.reduceSub, ex_all]

@[simp] theorem VFmt.pol24_pack (minor6 : BitVec 6) (pol24 : BitVec 2) (hold : BitVec 2) (vb : BitVec 5) (a5 : BitVec 5) (d5 : BitVec 5) (major : BitVec 5) :
    VFmt.pol24 (VFmt.pack minor6 pol24 hold vb a5 d5 major) = pol24 := by
  simp (disch := decide) only [VFmt.pol24, VFmt.pack, ex_hi, ex_lo, Nat.reduceSub, ex_all]

@[simp] theorem VFmt.hold_pack (minor6 : BitVec 6) (pol24 : BitVec 2) (hold : BitVec 2) (vb : BitVec 5) (a5 : BitVec 5) (d5 : BitVec 5) (major : BitVec 5) :
    VFmt.hold (VFmt.pack minor6 pol24 hold vb a5 d5 major) = hold := by
  simp (disch := decide) only [VFmt.hold, VFmt.pack, ex_hi, ex_lo, Nat.reduceSub, ex_all]

@[simp] theorem VFmt.vb_pack (minor6 : BitVec 6) (pol24 : BitVec 2) (hold : BitVec 2) (vb : BitVec 5) (a5 : BitVec 5) (d5 : BitVec 5) (major : BitVec 5) :
    VFmt.vb (VFmt.pack minor6 pol24 hold vb a5 d5 major) = vb := by
  simp (disch := decide) only [VFmt.vb, VFmt.pack, ex_hi, ex_lo, Nat.reduceSub, ex_all]

@[simp] theorem VFmt.a5_pack (minor6 : BitVec 6) (pol24 : BitVec 2) (hold : BitVec 2) (vb : BitVec 5) (a5 : BitVec 5) (d5 : BitVec 5) (major : BitVec 5) :
    VFmt.a5 (VFmt.pack minor6 pol24 hold vb a5 d5 major) = a5 := by
  simp (disch := decide) only [VFmt.a5, VFmt.pack, ex_hi, ex_lo, Nat.reduceSub, ex_all]

@[simp] theorem VFmt.d5_pack (minor6 : BitVec 6) (pol24 : BitVec 2) (hold : BitVec 2) (vb : BitVec 5) (a5 : BitVec 5) (d5 : BitVec 5) (major : BitVec 5) :
    VFmt.d5 (VFmt.pack minor6 pol24 hold vb a5 d5 major) = d5 := by
  simp (disch := decide) only [VFmt.d5, VFmt.pack, ex_hi, ex_lo, Nat.reduceSub, ex_all]

@[simp] theorem VFmt.major_pack (minor6 : BitVec 6) (pol24 : BitVec 2) (hold : BitVec 2) (vb : BitVec 5) (a5 : BitVec 5) (d5 : BitVec 5) (major : BitVec 5) :
    majorOf (VFmt.pack minor6 pol24 hold vb a5 d5 major) = major := by
  simp (disch := decide) only [majorOf, VFmt.pack, ex_hi, ex_lo, Nat.reduceSub, ex_all]

@[simp] theorem VFmt.low_pack (minor6 : BitVec 6) (pol24 : BitVec 2) (hold : BitVec 2) (vb : BitVec 5) (a5 : BitVec 5) (d5 : BitVec 5) (major : BitVec 5) :
    (VFmt.pack minor6 pol24 hold vb a5 d5 major).extractLsb' 0 2 = 3#2 := by
  simp (disch := decide) only [VFmt.pack, ex_lo, ex_all]

/-! ### X -/

@[simp] theorem XFmt.minor7_pack (minor7 : BitVec 7) (imm16 : BitVec 16) (ox : BitVec 2) (major : BitVec 5) :
    XFmt.minor7 (XFmt.pack minor7 imm16 ox major) = minor7 := by
  simp (disch := decide) only [XFmt.minor7, XFmt.pack, ex_hi, Nat.reduceSub, ex_all]

@[simp] theorem XFmt.imm16_pack (minor7 : BitVec 7) (imm16 : BitVec 16) (ox : BitVec 2) (major : BitVec 5) :
    XFmt.imm16 (XFmt.pack minor7 imm16 ox major) = imm16 := by
  simp (disch := decide) only [XFmt.imm16, XFmt.pack, ex_hi, ex_lo, Nat.reduceSub, ex_all]

@[simp] theorem XFmt.ox_pack (minor7 : BitVec 7) (imm16 : BitVec 16) (ox : BitVec 2) (major : BitVec 5) :
    XFmt.ox (XFmt.pack minor7 imm16 ox major) = ox := by
  simp (disch := decide) only [XFmt.ox, XFmt.pack, ex_hi, ex_lo, Nat.reduceSub, ex_all]

@[simp] theorem XFmt.major_pack (minor7 : BitVec 7) (imm16 : BitVec 16) (ox : BitVec 2) (major : BitVec 5) :
    majorOf (XFmt.pack minor7 imm16 ox major) = major := by
  simp (disch := decide) only [majorOf, XFmt.pack, ex_hi, ex_lo, Nat.reduceSub, ex_all]

@[simp] theorem XFmt.low_pack (minor7 : BitVec 7) (imm16 : BitVec 16) (ox : BitVec 2) (major : BitVec 5) :
    (XFmt.pack minor7 imm16 ox major).extractLsb' 0 2 = 3#2 := by
  simp (disch := decide) only [XFmt.pack, ex_lo, ex_all]

/-! ### P -/

@[simp] theorem PFmt.zero12_pack (zero12 : BitVec 12) (zbit : BitVec 1) (op4 : BitVec 5) (rm : BitVec 3) (me : BitVec 1) (mk : BitVec 3) (major : BitVec 5) :
    PFmt.zero12 (PFmt.pack zero12 zbit op4 rm me mk major) = zero12 := by
  simp (disch := decide) only [PFmt.zero12, PFmt.pack, ex_hi, Nat.reduceSub, ex_all]

@[simp] theorem PFmt.zbit_pack (zero12 : BitVec 12) (zbit : BitVec 1) (op4 : BitVec 5) (rm : BitVec 3) (me : BitVec 1) (mk : BitVec 3) (major : BitVec 5) :
    PFmt.zbit (PFmt.pack zero12 zbit op4 rm me mk major) = zbit := by
  simp (disch := decide) only [PFmt.zbit, PFmt.pack, ex_hi, ex_lo, Nat.reduceSub, ex_all]

@[simp] theorem PFmt.op4_pack (zero12 : BitVec 12) (zbit : BitVec 1) (op4 : BitVec 5) (rm : BitVec 3) (me : BitVec 1) (mk : BitVec 3) (major : BitVec 5) :
    PFmt.op4 (PFmt.pack zero12 zbit op4 rm me mk major) = op4 := by
  simp (disch := decide) only [PFmt.op4, PFmt.pack, ex_hi, ex_lo, Nat.reduceSub, ex_all]

@[simp] theorem PFmt.rm_pack (zero12 : BitVec 12) (zbit : BitVec 1) (op4 : BitVec 5) (rm : BitVec 3) (me : BitVec 1) (mk : BitVec 3) (major : BitVec 5) :
    PFmt.rm (PFmt.pack zero12 zbit op4 rm me mk major) = rm := by
  simp (disch := decide) only [PFmt.rm, PFmt.pack, ex_hi, ex_lo, Nat.reduceSub, ex_all]

@[simp] theorem PFmt.me_pack (zero12 : BitVec 12) (zbit : BitVec 1) (op4 : BitVec 5) (rm : BitVec 3) (me : BitVec 1) (mk : BitVec 3) (major : BitVec 5) :
    PFmt.me (PFmt.pack zero12 zbit op4 rm me mk major) = me := by
  simp (disch := decide) only [PFmt.me, PFmt.pack, ex_hi, ex_lo, Nat.reduceSub, ex_all]

@[simp] theorem PFmt.mk_pack (zero12 : BitVec 12) (zbit : BitVec 1) (op4 : BitVec 5) (rm : BitVec 3) (me : BitVec 1) (mk : BitVec 3) (major : BitVec 5) :
    PFmt.mk (PFmt.pack zero12 zbit op4 rm me mk major) = mk := by
  simp (disch := decide) only [PFmt.mk, PFmt.pack, ex_hi, ex_lo, Nat.reduceSub, ex_all]

@[simp] theorem PFmt.major_pack (zero12 : BitVec 12) (zbit : BitVec 1) (op4 : BitVec 5) (rm : BitVec 3) (me : BitVec 1) (mk : BitVec 3) (major : BitVec 5) :
    majorOf (PFmt.pack zero12 zbit op4 rm me mk major) = major := by
  simp (disch := decide) only [majorOf, PFmt.pack, ex_hi, ex_lo, Nat.reduceSub, ex_all]

@[simp] theorem PFmt.low_pack (zero12 : BitVec 12) (zbit : BitVec 1) (op4 : BitVec 5) (rm : BitVec 3) (me : BitVec 1) (mk : BitVec 3) (major : BitVec 5) :
    (PFmt.pack zero12 zbit op4 rm me mk major).extractLsb' 0 2 = 3#2 := by
  simp (disch := decide) only [PFmt.pack, ex_lo, ex_all]

/-! ### Q0 -/

@[simp] theorem Q0Fmt.d_pack (d : BitVec 5) (b : BitVec 5) (op4 : BitVec 4) (q : BitVec 2) :
    Q0Fmt.d (Q0Fmt.pack d b op4 q) = d := by
  simp (disch := decide) only [Q0Fmt.d, Q0Fmt.pack, ex_hi, Nat.reduceSub, ex_all]

@[simp] theorem Q0Fmt.b_pack (d : BitVec 5) (b : BitVec 5) (op4 : BitVec 4) (q : BitVec 2) :
    Q0Fmt.b (Q0Fmt.pack d b op4 q) = b := by
  simp (disch := decide) only [Q0Fmt.b, Q0Fmt.pack, ex_hi, ex_lo, Nat.reduceSub, ex_all]

@[simp] theorem Q0Fmt.op4_pack (d : BitVec 5) (b : BitVec 5) (op4 : BitVec 4) (q : BitVec 2) :
    Q0Fmt.op4 (Q0Fmt.pack d b op4 q) = op4 := by
  simp (disch := decide) only [Q0Fmt.op4, Q0Fmt.pack, ex_hi, ex_lo, Nat.reduceSub, ex_all]

@[simp] theorem Q0Fmt.q_pack (d : BitVec 5) (b : BitVec 5) (op4 : BitVec 4) (q : BitVec 2) :
    (Q0Fmt.pack d b op4 q).extractLsb' 0 2 = q := by
  simp (disch := decide) only [Q0Fmt.pack, ex_lo, ex_all]

/-! ### Q1 -/

@[simp] theorem Q1Fmt.d_pack (d : BitVec 5) (i6 : BitVec 6) (op3 : BitVec 3) (q : BitVec 2) :
    Q1Fmt.d (Q1Fmt.pack d i6 op3 q) = d := by
  simp (disch := decide) only [Q1Fmt.d, Q1Fmt.pack, ex_hi, Nat.reduceSub, ex_all]

@[simp] theorem Q1Fmt.i6_pack (d : BitVec 5) (i6 : BitVec 6) (op3 : BitVec 3) (q : BitVec 2) :
    Q1Fmt.i6 (Q1Fmt.pack d i6 op3 q) = i6 := by
  simp (disch := decide) only [Q1Fmt.i6, Q1Fmt.pack, ex_hi, ex_lo, Nat.reduceSub, ex_all]

@[simp] theorem Q1Fmt.op3_pack (d : BitVec 5) (i6 : BitVec 6) (op3 : BitVec 3) (q : BitVec 2) :
    Q1Fmt.op3 (Q1Fmt.pack d i6 op3 q) = op3 := by
  simp (disch := decide) only [Q1Fmt.op3, Q1Fmt.pack, ex_hi, ex_lo, Nat.reduceSub, ex_all]

@[simp] theorem Q1Fmt.q_pack (d : BitVec 5) (i6 : BitVec 6) (op3 : BitVec 3) (q : BitVec 2) :
    (Q1Fmt.pack d i6 op3 q).extractLsb' 0 2 = q := by
  simp (disch := decide) only [Q1Fmt.pack, ex_lo, ex_all]

/-! ### QA -/

@[simp] theorem QAFmt.d3_pack (d3 : BitVec 3) (b3 : BitVec 3) (u3 : BitVec 3) (pol2 : BitVec 2) (op3 : BitVec 3) (q : BitVec 2) :
    QAFmt.d3 (QAFmt.pack d3 b3 u3 pol2 op3 q) = d3 := by
  simp (disch := decide) only [QAFmt.d3, QAFmt.pack, ex_hi, Nat.reduceSub, ex_all]

@[simp] theorem QAFmt.b3_pack (d3 : BitVec 3) (b3 : BitVec 3) (u3 : BitVec 3) (pol2 : BitVec 2) (op3 : BitVec 3) (q : BitVec 2) :
    QAFmt.b3 (QAFmt.pack d3 b3 u3 pol2 op3 q) = b3 := by
  simp (disch := decide) only [QAFmt.b3, QAFmt.pack, ex_hi, ex_lo, Nat.reduceSub, ex_all]

@[simp] theorem QAFmt.u3_pack (d3 : BitVec 3) (b3 : BitVec 3) (u3 : BitVec 3) (pol2 : BitVec 2) (op3 : BitVec 3) (q : BitVec 2) :
    QAFmt.u3 (QAFmt.pack d3 b3 u3 pol2 op3 q) = u3 := by
  simp (disch := decide) only [QAFmt.u3, QAFmt.pack, ex_hi, ex_lo, Nat.reduceSub, ex_all]

@[simp] theorem QAFmt.pol2_pack (d3 : BitVec 3) (b3 : BitVec 3) (u3 : BitVec 3) (pol2 : BitVec 2) (op3 : BitVec 3) (q : BitVec 2) :
    QAFmt.pol2 (QAFmt.pack d3 b3 u3 pol2 op3 q) = pol2 := by
  simp (disch := decide) only [QAFmt.pol2, QAFmt.pack, ex_hi, ex_lo, Nat.reduceSub, ex_all]

@[simp] theorem QAFmt.op3_pack (d3 : BitVec 3) (b3 : BitVec 3) (u3 : BitVec 3) (pol2 : BitVec 2) (op3 : BitVec 3) (q : BitVec 2) :
    QAFmt.op3 (QAFmt.pack d3 b3 u3 pol2 op3 q) = op3 := by
  simp (disch := decide) only [QAFmt.op3, QAFmt.pack, ex_hi, ex_lo, Nat.reduceSub, ex_all]

@[simp] theorem QAFmt.q_pack (d3 : BitVec 3) (b3 : BitVec 3) (u3 : BitVec 3) (pol2 : BitVec 2) (op3 : BitVec 3) (q : BitVec 2) :
    (QAFmt.pack d3 b3 u3 pol2 op3 q).extractLsb' 0 2 = q := by
  simp (disch := decide) only [QAFmt.pack, ex_lo, ex_all]

/-! ### QB -/

@[simp] theorem QBFmt.d3_pack (d3 : BitVec 3) (u6 : BitVec 6) (pol2 : BitVec 2) (op3 : BitVec 3) (q : BitVec 2) :
    QBFmt.d3 (QBFmt.pack d3 u6 pol2 op3 q) = d3 := by
  simp (disch := decide) only [QBFmt.d3, QBFmt.pack, ex_hi, Nat.reduceSub, ex_all]

@[simp] theorem QBFmt.u6_pack (d3 : BitVec 3) (u6 : BitVec 6) (pol2 : BitVec 2) (op3 : BitVec 3) (q : BitVec 2) :
    QBFmt.u6 (QBFmt.pack d3 u6 pol2 op3 q) = u6 := by
  simp (disch := decide) only [QBFmt.u6, QBFmt.pack, ex_hi, ex_lo, Nat.reduceSub, ex_all]

@[simp] theorem QBFmt.pol2_pack (d3 : BitVec 3) (u6 : BitVec 6) (pol2 : BitVec 2) (op3 : BitVec 3) (q : BitVec 2) :
    QBFmt.pol2 (QBFmt.pack d3 u6 pol2 op3 q) = pol2 := by
  simp (disch := decide) only [QBFmt.pol2, QBFmt.pack, ex_hi, ex_lo, Nat.reduceSub, ex_all]

@[simp] theorem QBFmt.op3_pack (d3 : BitVec 3) (u6 : BitVec 6) (pol2 : BitVec 2) (op3 : BitVec 3) (q : BitVec 2) :
    QBFmt.op3 (QBFmt.pack d3 u6 pol2 op3 q) = op3 := by
  simp (disch := decide) only [QBFmt.op3, QBFmt.pack, ex_hi, ex_lo, Nat.reduceSub, ex_all]

@[simp] theorem QBFmt.q_pack (d3 : BitVec 3) (u6 : BitVec 6) (pol2 : BitVec 2) (op3 : BitVec 3) (q : BitVec 2) :
    (QBFmt.pack d3 u6 pol2 op3 q).extractLsb' 0 2 = q := by
  simp (disch := decide) only [QBFmt.pack, ex_lo, ex_all]

/-! ### QJ -/

@[simp] theorem QJFmt.off11_pack (off11 : BitVec 11) (op3 : BitVec 3) (q : BitVec 2) :
    QJFmt.off11 (QJFmt.pack off11 op3 q) = off11 := by
  simp (disch := decide) only [QJFmt.off11, QJFmt.pack, ex_hi, Nat.reduceSub, ex_all]

@[simp] theorem QJFmt.op3_pack (off11 : BitVec 11) (op3 : BitVec 3) (q : BitVec 2) :
    QJFmt.op3 (QJFmt.pack off11 op3 q) = op3 := by
  simp (disch := decide) only [QJFmt.op3, QJFmt.pack, ex_hi, ex_lo, Nat.reduceSub, ex_all]

@[simp] theorem QJFmt.q_pack (off11 : BitVec 11) (op3 : BitVec 3) (q : BitVec 2) :
    (QJFmt.pack off11 op3 q).extractLsb' 0 2 = q := by
  simp (disch := decide) only [QJFmt.pack, ex_lo, ex_all]

@[simp] theorem QBFmt.op3_pack_a (d3 : BitVec 3) (u6 : BitVec 6) (pol2 : BitVec 2) (op3 : BitVec 3) (q : BitVec 2) :
    QAFmt.op3 (QBFmt.pack d3 u6 pol2 op3 q) = op3 := by
  simp (disch := decide) only [QAFmt.op3, QBFmt.pack, ex_hi, ex_lo, Nat.reduceSub, ex_all]

@[simp] theorem QJFmt.op3_pack_a (off11 : BitVec 11) (op3 : BitVec 3) (q : BitVec 2) :
    QAFmt.op3 (QJFmt.pack off11 op3 q) = op3 := by
  simp (disch := decide) only [QAFmt.op3, QJFmt.pack, ex_hi, ex_lo, Nat.reduceSub, ex_all]

@[simp] theorem Policy.ofBits_bits (p : Policy) : Policy.ofBits p.bits = p := by cases p <;> rfl

/-! ### The table of a major opcode or quadrant -/

theorem decodeMajor_0 {w : BitVec 32} (h : majorOf w = 0#5) : decodeMajor w = decodeMajor0 w := by
  unfold decodeMajor; rw [h]; rfl

theorem decodeMajor_1 {w : BitVec 32} (h : majorOf w = 1#5) : decodeMajor w = decodeMajor1 w := by
  unfold decodeMajor; rw [h]; rfl

theorem decodeMajor_2 {w : BitVec 32} (h : majorOf w = 2#5) : decodeMajor w = decodeMajor2 w := by
  unfold decodeMajor; rw [h]; rfl

theorem decodeMajor_3 {w : BitVec 32} (h : majorOf w = 3#5) : decodeMajor w = decodeMajor3 w := by
  unfold decodeMajor; rw [h]; rfl

theorem decodeMajor_4 {w : BitVec 32} (h : majorOf w = 4#5) : decodeMajor w = decodeMajor4 w := by
  unfold decodeMajor; rw [h]; rfl

theorem decodeMajor_5 {w : BitVec 32} (h : majorOf w = 5#5) : decodeMajor w = decodeMajor5 w := by
  unfold decodeMajor; rw [h]; rfl

theorem decodeMajor_6 {w : BitVec 32} (h : majorOf w = 6#5) : decodeMajor w = decodeMajor6 w := by
  unfold decodeMajor; rw [h]; rfl

theorem decodeMajor_7 {w : BitVec 32} (h : majorOf w = 7#5) : decodeMajor w = decodeMajor7 w := by
  unfold decodeMajor; rw [h]; rfl

theorem decodeMajor_8 {w : BitVec 32} (h : majorOf w = 8#5) : decodeMajor w = decodeMajor8 w := by
  unfold decodeMajor; rw [h]; rfl

theorem decodeMajor_9 {w : BitVec 32} (h : majorOf w = 9#5) : decodeMajor w = decodeMajor9 w := by
  unfold decodeMajor; rw [h]; rfl

theorem decodeMajor_10 {w : BitVec 32} (h : majorOf w = 10#5) : decodeMajor w = decodeMajor10 w := by
  unfold decodeMajor; rw [h]; rfl

theorem decodeMajor_11 {w : BitVec 32} (h : majorOf w = 11#5) : decodeMajor w = decodeMajor11 w := by
  unfold decodeMajor; rw [h]; rfl

theorem decodeMajor_12 {w : BitVec 32} (h : majorOf w = 12#5) : decodeMajor w = decodeMajor12 w := by
  unfold decodeMajor; rw [h]; rfl

theorem decodeMajor_13 {w : BitVec 32} (h : majorOf w = 13#5) : decodeMajor w = decodeMajor13 w := by
  unfold decodeMajor; rw [h]; rfl

theorem decodeMajor_14 {w : BitVec 32} (h : majorOf w = 14#5) : decodeMajor w = decodeMajor14 w := by
  unfold decodeMajor; rw [h]; rfl

theorem decodeMajor_15 {w : BitVec 32} (h : majorOf w = 15#5) : decodeMajor w = decodeMajor15 w := by
  unfold decodeMajor; rw [h]; rfl

theorem decodeMajor_16 {w : BitVec 32} (h : majorOf w = 16#5) : decodeMajor w = decodeMajor16 w := by
  unfold decodeMajor; rw [h]; rfl

theorem decodeMajor_17 {w : BitVec 32} (h : majorOf w = 17#5) : decodeMajor w = decodeMajor17 w := by
  unfold decodeMajor; rw [h]; rfl

theorem decodeMajor_18 {w : BitVec 32} (h : majorOf w = 18#5) : decodeMajor w = decodeMajor18 w := by
  unfold decodeMajor; rw [h]; rfl

theorem decodeMajor_19 {w : BitVec 32} (h : majorOf w = 19#5) : decodeMajor w = decodeMajor19 w := by
  unfold decodeMajor; rw [h]; rfl

theorem decodeMajor_20 {w : BitVec 32} (h : majorOf w = 20#5) : decodeMajor w = decodeMajor20 w := by
  unfold decodeMajor; rw [h]; rfl

theorem decodeMajor_21 {w : BitVec 32} (h : majorOf w = 21#5) : decodeMajor w = decodeMajor21 w := by
  unfold decodeMajor; rw [h]; rfl

theorem decodeMajor_22 {w : BitVec 32} (h : majorOf w = 22#5) : decodeMajor w = decodeMajor22 w := by
  unfold decodeMajor; rw [h]; rfl

theorem decodeMajor_23 {w : BitVec 32} (h : majorOf w = 23#5) : decodeMajor w = decodeMajor23 w := by
  unfold decodeMajor; rw [h]; rfl

theorem decodeMajor_24 {w : BitVec 32} (h : majorOf w = 24#5) : decodeMajor w = decodeMajor24 w := by
  unfold decodeMajor; rw [h]; rfl

theorem decodeMajor_25 {w : BitVec 32} (h : majorOf w = 25#5) : decodeMajor w = decodeMajor25 w := by
  unfold decodeMajor; rw [h]; rfl

theorem decodeMajor_26 {w : BitVec 32} (h : majorOf w = 26#5) : decodeMajor w = decodeMajor26 w := by
  unfold decodeMajor; rw [h]; rfl

theorem decodeMajor_27 {w : BitVec 32} (h : majorOf w = 27#5) : decodeMajor w = decodeMajor27 w := by
  unfold decodeMajor; rw [h]; rfl

theorem decodeMajor_28 {w : BitVec 32} (h : majorOf w = 28#5) : decodeMajor w = decodeMajor28 w := by
  unfold decodeMajor; rw [h]; rfl

theorem decodeMajor_29 {w : BitVec 32} (h : majorOf w = 29#5) : decodeMajor w = decodeMajor29 w := by
  unfold decodeMajor; rw [h]; rfl

theorem decodeMajor_30 {w : BitVec 32} (h : majorOf w = 30#5) : decodeMajor w = decodeMajor30 w := by
  unfold decodeMajor; rw [h]; rfl

theorem decodeQuadrant_0 {w : BitVec 16} (h : w.extractLsb' 0 2 = 0#2) :
    decodeQuadrant w = decodeQuadrant0 w := by
  unfold decodeQuadrant; rw [h]; rfl

theorem decodeQuadrant_1 {w : BitVec 16} (h : w.extractLsb' 0 2 = 1#2) :
    decodeQuadrant w = decodeQuadrant1 w := by
  unfold decodeQuadrant; rw [h]; rfl

theorem decodeQuadrant_2 {w : BitVec 16} (h : w.extractLsb' 0 2 = 2#2) :
    decodeQuadrant w = decodeQuadrant2 w := by
  unfold decodeQuadrant; rw [h]; rfl

/-- A word decodes to a well-formed instruction that its table gives. -/
theorem decodeWordIn_of {o : Bool} {w : BitVec 32} {i : Instr} (q : w.extractLsb' 0 2 = 3#2)
    (d : decodeMajor w = some i) (h : i.wfIn o = true) : decodeWordIn o w = some i := by
  unfold decodeWordIn keepWf; rw [q, d]; simp [h]

/-- A parcel decodes to a well-formed instruction that its table gives. -/
theorem decodeParcel_of {p : BitVec 16} {i : Instr} (d : decodeQuadrant p = some i) (h : i.wfIn false = true) :
    decodeParcel p = some i := by
  unfold decodeParcel keepWf; rw [d]; simp [h]

/-- A 6-bit field that begins with 1 is not 0. -/
theorem cons_one_ne (r : BitVec 5) : (1#1 ++ r == 0#6) = false := by revert r; decide

/-- The two values of a bit. -/
theorem bit_cases (b : BitVec 1) : b = 0#1 ∨ b = 1#1 := by revert b; decide
/-- The four values of two bits. -/
theorem two_bit_cases (b : BitVec 2) : b = 0#2 ∨ b = 1#2 ∨ b = 2#2 ∨ b = 3#2 := by revert b; decide
/-- The eight values of three bits. -/
theorem three_bit_cases (b : BitVec 3) :
    b = 0#3 ∨ b = 1#3 ∨ b = 2#3 ∨ b = 3#3 ∨ b = 4#3 ∨ b = 5#3 ∨ b = 6#3 ∨ b = 7#3 := by revert b; decide

end Sys2Proof
end

