-- ==== Sys2Proof/Laws/PerInstr.lean ====
section
/-! SUPPORT. Decoding what `encode` writes, one lemma per constructor. -/

set_option linter.unusedSimpArgs false

namespace Sys2Proof.Laws.RoundTrip

/-- What an instruction's encoding decodes to; `o` says that the prefix of a pair names a stream as fourth operand. -/
def Reads (o : Bool) (i : Instr) : Encoding → Prop
  | .word w => decodeWordIn o w = some i
  | .parcel p => decodeParcel p = some i
  | .event => True

/-- A well-formed instruction is what its encoding decodes to. An event has no encoding. -/
def Statement (i : Instr) : Prop := ∀ o : Bool, i.wfIn o = true → Reads o i (encode i)

/-- A word in its table. -/
theorem ofWord {o : Bool} {w : BitVec 32} {i : Instr} {t : BitVec 32 → Option Instr} (q : w.extractLsb' 0 2 = 3#2)
    (m : decodeMajor w = t w) (d : t w = some i) (h : i.wfIn o = true) : decodeWordIn o w = some i :=
  decodeWordIn_of q (m.trans d) h

/-- A parcel in its table: the prefix of a pair plays no part in it. -/
theorem ofParcel {p : BitVec 16} {i : Instr} {t : BitVec 16 → Option Instr} (m : decodeQuadrant p = t p)
    (d : t p = some i) (h : i.wfIn false = true) : decodeParcel p = some i :=
  decodeParcel_of (m.trans d) h

theorem add (b : BitVec 6) (a : BitVec 6) (d : BitVec 6) : Statement (.add b a d) := by
  intro o hw
  refine ofWord (RFmt.low_pack ..) (decodeMajor_0 (RFmt.major_pack ..)) ?_ hw
  unfold decodeMajor0; rw [RFmt.minor7_pack]; simp (disch := decide) only [RFmt.b_pack, RFmt.a_pack, RFmt.d_pack, BitVec.reduceToNat]

theorem sub (b : BitVec 6) (a : BitVec 6) (d : BitVec 6) : Statement (.sub b a d) := by
  intro o hw
  refine ofWord (RFmt.low_pack ..) (decodeMajor_0 (RFmt.major_pack ..)) ?_ hw
  unfold decodeMajor0; rw [RFmt.minor7_pack]; simp (disch := decide) only [RFmt.b_pack, RFmt.a_pack, RFmt.d_pack, BitVec.reduceToNat]

theorem and (b : BitVec 6) (a : BitVec 6) (d : BitVec 6) : Statement (.and b a d) := by
  intro o hw
  refine ofWord (RFmt.low_pack ..) (decodeMajor_0 (RFmt.major_pack ..)) ?_ hw
  unfold decodeMajor0; rw [RFmt.minor7_pack]; simp (disch := decide) only [RFmt.b_pack, RFmt.a_pack, RFmt.d_pack, BitVec.reduceToNat]

theorem or (b : BitVec 6) (a : BitVec 6) (d : BitVec 6) : Statement (.or b a d) := by
  intro o hw
  refine ofWord (RFmt.low_pack ..) (decodeMajor_0 (RFmt.major_pack ..)) ?_ hw
  unfold decodeMajor0; rw [RFmt.minor7_pack]; simp (disch := decide) only [RFmt.b_pack, RFmt.a_pack, RFmt.d_pack, BitVec.reduceToNat]

theorem xor (b : BitVec 6) (a : BitVec 6) (d : BitVec 6) : Statement (.xor b a d) := by
  intro o hw
  refine ofWord (RFmt.low_pack ..) (decodeMajor_0 (RFmt.major_pack ..)) ?_ hw
  unfold decodeMajor0; rw [RFmt.minor7_pack]; simp (disch := decide) only [RFmt.b_pack, RFmt.a_pack, RFmt.d_pack, BitVec.reduceToNat]

theorem sll (b : BitVec 6) (a : BitVec 6) (d : BitVec 6) : Statement (.sll b a d) := by
  intro o hw
  refine ofWord (RFmt.low_pack ..) (decodeMajor_0 (RFmt.major_pack ..)) ?_ hw
  unfold decodeMajor0; rw [RFmt.minor7_pack]; simp (disch := decide) only [RFmt.b_pack, RFmt.a_pack, RFmt.d_pack, BitVec.reduceToNat]

theorem srl (b : BitVec 6) (a : BitVec 6) (d : BitVec 6) : Statement (.srl b a d) := by
  intro o hw
  refine ofWord (RFmt.low_pack ..) (decodeMajor_0 (RFmt.major_pack ..)) ?_ hw
  unfold decodeMajor0; rw [RFmt.minor7_pack]; simp (disch := decide) only [RFmt.b_pack, RFmt.a_pack, RFmt.d_pack, BitVec.reduceToNat]

theorem sra (b : BitVec 6) (a : BitVec 6) (d : BitVec 6) : Statement (.sra b a d) := by
  intro o hw
  refine ofWord (RFmt.low_pack ..) (decodeMajor_0 (RFmt.major_pack ..)) ?_ hw
  unfold decodeMajor0; rw [RFmt.minor7_pack]; simp (disch := decide) only [RFmt.b_pack, RFmt.a_pack, RFmt.d_pack, BitVec.reduceToNat]

theorem slt (b : BitVec 6) (a : BitVec 6) (d : BitVec 6) : Statement (.slt b a d) := by
  intro o hw
  refine ofWord (RFmt.low_pack ..) (decodeMajor_0 (RFmt.major_pack ..)) ?_ hw
  unfold decodeMajor0; rw [RFmt.minor7_pack]; simp (disch := decide) only [RFmt.b_pack, RFmt.a_pack, RFmt.d_pack, BitVec.reduceToNat]

theorem sltu (b : BitVec 6) (a : BitVec 6) (d : BitVec 6) : Statement (.sltu b a d) := by
  intro o hw
  refine ofWord (RFmt.low_pack ..) (decodeMajor_0 (RFmt.major_pack ..)) ?_ hw
  unfold decodeMajor0; rw [RFmt.minor7_pack]; simp (disch := decide) only [RFmt.b_pack, RFmt.a_pack, RFmt.d_pack, BitVec.reduceToNat]

theorem min (b : BitVec 6) (a : BitVec 6) (d : BitVec 6) : Statement (.min b a d) := by
  intro o hw
  refine ofWord (RFmt.low_pack ..) (decodeMajor_0 (RFmt.major_pack ..)) ?_ hw
  unfold decodeMajor0; rw [RFmt.minor7_pack]; simp (disch := decide) only [RFmt.b_pack, RFmt.a_pack, RFmt.d_pack, BitVec.reduceToNat]

theorem max (b : BitVec 6) (a : BitVec 6) (d : BitVec 6) : Statement (.max b a d) := by
  intro o hw
  refine ofWord (RFmt.low_pack ..) (decodeMajor_0 (RFmt.major_pack ..)) ?_ hw
  unfold decodeMajor0; rw [RFmt.minor7_pack]; simp (disch := decide) only [RFmt.b_pack, RFmt.a_pack, RFmt.d_pack, BitVec.reduceToNat]

theorem minu (b : BitVec 6) (a : BitVec 6) (d : BitVec 6) : Statement (.minu b a d) := by
  intro o hw
  refine ofWord (RFmt.low_pack ..) (decodeMajor_0 (RFmt.major_pack ..)) ?_ hw
  unfold decodeMajor0; rw [RFmt.minor7_pack]; simp (disch := decide) only [RFmt.b_pack, RFmt.a_pack, RFmt.d_pack, BitVec.reduceToNat]

theorem maxu (b : BitVec 6) (a : BitVec 6) (d : BitVec 6) : Statement (.maxu b a d) := by
  intro o hw
  refine ofWord (RFmt.low_pack ..) (decodeMajor_0 (RFmt.major_pack ..)) ?_ hw
  unfold decodeMajor0; rw [RFmt.minor7_pack]; simp (disch := decide) only [RFmt.b_pack, RFmt.a_pack, RFmt.d_pack, BitVec.reduceToNat]

theorem mv (a : BitVec 6) (d : BitVec 6) : Statement (.mv a d) := by
  intro o hw
  refine ofWord (RFmt.low_pack ..) (decodeMajor_0 (RFmt.major_pack ..)) ?_ hw
  unfold decodeMajor0; rw [RFmt.minor7_pack]; simp (disch := decide) only [RFmt.b_pack, RFmt.a_pack, RFmt.d_pack, BitVec.reduceToNat]; simp

theorem addw (b : BitVec 6) (a : BitVec 6) (d : BitVec 6) : Statement (.addw b a d) := by
  intro o hw
  refine ofWord (RFmt.low_pack ..) (decodeMajor_0 (RFmt.major_pack ..)) ?_ hw
  unfold decodeMajor0; rw [RFmt.minor7_pack]; simp (disch := decide) only [RFmt.b_pack, RFmt.a_pack, RFmt.d_pack, BitVec.reduceToNat]

theorem subw (b : BitVec 6) (a : BitVec 6) (d : BitVec 6) : Statement (.subw b a d) := by
  intro o hw
  refine ofWord (RFmt.low_pack ..) (decodeMajor_0 (RFmt.major_pack ..)) ?_ hw
  unfold decodeMajor0; rw [RFmt.minor7_pack]; simp (disch := decide) only [RFmt.b_pack, RFmt.a_pack, RFmt.d_pack, BitVec.reduceToNat]

theorem sllw (b : BitVec 6) (a : BitVec 6) (d : BitVec 6) : Statement (.sllw b a d) := by
  intro o hw
  refine ofWord (RFmt.low_pack ..) (decodeMajor_0 (RFmt.major_pack ..)) ?_ hw
  unfold decodeMajor0; rw [RFmt.minor7_pack]; simp (disch := decide) only [RFmt.b_pack, RFmt.a_pack, RFmt.d_pack, BitVec.reduceToNat]

theorem srlw (b : BitVec 6) (a : BitVec 6) (d : BitVec 6) : Statement (.srlw b a d) := by
  intro o hw
  refine ofWord (RFmt.low_pack ..) (decodeMajor_0 (RFmt.major_pack ..)) ?_ hw
  unfold decodeMajor0; rw [RFmt.minor7_pack]; simp (disch := decide) only [RFmt.b_pack, RFmt.a_pack, RFmt.d_pack, BitVec.reduceToNat]

theorem sraw (b : BitVec 6) (a : BitVec 6) (d : BitVec 6) : Statement (.sraw b a d) := by
  intro o hw
  refine ofWord (RFmt.low_pack ..) (decodeMajor_0 (RFmt.major_pack ..)) ?_ hw
  unfold decodeMajor0; rw [RFmt.minor7_pack]; simp (disch := decide) only [RFmt.b_pack, RFmt.a_pack, RFmt.d_pack, BitVec.reduceToNat]

theorem sh1add (b : BitVec 6) (a : BitVec 6) (d : BitVec 6) : Statement (.sh1add b a d) := by
  intro o hw
  refine ofWord (RFmt.low_pack ..) (decodeMajor_0 (RFmt.major_pack ..)) ?_ hw
  unfold decodeMajor0; rw [RFmt.minor7_pack]; simp (disch := decide) only [RFmt.b_pack, RFmt.a_pack, RFmt.d_pack, BitVec.reduceToNat]

theorem sh2add (b : BitVec 6) (a : BitVec 6) (d : BitVec 6) : Statement (.sh2add b a d) := by
  intro o hw
  refine ofWord (RFmt.low_pack ..) (decodeMajor_0 (RFmt.major_pack ..)) ?_ hw
  unfold decodeMajor0; rw [RFmt.minor7_pack]; simp (disch := decide) only [RFmt.b_pack, RFmt.a_pack, RFmt.d_pack, BitVec.reduceToNat]

theorem sh3add (b : BitVec 6) (a : BitVec 6) (d : BitVec 6) : Statement (.sh3add b a d) := by
  intro o hw
  refine ofWord (RFmt.low_pack ..) (decodeMajor_0 (RFmt.major_pack ..)) ?_ hw
  unfold decodeMajor0; rw [RFmt.minor7_pack]; simp (disch := decide) only [RFmt.b_pack, RFmt.a_pack, RFmt.d_pack, BitVec.reduceToNat]

theorem sh4add (b : BitVec 6) (a : BitVec 6) (d : BitVec 6) : Statement (.sh4add b a d) := by
  intro o hw
  refine ofWord (RFmt.low_pack ..) (decodeMajor_0 (RFmt.major_pack ..)) ?_ hw
  unfold decodeMajor0; rw [RFmt.minor7_pack]; simp (disch := decide) only [RFmt.b_pack, RFmt.a_pack, RFmt.d_pack, BitVec.reduceToNat]

theorem lix (n : BitVec 2) (d : BitVec 6) : Statement (.lix n d) := by
  intro o hw
  refine ofWord (RFmt.low_pack ..) (decodeMajor_0 (RFmt.major_pack ..)) ?_ hw
  unfold decodeMajor0; rw [RFmt.minor7_pack]; simp (disch := decide) only [RFmt.b_pack, RFmt.a_pack, RFmt.d_pack, ex_hi, ex_lo, Nat.reduceSub, ex_all, BitVec.reduceToNat]; simp

theorem lixu (n : BitVec 2) (d : BitVec 6) : Statement (.lixu n d) := by
  intro o hw
  refine ofWord (RFmt.low_pack ..) (decodeMajor_0 (RFmt.major_pack ..)) ?_ hw
  unfold decodeMajor0; rw [RFmt.minor7_pack]; simp (disch := decide) only [RFmt.b_pack, RFmt.a_pack, RFmt.d_pack, ex_hi, ex_lo, Nat.reduceSub, ex_all, BitVec.reduceToNat]; simp

theorem insh (n : BitVec 2) (d : BitVec 6) : Statement (.insh n d) := by
  intro o hw
  refine ofWord (RFmt.low_pack ..) (decodeMajor_0 (RFmt.major_pack ..)) ?_ hw
  unfold decodeMajor0; rw [RFmt.minor7_pack]; simp (disch := decide) only [RFmt.b_pack, RFmt.a_pack, RFmt.d_pack, ex_hi, ex_lo, Nat.reduceSub, ex_all, BitVec.reduceToNat]; simp

theorem jr (a : BitVec 6) : Statement (.jr a) := by
  intro o hw
  refine ofWord (RFmt.low_pack ..) (decodeMajor_0 (RFmt.major_pack ..)) ?_ hw
  unfold decodeMajor0; rw [RFmt.minor7_pack]; simp (disch := decide) only [RFmt.b_pack, RFmt.a_pack, RFmt.d_pack, BitVec.reduceToNat]; simp

theorem callr (a : BitVec 6) : Statement (.callr a) := by
  intro o hw
  refine ofWord (RFmt.low_pack ..) (decodeMajor_0 (RFmt.major_pack ..)) ?_ hw
  unfold decodeMajor0; rw [RFmt.minor7_pack]; simp (disch := decide) only [RFmt.b_pack, RFmt.a_pack, RFmt.d_pack, BitVec.reduceToNat]; simp

theorem ret : Statement (.ret ) := by
  intro o hw
  refine ofWord (RFmt.low_pack ..) (decodeMajor_0 (RFmt.major_pack ..)) ?_ hw
  unfold decodeMajor0; rw [RFmt.minor7_pack]; simp (disch := decide) only [RFmt.b_pack, RFmt.a_pack, RFmt.d_pack, BitVec.reduceToNat]; simp

theorem land : Statement (.land ) := by
  intro o hw
  refine ofWord (RFmt.low_pack ..) (decodeMajor_0 (RFmt.major_pack ..)) ?_ hw
  unfold decodeMajor0; rw [RFmt.minor7_pack]; simp (disch := decide) only [RFmt.b_pack, RFmt.a_pack, RFmt.d_pack, BitVec.reduceToNat]; simp

theorem enter (l : BitVec 6) (h : BitVec 6) : Statement (.enter l h) := by
  intro o hw
  refine ofWord (RFmt.low_pack ..) (decodeMajor_0 (RFmt.major_pack ..)) ?_ hw
  unfold decodeMajor0; rw [RFmt.minor7_pack]; simp (disch := decide) only [RFmt.b_pack, RFmt.a_pack, RFmt.d_pack, BitVec.reduceToNat]; simp

theorem enterFp (l : BitVec 6) (h : BitVec 6) (r : BitVec 5) : Statement (.enterFp l h r) := by
  intro o hw
  refine ofWord (RFmt.low_pack ..) (decodeMajor_0 (RFmt.major_pack ..)) ?_ hw
  unfold decodeMajor0; rw [RFmt.minor7_pack]; simp (disch := decide) only [RFmt.b_pack, RFmt.a_pack, RFmt.d_pack, ex_hi, ex_lo, Nat.reduceSub, ex_all, BitVec.reduceToNat, cons_one_ne]; simp

theorem leave (l : BitVec 6) (h : BitVec 6) : Statement (.leave l h) := by
  intro o hw
  refine ofWord (RFmt.low_pack ..) (decodeMajor_0 (RFmt.major_pack ..)) ?_ hw
  unfold decodeMajor0; rw [RFmt.minor7_pack]; simp (disch := decide) only [RFmt.b_pack, RFmt.a_pack, RFmt.d_pack, BitVec.reduceToNat]; simp

theorem leaveFp (l : BitVec 6) (h : BitVec 6) (r : BitVec 5) : Statement (.leaveFp l h r) := by
  intro o hw
  refine ofWord (RFmt.low_pack ..) (decodeMajor_0 (RFmt.major_pack ..)) ?_ hw
  unfold decodeMajor0; rw [RFmt.minor7_pack]; simp (disch := decide) only [RFmt.b_pack, RFmt.a_pack, RFmt.d_pack, ex_hi, ex_lo, Nat.reduceSub, ex_all, BitVec.reduceToNat, cons_one_ne]; simp

theorem kpack (n : BitVec 3) (d : BitVec 6) : Statement (.kpack n d) := by
  intro o hw
  refine ofWord (RFmt.low_pack ..) (decodeMajor_0 (RFmt.major_pack ..)) ?_ hw
  unfold decodeMajor0; rw [RFmt.minor7_pack]; simp (disch := decide) only [RFmt.b_pack, RFmt.a_pack, RFmt.d_pack, ex_hi, ex_lo, Nat.reduceSub, ex_all, BitVec.reduceToNat]; simp

theorem kunpack (n : BitVec 3) (a : BitVec 6) : Statement (.kunpack n a) := by
  intro o hw
  refine ofWord (RFmt.low_pack ..) (decodeMajor_0 (RFmt.major_pack ..)) ?_ hw
  unfold decodeMajor0; rw [RFmt.minor7_pack]; simp (disch := decide) only [RFmt.b_pack, RFmt.a_pack, RFmt.d_pack, ex_hi, ex_lo, Nat.reduceSub, ex_all, BitVec.reduceToNat]; simp

theorem addi (i : BitVec 12) (a : BitVec 5) (d : BitVec 5) : Statement (.addi i a d) := by
  intro o hw
  refine ofWord (IFmt.low_pack ..) (decodeMajor_1 (IFmt.major_pack ..)) ?_ hw
  unfold decodeMajor1; rw [IFmt.f3_pack]; simp (disch := decide) only [IFmt.imm12_pack, IFmt.a5_pack, IFmt.d5_pack, BitVec.reduceToNat]

theorem li (i : BitVec 12) (j : BitVec 5) (d : BitVec 5) : Statement (.li i j d) := by
  intro o hw
  refine ofWord (IFmt.low_pack ..) (decodeMajor_1 (IFmt.major_pack ..)) ?_ hw
  unfold decodeMajor1; rw [IFmt.f3_pack]; simp (disch := decide) only [IFmt.imm12_pack, IFmt.a5_pack, IFmt.d5_pack, BitVec.reduceToNat]

theorem andi (i : BitVec 12) (a : BitVec 5) (d : BitVec 5) : Statement (.andi i a d) := by
  intro o hw
  refine ofWord (IFmt.low_pack ..) (decodeMajor_1 (IFmt.major_pack ..)) ?_ hw
  unfold decodeMajor1; rw [IFmt.f3_pack]; simp (disch := decide) only [IFmt.imm12_pack, IFmt.a5_pack, IFmt.d5_pack, BitVec.reduceToNat]

theorem ori (i : BitVec 12) (a : BitVec 5) (d : BitVec 5) : Statement (.ori i a d) := by
  intro o hw
  refine ofWord (IFmt.low_pack ..) (decodeMajor_1 (IFmt.major_pack ..)) ?_ hw
  unfold decodeMajor1; rw [IFmt.f3_pack]; simp (disch := decide) only [IFmt.imm12_pack, IFmt.a5_pack, IFmt.d5_pack, BitVec.reduceToNat]

theorem xori (i : BitVec 12) (a : BitVec 5) (d : BitVec 5) : Statement (.xori i a d) := by
  intro o hw
  refine ofWord (IFmt.low_pack ..) (decodeMajor_1 (IFmt.major_pack ..)) ?_ hw
  unfold decodeMajor1; rw [IFmt.f3_pack]; simp (disch := decide) only [IFmt.imm12_pack, IFmt.a5_pack, IFmt.d5_pack, BitVec.reduceToNat]

theorem slti (i : BitVec 12) (a : BitVec 5) (d : BitVec 5) : Statement (.slti i a d) := by
  intro o hw
  refine ofWord (IFmt.low_pack ..) (decodeMajor_1 (IFmt.major_pack ..)) ?_ hw
  unfold decodeMajor1; rw [IFmt.f3_pack]; simp (disch := decide) only [IFmt.imm12_pack, IFmt.a5_pack, IFmt.d5_pack, BitVec.reduceToNat]

theorem sltiu (i : BitVec 12) (a : BitVec 5) (d : BitVec 5) : Statement (.sltiu i a d) := by
  intro o hw
  refine ofWord (IFmt.low_pack ..) (decodeMajor_1 (IFmt.major_pack ..)) ?_ hw
  unfold decodeMajor1; rw [IFmt.f3_pack]; simp (disch := decide) only [IFmt.imm12_pack, IFmt.a5_pack, IFmt.d5_pack, BitVec.reduceToNat]

theorem slli (s : BitVec 6) (a : BitVec 5) (d : BitVec 5) : Statement (.slli s a d) := by
  intro o hw
  refine ofWord (IFmt.low_pack ..) (decodeMajor_1 (IFmt.major_pack ..)) ?_ hw
  unfold decodeMajor1; rw [IFmt.f3_pack]; simp (disch := decide) only [IFmt.imm12_pack, IFmt.a5_pack, IFmt.d5_pack, ex_hi, ex_lo, Nat.reduceSub, ex_all, BitVec.reduceToNat]; simp

theorem srli (s : BitVec 6) (a : BitVec 5) (d : BitVec 5) : Statement (.srli s a d) := by
  intro o hw
  refine ofWord (IFmt.low_pack ..) (decodeMajor_1 (IFmt.major_pack ..)) ?_ hw
  unfold decodeMajor1; rw [IFmt.f3_pack]; simp (disch := decide) only [IFmt.imm12_pack, IFmt.a5_pack, IFmt.d5_pack, ex_hi, ex_lo, Nat.reduceSub, ex_all, BitVec.reduceToNat]; simp

theorem srai (s : BitVec 6) (a : BitVec 5) (d : BitVec 5) : Statement (.srai s a d) := by
  intro o hw
  refine ofWord (IFmt.low_pack ..) (decodeMajor_1 (IFmt.major_pack ..)) ?_ hw
  unfold decodeMajor1; rw [IFmt.f3_pack]; simp (disch := decide) only [IFmt.imm12_pack, IFmt.a5_pack, IFmt.d5_pack, ex_hi, ex_lo, Nat.reduceSub, ex_all, BitVec.reduceToNat]; simp

theorem rori (s : BitVec 6) (a : BitVec 5) (d : BitVec 5) : Statement (.rori s a d) := by
  intro o hw
  refine ofWord (IFmt.low_pack ..) (decodeMajor_1 (IFmt.major_pack ..)) ?_ hw
  unfold decodeMajor1; rw [IFmt.f3_pack]; simp (disch := decide) only [IFmt.imm12_pack, IFmt.a5_pack, IFmt.d5_pack, ex_hi, ex_lo, Nat.reduceSub, ex_all, BitVec.reduceToNat]; simp

theorem mul (b : BitVec 6) (a : BitVec 6) (d : BitVec 6) : Statement (.mul b a d) := by
  intro o hw
  refine ofWord (RFmt.low_pack ..) (decodeMajor_2 (RFmt.major_pack ..)) ?_ hw
  unfold decodeMajor2; rw [RFmt.minor7_pack]; simp (disch := decide) only [RFmt.b_pack, RFmt.a_pack, RFmt.d_pack, BitVec.reduceToNat]

theorem mulh (b : BitVec 6) (a : BitVec 6) (d : BitVec 6) : Statement (.mulh b a d) := by
  intro o hw
  refine ofWord (RFmt.low_pack ..) (decodeMajor_2 (RFmt.major_pack ..)) ?_ hw
  unfold decodeMajor2; rw [RFmt.minor7_pack]; simp (disch := decide) only [RFmt.b_pack, RFmt.a_pack, RFmt.d_pack, BitVec.reduceToNat]

theorem mulhu (b : BitVec 6) (a : BitVec 6) (d : BitVec 6) : Statement (.mulhu b a d) := by
  intro o hw
  refine ofWord (RFmt.low_pack ..) (decodeMajor_2 (RFmt.major_pack ..)) ?_ hw
  unfold decodeMajor2; rw [RFmt.minor7_pack]; simp (disch := decide) only [RFmt.b_pack, RFmt.a_pack, RFmt.d_pack, BitVec.reduceToNat]

theorem mulhsu (b : BitVec 6) (a : BitVec 6) (d : BitVec 6) : Statement (.mulhsu b a d) := by
  intro o hw
  refine ofWord (RFmt.low_pack ..) (decodeMajor_2 (RFmt.major_pack ..)) ?_ hw
  unfold decodeMajor2; rw [RFmt.minor7_pack]; simp (disch := decide) only [RFmt.b_pack, RFmt.a_pack, RFmt.d_pack, BitVec.reduceToNat]

theorem mulw (b : BitVec 6) (a : BitVec 6) (d : BitVec 6) : Statement (.mulw b a d) := by
  intro o hw
  refine ofWord (RFmt.low_pack ..) (decodeMajor_2 (RFmt.major_pack ..)) ?_ hw
  unfold decodeMajor2; rw [RFmt.minor7_pack]; simp (disch := decide) only [RFmt.b_pack, RFmt.a_pack, RFmt.d_pack, BitVec.reduceToNat]

theorem div (b : BitVec 6) (a : BitVec 6) (d : BitVec 6) : Statement (.div b a d) := by
  intro o hw
  refine ofWord (RFmt.low_pack ..) (decodeMajor_2 (RFmt.major_pack ..)) ?_ hw
  unfold decodeMajor2; rw [RFmt.minor7_pack]; simp (disch := decide) only [RFmt.b_pack, RFmt.a_pack, RFmt.d_pack, BitVec.reduceToNat]

theorem divu (b : BitVec 6) (a : BitVec 6) (d : BitVec 6) : Statement (.divu b a d) := by
  intro o hw
  refine ofWord (RFmt.low_pack ..) (decodeMajor_2 (RFmt.major_pack ..)) ?_ hw
  unfold decodeMajor2; rw [RFmt.minor7_pack]; simp (disch := decide) only [RFmt.b_pack, RFmt.a_pack, RFmt.d_pack, BitVec.reduceToNat]

theorem rem (b : BitVec 6) (a : BitVec 6) (d : BitVec 6) : Statement (.rem b a d) := by
  intro o hw
  refine ofWord (RFmt.low_pack ..) (decodeMajor_2 (RFmt.major_pack ..)) ?_ hw
  unfold decodeMajor2; rw [RFmt.minor7_pack]; simp (disch := decide) only [RFmt.b_pack, RFmt.a_pack, RFmt.d_pack, BitVec.reduceToNat]

theorem remu (b : BitVec 6) (a : BitVec 6) (d : BitVec 6) : Statement (.remu b a d) := by
  intro o hw
  refine ofWord (RFmt.low_pack ..) (decodeMajor_2 (RFmt.major_pack ..)) ?_ hw
  unfold decodeMajor2; rw [RFmt.minor7_pack]; simp (disch := decide) only [RFmt.b_pack, RFmt.a_pack, RFmt.d_pack, BitVec.reduceToNat]

theorem divw (b : BitVec 6) (a : BitVec 6) (d : BitVec 6) : Statement (.divw b a d) := by
  intro o hw
  refine ofWord (RFmt.low_pack ..) (decodeMajor_2 (RFmt.major_pack ..)) ?_ hw
  unfold decodeMajor2; rw [RFmt.minor7_pack]; simp (disch := decide) only [RFmt.b_pack, RFmt.a_pack, RFmt.d_pack, BitVec.reduceToNat]

theorem divuw (b : BitVec 6) (a : BitVec 6) (d : BitVec 6) : Statement (.divuw b a d) := by
  intro o hw
  refine ofWord (RFmt.low_pack ..) (decodeMajor_2 (RFmt.major_pack ..)) ?_ hw
  unfold decodeMajor2; rw [RFmt.minor7_pack]; simp (disch := decide) only [RFmt.b_pack, RFmt.a_pack, RFmt.d_pack, BitVec.reduceToNat]

theorem remw (b : BitVec 6) (a : BitVec 6) (d : BitVec 6) : Statement (.remw b a d) := by
  intro o hw
  refine ofWord (RFmt.low_pack ..) (decodeMajor_2 (RFmt.major_pack ..)) ?_ hw
  unfold decodeMajor2; rw [RFmt.minor7_pack]; simp (disch := decide) only [RFmt.b_pack, RFmt.a_pack, RFmt.d_pack, BitVec.reduceToNat]

theorem remuw (b : BitVec 6) (a : BitVec 6) (d : BitVec 6) : Statement (.remuw b a d) := by
  intro o hw
  refine ofWord (RFmt.low_pack ..) (decodeMajor_2 (RFmt.major_pack ..)) ?_ hw
  unfold decodeMajor2; rw [RFmt.minor7_pack]; simp (disch := decide) only [RFmt.b_pack, RFmt.a_pack, RFmt.d_pack, BitVec.reduceToNat]

theorem clz (a : BitVec 6) (d : BitVec 6) : Statement (.clz a d) := by
  intro o hw
  refine ofWord (RFmt.low_pack ..) (decodeMajor_3 (RFmt.major_pack ..)) ?_ hw
  unfold decodeMajor3; rw [RFmt.minor7_pack]; simp (disch := decide) only [RFmt.b_pack, RFmt.a_pack, RFmt.d_pack, BitVec.reduceToNat]; simp

theorem ctz (a : BitVec 6) (d : BitVec 6) : Statement (.ctz a d) := by
  intro o hw
  refine ofWord (RFmt.low_pack ..) (decodeMajor_3 (RFmt.major_pack ..)) ?_ hw
  unfold decodeMajor3; rw [RFmt.minor7_pack]; simp (disch := decide) only [RFmt.b_pack, RFmt.a_pack, RFmt.d_pack, BitVec.reduceToNat]; simp

theorem cpop (a : BitVec 6) (d : BitVec 6) : Statement (.cpop a d) := by
  intro o hw
  refine ofWord (RFmt.low_pack ..) (decodeMajor_3 (RFmt.major_pack ..)) ?_ hw
  unfold decodeMajor3; rw [RFmt.minor7_pack]; simp (disch := decide) only [RFmt.b_pack, RFmt.a_pack, RFmt.d_pack, BitVec.reduceToNat]; simp

theorem rev8 (a : BitVec 6) (d : BitVec 6) : Statement (.rev8 a d) := by
  intro o hw
  refine ofWord (RFmt.low_pack ..) (decodeMajor_3 (RFmt.major_pack ..)) ?_ hw
  unfold decodeMajor3; rw [RFmt.minor7_pack]; simp (disch := decide) only [RFmt.b_pack, RFmt.a_pack, RFmt.d_pack, BitVec.reduceToNat]; simp

theorem brev (a : BitVec 6) (d : BitVec 6) : Statement (.brev a d) := by
  intro o hw
  refine ofWord (RFmt.low_pack ..) (decodeMajor_3 (RFmt.major_pack ..)) ?_ hw
  unfold decodeMajor3; rw [RFmt.minor7_pack]; simp (disch := decide) only [RFmt.b_pack, RFmt.a_pack, RFmt.d_pack, BitVec.reduceToNat]; simp

theorem andn (b : BitVec 6) (a : BitVec 6) (d : BitVec 6) : Statement (.andn b a d) := by
  intro o hw
  refine ofWord (RFmt.low_pack ..) (decodeMajor_3 (RFmt.major_pack ..)) ?_ hw
  unfold decodeMajor3; rw [RFmt.minor7_pack]; simp (disch := decide) only [RFmt.b_pack, RFmt.a_pack, RFmt.d_pack, BitVec.reduceToNat]

theorem orn (b : BitVec 6) (a : BitVec 6) (d : BitVec 6) : Statement (.orn b a d) := by
  intro o hw
  refine ofWord (RFmt.low_pack ..) (decodeMajor_3 (RFmt.major_pack ..)) ?_ hw
  unfold decodeMajor3; rw [RFmt.minor7_pack]; simp (disch := decide) only [RFmt.b_pack, RFmt.a_pack, RFmt.d_pack, BitVec.reduceToNat]

theorem xnor (b : BitVec 6) (a : BitVec 6) (d : BitVec 6) : Statement (.xnor b a d) := by
  intro o hw
  refine ofWord (RFmt.low_pack ..) (decodeMajor_3 (RFmt.major_pack ..)) ?_ hw
  unfold decodeMajor3; rw [RFmt.minor7_pack]; simp (disch := decide) only [RFmt.b_pack, RFmt.a_pack, RFmt.d_pack, BitVec.reduceToNat]

theorem rol (b : BitVec 6) (a : BitVec 6) (d : BitVec 6) : Statement (.rol b a d) := by
  intro o hw
  refine ofWord (RFmt.low_pack ..) (decodeMajor_3 (RFmt.major_pack ..)) ?_ hw
  unfold decodeMajor3; rw [RFmt.minor7_pack]; simp (disch := decide) only [RFmt.b_pack, RFmt.a_pack, RFmt.d_pack, BitVec.reduceToNat]

theorem ror (b : BitVec 6) (a : BitVec 6) (d : BitVec 6) : Statement (.ror b a d) := by
  intro o hw
  refine ofWord (RFmt.low_pack ..) (decodeMajor_3 (RFmt.major_pack ..)) ?_ hw
  unfold decodeMajor3; rw [RFmt.minor7_pack]; simp (disch := decide) only [RFmt.b_pack, RFmt.a_pack, RFmt.d_pack, BitVec.reduceToNat]

theorem bset (b : BitVec 6) (a : BitVec 6) (d : BitVec 6) : Statement (.bset b a d) := by
  intro o hw
  refine ofWord (RFmt.low_pack ..) (decodeMajor_3 (RFmt.major_pack ..)) ?_ hw
  unfold decodeMajor3; rw [RFmt.minor7_pack]; simp (disch := decide) only [RFmt.b_pack, RFmt.a_pack, RFmt.d_pack, BitVec.reduceToNat]

theorem bclr (b : BitVec 6) (a : BitVec 6) (d : BitVec 6) : Statement (.bclr b a d) := by
  intro o hw
  refine ofWord (RFmt.low_pack ..) (decodeMajor_3 (RFmt.major_pack ..)) ?_ hw
  unfold decodeMajor3; rw [RFmt.minor7_pack]; simp (disch := decide) only [RFmt.b_pack, RFmt.a_pack, RFmt.d_pack, BitVec.reduceToNat]

theorem binv (b : BitVec 6) (a : BitVec 6) (d : BitVec 6) : Statement (.binv b a d) := by
  intro o hw
  refine ofWord (RFmt.low_pack ..) (decodeMajor_3 (RFmt.major_pack ..)) ?_ hw
  unfold decodeMajor3; rw [RFmt.minor7_pack]; simp (disch := decide) only [RFmt.b_pack, RFmt.a_pack, RFmt.d_pack, BitVec.reduceToNat]

theorem bext (b : BitVec 6) (a : BitVec 6) (d : BitVec 6) : Statement (.bext b a d) := by
  intro o hw
  refine ofWord (RFmt.low_pack ..) (decodeMajor_3 (RFmt.major_pack ..)) ?_ hw
  unfold decodeMajor3; rw [RFmt.minor7_pack]; simp (disch := decide) only [RFmt.b_pack, RFmt.a_pack, RFmt.d_pack, BitVec.reduceToNat]

theorem ext (b : BitVec 6) (a : BitVec 6) (d : BitVec 6) : Statement (.ext b a d) := by
  intro o hw
  refine ofWord (RFmt.low_pack ..) (decodeMajor_3 (RFmt.major_pack ..)) ?_ hw
  unfold decodeMajor3; rw [RFmt.minor7_pack]; simp (disch := decide) only [RFmt.b_pack, RFmt.a_pack, RFmt.d_pack, BitVec.reduceToNat]

theorem sextb (a : BitVec 6) (d : BitVec 6) : Statement (.sextb a d) := by
  intro o hw
  refine ofWord (RFmt.low_pack ..) (decodeMajor_3 (RFmt.major_pack ..)) ?_ hw
  unfold decodeMajor3; rw [RFmt.minor7_pack]; simp (disch := decide) only [RFmt.b_pack, RFmt.a_pack, RFmt.d_pack, BitVec.reduceToNat]; simp

theorem sexth (a : BitVec 6) (d : BitVec 6) : Statement (.sexth a d) := by
  intro o hw
  refine ofWord (RFmt.low_pack ..) (decodeMajor_3 (RFmt.major_pack ..)) ?_ hw
  unfold decodeMajor3; rw [RFmt.minor7_pack]; simp (disch := decide) only [RFmt.b_pack, RFmt.a_pack, RFmt.d_pack, BitVec.reduceToNat]; simp

theorem sextw (a : BitVec 6) (d : BitVec 6) : Statement (.sextw a d) := by
  intro o hw
  refine ofWord (RFmt.low_pack ..) (decodeMajor_3 (RFmt.major_pack ..)) ?_ hw
  unfold decodeMajor3; rw [RFmt.minor7_pack]; simp (disch := decide) only [RFmt.b_pack, RFmt.a_pack, RFmt.d_pack, BitVec.reduceToNat]; simp

theorem mod31 (a : BitVec 6) (d : BitVec 6) : Statement (.mod31 a d) := by
  intro o hw
  refine ofWord (RFmt.low_pack ..) (decodeMajor_3 (RFmt.major_pack ..)) ?_ hw
  unfold decodeMajor3; rw [RFmt.minor7_pack]; simp (disch := decide) only [RFmt.b_pack, RFmt.a_pack, RFmt.d_pack, BitVec.reduceToNat]; simp

theorem div31 (a : BitVec 6) (d : BitVec 6) : Statement (.div31 a d) := by
  intro o hw
  refine ofWord (RFmt.low_pack ..) (decodeMajor_3 (RFmt.major_pack ..)) ?_ hw
  unfold decodeMajor3; rw [RFmt.minor7_pack]; simp (disch := decide) only [RFmt.b_pack, RFmt.a_pack, RFmt.d_pack, BitVec.reduceToNat]; simp

theorem bankof (a : BitVec 6) (d : BitVec 6) : Statement (.bankof a d) := by
  intro o hw
  refine ofWord (RFmt.low_pack ..) (decodeMajor_3 (RFmt.major_pack ..)) ?_ hw
  unfold decodeMajor3; rw [RFmt.minor7_pack]; simp (disch := decide) only [RFmt.b_pack, RFmt.a_pack, RFmt.d_pack, BitVec.reduceToNat]; simp

theorem rowof (a : BitVec 6) (d : BitVec 6) : Statement (.rowof a d) := by
  intro o hw
  refine ofWord (RFmt.low_pack ..) (decodeMajor_3 (RFmt.major_pack ..)) ?_ hw
  unfold decodeMajor3; rw [RFmt.minor7_pack]; simp (disch := decide) only [RFmt.b_pack, RFmt.a_pack, RFmt.d_pack, BitVec.reduceToNat]; simp

theorem spa (b : BitVec 6) (a : BitVec 6) (d : BitVec 6) : Statement (.spa b a d) := by
  intro o hw
  refine ofWord (RFmt.low_pack ..) (decodeMajor_3 (RFmt.major_pack ..)) ?_ hw
  unfold decodeMajor3; rw [RFmt.minor7_pack]; simp (disch := decide) only [RFmt.b_pack, RFmt.a_pack, RFmt.d_pack, BitVec.reduceToNat]

theorem addm31 (b : BitVec 6) (a : BitVec 6) (d : BitVec 6) : Statement (.addm31 b a d) := by
  intro o hw
  refine ofWord (RFmt.low_pack ..) (decodeMajor_3 (RFmt.major_pack ..)) ?_ hw
  unfold decodeMajor3; rw [RFmt.minor7_pack]; simp (disch := decide) only [RFmt.b_pack, RFmt.a_pack, RFmt.d_pack, BitVec.reduceToNat]

theorem oxl (i : BitVec 16) (n : BitVec 2) : Statement (.oxl i n) := by
  intro o hw
  refine ofWord (XFmt.low_pack ..) (decodeMajor_4 (XFmt.major_pack ..)) ?_ hw
  unfold decodeMajor4; rw [XFmt.minor7_pack]; simp (disch := decide) only [XFmt.imm16_pack, XFmt.ox_pack, BitVec.reduceToNat]

theorem oxh (i : BitVec 16) (n : BitVec 2) : Statement (.oxh i n) := by
  intro o hw
  refine ofWord (XFmt.low_pack ..) (decodeMajor_4 (XFmt.major_pack ..)) ?_ hw
  unfold decodeMajor4; rw [XFmt.minor7_pack]; simp (disch := decide) only [XFmt.imm16_pack, XFmt.ox_pack, BitVec.reduceToNat]

theorem beq (o : BitVec 12) (b : BitVec 5) (a : BitVec 5) : Statement (.beq o b a) := by
  intro o hw
  refine ofWord (IFmt.low_pack ..) (decodeMajor_5 (IFmt.major_pack ..)) ?_ hw
  unfold decodeMajor5; rw [IFmt.f3_pack]; simp (disch := decide) only [IFmt.imm12_pack, IFmt.a5_pack, IFmt.d5_pack, BitVec.reduceToNat]

theorem bne (o : BitVec 12) (b : BitVec 5) (a : BitVec 5) : Statement (.bne o b a) := by
  intro o hw
  refine ofWord (IFmt.low_pack ..) (decodeMajor_5 (IFmt.major_pack ..)) ?_ hw
  unfold decodeMajor5; rw [IFmt.f3_pack]; simp (disch := decide) only [IFmt.imm12_pack, IFmt.a5_pack, IFmt.d5_pack, BitVec.reduceToNat]

theorem blt (o : BitVec 12) (b : BitVec 5) (a : BitVec 5) : Statement (.blt o b a) := by
  intro o hw
  refine ofWord (IFmt.low_pack ..) (decodeMajor_5 (IFmt.major_pack ..)) ?_ hw
  unfold decodeMajor5; rw [IFmt.f3_pack]; simp (disch := decide) only [IFmt.imm12_pack, IFmt.a5_pack, IFmt.d5_pack, BitVec.reduceToNat]

theorem bge (o : BitVec 12) (b : BitVec 5) (a : BitVec 5) : Statement (.bge o b a) := by
  intro o hw
  refine ofWord (IFmt.low_pack ..) (decodeMajor_5 (IFmt.major_pack ..)) ?_ hw
  unfold decodeMajor5; rw [IFmt.f3_pack]; simp (disch := decide) only [IFmt.imm12_pack, IFmt.a5_pack, IFmt.d5_pack, BitVec.reduceToNat]

theorem bltu (o : BitVec 12) (b : BitVec 5) (a : BitVec 5) : Statement (.bltu o b a) := by
  intro o hw
  refine ofWord (IFmt.low_pack ..) (decodeMajor_5 (IFmt.major_pack ..)) ?_ hw
  unfold decodeMajor5; rw [IFmt.f3_pack]; simp (disch := decide) only [IFmt.imm12_pack, IFmt.a5_pack, IFmt.d5_pack, BitVec.reduceToNat]

theorem bgeu (o : BitVec 12) (b : BitVec 5) (a : BitVec 5) : Statement (.bgeu o b a) := by
  intro o hw
  refine ofWord (IFmt.low_pack ..) (decodeMajor_5 (IFmt.major_pack ..)) ?_ hw
  unfold decodeMajor5; rw [IFmt.f3_pack]; simp (disch := decide) only [IFmt.imm12_pack, IFmt.a5_pack, IFmt.d5_pack, BitVec.reduceToNat]

theorem bnr (o : BitVec 12) : Statement (.bnr o) := by
  intro o hw
  refine ofWord (IFmt.low_pack ..) (decodeMajor_5 (IFmt.major_pack ..)) ?_ hw
  unfold decodeMajor5; rw [IFmt.f3_pack]; simp (disch := decide) only [IFmt.imm12_pack, IFmt.a5_pack, IFmt.d5_pack, BitVec.reduceToNat]; simp

theorem brd (o : BitVec 12) : Statement (.brd o) := by
  intro o hw
  refine ofWord (IFmt.low_pack ..) (decodeMajor_5 (IFmt.major_pack ..)) ?_ hw
  unfold decodeMajor5; rw [IFmt.f3_pack]; simp (disch := decide) only [IFmt.imm12_pack, IFmt.a5_pack, IFmt.d5_pack, BitVec.reduceToNat]; simp

theorem j (o : BitVec 12) : Statement (.j o) := by
  intro o hw
  refine ofWord (IFmt.low_pack ..) (decodeMajor_5 (IFmt.major_pack ..)) ?_ hw
  unfold decodeMajor5; rw [IFmt.f3_pack]; simp (disch := decide) only [IFmt.imm12_pack, IFmt.a5_pack, IFmt.d5_pack, BitVec.reduceToNat]; simp

theorem call (o : BitVec 25) : Statement (.call o) := by
  intro o hw
  refine ofWord (JFmt.low_pack ..) (decodeMajor_6 (JFmt.major_pack ..)) ?_ hw
  unfold decodeMajor6; simp (disch := decide) only [JFmt.off25_pack]

theorem fadd (b : BitVec 6) (a : BitVec 6) (d : BitVec 6) : Statement (.fadd b a d) := by
  intro o hw
  refine ofWord (RFmt.low_pack ..) (decodeMajor_7 (RFmt.major_pack ..)) ?_ hw
  unfold decodeMajor7; rw [RFmt.minor7_pack]; simp (disch := decide) only [RFmt.b_pack, RFmt.a_pack, RFmt.d_pack, BitVec.reduceToNat]

theorem fsub (b : BitVec 6) (a : BitVec 6) (d : BitVec 6) : Statement (.fsub b a d) := by
  intro o hw
  refine ofWord (RFmt.low_pack ..) (decodeMajor_7 (RFmt.major_pack ..)) ?_ hw
  unfold decodeMajor7; rw [RFmt.minor7_pack]; simp (disch := decide) only [RFmt.b_pack, RFmt.a_pack, RFmt.d_pack, BitVec.reduceToNat]

theorem fmul (b : BitVec 6) (a : BitVec 6) (d : BitVec 6) : Statement (.fmul b a d) := by
  intro o hw
  refine ofWord (RFmt.low_pack ..) (decodeMajor_7 (RFmt.major_pack ..)) ?_ hw
  unfold decodeMajor7; rw [RFmt.minor7_pack]; simp (disch := decide) only [RFmt.b_pack, RFmt.a_pack, RFmt.d_pack, BitVec.reduceToNat]

theorem fdiv (b : BitVec 6) (a : BitVec 6) (d : BitVec 6) : Statement (.fdiv b a d) := by
  intro o hw
  refine ofWord (RFmt.low_pack ..) (decodeMajor_7 (RFmt.major_pack ..)) ?_ hw
  unfold decodeMajor7; rw [RFmt.minor7_pack]; simp (disch := decide) only [RFmt.b_pack, RFmt.a_pack, RFmt.d_pack, BitVec.reduceToNat]

theorem fmin (b : BitVec 6) (a : BitVec 6) (d : BitVec 6) : Statement (.fmin b a d) := by
  intro o hw
  refine ofWord (RFmt.low_pack ..) (decodeMajor_7 (RFmt.major_pack ..)) ?_ hw
  unfold decodeMajor7; rw [RFmt.minor7_pack]; simp (disch := decide) only [RFmt.b_pack, RFmt.a_pack, RFmt.d_pack, BitVec.reduceToNat]

theorem fmax (b : BitVec 6) (a : BitVec 6) (d : BitVec 6) : Statement (.fmax b a d) := by
  intro o hw
  refine ofWord (RFmt.low_pack ..) (decodeMajor_7 (RFmt.major_pack ..)) ?_ hw
  unfold decodeMajor7; rw [RFmt.minor7_pack]; simp (disch := decide) only [RFmt.b_pack, RFmt.a_pack, RFmt.d_pack, BitVec.reduceToNat]

theorem fmadd (b : BitVec 6) (a : BitVec 6) (d : BitVec 6) : Statement (.fmadd b a d) := by
  intro o hw
  refine ofWord (RFmt.low_pack ..) (decodeMajor_7 (RFmt.major_pack ..)) ?_ hw
  unfold decodeMajor7; rw [RFmt.minor7_pack]; simp (disch := decide) only [RFmt.b_pack, RFmt.a_pack, RFmt.d_pack, BitVec.reduceToNat]

theorem fmsub (b : BitVec 6) (a : BitVec 6) (d : BitVec 6) : Statement (.fmsub b a d) := by
  intro o hw
  refine ofWord (RFmt.low_pack ..) (decodeMajor_7 (RFmt.major_pack ..)) ?_ hw
  unfold decodeMajor7; rw [RFmt.minor7_pack]; simp (disch := decide) only [RFmt.b_pack, RFmt.a_pack, RFmt.d_pack, BitVec.reduceToNat]

theorem fsqrt (r : BitVec 3) (a : BitVec 6) (d : BitVec 6) : Statement (.fsqrt r a d) := by
  intro o hw
  refine ofWord (RFmt.low_pack ..) (decodeMajor_7 (RFmt.major_pack ..)) ?_ hw
  unfold decodeMajor7; rw [RFmt.minor7_pack]; simp (disch := decide) only [RFmt.b_pack, RFmt.a_pack, RFmt.d_pack, ex_hi, ex_lo, Nat.reduceSub, ex_all, BitVec.reduceToNat]; simp

theorem fsgnj (b : BitVec 6) (a : BitVec 6) (d : BitVec 6) : Statement (.fsgnj b a d) := by
  intro o hw
  refine ofWord (RFmt.low_pack ..) (decodeMajor_7 (RFmt.major_pack ..)) ?_ hw
  unfold decodeMajor7; rw [RFmt.minor7_pack]; simp (disch := decide) only [RFmt.b_pack, RFmt.a_pack, RFmt.d_pack, BitVec.reduceToNat]

theorem fsgnjn (b : BitVec 6) (a : BitVec 6) (d : BitVec 6) : Statement (.fsgnjn b a d) := by
  intro o hw
  refine ofWord (RFmt.low_pack ..) (decodeMajor_7 (RFmt.major_pack ..)) ?_ hw
  unfold decodeMajor7; rw [RFmt.minor7_pack]; simp (disch := decide) only [RFmt.b_pack, RFmt.a_pack, RFmt.d_pack, BitVec.reduceToNat]

theorem fsgnjx (b : BitVec 6) (a : BitVec 6) (d : BitVec 6) : Statement (.fsgnjx b a d) := by
  intro o hw
  refine ofWord (RFmt.low_pack ..) (decodeMajor_7 (RFmt.major_pack ..)) ?_ hw
  unfold decodeMajor7; rw [RFmt.minor7_pack]; simp (disch := decide) only [RFmt.b_pack, RFmt.a_pack, RFmt.d_pack, BitVec.reduceToNat]

theorem feq (b : BitVec 6) (a : BitVec 6) (d : BitVec 6) : Statement (.feq b a d) := by
  intro o hw
  refine ofWord (RFmt.low_pack ..) (decodeMajor_7 (RFmt.major_pack ..)) ?_ hw
  unfold decodeMajor7; rw [RFmt.minor7_pack]; simp (disch := decide) only [RFmt.b_pack, RFmt.a_pack, RFmt.d_pack, BitVec.reduceToNat]

theorem flt (b : BitVec 6) (a : BitVec 6) (d : BitVec 6) : Statement (.flt b a d) := by
  intro o hw
  refine ofWord (RFmt.low_pack ..) (decodeMajor_7 (RFmt.major_pack ..)) ?_ hw
  unfold decodeMajor7; rw [RFmt.minor7_pack]; simp (disch := decide) only [RFmt.b_pack, RFmt.a_pack, RFmt.d_pack, BitVec.reduceToNat]

theorem fle (b : BitVec 6) (a : BitVec 6) (d : BitVec 6) : Statement (.fle b a d) := by
  intro o hw
  refine ofWord (RFmt.low_pack ..) (decodeMajor_7 (RFmt.major_pack ..)) ?_ hw
  unfold decodeMajor7; rw [RFmt.minor7_pack]; simp (disch := decide) only [RFmt.b_pack, RFmt.a_pack, RFmt.d_pack, BitVec.reduceToNat]

theorem fclass (a : BitVec 6) (d : BitVec 6) : Statement (.fclass a d) := by
  intro o hw
  refine ofWord (RFmt.low_pack ..) (decodeMajor_7 (RFmt.major_pack ..)) ?_ hw
  unfold decodeMajor7; rw [RFmt.minor7_pack]; simp (disch := decide) only [RFmt.b_pack, RFmt.a_pack, RFmt.d_pack, BitVec.reduceToNat]; simp

theorem ftoi (r : BitVec 3) (a : BitVec 6) (d : BitVec 6) : Statement (.ftoi r a d) := by
  intro o hw
  refine ofWord (RFmt.low_pack ..) (decodeMajor_7 (RFmt.major_pack ..)) ?_ hw
  unfold decodeMajor7; rw [RFmt.minor7_pack]; simp (disch := decide) only [RFmt.b_pack, RFmt.a_pack, RFmt.d_pack, ex_hi, ex_lo, Nat.reduceSub, ex_all, BitVec.reduceToNat]; simp

theorem ftou (r : BitVec 3) (a : BitVec 6) (d : BitVec 6) : Statement (.ftou r a d) := by
  intro o hw
  refine ofWord (RFmt.low_pack ..) (decodeMajor_7 (RFmt.major_pack ..)) ?_ hw
  unfold decodeMajor7; rw [RFmt.minor7_pack]; simp (disch := decide) only [RFmt.b_pack, RFmt.a_pack, RFmt.d_pack, ex_hi, ex_lo, Nat.reduceSub, ex_all, BitVec.reduceToNat]; simp

theorem ftol (r : BitVec 3) (a : BitVec 6) (d : BitVec 6) : Statement (.ftol r a d) := by
  intro o hw
  refine ofWord (RFmt.low_pack ..) (decodeMajor_7 (RFmt.major_pack ..)) ?_ hw
  unfold decodeMajor7; rw [RFmt.minor7_pack]; simp (disch := decide) only [RFmt.b_pack, RFmt.a_pack, RFmt.d_pack, ex_hi, ex_lo, Nat.reduceSub, ex_all, BitVec.reduceToNat]; simp

theorem ftoul (r : BitVec 3) (a : BitVec 6) (d : BitVec 6) : Statement (.ftoul r a d) := by
  intro o hw
  refine ofWord (RFmt.low_pack ..) (decodeMajor_7 (RFmt.major_pack ..)) ?_ hw
  unfold decodeMajor7; rw [RFmt.minor7_pack]; simp (disch := decide) only [RFmt.b_pack, RFmt.a_pack, RFmt.d_pack, ex_hi, ex_lo, Nat.reduceSub, ex_all, BitVec.reduceToNat]; simp

theorem itof (r : BitVec 3) (a : BitVec 6) (d : BitVec 6) : Statement (.itof r a d) := by
  intro o hw
  refine ofWord (RFmt.low_pack ..) (decodeMajor_7 (RFmt.major_pack ..)) ?_ hw
  unfold decodeMajor7; rw [RFmt.minor7_pack]; simp (disch := decide) only [RFmt.b_pack, RFmt.a_pack, RFmt.d_pack, ex_hi, ex_lo, Nat.reduceSub, ex_all, BitVec.reduceToNat]; simp

theorem utof (r : BitVec 3) (a : BitVec 6) (d : BitVec 6) : Statement (.utof r a d) := by
  intro o hw
  refine ofWord (RFmt.low_pack ..) (decodeMajor_7 (RFmt.major_pack ..)) ?_ hw
  unfold decodeMajor7; rw [RFmt.minor7_pack]; simp (disch := decide) only [RFmt.b_pack, RFmt.a_pack, RFmt.d_pack, ex_hi, ex_lo, Nat.reduceSub, ex_all, BitVec.reduceToNat]; simp

theorem ltof (r : BitVec 3) (a : BitVec 6) (d : BitVec 6) : Statement (.ltof r a d) := by
  intro o hw
  refine ofWord (RFmt.low_pack ..) (decodeMajor_7 (RFmt.major_pack ..)) ?_ hw
  unfold decodeMajor7; rw [RFmt.minor7_pack]; simp (disch := decide) only [RFmt.b_pack, RFmt.a_pack, RFmt.d_pack, ex_hi, ex_lo, Nat.reduceSub, ex_all, BitVec.reduceToNat]; simp

theorem ultof (r : BitVec 3) (a : BitVec 6) (d : BitVec 6) : Statement (.ultof r a d) := by
  intro o hw
  refine ofWord (RFmt.low_pack ..) (decodeMajor_7 (RFmt.major_pack ..)) ?_ hw
  unfold decodeMajor7; rw [RFmt.minor7_pack]; simp (disch := decide) only [RFmt.b_pack, RFmt.a_pack, RFmt.d_pack, ex_hi, ex_lo, Nat.reduceSub, ex_all, BitVec.reduceToNat]; simp

theorem ftobf (r : BitVec 3) (a : BitVec 6) (d : BitVec 6) : Statement (.ftobf r a d) := by
  intro o hw
  refine ofWord (RFmt.low_pack ..) (decodeMajor_7 (RFmt.major_pack ..)) ?_ hw
  unfold decodeMajor7; rw [RFmt.minor7_pack]; simp (disch := decide) only [RFmt.b_pack, RFmt.a_pack, RFmt.d_pack, ex_hi, ex_lo, Nat.reduceSub, ex_all, BitVec.reduceToNat]; simp

theorem bftof (a : BitVec 6) (d : BitVec 6) : Statement (.bftof a d) := by
  intro o hw
  refine ofWord (RFmt.low_pack ..) (decodeMajor_7 (RFmt.major_pack ..)) ?_ hw
  unfold decodeMajor7; rw [RFmt.minor7_pack]; simp (disch := decide) only [RFmt.b_pack, RFmt.a_pack, RFmt.d_pack, BitVec.reduceToNat]; simp

theorem ldW (o : BitVec 12) (p : Policy) (b : BitVec 5) (d : BitVec 5) : Statement (.ldW o p b d) := by
  intro o hw
  refine ofWord (MFmt.low_pack ..) (decodeMajor_8 (MFmt.major_pack ..)) ?_ hw
  unfold decodeMajor8; rw [MFmt.wbit_pack]; simp (disch := decide) only [MFmt.imm12_pack, MFmt.pol18_pack, MFmt.a5_pack, MFmt.d5_pack, Policy.ofBits_bits, BitVec.reduceToNat]

theorem ldD (o : BitVec 12) (p : Policy) (b : BitVec 5) (d : BitVec 5) : Statement (.ldD o p b d) := by
  intro o hw
  refine ofWord (MFmt.low_pack ..) (decodeMajor_8 (MFmt.major_pack ..)) ?_ hw
  unfold decodeMajor8; rw [MFmt.wbit_pack]; simp (disch := decide) only [MFmt.imm12_pack, MFmt.pol18_pack, MFmt.a5_pack, MFmt.d5_pack, Policy.ofBits_bits, BitVec.reduceToNat]

theorem stW (o : BitVec 12) (p : Policy) (b : BitVec 5) (d : BitVec 5) : Statement (.stW o p b d) := by
  intro o hw
  refine ofWord (MFmt.low_pack ..) (decodeMajor_9 (MFmt.major_pack ..)) ?_ hw
  unfold decodeMajor9; rw [MFmt.wbit_pack]; simp (disch := decide) only [MFmt.imm12_pack, MFmt.pol18_pack, MFmt.a5_pack, MFmt.d5_pack, Policy.ofBits_bits, BitVec.reduceToNat]

theorem stD (o : BitVec 12) (p : Policy) (b : BitVec 5) (d : BitVec 5) : Statement (.stD o p b d) := by
  intro o hw
  refine ofWord (MFmt.low_pack ..) (decodeMajor_9 (MFmt.major_pack ..)) ?_ hw
  unfold decodeMajor9; rw [MFmt.wbit_pack]; simp (disch := decide) only [MFmt.imm12_pack, MFmt.pol18_pack, MFmt.a5_pack, MFmt.d5_pack, Policy.ofBits_bits, BitVec.reduceToNat]

theorem ldMn (p : Policy) (q : BitVec 1) (z : BitVec 3) (o : BitVec 5) (a : BitVec 6) (d : BitVec 6) : Statement (.ldMn p q z o a d) := by
  intro o hw
  refine ofWord (MNFmt.low_pack ..) (decodeMajor_10 (MNFmt.major_pack ..)) ?_ hw
  unfold decodeMajor10; simp (disch := decide) only [MNFmt.pol_pack, MNFmt.sbit_pack, MNFmt.qbit_pack, MNFmt.sz_pack, MNFmt.cbit_pack, MNFmt.off5_pack, MNFmt.a_pack, MNFmt.d_pack, Policy.ofBits_bits]; simp

theorem stMn (p : Policy) (q : BitVec 1) (z : BitVec 2) (o : BitVec 5) (a : BitVec 6) (d : BitVec 6) : Statement (.stMn p q z o a d) := by
  intro o hw
  refine ofWord (MNFmt.low_pack ..) (decodeMajor_10 (MNFmt.major_pack ..)) ?_ hw
  unfold decodeMajor10; simp (disch := decide) only [MNFmt.pol_pack, MNFmt.sbit_pack, MNFmt.qbit_pack, MNFmt.sz_pack, MNFmt.cbit_pack, MNFmt.off5_pack, MNFmt.a_pack, MNFmt.d_pack, ex_hi, ex_lo, Nat.reduceSub, ex_all, Policy.ofBits_bits]; simp

theorem ldSp (p : Policy) (z : BitVec 3) (o : BitVec 5) (a : BitVec 6) (d : BitVec 6) : Statement (.ldSp p z o a d) := by
  intro o hw
  refine ofWord (MNFmt.low_pack ..) (decodeMajor_10 (MNFmt.major_pack ..)) ?_ hw
  unfold decodeMajor10; simp (disch := decide) only [MNFmt.pol_pack, MNFmt.sbit_pack, MNFmt.qbit_pack, MNFmt.sz_pack, MNFmt.cbit_pack, MNFmt.off5_pack, MNFmt.a_pack, MNFmt.d_pack, Policy.ofBits_bits]; simp

theorem stSp (p : Policy) (z : BitVec 2) (o : BitVec 5) (a : BitVec 6) (d : BitVec 6) : Statement (.stSp p z o a d) := by
  intro o hw
  refine ofWord (MNFmt.low_pack ..) (decodeMajor_10 (MNFmt.major_pack ..)) ?_ hw
  unfold decodeMajor10; simp (disch := decide) only [MNFmt.pol_pack, MNFmt.sbit_pack, MNFmt.qbit_pack, MNFmt.sz_pack, MNFmt.cbit_pack, MNFmt.off5_pack, MNFmt.a_pack, MNFmt.d_pack, ex_hi, ex_lo, Nat.reduceSub, ex_all, Policy.ofBits_bits]; simp

theorem ldVm (p : Policy) (z : BitVec 3) (o : BitVec 5) (a : BitVec 6) (d : BitVec 6) : Statement (.ldVm p z o a d) := by
  intro o hw
  refine ofWord (MNFmt.low_pack ..) (decodeMajor_10 (MNFmt.major_pack ..)) ?_ hw
  unfold decodeMajor10; simp (disch := decide) only [MNFmt.pol_pack, MNFmt.sbit_pack, MNFmt.qbit_pack, MNFmt.sz_pack, MNFmt.cbit_pack, MNFmt.off5_pack, MNFmt.a_pack, MNFmt.d_pack, Policy.ofBits_bits]; simp

theorem stVm (p : Policy) (z : BitVec 2) (o : BitVec 5) (a : BitVec 6) (d : BitVec 6) : Statement (.stVm p z o a d) := by
  intro o hw
  refine ofWord (MNFmt.low_pack ..) (decodeMajor_10 (MNFmt.major_pack ..)) ?_ hw
  unfold decodeMajor10; simp (disch := decide) only [MNFmt.pol_pack, MNFmt.sbit_pack, MNFmt.qbit_pack, MNFmt.sz_pack, MNFmt.cbit_pack, MNFmt.off5_pack, MNFmt.a_pack, MNFmt.d_pack, ex_hi, ex_lo, Nat.reduceSub, ex_all, Policy.ofBits_bits]; simp

theorem amoSwap (p : Policy) (w : BitVec 1) (s : BitVec 5) (a : BitVec 6) (d : BitVec 6) : Statement (.amoSwap p w s a d) := by
  intro o hw
  rcases bit_cases w with rfl | rfl <;>
  (refine ofWord (RPFmt.low_pack ..) (decodeMajor_11 (RPFmt.major_pack ..)) ?_ hw; unfold decodeMajor11; rw [RPFmt.minor5_pack]; simp (disch := decide) only [RPFmt.pol_pack, RPFmt.b_pack, RPFmt.a_pack, RPFmt.d_pack, ex_hi, ex_lo, Nat.reduceSub, ex_all, Policy.ofBits_bits, BitVec.reduceAppend, BitVec.reduceToNat] <;> simp)

theorem amoCas (p : Policy) (w : BitVec 1) (s : BitVec 5) (a : BitVec 6) (d : BitVec 5) : Statement (.amoCas p w s a d) := by
  intro o hw
  rcases bit_cases w with rfl | rfl <;>
  (refine ofWord (RPFmt.low_pack ..) (decodeMajor_11 (RPFmt.major_pack ..)) ?_ hw; unfold decodeMajor11; rw [RPFmt.minor5_pack]; simp (disch := decide) only [RPFmt.pol_pack, RPFmt.b_pack, RPFmt.a_pack, RPFmt.d_pack, ex_hi, ex_lo, Nat.reduceSub, ex_all, Policy.ofBits_bits, BitVec.reduceAppend, BitVec.reduceToNat] <;> simp)

theorem amoAdd (p : Policy) (w : BitVec 1) (s : BitVec 5) (a : BitVec 6) (d : BitVec 6) : Statement (.amoAdd p w s a d) := by
  intro o hw
  rcases bit_cases w with rfl | rfl <;>
  (refine ofWord (RPFmt.low_pack ..) (decodeMajor_11 (RPFmt.major_pack ..)) ?_ hw; unfold decodeMajor11; rw [RPFmt.minor5_pack]; simp (disch := decide) only [RPFmt.pol_pack, RPFmt.b_pack, RPFmt.a_pack, RPFmt.d_pack, ex_hi, ex_lo, Nat.reduceSub, ex_all, Policy.ofBits_bits, BitVec.reduceAppend, BitVec.reduceToNat] <;> simp)

theorem amoAnd (p : Policy) (w : BitVec 1) (s : BitVec 5) (a : BitVec 6) (d : BitVec 6) : Statement (.amoAnd p w s a d) := by
  intro o hw
  rcases bit_cases w with rfl | rfl <;>
  (refine ofWord (RPFmt.low_pack ..) (decodeMajor_11 (RPFmt.major_pack ..)) ?_ hw; unfold decodeMajor11; rw [RPFmt.minor5_pack]; simp (disch := decide) only [RPFmt.pol_pack, RPFmt.b_pack, RPFmt.a_pack, RPFmt.d_pack, ex_hi, ex_lo, Nat.reduceSub, ex_all, Policy.ofBits_bits, BitVec.reduceAppend, BitVec.reduceToNat] <;> simp)

theorem amoOr (p : Policy) (w : BitVec 1) (s : BitVec 5) (a : BitVec 6) (d : BitVec 6) : Statement (.amoOr p w s a d) := by
  intro o hw
  rcases bit_cases w with rfl | rfl <;>
  (refine ofWord (RPFmt.low_pack ..) (decodeMajor_11 (RPFmt.major_pack ..)) ?_ hw; unfold decodeMajor11; rw [RPFmt.minor5_pack]; simp (disch := decide) only [RPFmt.pol_pack, RPFmt.b_pack, RPFmt.a_pack, RPFmt.d_pack, ex_hi, ex_lo, Nat.reduceSub, ex_all, Policy.ofBits_bits, BitVec.reduceAppend, BitVec.reduceToNat] <;> simp)

theorem amoXor (p : Policy) (w : BitVec 1) (s : BitVec 5) (a : BitVec 6) (d : BitVec 6) : Statement (.amoXor p w s a d) := by
  intro o hw
  rcases bit_cases w with rfl | rfl <;>
  (refine ofWord (RPFmt.low_pack ..) (decodeMajor_11 (RPFmt.major_pack ..)) ?_ hw; unfold decodeMajor11; rw [RPFmt.minor5_pack]; simp (disch := decide) only [RPFmt.pol_pack, RPFmt.b_pack, RPFmt.a_pack, RPFmt.d_pack, ex_hi, ex_lo, Nat.reduceSub, ex_all, Policy.ofBits_bits, BitVec.reduceAppend, BitVec.reduceToNat] <;> simp)

theorem amoMin (p : Policy) (w : BitVec 1) (s : BitVec 5) (a : BitVec 6) (d : BitVec 6) : Statement (.amoMin p w s a d) := by
  intro o hw
  rcases bit_cases w with rfl | rfl <;>
  (refine ofWord (RPFmt.low_pack ..) (decodeMajor_11 (RPFmt.major_pack ..)) ?_ hw; unfold decodeMajor11; rw [RPFmt.minor5_pack]; simp (disch := decide) only [RPFmt.pol_pack, RPFmt.b_pack, RPFmt.a_pack, RPFmt.d_pack, ex_hi, ex_lo, Nat.reduceSub, ex_all, Policy.ofBits_bits, BitVec.reduceAppend, BitVec.reduceToNat] <;> simp)

theorem amoMax (p : Policy) (w : BitVec 1) (s : BitVec 5) (a : BitVec 6) (d : BitVec 6) : Statement (.amoMax p w s a d) := by
  intro o hw
  rcases bit_cases w with rfl | rfl <;>
  (refine ofWord (RPFmt.low_pack ..) (decodeMajor_11 (RPFmt.major_pack ..)) ?_ hw; unfold decodeMajor11; rw [RPFmt.minor5_pack]; simp (disch := decide) only [RPFmt.pol_pack, RPFmt.b_pack, RPFmt.a_pack, RPFmt.d_pack, ex_hi, ex_lo, Nat.reduceSub, ex_all, Policy.ofBits_bits, BitVec.reduceAppend, BitVec.reduceToNat] <;> simp)

theorem amoMinu (p : Policy) (w : BitVec 1) (s : BitVec 5) (a : BitVec 6) (d : BitVec 6) : Statement (.amoMinu p w s a d) := by
  intro o hw
  rcases bit_cases w with rfl | rfl <;>
  (refine ofWord (RPFmt.low_pack ..) (decodeMajor_11 (RPFmt.major_pack ..)) ?_ hw; unfold decodeMajor11; rw [RPFmt.minor5_pack]; simp (disch := decide) only [RPFmt.pol_pack, RPFmt.b_pack, RPFmt.a_pack, RPFmt.d_pack, ex_hi, ex_lo, Nat.reduceSub, ex_all, Policy.ofBits_bits, BitVec.reduceAppend, BitVec.reduceToNat] <;> simp)

theorem amoMaxu (p : Policy) (w : BitVec 1) (s : BitVec 5) (a : BitVec 6) (d : BitVec 6) : Statement (.amoMaxu p w s a d) := by
  intro o hw
  rcases bit_cases w with rfl | rfl <;>
  (refine ofWord (RPFmt.low_pack ..) (decodeMajor_11 (RPFmt.major_pack ..)) ?_ hw; unfold decodeMajor11; rw [RPFmt.minor5_pack]; simp (disch := decide) only [RPFmt.pol_pack, RPFmt.b_pack, RPFmt.a_pack, RPFmt.d_pack, ex_hi, ex_lo, Nat.reduceSub, ex_all, Policy.ofBits_bits, BitVec.reduceAppend, BitVec.reduceToNat] <;> simp)

theorem updAdd (p : Policy) (w : BitVec 1) (a : BitVec 6) (d : BitVec 6) : Statement (.updAdd p w a d) := by
  intro o hw
  rcases bit_cases w with rfl | rfl <;>
  (refine ofWord (RPFmt.low_pack ..) (decodeMajor_11 (RPFmt.major_pack ..)) ?_ hw; unfold decodeMajor11; rw [RPFmt.minor5_pack]; simp (disch := decide) only [RPFmt.pol_pack, RPFmt.b_pack, RPFmt.a_pack, RPFmt.d_pack, ex_hi, ex_lo, Nat.reduceSub, ex_all, Policy.ofBits_bits, BitVec.reduceAppend, BitVec.reduceToNat] <;> simp)

theorem updMin (p : Policy) (w : BitVec 1) (a : BitVec 6) (d : BitVec 6) : Statement (.updMin p w a d) := by
  intro o hw
  rcases bit_cases w with rfl | rfl <;>
  (refine ofWord (RPFmt.low_pack ..) (decodeMajor_11 (RPFmt.major_pack ..)) ?_ hw; unfold decodeMajor11; rw [RPFmt.minor5_pack]; simp (disch := decide) only [RPFmt.pol_pack, RPFmt.b_pack, RPFmt.a_pack, RPFmt.d_pack, ex_hi, ex_lo, Nat.reduceSub, ex_all, Policy.ofBits_bits, BitVec.reduceAppend, BitVec.reduceToNat] <;> simp)

theorem updMax (p : Policy) (w : BitVec 1) (a : BitVec 6) (d : BitVec 6) : Statement (.updMax p w a d) := by
  intro o hw
  rcases bit_cases w with rfl | rfl <;>
  (refine ofWord (RPFmt.low_pack ..) (decodeMajor_11 (RPFmt.major_pack ..)) ?_ hw; unfold decodeMajor11; rw [RPFmt.minor5_pack]; simp (disch := decide) only [RPFmt.pol_pack, RPFmt.b_pack, RPFmt.a_pack, RPFmt.d_pack, ex_hi, ex_lo, Nat.reduceSub, ex_all, Policy.ofBits_bits, BitVec.reduceAppend, BitVec.reduceToNat] <;> simp)

theorem amoSpSwap (p : Policy) (s : BitVec 5) (a : BitVec 6) (d : BitVec 6) : Statement (.amoSpSwap p s a d) := by
  intro o hw
  refine ofWord (RPFmt.low_pack ..) (decodeMajor_11 (RPFmt.major_pack ..)) ?_ hw
  unfold decodeMajor11; rw [RPFmt.minor5_pack]; simp (disch := decide) only [RPFmt.pol_pack, RPFmt.b_pack, RPFmt.a_pack, RPFmt.d_pack, ex_hi, ex_lo, Nat.reduceSub, ex_all, Policy.ofBits_bits, BitVec.reduceToNat]; simp

theorem amoSpCas (p : Policy) (s : BitVec 5) (a : BitVec 6) (d : BitVec 5) : Statement (.amoSpCas p s a d) := by
  intro o hw
  refine ofWord (RPFmt.low_pack ..) (decodeMajor_11 (RPFmt.major_pack ..)) ?_ hw
  unfold decodeMajor11; rw [RPFmt.minor5_pack]; simp (disch := decide) only [RPFmt.pol_pack, RPFmt.b_pack, RPFmt.a_pack, RPFmt.d_pack, ex_hi, ex_lo, Nat.reduceSub, ex_all, Policy.ofBits_bits, BitVec.reduceToNat]; simp

theorem amoSpAdd (p : Policy) (s : BitVec 5) (a : BitVec 6) (d : BitVec 6) : Statement (.amoSpAdd p s a d) := by
  intro o hw
  refine ofWord (RPFmt.low_pack ..) (decodeMajor_11 (RPFmt.major_pack ..)) ?_ hw
  unfold decodeMajor11; rw [RPFmt.minor5_pack]; simp (disch := decide) only [RPFmt.pol_pack, RPFmt.b_pack, RPFmt.a_pack, RPFmt.d_pack, ex_hi, ex_lo, Nat.reduceSub, ex_all, Policy.ofBits_bits, BitVec.reduceToNat]; simp

theorem amoVmSwap (p : Policy) (s : BitVec 5) (a : BitVec 6) (d : BitVec 6) : Statement (.amoVmSwap p s a d) := by
  intro o hw
  refine ofWord (RPFmt.low_pack ..) (decodeMajor_11 (RPFmt.major_pack ..)) ?_ hw
  unfold decodeMajor11; rw [RPFmt.minor5_pack]; simp (disch := decide) only [RPFmt.pol_pack, RPFmt.b_pack, RPFmt.a_pack, RPFmt.d_pack, ex_hi, ex_lo, Nat.reduceSub, ex_all, Policy.ofBits_bits, BitVec.reduceToNat]; simp

theorem amoVmCas (p : Policy) (s : BitVec 5) (a : BitVec 6) (d : BitVec 5) : Statement (.amoVmCas p s a d) := by
  intro o hw
  refine ofWord (RPFmt.low_pack ..) (decodeMajor_11 (RPFmt.major_pack ..)) ?_ hw
  unfold decodeMajor11; rw [RPFmt.minor5_pack]; simp (disch := decide) only [RPFmt.pol_pack, RPFmt.b_pack, RPFmt.a_pack, RPFmt.d_pack, ex_hi, ex_lo, Nat.reduceSub, ex_all, Policy.ofBits_bits, BitVec.reduceToNat]; simp

theorem amoVmAdd (p : Policy) (s : BitVec 5) (a : BitVec 6) (d : BitVec 6) : Statement (.amoVmAdd p s a d) := by
  intro o hw
  refine ofWord (RPFmt.low_pack ..) (decodeMajor_11 (RPFmt.major_pack ..)) ?_ hw
  unfold decodeMajor11; rw [RPFmt.minor5_pack]; simp (disch := decide) only [RPFmt.pol_pack, RPFmt.b_pack, RPFmt.a_pack, RPFmt.d_pack, ex_hi, ex_lo, Nat.reduceSub, ex_all, Policy.ofBits_bits, BitVec.reduceToNat]; simp

theorem fenceS (p : Policy) (s : BitVec 5) : Statement (.fenceS p s) := by
  intro o hw
  refine ofWord (RPFmt.low_pack ..) (decodeMajor_12 (RPFmt.major_pack ..)) ?_ hw
  unfold decodeMajor12; rw [RPFmt.minor5_pack]; simp (disch := decide) only [RPFmt.pol_pack, RPFmt.b_pack, RPFmt.a_pack, RPFmt.d_pack, ex_hi, ex_lo, Nat.reduceSub, ex_all, Policy.ofBits_bits, BitVec.reduceToNat]; simp

theorem fenceI : Statement (.fenceI ) := by
  intro o hw
  refine ofWord (RPFmt.low_pack ..) (decodeMajor_12 (RPFmt.major_pack ..)) ?_ hw
  unfold decodeMajor12; rw [RPFmt.minor5_pack]; simp (disch := decide) only [RPFmt.pol_pack, RPFmt.b_pack, RPFmt.a_pack, RPFmt.d_pack, BitVec.reduceToNat]; simp

theorem stRelW (p : Policy) (s : BitVec 5) (a : BitVec 6) (d : BitVec 6) : Statement (.stRelW p s a d) := by
  intro o hw
  refine ofWord (RPFmt.low_pack ..) (decodeMajor_12 (RPFmt.major_pack ..)) ?_ hw
  unfold decodeMajor12; rw [RPFmt.minor5_pack]; simp (disch := decide) only [RPFmt.pol_pack, RPFmt.b_pack, RPFmt.a_pack, RPFmt.d_pack, ex_hi, ex_lo, Nat.reduceSub, ex_all, Policy.ofBits_bits, BitVec.reduceToNat]; simp

theorem stRelD (p : Policy) (s : BitVec 5) (a : BitVec 6) (d : BitVec 6) : Statement (.stRelD p s a d) := by
  intro o hw
  refine ofWord (RPFmt.low_pack ..) (decodeMajor_12 (RPFmt.major_pack ..)) ?_ hw
  unfold decodeMajor12; rw [RPFmt.minor5_pack]; simp (disch := decide) only [RPFmt.pol_pack, RPFmt.b_pack, RPFmt.a_pack, RPFmt.d_pack, ex_hi, ex_lo, Nat.reduceSub, ex_all, Policy.ofBits_bits, BitVec.reduceToNat]; simp

theorem ldff (p : Policy) (a : BitVec 6) (d : BitVec 6) : Statement (.ldff p a d) := by
  intro o hw
  refine ofWord (RPFmt.low_pack ..) (decodeMajor_12 (RPFmt.major_pack ..)) ?_ hw
  unfold decodeMajor12; rw [RPFmt.minor5_pack]; simp (disch := decide) only [RPFmt.pol_pack, RPFmt.b_pack, RPFmt.a_pack, RPFmt.d_pack, Policy.ofBits_bits, BitVec.reduceToNat]; simp

theorem ldfe (p : Policy) (a : BitVec 6) (d : BitVec 6) : Statement (.ldfe p a d) := by
  intro o hw
  refine ofWord (RPFmt.low_pack ..) (decodeMajor_12 (RPFmt.major_pack ..)) ?_ hw
  unfold decodeMajor12; rw [RPFmt.minor5_pack]; simp (disch := decide) only [RPFmt.pol_pack, RPFmt.b_pack, RPFmt.a_pack, RPFmt.d_pack, Policy.ofBits_bits, BitVec.reduceToNat]; simp

theorem stef (p : Policy) (a : BitVec 6) (d : BitVec 6) : Statement (.stef p a d) := by
  intro o hw
  refine ofWord (RPFmt.low_pack ..) (decodeMajor_12 (RPFmt.major_pack ..)) ?_ hw
  unfold decodeMajor12; rw [RPFmt.minor5_pack]; simp (disch := decide) only [RPFmt.pol_pack, RPFmt.b_pack, RPFmt.a_pack, RPFmt.d_pack, Policy.ofBits_bits, BitVec.reduceToNat]; simp

theorem stff (p : Policy) (a : BitVec 6) (d : BitVec 6) : Statement (.stff p a d) := by
  intro o hw
  refine ofWord (RPFmt.low_pack ..) (decodeMajor_12 (RPFmt.major_pack ..)) ?_ hw
  unfold decodeMajor12; rw [RPFmt.minor5_pack]; simp (disch := decide) only [RPFmt.pol_pack, RPFmt.b_pack, RPFmt.a_pack, RPFmt.d_pack, Policy.ofBits_bits, BitVec.reduceToNat]; simp

theorem feEmpty (a : BitVec 6) : Statement (.feEmpty a) := by
  intro o hw
  refine ofWord (RPFmt.low_pack ..) (decodeMajor_12 (RPFmt.major_pack ..)) ?_ hw
  unfold decodeMajor12; rw [RPFmt.minor5_pack]; simp (disch := decide) only [RPFmt.pol_pack, RPFmt.b_pack, RPFmt.a_pack, RPFmt.d_pack, BitVec.reduceToNat]; simp

theorem feTest (p : Policy) (a : BitVec 6) (d : BitVec 6) : Statement (.feTest p a d) := by
  intro o hw
  refine ofWord (RPFmt.low_pack ..) (decodeMajor_12 (RPFmt.major_pack ..)) ?_ hw
  unfold decodeMajor12; rw [RPFmt.minor5_pack]; simp (disch := decide) only [RPFmt.pol_pack, RPFmt.b_pack, RPFmt.a_pack, RPFmt.d_pack, Policy.ofBits_bits, BitVec.reduceToNat]; simp

theorem ldffPlace (p : Policy) (c : BitVec 6) (a : BitVec 6) (d : BitVec 6) : Statement (.ldffPlace p c a d) := by
  intro o hw
  refine ofWord (RPFmt.low_pack ..) (decodeMajor_12 (RPFmt.major_pack ..)) ?_ hw
  unfold decodeMajor12; rw [RPFmt.minor5_pack]; simp (disch := decide) only [RPFmt.pol_pack, RPFmt.b_pack, RPFmt.a_pack, RPFmt.d_pack, Policy.ofBits_bits, BitVec.reduceToNat]

theorem ldfePlace (p : Policy) (c : BitVec 6) (a : BitVec 6) (d : BitVec 6) : Statement (.ldfePlace p c a d) := by
  intro o hw
  refine ofWord (RPFmt.low_pack ..) (decodeMajor_12 (RPFmt.major_pack ..)) ?_ hw
  unfold decodeMajor12; rw [RPFmt.minor5_pack]; simp (disch := decide) only [RPFmt.pol_pack, RPFmt.b_pack, RPFmt.a_pack, RPFmt.d_pack, Policy.ofBits_bits, BitVec.reduceToNat]

theorem stefPlace (p : Policy) (c : BitVec 6) (a : BitVec 6) (d : BitVec 6) : Statement (.stefPlace p c a d) := by
  intro o hw
  refine ofWord (RPFmt.low_pack ..) (decodeMajor_12 (RPFmt.major_pack ..)) ?_ hw
  unfold decodeMajor12; rw [RPFmt.minor5_pack]; simp (disch := decide) only [RPFmt.pol_pack, RPFmt.b_pack, RPFmt.a_pack, RPFmt.d_pack, Policy.ofBits_bits, BitVec.reduceToNat]

theorem stffPlace (p : Policy) (c : BitVec 6) (a : BitVec 6) (d : BitVec 6) : Statement (.stffPlace p c a d) := by
  intro o hw
  refine ofWord (RPFmt.low_pack ..) (decodeMajor_12 (RPFmt.major_pack ..)) ?_ hw
  unfold decodeMajor12; rw [RPFmt.minor5_pack]; simp (disch := decide) only [RPFmt.pol_pack, RPFmt.b_pack, RPFmt.a_pack, RPFmt.d_pack, Policy.ofBits_bits, BitVec.reduceToNat]

theorem ldSpDPlace (p : Policy) (c : BitVec 6) (a : BitVec 6) (d : BitVec 6) : Statement (.ldSpDPlace p c a d) := by
  intro o hw
  refine ofWord (RPFmt.low_pack ..) (decodeMajor_12 (RPFmt.major_pack ..)) ?_ hw
  unfold decodeMajor12; rw [RPFmt.minor5_pack]; simp (disch := decide) only [RPFmt.pol_pack, RPFmt.b_pack, RPFmt.a_pack, RPFmt.d_pack, Policy.ofBits_bits, BitVec.reduceToNat]

theorem stSpDPlace (p : Policy) (c : BitVec 6) (a : BitVec 6) (d : BitVec 6) : Statement (.stSpDPlace p c a d) := by
  intro o hw
  refine ofWord (RPFmt.low_pack ..) (decodeMajor_12 (RPFmt.major_pack ..)) ?_ hw
  unfold decodeMajor12; rw [RPFmt.minor5_pack]; simp (disch := decide) only [RPFmt.pol_pack, RPFmt.b_pack, RPFmt.a_pack, RPFmt.d_pack, Policy.ofBits_bits, BitVec.reduceToNat]

theorem ldVmDPlace (p : Policy) (c : BitVec 6) (a : BitVec 6) (d : BitVec 6) : Statement (.ldVmDPlace p c a d) := by
  intro o hw
  refine ofWord (RPFmt.low_pack ..) (decodeMajor_12 (RPFmt.major_pack ..)) ?_ hw
  unfold decodeMajor12; rw [RPFmt.minor5_pack]; simp (disch := decide) only [RPFmt.pol_pack, RPFmt.b_pack, RPFmt.a_pack, RPFmt.d_pack, Policy.ofBits_bits, BitVec.reduceToNat]

theorem stVmDPlace (p : Policy) (c : BitVec 6) (a : BitVec 6) (d : BitVec 6) : Statement (.stVmDPlace p c a d) := by
  intro o hw
  refine ofWord (RPFmt.low_pack ..) (decodeMajor_12 (RPFmt.major_pack ..)) ?_ hw
  unfold decodeMajor12; rw [RPFmt.minor5_pack]; simp (disch := decide) only [RPFmt.pol_pack, RPFmt.b_pack, RPFmt.a_pack, RPFmt.d_pack, Policy.ofBits_bits, BitVec.reduceToNat]

theorem park (p : Policy) (a : BitVec 6) : Statement (.park p a) := by
  intro o hw
  refine ofWord (RPFmt.low_pack ..) (decodeMajor_12 (RPFmt.major_pack ..)) ?_ hw
  unfold decodeMajor12; rw [RPFmt.minor5_pack]; simp (disch := decide) only [RPFmt.pol_pack, RPFmt.b_pack, RPFmt.a_pack, RPFmt.d_pack, Policy.ofBits_bits, BitVec.reduceToNat]; simp

theorem pin (p : Policy) (a : BitVec 6) (d : BitVec 6) : Statement (.pin p a d) := by
  intro o hw
  refine ofWord (RPFmt.low_pack ..) (decodeMajor_12 (RPFmt.major_pack ..)) ?_ hw
  unfold decodeMajor12; rw [RPFmt.minor5_pack]; simp (disch := decide) only [RPFmt.pol_pack, RPFmt.b_pack, RPFmt.a_pack, RPFmt.d_pack, Policy.ofBits_bits, BitVec.reduceToNat]; simp

theorem unpin (a : BitVec 6) : Statement (.unpin a) := by
  intro o hw
  refine ofWord (RPFmt.low_pack ..) (decodeMajor_12 (RPFmt.major_pack ..)) ?_ hw
  unfold decodeMajor12; rw [RPFmt.minor5_pack]; simp (disch := decide) only [RPFmt.pol_pack, RPFmt.b_pack, RPFmt.a_pack, RPFmt.d_pack, BitVec.reduceToNat]; simp

theorem unpinAll : Statement (.unpinAll ) := by
  intro o hw
  refine ofWord (RPFmt.low_pack ..) (decodeMajor_12 (RPFmt.major_pack ..)) ?_ hw
  unfold decodeMajor12; rw [RPFmt.minor5_pack]; simp (disch := decide) only [RPFmt.pol_pack, RPFmt.b_pack, RPFmt.a_pack, RPFmt.d_pack, BitVec.reduceToNat]; simp

theorem pf (a : BitVec 6) : Statement (.pf a) := by
  intro o hw
  refine ofWord (RPFmt.low_pack ..) (decodeMajor_12 (RPFmt.major_pack ..)) ?_ hw
  unfold decodeMajor12; rw [RPFmt.minor5_pack]; simp (disch := decide) only [RPFmt.pol_pack, RPFmt.b_pack, RPFmt.a_pack, RPFmt.d_pack, BitVec.reduceToNat]; simp

theorem hbarArr (p : Policy) (n : BitVec 2) (d : BitVec 6) : Statement (.hbarArr p n d) := by
  intro o hw
  refine ofWord (RPFmt.low_pack ..) (decodeMajor_12 (RPFmt.major_pack ..)) ?_ hw
  unfold decodeMajor12; rw [RPFmt.minor5_pack]; simp (disch := decide) only [RPFmt.pol_pack, RPFmt.b_pack, RPFmt.a_pack, RPFmt.d_pack, ex_hi, ex_lo, Nat.reduceSub, ex_all, Policy.ofBits_bits, BitVec.reduceToNat]; simp

theorem hbarWt (p : Policy) (n : BitVec 2) (a : BitVec 6) (d : BitVec 6) : Statement (.hbarWt p n a d) := by
  intro o hw
  refine ofWord (RPFmt.low_pack ..) (decodeMajor_12 (RPFmt.major_pack ..)) ?_ hw
  unfold decodeMajor12; rw [RPFmt.minor5_pack]; simp (disch := decide) only [RPFmt.pol_pack, RPFmt.b_pack, RPFmt.a_pack, RPFmt.d_pack, ex_hi, ex_lo, Nat.reduceSub, ex_all, Policy.ofBits_bits, BitVec.reduceToNat]; simp

theorem arm (e : BitVec 1) (n : BitVec 3) (a : BitVec 6) : Statement (.arm e n a) := by
  intro o hw
  refine ofWord (RPFmt.low_pack ..) (decodeMajor_13 (RPFmt.major_pack ..)) ?_ hw
  unfold decodeMajor13; rw [RPFmt.minor5_pack]; simp (disch := decide) only [RPFmt.pol_pack, RPFmt.b_pack, RPFmt.a_pack, RPFmt.d_pack, ex_hi, ex_lo, Nat.reduceSub, ex_all, BitVec.reduceToNat]; simp

theorem disarm (g : BitVec 1) (n : BitVec 3) (a : BitVec 6) : Statement (.disarm g n a) := by
  intro o hw
  refine ofWord (RPFmt.low_pack ..) (decodeMajor_13 (RPFmt.major_pack ..)) ?_ hw
  unfold decodeMajor13; rw [RPFmt.minor5_pack]; simp (disch := decide) only [RPFmt.pol_pack, RPFmt.b_pack, RPFmt.a_pack, RPFmt.d_pack, ex_hi, ex_lo, Nat.reduceSub, ex_all, BitVec.reduceToNat]; simp

theorem mint (r : BitVec 2) (n : BitVec 3) (a : BitVec 6) (d : BitVec 6) : Statement (.mint r n a d) := by
  intro o hw
  refine ofWord (RPFmt.low_pack ..) (decodeMajor_13 (RPFmt.major_pack ..)) ?_ hw
  unfold decodeMajor13; rw [RPFmt.minor5_pack]; simp (disch := decide) only [RPFmt.pol_pack, RPFmt.b_pack, RPFmt.a_pack, RPFmt.d_pack, ex_hi, ex_lo, Nat.reduceSub, ex_all, BitVec.reduceToNat]; simp

theorem snd (p : Policy) (b : BitVec 6) (a : BitVec 6) (i : BitVec 3) : Statement (.snd p b a i) := by
  intro o hw
  refine ofWord (RPFmt.low_pack ..) (decodeMajor_13 (RPFmt.major_pack ..)) ?_ hw
  unfold decodeMajor13; rw [RPFmt.minor5_pack]; simp (disch := decide) only [RPFmt.pol_pack, RPFmt.b_pack, RPFmt.a_pack, RPFmt.d_pack, ex_hi, ex_lo, Nat.reduceSub, ex_all, Policy.ofBits_bits, BitVec.reduceToNat]; simp

theorem rcv (p : Policy) (a : BitVec 6) (d : BitVec 6) : Statement (.rcv p a d) := by
  intro o hw
  refine ofWord (RPFmt.low_pack ..) (decodeMajor_13 (RPFmt.major_pack ..)) ?_ hw
  unfold decodeMajor13; rw [RPFmt.minor5_pack]; simp (disch := decide) only [RPFmt.pol_pack, RPFmt.b_pack, RPFmt.a_pack, RPFmt.d_pack, Policy.ofBits_bits, BitVec.reduceToNat]; simp

theorem fabst (c : BitVec 1) (d : BitVec 6) : Statement (.fabst c d) := by
  intro o hw
  refine ofWord (RPFmt.low_pack ..) (decodeMajor_13 (RPFmt.major_pack ..)) ?_ hw
  unfold decodeMajor13; rw [RPFmt.minor5_pack]; simp (disch := decide) only [RPFmt.pol_pack, RPFmt.b_pack, RPFmt.a_pack, RPFmt.d_pack, ex_hi, ex_lo, Nat.reduceSub, ex_all, BitVec.reduceToNat]; simp

theorem sndA (p : Policy) (i : BitVec 3) (b : BitVec 6) (a : BitVec 6) (d : BitVec 6) : Statement (.sndA p i b a d) := by
  intro o hw
  rcases three_bit_cases i with rfl | rfl | rfl | rfl | rfl | rfl | rfl | rfl <;>
  (refine ofWord (RPFmt.low_pack ..) (decodeMajor_13 (RPFmt.major_pack ..)) ?_ hw; unfold decodeMajor13; rw [RPFmt.minor5_pack]; simp (disch := decide) only [RPFmt.pol_pack, RPFmt.b_pack, RPFmt.a_pack, RPFmt.d_pack, ex_hi, ex_lo, Nat.reduceSub, ex_all, Policy.ofBits_bits, BitVec.reduceAppend, BitVec.reduceToNat] <;> simp)

theorem yield (n : BitVec 6) : Statement (.yield n) := by
  intro o hw
  refine ofWord (RPFmt.low_pack ..) (decodeMajor_14 (RPFmt.major_pack ..)) ?_ hw
  unfold decodeMajor14; rw [RPFmt.minor5_pack]; simp (disch := decide) only [RPFmt.pol_pack, RPFmt.b_pack, RPFmt.a_pack, RPFmt.d_pack, BitVec.reduceToNat]; simp

theorem sleep (n : BitVec 6) (d : BitVec 6) : Statement (.sleep n d) := by
  intro o hw
  refine ofWord (RPFmt.low_pack ..) (decodeMajor_14 (RPFmt.major_pack ..)) ?_ hw
  unfold decodeMajor14; rw [RPFmt.minor5_pack]; simp (disch := decide) only [RPFmt.pol_pack, RPFmt.b_pack, RPFmt.a_pack, RPFmt.d_pack, BitVec.reduceToNat]; simp

theorem wake (a : BitVec 6) : Statement (.wake a) := by
  intro o hw
  refine ofWord (RPFmt.low_pack ..) (decodeMajor_14 (RPFmt.major_pack ..)) ?_ hw
  unfold decodeMajor14; rw [RPFmt.minor5_pack]; simp (disch := decide) only [RPFmt.pol_pack, RPFmt.b_pack, RPFmt.a_pack, RPFmt.d_pack, BitVec.reduceToNat]; simp

theorem hold (p : Policy) : Statement (.hold p) := by
  intro o hw
  refine ofWord (RPFmt.low_pack ..) (decodeMajor_14 (RPFmt.major_pack ..)) ?_ hw
  unfold decodeMajor14; rw [RPFmt.minor5_pack]; simp (disch := decide) only [RPFmt.pol_pack, RPFmt.b_pack, RPFmt.a_pack, RPFmt.d_pack, Policy.ofBits_bits, BitVec.reduceToNat]; simp

theorem exit : Statement (.exit ) := by
  intro o hw
  refine ofWord (RPFmt.low_pack ..) (decodeMajor_14 (RPFmt.major_pack ..)) ?_ hw
  unfold decodeMajor14; rw [RPFmt.minor5_pack]; simp (disch := decide) only [RPFmt.pol_pack, RPFmt.b_pack, RPFmt.a_pack, RPFmt.d_pack, BitVec.reduceToNat]; simp

theorem selfid (d : BitVec 6) : Statement (.selfid d) := by
  intro o hw
  refine ofWord (RPFmt.low_pack ..) (decodeMajor_14 (RPFmt.major_pack ..)) ?_ hw
  unfold decodeMajor14; rw [RPFmt.minor5_pack]; simp (disch := decide) only [RPFmt.pol_pack, RPFmt.b_pack, RPFmt.a_pack, RPFmt.d_pack, BitVec.reduceToNat]; simp

theorem rdskip (c : BitVec 1) (d : BitVec 6) : Statement (.rdskip c d) := by
  intro o hw
  refine ofWord (RPFmt.low_pack ..) (decodeMajor_14 (RPFmt.major_pack ..)) ?_ hw
  unfold decodeMajor14; rw [RPFmt.minor5_pack]; simp (disch := decide) only [RPFmt.pol_pack, RPFmt.b_pack, RPFmt.a_pack, RPFmt.d_pack, ex_hi, ex_lo, Nat.reduceSub, ex_all, BitVec.reduceToNat]; simp

theorem hint (p : Policy) (h : BitVec 2) (b : BitVec 6) (a : BitVec 6) (d : BitVec 6) : Statement (.hint p h b a d) := by
  intro o hw
  rcases two_bit_cases h with rfl | rfl | rfl | rfl <;>
  (refine ofWord (RPFmt.low_pack ..) (decodeMajor_14 (RPFmt.major_pack ..)) ?_ hw; unfold decodeMajor14; rw [RPFmt.minor5_pack]; simp (disch := decide) only [RPFmt.pol_pack, RPFmt.b_pack, RPFmt.a_pack, RPFmt.d_pack, ex_hi, ex_lo, Nat.reduceSub, ex_all, Policy.ofBits_bits, BitVec.reduceAppend, BitVec.reduceToNat] <;> simp)

theorem launch (p : Policy) (b : BitVec 6) (a : BitVec 6) : Statement (.launch p b a) := by
  intro o hw
  refine ofWord (RPFmt.low_pack ..) (decodeMajor_15 (RPFmt.major_pack ..)) ?_ hw
  unfold decodeMajor15; rw [RPFmt.minor5_pack]; simp (disch := decide) only [RPFmt.pol_pack, RPFmt.b_pack, RPFmt.a_pack, RPFmt.d_pack, Policy.ofBits_bits, BitVec.reduceToNat]; simp

theorem cast (p : Policy) (b : BitVec 6) (a : BitVec 6) (c : BitVec 4) : Statement (.cast p b a c) := by
  intro o hw
  refine ofWord (RPFmt.low_pack ..) (decodeMajor_15 (RPFmt.major_pack ..)) ?_ hw
  unfold decodeMajor15; rw [RPFmt.minor5_pack]; simp (disch := decide) only [RPFmt.pol_pack, RPFmt.b_pack, RPFmt.a_pack, RPFmt.d_pack, ex_hi, ex_lo, Nat.reduceSub, ex_all, Policy.ofBits_bits, BitVec.reduceToNat]; simp

theorem recast (p : Policy) (c : BitVec 4) : Statement (.recast p c) := by
  intro o hw
  refine ofWord (RPFmt.low_pack ..) (decodeMajor_15 (RPFmt.major_pack ..)) ?_ hw
  unfold decodeMajor15; rw [RPFmt.minor5_pack]; simp (disch := decide) only [RPFmt.pol_pack, RPFmt.b_pack, RPFmt.a_pack, RPFmt.d_pack, ex_hi, ex_lo, Nat.reduceSub, ex_all, Policy.ofBits_bits, BitVec.reduceToNat]; simp

theorem place (a : BitVec 6) (d : BitVec 6) : Statement (.place a d) := by
  intro o hw
  refine ofWord (RPFmt.low_pack ..) (decodeMajor_15 (RPFmt.major_pack ..)) ?_ hw
  unfold decodeMajor15; rw [RPFmt.minor5_pack]; simp (disch := decide) only [RPFmt.pol_pack, RPFmt.b_pack, RPFmt.a_pack, RPFmt.d_pack, BitVec.reduceToNat]; simp

theorem placeSelf (d : BitVec 6) : Statement (.placeSelf d) := by
  intro o hw
  refine ofWord (RPFmt.low_pack ..) (decodeMajor_15 (RPFmt.major_pack ..)) ?_ hw
  unfold decodeMajor15; rw [RPFmt.minor5_pack]; simp (disch := decide) only [RPFmt.pol_pack, RPFmt.b_pack, RPFmt.a_pack, RPFmt.d_pack, BitVec.reduceToNat]; simp

theorem placeLoad (d : BitVec 6) : Statement (.placeLoad d) := by
  intro o hw
  refine ofWord (RPFmt.low_pack ..) (decodeMajor_15 (RPFmt.major_pack ..)) ?_ hw
  unfold decodeMajor15; rw [RPFmt.minor5_pack]; simp (disch := decide) only [RPFmt.pol_pack, RPFmt.b_pack, RPFmt.a_pack, RPFmt.d_pack, BitVec.reduceToNat]; simp

theorem vfadd (p : Policy) (h : BitVec 2) (b : BitVec 5) (a : BitVec 5) (d : BitVec 5) : Statement (.vfadd p h b a d) := by
  intro o hw
  refine ofWord (VFmt.low_pack ..) (decodeMajor_16 (VFmt.major_pack ..)) ?_ hw
  unfold decodeMajor16; rw [VFmt.minor6_pack]; simp (disch := decide) only [VFmt.pol24_pack, VFmt.hold_pack, VFmt.vb_pack, VFmt.a5_pack, VFmt.d5_pack, Policy.ofBits_bits, BitVec.reduceToNat]

theorem vfsub (p : Policy) (h : BitVec 2) (b : BitVec 5) (a : BitVec 5) (d : BitVec 5) : Statement (.vfsub p h b a d) := by
  intro o hw
  refine ofWord (VFmt.low_pack ..) (decodeMajor_16 (VFmt.major_pack ..)) ?_ hw
  unfold decodeMajor16; rw [VFmt.minor6_pack]; simp (disch := decide) only [VFmt.pol24_pack, VFmt.hold_pack, VFmt.vb_pack, VFmt.a5_pack, VFmt.d5_pack, Policy.ofBits_bits, BitVec.reduceToNat]

theorem vfmul (p : Policy) (h : BitVec 2) (b : BitVec 5) (a : BitVec 5) (d : BitVec 5) : Statement (.vfmul p h b a d) := by
  intro o hw
  refine ofWord (VFmt.low_pack ..) (decodeMajor_16 (VFmt.major_pack ..)) ?_ hw
  unfold decodeMajor16; rw [VFmt.minor6_pack]; simp (disch := decide) only [VFmt.pol24_pack, VFmt.hold_pack, VFmt.vb_pack, VFmt.a5_pack, VFmt.d5_pack, Policy.ofBits_bits, BitVec.reduceToNat]

theorem vfmin (p : Policy) (h : BitVec 2) (b : BitVec 5) (a : BitVec 5) (d : BitVec 5) : Statement (.vfmin p h b a d) := by
  intro o hw
  refine ofWord (VFmt.low_pack ..) (decodeMajor_16 (VFmt.major_pack ..)) ?_ hw
  unfold decodeMajor16; rw [VFmt.minor6_pack]; simp (disch := decide) only [VFmt.pol24_pack, VFmt.hold_pack, VFmt.vb_pack, VFmt.a5_pack, VFmt.d5_pack, Policy.ofBits_bits, BitVec.reduceToNat]

theorem vfmax (p : Policy) (h : BitVec 2) (b : BitVec 5) (a : BitVec 5) (d : BitVec 5) : Statement (.vfmax p h b a d) := by
  intro o hw
  refine ofWord (VFmt.low_pack ..) (decodeMajor_16 (VFmt.major_pack ..)) ?_ hw
  unfold decodeMajor16; rw [VFmt.minor6_pack]; simp (disch := decide) only [VFmt.pol24_pack, VFmt.hold_pack, VFmt.vb_pack, VFmt.a5_pack, VFmt.d5_pack, Policy.ofBits_bits, BitVec.reduceToNat]

theorem vfabs (p : Policy) (h : BitVec 2) (a : BitVec 5) (d : BitVec 5) : Statement (.vfabs p h a d) := by
  intro o hw
  refine ofWord (VFmt.low_pack ..) (decodeMajor_16 (VFmt.major_pack ..)) ?_ hw
  unfold decodeMajor16; rw [VFmt.minor6_pack]; simp (disch := decide) only [VFmt.pol24_pack, VFmt.hold_pack, VFmt.vb_pack, VFmt.a5_pack, VFmt.d5_pack, Policy.ofBits_bits, BitVec.reduceToNat]; simp

theorem vfneg (p : Policy) (h : BitVec 2) (a : BitVec 5) (d : BitVec 5) : Statement (.vfneg p h a d) := by
  intro o hw
  refine ofWord (VFmt.low_pack ..) (decodeMajor_16 (VFmt.major_pack ..)) ?_ hw
  unfold decodeMajor16; rw [VFmt.minor6_pack]; simp (disch := decide) only [VFmt.pol24_pack, VFmt.hold_pack, VFmt.vb_pack, VFmt.a5_pack, VFmt.d5_pack, Policy.ofBits_bits, BitVec.reduceToNat]; simp

theorem vfma (p : Policy) (h : BitVec 2) (b : BitVec 5) (a : BitVec 5) (d : BitVec 5) : Statement (.vfma p h b a d) := by
  intro o hw
  refine ofWord (VFmt.low_pack ..) (decodeMajor_16 (VFmt.major_pack ..)) ?_ hw
  unfold decodeMajor16; rw [VFmt.minor6_pack]; simp (disch := decide) only [VFmt.pol24_pack, VFmt.hold_pack, VFmt.vb_pack, VFmt.a5_pack, VFmt.d5_pack, Policy.ofBits_bits, BitVec.reduceToNat]

theorem vfms (p : Policy) (h : BitVec 2) (b : BitVec 5) (a : BitVec 5) (d : BitVec 5) : Statement (.vfms p h b a d) := by
  intro o hw
  refine ofWord (VFmt.low_pack ..) (decodeMajor_16 (VFmt.major_pack ..)) ?_ hw
  unfold decodeMajor16; rw [VFmt.minor6_pack]; simp (disch := decide) only [VFmt.pol24_pack, VFmt.hold_pack, VFmt.vb_pack, VFmt.a5_pack, VFmt.d5_pack, Policy.ofBits_bits, BitVec.reduceToNat]

theorem vfma4 (p : Policy) (h : BitVec 2) (b : BitVec 5) (a : BitVec 5) (d : BitVec 5) : Statement (.vfma4 p h b a d) := by
  intro o hw
  refine ofWord (VFmt.low_pack ..) (decodeMajor_16 (VFmt.major_pack ..)) ?_ hw
  unfold decodeMajor16; rw [VFmt.minor6_pack]; simp (disch := decide) only [VFmt.pol24_pack, VFmt.hold_pack, VFmt.vb_pack, VFmt.a5_pack, VFmt.d5_pack, Policy.ofBits_bits, BitVec.reduceToNat]

theorem vfeq (p : Policy) (h : BitVec 2) (b : BitVec 5) (a : BitVec 5) (k : BitVec 3) : Statement (.vfeq p h b a k) := by
  intro o hw
  refine ofWord (VFmt.low_pack ..) (decodeMajor_16 (VFmt.major_pack ..)) ?_ hw
  unfold decodeMajor16; rw [VFmt.minor6_pack]; simp (disch := decide) only [VFmt.pol24_pack, VFmt.hold_pack, VFmt.vb_pack, VFmt.a5_pack, VFmt.d5_pack, ex_hi, ex_lo, Nat.reduceSub, ex_all, Policy.ofBits_bits, BitVec.reduceToNat]; simp

theorem vflt (p : Policy) (h : BitVec 2) (b : BitVec 5) (a : BitVec 5) (k : BitVec 3) : Statement (.vflt p h b a k) := by
  intro o hw
  refine ofWord (VFmt.low_pack ..) (decodeMajor_16 (VFmt.major_pack ..)) ?_ hw
  unfold decodeMajor16; rw [VFmt.minor6_pack]; simp (disch := decide) only [VFmt.pol24_pack, VFmt.hold_pack, VFmt.vb_pack, VFmt.a5_pack, VFmt.d5_pack, ex_hi, ex_lo, Nat.reduceSub, ex_all, Policy.ofBits_bits, BitVec.reduceToNat]; simp

theorem vfle (p : Policy) (h : BitVec 2) (b : BitVec 5) (a : BitVec 5) (k : BitVec 3) : Statement (.vfle p h b a k) := by
  intro o hw
  refine ofWord (VFmt.low_pack ..) (decodeMajor_16 (VFmt.major_pack ..)) ?_ hw
  unfold decodeMajor16; rw [VFmt.minor6_pack]; simp (disch := decide) only [VFmt.pol24_pack, VFmt.hold_pack, VFmt.vb_pack, VFmt.a5_pack, VFmt.d5_pack, ex_hi, ex_lo, Nat.reduceSub, ex_all, Policy.ofBits_bits, BitVec.reduceToNat]; simp

theorem vadd (w : BitVec 2) (p : Policy) (h : BitVec 2) (b : BitVec 5) (a : BitVec 5) (d : BitVec 5) : Statement (.vadd w p h b a d) := by
  intro o hw
  have hc : (w != 3#2 && (p == .rt || isStream a || isStream b || isStream d)) = true := hw
  rcases two_bit_cases w with rfl | rfl | rfl | rfl <;>
  first | (simp at hc; done) | (refine ofWord (VFmt.low_pack ..) (decodeMajor_17 (VFmt.major_pack ..)) ?_ hw; unfold decodeMajor17; rw [VFmt.minor6_pack]; simp (disch := decide) only [VFmt.pol24_pack, VFmt.hold_pack, VFmt.vb_pack, VFmt.a5_pack, VFmt.d5_pack, ex_hi, ex_lo, Nat.reduceSub, ex_all, Policy.ofBits_bits, BitVec.reduceAppend, BitVec.reduceToNat] <;> simp)

theorem vsub (w : BitVec 2) (p : Policy) (h : BitVec 2) (b : BitVec 5) (a : BitVec 5) (d : BitVec 5) : Statement (.vsub w p h b a d) := by
  intro o hw
  have hc : (w != 3#2 && (p == .rt || isStream a || isStream b || isStream d)) = true := hw
  rcases two_bit_cases w with rfl | rfl | rfl | rfl <;>
  first | (simp at hc; done) | (refine ofWord (VFmt.low_pack ..) (decodeMajor_17 (VFmt.major_pack ..)) ?_ hw; unfold decodeMajor17; rw [VFmt.minor6_pack]; simp (disch := decide) only [VFmt.pol24_pack, VFmt.hold_pack, VFmt.vb_pack, VFmt.a5_pack, VFmt.d5_pack, ex_hi, ex_lo, Nat.reduceSub, ex_all, Policy.ofBits_bits, BitVec.reduceAppend, BitVec.reduceToNat] <;> simp)

theorem vmul (w : BitVec 2) (p : Policy) (h : BitVec 2) (b : BitVec 5) (a : BitVec 5) (d : BitVec 5) : Statement (.vmul w p h b a d) := by
  intro o hw
  have hc : (w != 3#2 && (p == .rt || isStream a || isStream b || isStream d)) = true := hw
  rcases two_bit_cases w with rfl | rfl | rfl | rfl <;>
  first | (simp at hc; done) | (refine ofWord (VFmt.low_pack ..) (decodeMajor_17 (VFmt.major_pack ..)) ?_ hw; unfold decodeMajor17; rw [VFmt.minor6_pack]; simp (disch := decide) only [VFmt.pol24_pack, VFmt.hold_pack, VFmt.vb_pack, VFmt.a5_pack, VFmt.d5_pack, ex_hi, ex_lo, Nat.reduceSub, ex_all, Policy.ofBits_bits, BitVec.reduceAppend, BitVec.reduceToNat] <;> simp)

theorem vsll (w : BitVec 2) (p : Policy) (h : BitVec 2) (b : BitVec 5) (a : BitVec 5) (d : BitVec 5) : Statement (.vsll w p h b a d) := by
  intro o hw
  have hc : (w != 3#2 && (p == .rt || isStream a || isStream b || isStream d)) = true := hw
  rcases two_bit_cases w with rfl | rfl | rfl | rfl <;>
  first | (simp at hc; done) | (refine ofWord (VFmt.low_pack ..) (decodeMajor_17 (VFmt.major_pack ..)) ?_ hw; unfold decodeMajor17; rw [VFmt.minor6_pack]; simp (disch := decide) only [VFmt.pol24_pack, VFmt.hold_pack, VFmt.vb_pack, VFmt.a5_pack, VFmt.d5_pack, ex_hi, ex_lo, Nat.reduceSub, ex_all, Policy.ofBits_bits, BitVec.reduceAppend, BitVec.reduceToNat] <;> simp)

theorem vsrl (w : BitVec 2) (p : Policy) (h : BitVec 2) (b : BitVec 5) (a : BitVec 5) (d : BitVec 5) : Statement (.vsrl w p h b a d) := by
  intro o hw
  have hc : (w != 3#2 && (p == .rt || isStream a || isStream b || isStream d)) = true := hw
  rcases two_bit_cases w with rfl | rfl | rfl | rfl <;>
  first | (simp at hc; done) | (refine ofWord (VFmt.low_pack ..) (decodeMajor_17 (VFmt.major_pack ..)) ?_ hw; unfold decodeMajor17; rw [VFmt.minor6_pack]; simp (disch := decide) only [VFmt.pol24_pack, VFmt.hold_pack, VFmt.vb_pack, VFmt.a5_pack, VFmt.d5_pack, ex_hi, ex_lo, Nat.reduceSub, ex_all, Policy.ofBits_bits, BitVec.reduceAppend, BitVec.reduceToNat] <;> simp)

theorem vsra (w : BitVec 2) (p : Policy) (h : BitVec 2) (b : BitVec 5) (a : BitVec 5) (d : BitVec 5) : Statement (.vsra w p h b a d) := by
  intro o hw
  have hc : (w != 3#2 && (p == .rt || isStream a || isStream b || isStream d)) = true := hw
  rcases two_bit_cases w with rfl | rfl | rfl | rfl <;>
  first | (simp at hc; done) | (refine ofWord (VFmt.low_pack ..) (decodeMajor_17 (VFmt.major_pack ..)) ?_ hw; unfold decodeMajor17; rw [VFmt.minor6_pack]; simp (disch := decide) only [VFmt.pol24_pack, VFmt.hold_pack, VFmt.vb_pack, VFmt.a5_pack, VFmt.d5_pack, ex_hi, ex_lo, Nat.reduceSub, ex_all, Policy.ofBits_bits, BitVec.reduceAppend, BitVec.reduceToNat] <;> simp)

theorem vmin (w : BitVec 2) (p : Policy) (h : BitVec 2) (b : BitVec 5) (a : BitVec 5) (d : BitVec 5) : Statement (.vmin w p h b a d) := by
  intro o hw
  have hc : (w != 3#2 && (p == .rt || isStream a || isStream b || isStream d)) = true := hw
  rcases two_bit_cases w with rfl | rfl | rfl | rfl <;>
  first | (simp at hc; done) | (refine ofWord (VFmt.low_pack ..) (decodeMajor_17 (VFmt.major_pack ..)) ?_ hw; unfold decodeMajor17; rw [VFmt.minor6_pack]; simp (disch := decide) only [VFmt.pol24_pack, VFmt.hold_pack, VFmt.vb_pack, VFmt.a5_pack, VFmt.d5_pack, ex_hi, ex_lo, Nat.reduceSub, ex_all, Policy.ofBits_bits, BitVec.reduceAppend, BitVec.reduceToNat] <;> simp)

theorem vmax (w : BitVec 2) (p : Policy) (h : BitVec 2) (b : BitVec 5) (a : BitVec 5) (d : BitVec 5) : Statement (.vmax w p h b a d) := by
  intro o hw
  have hc : (w != 3#2 && (p == .rt || isStream a || isStream b || isStream d)) = true := hw
  rcases two_bit_cases w with rfl | rfl | rfl | rfl <;>
  first | (simp at hc; done) | (refine ofWord (VFmt.low_pack ..) (decodeMajor_17 (VFmt.major_pack ..)) ?_ hw; unfold decodeMajor17; rw [VFmt.minor6_pack]; simp (disch := decide) only [VFmt.pol24_pack, VFmt.hold_pack, VFmt.vb_pack, VFmt.a5_pack, VFmt.d5_pack, ex_hi, ex_lo, Nat.reduceSub, ex_all, Policy.ofBits_bits, BitVec.reduceAppend, BitVec.reduceToNat] <;> simp)

theorem vminu (w : BitVec 2) (p : Policy) (h : BitVec 2) (b : BitVec 5) (a : BitVec 5) (d : BitVec 5) : Statement (.vminu w p h b a d) := by
  intro o hw
  have hc : (w != 3#2 && (p == .rt || isStream a || isStream b || isStream d)) = true := hw
  rcases two_bit_cases w with rfl | rfl | rfl | rfl <;>
  first | (simp at hc; done) | (refine ofWord (VFmt.low_pack ..) (decodeMajor_17 (VFmt.major_pack ..)) ?_ hw; unfold decodeMajor17; rw [VFmt.minor6_pack]; simp (disch := decide) only [VFmt.pol24_pack, VFmt.hold_pack, VFmt.vb_pack, VFmt.a5_pack, VFmt.d5_pack, ex_hi, ex_lo, Nat.reduceSub, ex_all, Policy.ofBits_bits, BitVec.reduceAppend, BitVec.reduceToNat] <;> simp)

theorem vmaxu (w : BitVec 2) (p : Policy) (h : BitVec 2) (b : BitVec 5) (a : BitVec 5) (d : BitVec 5) : Statement (.vmaxu w p h b a d) := by
  intro o hw
  have hc : (w != 3#2 && (p == .rt || isStream a || isStream b || isStream d)) = true := hw
  rcases two_bit_cases w with rfl | rfl | rfl | rfl <;>
  first | (simp at hc; done) | (refine ofWord (VFmt.low_pack ..) (decodeMajor_17 (VFmt.major_pack ..)) ?_ hw; unfold decodeMajor17; rw [VFmt.minor6_pack]; simp (disch := decide) only [VFmt.pol24_pack, VFmt.hold_pack, VFmt.vb_pack, VFmt.a5_pack, VFmt.d5_pack, ex_hi, ex_lo, Nat.reduceSub, ex_all, Policy.ofBits_bits, BitVec.reduceAppend, BitVec.reduceToNat] <;> simp)

theorem vand (p : Policy) (h : BitVec 2) (b : BitVec 5) (a : BitVec 5) (d : BitVec 5) : Statement (.vand p h b a d) := by
  intro o hw
  refine ofWord (VFmt.low_pack ..) (decodeMajor_17 (VFmt.major_pack ..)) ?_ hw
  unfold decodeMajor17; rw [VFmt.minor6_pack]; simp (disch := decide) only [VFmt.pol24_pack, VFmt.hold_pack, VFmt.vb_pack, VFmt.a5_pack, VFmt.d5_pack, Policy.ofBits_bits, BitVec.reduceToNat]

theorem vor (p : Policy) (h : BitVec 2) (b : BitVec 5) (a : BitVec 5) (d : BitVec 5) : Statement (.vor p h b a d) := by
  intro o hw
  refine ofWord (VFmt.low_pack ..) (decodeMajor_17 (VFmt.major_pack ..)) ?_ hw
  unfold decodeMajor17; rw [VFmt.minor6_pack]; simp (disch := decide) only [VFmt.pol24_pack, VFmt.hold_pack, VFmt.vb_pack, VFmt.a5_pack, VFmt.d5_pack, Policy.ofBits_bits, BitVec.reduceToNat]

theorem vxor (p : Policy) (h : BitVec 2) (b : BitVec 5) (a : BitVec 5) (d : BitVec 5) : Statement (.vxor p h b a d) := by
  intro o hw
  refine ofWord (VFmt.low_pack ..) (decodeMajor_17 (VFmt.major_pack ..)) ?_ hw
  unfold decodeMajor17; rw [VFmt.minor6_pack]; simp (disch := decide) only [VFmt.pol24_pack, VFmt.hold_pack, VFmt.vb_pack, VFmt.a5_pack, VFmt.d5_pack, Policy.ofBits_bits, BitVec.reduceToNat]

theorem vandn (p : Policy) (h : BitVec 2) (b : BitVec 5) (a : BitVec 5) (d : BitVec 5) : Statement (.vandn p h b a d) := by
  intro o hw
  refine ofWord (VFmt.low_pack ..) (decodeMajor_17 (VFmt.major_pack ..)) ?_ hw
  unfold decodeMajor17; rw [VFmt.minor6_pack]; simp (disch := decide) only [VFmt.pol24_pack, VFmt.hold_pack, VFmt.vb_pack, VFmt.a5_pack, VFmt.d5_pack, Policy.ofBits_bits, BitVec.reduceToNat]

theorem vieq (p : Policy) (h : BitVec 2) (b : BitVec 5) (a : BitVec 5) (k : BitVec 3) : Statement (.vieq p h b a k) := by
  intro o hw
  refine ofWord (VFmt.low_pack ..) (decodeMajor_17 (VFmt.major_pack ..)) ?_ hw
  unfold decodeMajor17; rw [VFmt.minor6_pack]; simp (disch := decide) only [VFmt.pol24_pack, VFmt.hold_pack, VFmt.vb_pack, VFmt.a5_pack, VFmt.d5_pack, ex_hi, ex_lo, Nat.reduceSub, ex_all, Policy.ofBits_bits, BitVec.reduceToNat]; simp

theorem vilt (p : Policy) (h : BitVec 2) (b : BitVec 5) (a : BitVec 5) (k : BitVec 3) : Statement (.vilt p h b a k) := by
  intro o hw
  refine ofWord (VFmt.low_pack ..) (decodeMajor_17 (VFmt.major_pack ..)) ?_ hw
  unfold decodeMajor17; rw [VFmt.minor6_pack]; simp (disch := decide) only [VFmt.pol24_pack, VFmt.hold_pack, VFmt.vb_pack, VFmt.a5_pack, VFmt.d5_pack, ex_hi, ex_lo, Nat.reduceSub, ex_all, Policy.ofBits_bits, BitVec.reduceToNat]; simp

theorem viltu (p : Policy) (h : BitVec 2) (b : BitVec 5) (a : BitVec 5) (k : BitVec 3) : Statement (.viltu p h b a k) := by
  intro o hw
  refine ofWord (VFmt.low_pack ..) (decodeMajor_17 (VFmt.major_pack ..)) ?_ hw
  unfold decodeMajor17; rw [VFmt.minor6_pack]; simp (disch := decide) only [VFmt.pol24_pack, VFmt.hold_pack, VFmt.vb_pack, VFmt.a5_pack, VFmt.d5_pack, ex_hi, ex_lo, Nat.reduceSub, ex_all, Policy.ofBits_bits, BitVec.reduceToNat]; simp

theorem vbcast (p : Policy) (h : BitVec 2) (a : BitVec 5) (d : BitVec 5) : Statement (.vbcast p h a d) := by
  intro o hw
  refine ofWord (VFmt.low_pack ..) (decodeMajor_17 (VFmt.major_pack ..)) ?_ hw
  unfold decodeMajor17; rw [VFmt.minor6_pack]; simp (disch := decide) only [VFmt.pol24_pack, VFmt.hold_pack, VFmt.vb_pack, VFmt.a5_pack, VFmt.d5_pack, Policy.ofBits_bits, BitVec.reduceToNat]; simp

theorem kget (p : Policy) (h : BitVec 2) (k : BitVec 3) (d : BitVec 5) : Statement (.kget p h k d) := by
  intro o hw
  refine ofWord (VFmt.low_pack ..) (decodeMajor_17 (VFmt.major_pack ..)) ?_ hw
  unfold decodeMajor17; rw [VFmt.minor6_pack]; simp (disch := decide) only [VFmt.pol24_pack, VFmt.hold_pack, VFmt.vb_pack, VFmt.a5_pack, VFmt.d5_pack, ex_hi, ex_lo, Nat.reduceSub, ex_all, Policy.ofBits_bits, BitVec.reduceToNat]; simp

theorem kset (p : Policy) (h : BitVec 2) (a : BitVec 5) (k : BitVec 3) : Statement (.kset p h a k) := by
  intro o hw
  refine ofWord (VFmt.low_pack ..) (decodeMajor_17 (VFmt.major_pack ..)) ?_ hw
  unfold decodeMajor17; rw [VFmt.minor6_pack]; simp (disch := decide) only [VFmt.pol24_pack, VFmt.hold_pack, VFmt.vb_pack, VFmt.a5_pack, VFmt.d5_pack, ex_hi, ex_lo, Nat.reduceSub, ex_all, Policy.ofBits_bits, BitVec.reduceToNat]; simp

theorem vperm (p : Policy) (h : BitVec 2) (b : BitVec 5) (a : BitVec 5) (d : BitVec 5) : Statement (.vperm p h b a d) := by
  intro o hw
  refine ofWord (VFmt.low_pack ..) (decodeMajor_18 (VFmt.major_pack ..)) ?_ hw
  unfold decodeMajor18; rw [VFmt.minor6_pack]; simp (disch := decide) only [VFmt.pol24_pack, VFmt.hold_pack, VFmt.vb_pack, VFmt.a5_pack, VFmt.d5_pack, Policy.ofBits_bits, BitVec.reduceToNat]

theorem vperm2 (p : Policy) (h : BitVec 2) (b : BitVec 5) (a : BitVec 5) (d : BitVec 5) : Statement (.vperm2 p h b a d) := by
  intro o hw
  refine ofWord (VFmt.low_pack ..) (decodeMajor_18 (VFmt.major_pack ..)) ?_ hw
  unfold decodeMajor18; rw [VFmt.minor6_pack]; simp (disch := decide) only [VFmt.pol24_pack, VFmt.hold_pack, VFmt.vb_pack, VFmt.a5_pack, VFmt.d5_pack, Policy.ofBits_bits, BitVec.reduceToNat]

theorem vrot (p : Policy) (h : BitVec 2) (s : BitVec 4) (a : BitVec 5) (d : BitVec 5) : Statement (.vrot p h s a d) := by
  intro o hw
  refine ofWord (VFmt.low_pack ..) (decodeMajor_18 (VFmt.major_pack ..)) ?_ hw
  unfold decodeMajor18; rw [VFmt.minor6_pack]; simp (disch := decide) only [VFmt.pol24_pack, VFmt.hold_pack, VFmt.vb_pack, VFmt.a5_pack, VFmt.d5_pack, ex_hi, ex_lo, Nat.reduceSub, ex_all, Policy.ofBits_bits, BitVec.reduceToNat]; simp

theorem vins (p : Policy) (h : BitVec 2) (s : BitVec 4) (a : BitVec 5) (d : BitVec 5) : Statement (.vins p h s a d) := by
  intro o hw
  refine ofWord (VFmt.low_pack ..) (decodeMajor_18 (VFmt.major_pack ..)) ?_ hw
  unfold decodeMajor18; rw [VFmt.minor6_pack]; simp (disch := decide) only [VFmt.pol24_pack, VFmt.hold_pack, VFmt.vb_pack, VFmt.a5_pack, VFmt.d5_pack, ex_hi, ex_lo, Nat.reduceSub, ex_all, Policy.ofBits_bits, BitVec.reduceToNat]; simp

theorem vext (p : Policy) (h : BitVec 2) (s : BitVec 4) (a : BitVec 5) (d : BitVec 5) : Statement (.vext p h s a d) := by
  intro o hw
  refine ofWord (VFmt.low_pack ..) (decodeMajor_18 (VFmt.major_pack ..)) ?_ hw
  unfold decodeMajor18; rw [VFmt.minor6_pack]; simp (disch := decide) only [VFmt.pol24_pack, VFmt.hold_pack, VFmt.vb_pack, VFmt.a5_pack, VFmt.d5_pack, ex_hi, ex_lo, Nat.reduceSub, ex_all, Policy.ofBits_bits, BitVec.reduceToNat]; simp

theorem vsumF (p : Policy) (h : BitVec 2) (a : BitVec 5) (d : BitVec 5) : Statement (.vsumF p h a d) := by
  intro o hw
  refine ofWord (VFmt.low_pack ..) (decodeMajor_18 (VFmt.major_pack ..)) ?_ hw
  unfold decodeMajor18; rw [VFmt.minor6_pack]; simp (disch := decide) only [VFmt.pol24_pack, VFmt.hold_pack, VFmt.vb_pack, VFmt.a5_pack, VFmt.d5_pack, Policy.ofBits_bits, BitVec.reduceToNat]; simp

theorem vmaxF (p : Policy) (h : BitVec 2) (a : BitVec 5) (d : BitVec 5) : Statement (.vmaxF p h a d) := by
  intro o hw
  refine ofWord (VFmt.low_pack ..) (decodeMajor_18 (VFmt.major_pack ..)) ?_ hw
  unfold decodeMajor18; rw [VFmt.minor6_pack]; simp (disch := decide) only [VFmt.pol24_pack, VFmt.hold_pack, VFmt.vb_pack, VFmt.a5_pack, VFmt.d5_pack, Policy.ofBits_bits, BitVec.reduceToNat]; simp

theorem vminF (p : Policy) (h : BitVec 2) (a : BitVec 5) (d : BitVec 5) : Statement (.vminF p h a d) := by
  intro o hw
  refine ofWord (VFmt.low_pack ..) (decodeMajor_18 (VFmt.major_pack ..)) ?_ hw
  unfold decodeMajor18; rw [VFmt.minor6_pack]; simp (disch := decide) only [VFmt.pol24_pack, VFmt.hold_pack, VFmt.vb_pack, VFmt.a5_pack, VFmt.d5_pack, Policy.ofBits_bits, BitVec.reduceToNat]; simp

theorem vsumI32 (p : Policy) (h : BitVec 2) (a : BitVec 5) (d : BitVec 5) : Statement (.vsumI32 p h a d) := by
  intro o hw
  refine ofWord (VFmt.low_pack ..) (decodeMajor_18 (VFmt.major_pack ..)) ?_ hw
  unfold decodeMajor18; rw [VFmt.minor6_pack]; simp (disch := decide) only [VFmt.pol24_pack, VFmt.hold_pack, VFmt.vb_pack, VFmt.a5_pack, VFmt.d5_pack, Policy.ofBits_bits, BitVec.reduceToNat]; simp

theorem vmaxI32 (p : Policy) (h : BitVec 2) (a : BitVec 5) (d : BitVec 5) : Statement (.vmaxI32 p h a d) := by
  intro o hw
  refine ofWord (VFmt.low_pack ..) (decodeMajor_18 (VFmt.major_pack ..)) ?_ hw
  unfold decodeMajor18; rw [VFmt.minor6_pack]; simp (disch := decide) only [VFmt.pol24_pack, VFmt.hold_pack, VFmt.vb_pack, VFmt.a5_pack, VFmt.d5_pack, Policy.ofBits_bits, BitVec.reduceToNat]; simp

theorem vminI32 (p : Policy) (h : BitVec 2) (a : BitVec 5) (d : BitVec 5) : Statement (.vminI32 p h a d) := by
  intro o hw
  refine ofWord (VFmt.low_pack ..) (decodeMajor_18 (VFmt.major_pack ..)) ?_ hw
  unfold decodeMajor18; rw [VFmt.minor6_pack]; simp (disch := decide) only [VFmt.pol24_pack, VFmt.hold_pack, VFmt.vb_pack, VFmt.a5_pack, VFmt.d5_pack, Policy.ofBits_bits, BitVec.reduceToNat]; simp

theorem vsumI16 (p : Policy) (h : BitVec 2) (a : BitVec 5) (d : BitVec 5) : Statement (.vsumI16 p h a d) := by
  intro o hw
  refine ofWord (VFmt.low_pack ..) (decodeMajor_18 (VFmt.major_pack ..)) ?_ hw
  unfold decodeMajor18; rw [VFmt.minor6_pack]; simp (disch := decide) only [VFmt.pol24_pack, VFmt.hold_pack, VFmt.vb_pack, VFmt.a5_pack, VFmt.d5_pack, Policy.ofBits_bits, BitVec.reduceToNat]; simp

theorem vsumI8 (p : Policy) (h : BitVec 2) (a : BitVec 5) (d : BitVec 5) : Statement (.vsumI8 p h a d) := by
  intro o hw
  refine ofWord (VFmt.low_pack ..) (decodeMajor_18 (VFmt.major_pack ..)) ?_ hw
  unfold decodeMajor18; rw [VFmt.minor6_pack]; simp (disch := decide) only [VFmt.pol24_pack, VFmt.hold_pack, VFmt.vb_pack, VFmt.a5_pack, VFmt.d5_pack, Policy.ofBits_bits, BitVec.reduceToNat]; simp

theorem vsumBf (p : Policy) (h : BitVec 2) (a : BitVec 5) (d : BitVec 5) : Statement (.vsumBf p h a d) := by
  intro o hw
  refine ofWord (VFmt.low_pack ..) (decodeMajor_18 (VFmt.major_pack ..)) ?_ hw
  unfold decodeMajor18; rw [VFmt.minor6_pack]; simp (disch := decide) only [VFmt.pol24_pack, VFmt.hold_pack, VFmt.vb_pack, VFmt.a5_pack, VFmt.d5_pack, Policy.ofBits_bits, BitVec.reduceToNat]; simp

theorem vld (p : Policy) (h : BitVec 2) (o : BitVec 5) (a : BitVec 5) (d : BitVec 5) : Statement (.vld p h o a d) := by
  intro o hw
  refine ofWord (VFmt.low_pack ..) (decodeMajor_19 (VFmt.major_pack ..)) ?_ hw
  unfold decodeMajor19; rw [VFmt.minor6_pack]; simp (disch := decide) only [VFmt.pol24_pack, VFmt.hold_pack, VFmt.vb_pack, VFmt.a5_pack, VFmt.d5_pack, Policy.ofBits_bits, BitVec.reduceToNat]

theorem vldWk (p : Policy) (h : BitVec 2) (o : BitVec 5) (a : BitVec 5) (d : BitVec 5) : Statement (.vldWk p h o a d) := by
  intro o hw
  refine ofWord (VFmt.low_pack ..) (decodeMajor_19 (VFmt.major_pack ..)) ?_ hw
  unfold decodeMajor19; rw [VFmt.minor6_pack]; simp (disch := decide) only [VFmt.pol24_pack, VFmt.hold_pack, VFmt.vb_pack, VFmt.a5_pack, VFmt.d5_pack, Policy.ofBits_bits, BitVec.reduceToNat]

theorem vst (p : Policy) (h : BitVec 2) (o : BitVec 5) (a : BitVec 5) (d : BitVec 5) : Statement (.vst p h o a d) := by
  intro o hw
  refine ofWord (VFmt.low_pack ..) (decodeMajor_19 (VFmt.major_pack ..)) ?_ hw
  unfold decodeMajor19; rw [VFmt.minor6_pack]; simp (disch := decide) only [VFmt.pol24_pack, VFmt.hold_pack, VFmt.vb_pack, VFmt.a5_pack, VFmt.d5_pack, Policy.ofBits_bits, BitVec.reduceToNat]

theorem vstWk (p : Policy) (h : BitVec 2) (o : BitVec 5) (a : BitVec 5) (d : BitVec 5) : Statement (.vstWk p h o a d) := by
  intro o hw
  refine ofWord (VFmt.low_pack ..) (decodeMajor_19 (VFmt.major_pack ..)) ?_ hw
  unfold decodeMajor19; rw [VFmt.minor6_pack]; simp (disch := decide) only [VFmt.pol24_pack, VFmt.hold_pack, VFmt.vb_pack, VFmt.a5_pack, VFmt.d5_pack, Policy.ofBits_bits, BitVec.reduceToNat]

theorem vldSp (p : Policy) (h : BitVec 2) (o : BitVec 5) (a : BitVec 5) (d : BitVec 5) : Statement (.vldSp p h o a d) := by
  intro o hw
  refine ofWord (VFmt.low_pack ..) (decodeMajor_19 (VFmt.major_pack ..)) ?_ hw
  unfold decodeMajor19; rw [VFmt.minor6_pack]; simp (disch := decide) only [VFmt.pol24_pack, VFmt.hold_pack, VFmt.vb_pack, VFmt.a5_pack, VFmt.d5_pack, Policy.ofBits_bits, BitVec.reduceToNat]

theorem vstSp (p : Policy) (h : BitVec 2) (o : BitVec 5) (a : BitVec 5) (d : BitVec 5) : Statement (.vstSp p h o a d) := by
  intro o hw
  refine ofWord (VFmt.low_pack ..) (decodeMajor_19 (VFmt.major_pack ..)) ?_ hw
  unfold decodeMajor19; rw [VFmt.minor6_pack]; simp (disch := decide) only [VFmt.pol24_pack, VFmt.hold_pack, VFmt.vb_pack, VFmt.a5_pack, VFmt.d5_pack, Policy.ofBits_bits, BitVec.reduceToNat]

theorem vldWin (p : Policy) (h : BitVec 2) (o : BitVec 5) (a : BitVec 5) (d : BitVec 5) : Statement (.vldWin p h o a d) := by
  intro o hw
  refine ofWord (VFmt.low_pack ..) (decodeMajor_19 (VFmt.major_pack ..)) ?_ hw
  unfold decodeMajor19; rw [VFmt.minor6_pack]; simp (disch := decide) only [VFmt.pol24_pack, VFmt.hold_pack, VFmt.vb_pack, VFmt.a5_pack, VFmt.d5_pack, Policy.ofBits_bits, BitVec.reduceToNat]

theorem vstWin (p : Policy) (h : BitVec 2) (o : BitVec 5) (a : BitVec 5) (d : BitVec 5) : Statement (.vstWin p h o a d) := by
  intro o hw
  refine ofWord (VFmt.low_pack ..) (decodeMajor_19 (VFmt.major_pack ..)) ?_ hw
  unfold decodeMajor19; rw [VFmt.minor6_pack]; simp (disch := decide) only [VFmt.pol24_pack, VFmt.hold_pack, VFmt.vb_pack, VFmt.a5_pack, VFmt.d5_pack, Policy.ofBits_bits, BitVec.reduceToNat]

theorem scfg (b : BitVec 6) (a : BitVec 6) (n : BitVec 2) : Statement (.scfg b a n) := by
  intro o hw
  refine ofWord (RFmt.low_pack ..) (decodeMajor_20 (RFmt.major_pack ..)) ?_ hw
  unfold decodeMajor20; rw [RFmt.minor7_pack]; simp (disch := decide) only [RFmt.b_pack, RFmt.a_pack, RFmt.d_pack, ex_hi, ex_lo, Nat.reduceSub, ex_all, BitVec.reduceToNat]; simp

theorem sclr (n : BitVec 2) : Statement (.sclr n) := by
  intro o hw
  refine ofWord (RFmt.low_pack ..) (decodeMajor_20 (RFmt.major_pack ..)) ?_ hw
  unfold decodeMajor20; rw [RFmt.minor7_pack]; simp (disch := decide) only [RFmt.b_pack, RFmt.a_pack, RFmt.d_pack, ex_hi, ex_lo, Nat.reduceSub, ex_all, BitVec.reduceToNat]; simp

theorem srem (n : BitVec 2) (d : BitVec 6) : Statement (.srem n d) := by
  intro o hw
  refine ofWord (RFmt.low_pack ..) (decodeMajor_20 (RFmt.major_pack ..)) ?_ hw
  unfold decodeMajor20; rw [RFmt.minor7_pack]; simp (disch := decide) only [RFmt.b_pack, RFmt.a_pack, RFmt.d_pack, ex_hi, ex_lo, Nat.reduceSub, ex_all, BitVec.reduceToNat]; simp

theorem vrcpA (p : Policy) (h : BitVec 2) (a : BitVec 5) (d : BitVec 5) : Statement (.vrcpA p h a d) := by
  intro o hw
  refine ofWord (VFmt.low_pack ..) (decodeMajor_21 (VFmt.major_pack ..)) ?_ hw
  unfold decodeMajor21; rw [VFmt.minor6_pack]; simp (disch := decide) only [VFmt.pol24_pack, VFmt.hold_pack, VFmt.vb_pack, VFmt.a5_pack, VFmt.d5_pack, Policy.ofBits_bits, BitVec.reduceToNat]; simp

theorem vrsqA (p : Policy) (h : BitVec 2) (a : BitVec 5) (d : BitVec 5) : Statement (.vrsqA p h a d) := by
  intro o hw
  refine ofWord (VFmt.low_pack ..) (decodeMajor_21 (VFmt.major_pack ..)) ?_ hw
  unfold decodeMajor21; rw [VFmt.minor6_pack]; simp (disch := decide) only [VFmt.pol24_pack, VFmt.hold_pack, VFmt.vb_pack, VFmt.a5_pack, VFmt.d5_pack, Policy.ofBits_bits, BitVec.reduceToNat]; simp

theorem vrcpS (p : Policy) (h : BitVec 2) (b : BitVec 5) (a : BitVec 5) (d : BitVec 5) : Statement (.vrcpS p h b a d) := by
  intro o hw
  refine ofWord (VFmt.low_pack ..) (decodeMajor_21 (VFmt.major_pack ..)) ?_ hw
  unfold decodeMajor21; rw [VFmt.minor6_pack]; simp (disch := decide) only [VFmt.pol24_pack, VFmt.hold_pack, VFmt.vb_pack, VFmt.a5_pack, VFmt.d5_pack, Policy.ofBits_bits, BitVec.reduceToNat]

theorem vrsqS (p : Policy) (h : BitVec 2) (b : BitVec 5) (a : BitVec 5) (d : BitVec 5) : Statement (.vrsqS p h b a d) := by
  intro o hw
  refine ofWord (VFmt.low_pack ..) (decodeMajor_21 (VFmt.major_pack ..)) ?_ hw
  unfold decodeMajor21; rw [VFmt.minor6_pack]; simp (disch := decide) only [VFmt.pol24_pack, VFmt.hold_pack, VFmt.vb_pack, VFmt.a5_pack, VFmt.d5_pack, Policy.ofBits_bits, BitVec.reduceToNat]

theorem vexp2A (p : Policy) (h : BitVec 2) (a : BitVec 5) (d : BitVec 5) : Statement (.vexp2A p h a d) := by
  intro o hw
  refine ofWord (VFmt.low_pack ..) (decodeMajor_21 (VFmt.major_pack ..)) ?_ hw
  unfold decodeMajor21; rw [VFmt.minor6_pack]; simp (disch := decide) only [VFmt.pol24_pack, VFmt.hold_pack, VFmt.vb_pack, VFmt.a5_pack, VFmt.d5_pack, Policy.ofBits_bits, BitVec.reduceToNat]; simp

theorem vlog2A (p : Policy) (h : BitVec 2) (a : BitVec 5) (d : BitVec 5) : Statement (.vlog2A p h a d) := by
  intro o hw
  refine ofWord (VFmt.low_pack ..) (decodeMajor_21 (VFmt.major_pack ..)) ?_ hw
  unfold decodeMajor21; rw [VFmt.minor6_pack]; simp (disch := decide) only [VFmt.pol24_pack, VFmt.hold_pack, VFmt.vb_pack, VFmt.a5_pack, VFmt.d5_pack, Policy.ofBits_bits, BitVec.reduceToNat]; simp

theorem pfx (z : BitVec 1) (o : BitVec 5) (r : BitVec 3) (e : BitVec 1) (k : BitVec 3) : Statement (.pfx z o r e k) := by
  intro o hw
  refine ofWord (PFmt.low_pack ..) (decodeMajor_22 (PFmt.major_pack ..)) ?_ hw
  unfold decodeMajor22; simp (disch := decide) only [PFmt.zero12_pack, PFmt.zbit_pack, PFmt.op4_pack, PFmt.rm_pack, PFmt.me_pack, PFmt.mk_pack]; simp

theorem vcvtFI (p : Policy) (h : BitVec 2) (a : BitVec 5) (d : BitVec 5) : Statement (.vcvtFI p h a d) := by
  intro o hw
  refine ofWord (VFmt.low_pack ..) (decodeMajor_23 (VFmt.major_pack ..)) ?_ hw
  unfold decodeMajor23; rw [VFmt.minor6_pack]; simp (disch := decide) only [VFmt.pol24_pack, VFmt.hold_pack, VFmt.vb_pack, VFmt.a5_pack, VFmt.d5_pack, Policy.ofBits_bits, BitVec.reduceToNat]; simp

theorem vcvtIF (p : Policy) (h : BitVec 2) (a : BitVec 5) (d : BitVec 5) : Statement (.vcvtIF p h a d) := by
  intro o hw
  refine ofWord (VFmt.low_pack ..) (decodeMajor_23 (VFmt.major_pack ..)) ?_ hw
  unfold decodeMajor23; rw [VFmt.minor6_pack]; simp (disch := decide) only [VFmt.pol24_pack, VFmt.hold_pack, VFmt.vb_pack, VFmt.a5_pack, VFmt.d5_pack, Policy.ofBits_bits, BitVec.reduceToNat]; simp

theorem vcvtBfF (p : Policy) (h : BitVec 2) (b : BitVec 5) (a : BitVec 5) (d : BitVec 5) : Statement (.vcvtBfF p h b a d) := by
  intro o hw
  refine ofWord (VFmt.low_pack ..) (decodeMajor_23 (VFmt.major_pack ..)) ?_ hw
  unfold decodeMajor23; rw [VFmt.minor6_pack]; simp (disch := decide) only [VFmt.pol24_pack, VFmt.hold_pack, VFmt.vb_pack, VFmt.a5_pack, VFmt.d5_pack, Policy.ofBits_bits, BitVec.reduceToNat]

theorem vcvtFBf (p : Policy) (h : BitVec 2) (g : BitVec 1) (a : BitVec 5) (d : BitVec 5) : Statement (.vcvtFBf p h g a d) := by
  intro o hw
  refine ofWord (VFmt.low_pack ..) (decodeMajor_23 (VFmt.major_pack ..)) ?_ hw
  unfold decodeMajor23; rw [VFmt.minor6_pack]; simp (disch := decide) only [VFmt.pol24_pack, VFmt.hold_pack, VFmt.vb_pack, VFmt.a5_pack, VFmt.d5_pack, ex_hi, ex_lo, Nat.reduceSub, ex_all, Policy.ofBits_bits, BitVec.reduceToNat]; simp

theorem vcvtFMk8 (p : Policy) (h : BitVec 2) (q : BitVec 2) (a : BitVec 5) (d : BitVec 5) : Statement (.vcvtFMk8 p h q a d) := by
  intro o hw
  refine ofWord (VFmt.low_pack ..) (decodeMajor_23 (VFmt.major_pack ..)) ?_ hw
  unfold decodeMajor23; rw [VFmt.minor6_pack]; simp (disch := decide) only [VFmt.pol24_pack, VFmt.hold_pack, VFmt.vb_pack, VFmt.a5_pack, VFmt.d5_pack, ex_hi, ex_lo, Nat.reduceSub, ex_all, Policy.ofBits_bits, BitVec.reduceToNat]; simp

theorem vpackI16 (p : Policy) (h : BitVec 2) (b : BitVec 5) (a : BitVec 5) (d : BitVec 5) : Statement (.vpackI16 p h b a d) := by
  intro o hw
  refine ofWord (VFmt.low_pack ..) (decodeMajor_23 (VFmt.major_pack ..)) ?_ hw
  unfold decodeMajor23; rw [VFmt.minor6_pack]; simp (disch := decide) only [VFmt.pol24_pack, VFmt.hold_pack, VFmt.vb_pack, VFmt.a5_pack, VFmt.d5_pack, Policy.ofBits_bits, BitVec.reduceToNat]

theorem vunpkI16 (p : Policy) (h : BitVec 2) (g : BitVec 1) (a : BitVec 5) (d : BitVec 5) : Statement (.vunpkI16 p h g a d) := by
  intro o hw
  refine ofWord (VFmt.low_pack ..) (decodeMajor_23 (VFmt.major_pack ..)) ?_ hw
  unfold decodeMajor23; rw [VFmt.minor6_pack]; simp (disch := decide) only [VFmt.pol24_pack, VFmt.hold_pack, VFmt.vb_pack, VFmt.a5_pack, VFmt.d5_pack, ex_hi, ex_lo, Nat.reduceSub, ex_all, Policy.ofBits_bits, BitVec.reduceToNat]; simp

theorem vunpkI8 (p : Policy) (h : BitVec 2) (q : BitVec 2) (a : BitVec 5) (d : BitVec 5) : Statement (.vunpkI8 p h q a d) := by
  intro o hw
  refine ofWord (VFmt.low_pack ..) (decodeMajor_23 (VFmt.major_pack ..)) ?_ hw
  unfold decodeMajor23; rw [VFmt.minor6_pack]; simp (disch := decide) only [VFmt.pol24_pack, VFmt.hold_pack, VFmt.vb_pack, VFmt.a5_pack, VFmt.d5_pack, ex_hi, ex_lo, Nat.reduceSub, ex_all, Policy.ofBits_bits, BitVec.reduceToNat]; simp

theorem vquant (p : Policy) (h : BitVec 2) (t : BitVec 5) (a : BitVec 4) (d : BitVec 5) : Statement (.vquant p h t a d) := by
  intro o hw
  refine ofWord (VFmt.low_pack ..) (decodeMajor_23 (VFmt.major_pack ..)) ?_ hw
  unfold decodeMajor23; rw [VFmt.minor6_pack]; simp (disch := decide) only [VFmt.pol24_pack, VFmt.hold_pack, VFmt.vb_pack, VFmt.a5_pack, VFmt.d5_pack, ex_hi, ex_lo, Nat.reduceSub, ex_all, Policy.ofBits_bits, BitVec.reduceToNat]; simp

theorem mlease (p : Policy) (d : BitVec 6) : Statement (.mlease p d) := by
  intro o hw
  refine ofWord (RPFmt.low_pack ..) (decodeMajor_24 (RPFmt.major_pack ..)) ?_ hw
  unfold decodeMajor24; rw [RPFmt.minor5_pack]; simp (disch := decide) only [RPFmt.pol_pack, RPFmt.b_pack, RPFmt.a_pack, RPFmt.d_pack, Policy.ofBits_bits, BitVec.reduceToNat]; simp

theorem mrel : Statement (.mrel ) := by
  intro o hw
  refine ofWord (RPFmt.low_pack ..) (decodeMajor_24 (RPFmt.major_pack ..)) ?_ hw
  unfold decodeMajor24; rw [RPFmt.minor5_pack]; simp (disch := decide) only [RPFmt.pol_pack, RPFmt.b_pack, RPFmt.a_pack, RPFmt.d_pack, BitVec.reduceToNat]; simp

theorem tsh (p : Policy) (a : BitVec 6) (t : BitVec 6) : Statement (.tsh p a t) := by
  intro o hw
  refine ofWord (RPFmt.low_pack ..) (decodeMajor_24 (RPFmt.major_pack ..)) ?_ hw
  unfold decodeMajor24; rw [RPFmt.minor5_pack]; simp (disch := decide) only [RPFmt.pol_pack, RPFmt.b_pack, RPFmt.a_pack, RPFmt.d_pack, Policy.ofBits_bits, BitVec.reduceToNat]; simp

theorem tshr (p : Policy) (t : BitVec 6) (d : BitVec 6) : Statement (.tshr p t d) := by
  intro o hw
  refine ofWord (RPFmt.low_pack ..) (decodeMajor_24 (RPFmt.major_pack ..)) ?_ hw
  unfold decodeMajor24; rw [RPFmt.minor5_pack]; simp (disch := decide) only [RPFmt.pol_pack, RPFmt.b_pack, RPFmt.a_pack, RPFmt.d_pack, Policy.ofBits_bits, BitVec.reduceToNat]; simp

theorem tld (p : Policy) (b : BitVec 6) (a : BitVec 6) (t : BitVec 6) : Statement (.tld p b a t) := by
  intro o hw
  refine ofWord (RPFmt.low_pack ..) (decodeMajor_24 (RPFmt.major_pack ..)) ?_ hw
  unfold decodeMajor24; rw [RPFmt.minor5_pack]; simp (disch := decide) only [RPFmt.pol_pack, RPFmt.b_pack, RPFmt.a_pack, RPFmt.d_pack, Policy.ofBits_bits, BitVec.reduceToNat]

theorem tst (p : Policy) (b : BitVec 6) (a : BitVec 6) (t : BitVec 6) : Statement (.tst p b a t) := by
  intro o hw
  refine ofWord (RPFmt.low_pack ..) (decodeMajor_24 (RPFmt.major_pack ..)) ?_ hw
  unfold decodeMajor24; rw [RPFmt.minor5_pack]; simp (disch := decide) only [RPFmt.pol_pack, RPFmt.b_pack, RPFmt.a_pack, RPFmt.d_pack, Policy.ofBits_bits, BitVec.reduceToNat]

theorem tzero (p : Policy) (t : BitVec 6) : Statement (.tzero p t) := by
  intro o hw
  refine ofWord (RPFmt.low_pack ..) (decodeMajor_24 (RPFmt.major_pack ..)) ?_ hw
  unfold decodeMajor24; rw [RPFmt.minor5_pack]; simp (disch := decide) only [RPFmt.pol_pack, RPFmt.b_pack, RPFmt.a_pack, RPFmt.d_pack, Policy.ofBits_bits, BitVec.reduceToNat]; simp

theorem mma (p : Policy) (b : BitVec 6) (a : BitVec 6) (f : BitVec 2) (z : BitVec 1) (c : BitVec 2) : Statement (.mma p b a f z c) := by
  intro o hw
  refine ofWord (RPFmt.low_pack ..) (decodeMajor_24 (RPFmt.major_pack ..)) ?_ hw
  unfold decodeMajor24; rw [RPFmt.minor5_pack]; simp (disch := decide) only [RPFmt.pol_pack, RPFmt.b_pack, RPFmt.a_pack, RPFmt.d_pack, ex_hi, ex_lo, Nat.reduceSub, ex_all, Policy.ofBits_bits, BitVec.reduceToNat]; simp

theorem tqnt (p : Policy) (b : BitVec 6) (u : BitVec 6) (t : BitVec 6) : Statement (.tqnt p b u t) := by
  intro o hw
  refine ofWord (RPFmt.low_pack ..) (decodeMajor_24 (RPFmt.major_pack ..)) ?_ hw
  unfold decodeMajor24; rw [RPFmt.minor5_pack]; simp (disch := decide) only [RPFmt.pol_pack, RPFmt.b_pack, RPFmt.a_pack, RPFmt.d_pack, Policy.ofBits_bits, BitVec.reduceToNat]

theorem cpMm (p : Policy) (b : BitVec 5) (a : BitVec 5) (r : BitVec 1) (w : BitVec 1) (q : BitVec 3) : Statement (.cpMm p b a r w q) := by
  intro o hw
  refine ofWord (RPFmt.low_pack ..) (decodeMajor_25 (RPFmt.major_pack ..)) ?_ hw
  unfold decodeMajor25; rw [RPFmt.minor5_pack]; simp (disch := decide) only [RPFmt.pol_pack, RPFmt.b_pack, RPFmt.a_pack, RPFmt.d_pack, ex_hi, ex_lo, Nat.reduceSub, ex_all, Policy.ofBits_bits, BitVec.reduceToNat]; simp

theorem cpMs (p : Policy) (b : BitVec 5) (a : BitVec 5) (r : BitVec 1) (w : BitVec 1) (q : BitVec 3) : Statement (.cpMs p b a r w q) := by
  intro o hw
  refine ofWord (RPFmt.low_pack ..) (decodeMajor_25 (RPFmt.major_pack ..)) ?_ hw
  unfold decodeMajor25; rw [RPFmt.minor5_pack]; simp (disch := decide) only [RPFmt.pol_pack, RPFmt.b_pack, RPFmt.a_pack, RPFmt.d_pack, ex_hi, ex_lo, Nat.reduceSub, ex_all, Policy.ofBits_bits, BitVec.reduceToNat]; simp

theorem cpMv (p : Policy) (b : BitVec 5) (a : BitVec 5) (r : BitVec 1) (w : BitVec 1) (q : BitVec 3) : Statement (.cpMv p b a r w q) := by
  intro o hw
  refine ofWord (RPFmt.low_pack ..) (decodeMajor_25 (RPFmt.major_pack ..)) ?_ hw
  unfold decodeMajor25; rw [RPFmt.minor5_pack]; simp (disch := decide) only [RPFmt.pol_pack, RPFmt.b_pack, RPFmt.a_pack, RPFmt.d_pack, ex_hi, ex_lo, Nat.reduceSub, ex_all, Policy.ofBits_bits, BitVec.reduceToNat]; simp

theorem cpSm (p : Policy) (b : BitVec 5) (a : BitVec 5) (r : BitVec 1) (w : BitVec 1) (q : BitVec 3) : Statement (.cpSm p b a r w q) := by
  intro o hw
  refine ofWord (RPFmt.low_pack ..) (decodeMajor_25 (RPFmt.major_pack ..)) ?_ hw
  unfold decodeMajor25; rw [RPFmt.minor5_pack]; simp (disch := decide) only [RPFmt.pol_pack, RPFmt.b_pack, RPFmt.a_pack, RPFmt.d_pack, ex_hi, ex_lo, Nat.reduceSub, ex_all, Policy.ofBits_bits, BitVec.reduceToNat]; simp

theorem cpSs (p : Policy) (b : BitVec 5) (a : BitVec 5) (r : BitVec 1) (w : BitVec 1) (q : BitVec 3) : Statement (.cpSs p b a r w q) := by
  intro o hw
  refine ofWord (RPFmt.low_pack ..) (decodeMajor_25 (RPFmt.major_pack ..)) ?_ hw
  unfold decodeMajor25; rw [RPFmt.minor5_pack]; simp (disch := decide) only [RPFmt.pol_pack, RPFmt.b_pack, RPFmt.a_pack, RPFmt.d_pack, ex_hi, ex_lo, Nat.reduceSub, ex_all, Policy.ofBits_bits, BitVec.reduceToNat]; simp

theorem cpSv (p : Policy) (b : BitVec 5) (a : BitVec 5) (r : BitVec 1) (w : BitVec 1) (q : BitVec 3) : Statement (.cpSv p b a r w q) := by
  intro o hw
  refine ofWord (RPFmt.low_pack ..) (decodeMajor_25 (RPFmt.major_pack ..)) ?_ hw
  unfold decodeMajor25; rw [RPFmt.minor5_pack]; simp (disch := decide) only [RPFmt.pol_pack, RPFmt.b_pack, RPFmt.a_pack, RPFmt.d_pack, ex_hi, ex_lo, Nat.reduceSub, ex_all, Policy.ofBits_bits, BitVec.reduceToNat]; simp

theorem cpVm (p : Policy) (b : BitVec 5) (a : BitVec 5) (r : BitVec 1) (w : BitVec 1) (q : BitVec 3) : Statement (.cpVm p b a r w q) := by
  intro o hw
  refine ofWord (RPFmt.low_pack ..) (decodeMajor_25 (RPFmt.major_pack ..)) ?_ hw
  unfold decodeMajor25; rw [RPFmt.minor5_pack]; simp (disch := decide) only [RPFmt.pol_pack, RPFmt.b_pack, RPFmt.a_pack, RPFmt.d_pack, ex_hi, ex_lo, Nat.reduceSub, ex_all, Policy.ofBits_bits, BitVec.reduceToNat]; simp

theorem cpVs (p : Policy) (b : BitVec 5) (a : BitVec 5) (r : BitVec 1) (w : BitVec 1) (q : BitVec 3) : Statement (.cpVs p b a r w q) := by
  intro o hw
  refine ofWord (RPFmt.low_pack ..) (decodeMajor_25 (RPFmt.major_pack ..)) ?_ hw
  unfold decodeMajor25; rw [RPFmt.minor5_pack]; simp (disch := decide) only [RPFmt.pol_pack, RPFmt.b_pack, RPFmt.a_pack, RPFmt.d_pack, ex_hi, ex_lo, Nat.reduceSub, ex_all, Policy.ofBits_bits, BitVec.reduceToNat]; simp

theorem cpVv (p : Policy) (b : BitVec 5) (a : BitVec 5) (r : BitVec 1) (w : BitVec 1) (q : BitVec 3) : Statement (.cpVv p b a r w q) := by
  intro o hw
  refine ofWord (RPFmt.low_pack ..) (decodeMajor_25 (RPFmt.major_pack ..)) ?_ hw
  unfold decodeMajor25; rw [RPFmt.minor5_pack]; simp (disch := decide) only [RPFmt.pol_pack, RPFmt.b_pack, RPFmt.a_pack, RPFmt.d_pack, ex_hi, ex_lo, Nat.reduceSub, ex_all, Policy.ofBits_bits, BitVec.reduceToNat]; simp

theorem cpGth (p : Policy) (b : BitVec 5) (a : BitVec 5) (r : BitVec 1) (w : BitVec 1) (q : BitVec 3) : Statement (.cpGth p b a r w q) := by
  intro o hw
  refine ofWord (RPFmt.low_pack ..) (decodeMajor_25 (RPFmt.major_pack ..)) ?_ hw
  unfold decodeMajor25; rw [RPFmt.minor5_pack]; simp (disch := decide) only [RPFmt.pol_pack, RPFmt.b_pack, RPFmt.a_pack, RPFmt.d_pack, ex_hi, ex_lo, Nat.reduceSub, ex_all, Policy.ofBits_bits, BitVec.reduceToNat]; simp

theorem cpSct (p : Policy) (b : BitVec 5) (a : BitVec 5) (r : BitVec 1) (w : BitVec 1) (q : BitVec 3) : Statement (.cpSct p b a r w q) := by
  intro o hw
  refine ofWord (RPFmt.low_pack ..) (decodeMajor_25 (RPFmt.major_pack ..)) ?_ hw
  unfold decodeMajor25; rw [RPFmt.minor5_pack]; simp (disch := decide) only [RPFmt.pol_pack, RPFmt.b_pack, RPFmt.a_pack, RPFmt.d_pack, ex_hi, ex_lo, Nat.reduceSub, ex_all, Policy.ofBits_bits, BitVec.reduceToNat]; simp

theorem qfCp (p : Policy) (a : BitVec 6) (q : BitVec 3) : Statement (.qfCp p a q) := by
  intro o hw
  refine ofWord (RPFmt.low_pack ..) (decodeMajor_25 (RPFmt.major_pack ..)) ?_ hw
  unfold decodeMajor25; rw [RPFmt.minor5_pack]; simp (disch := decide) only [RPFmt.pol_pack, RPFmt.b_pack, RPFmt.a_pack, RPFmt.d_pack, ex_hi, ex_lo, Nat.reduceSub, ex_all, Policy.ofBits_bits, BitVec.reduceToNat]; simp

theorem clAredSum (p : Policy) (b : BitVec 6) (a : BitVec 6) (q : BitVec 2) : Statement (.clAredSum p b a q) := by
  intro o hw
  refine ofWord (RPFmt.low_pack ..) (decodeMajor_26 (RPFmt.major_pack ..)) ?_ hw
  unfold decodeMajor26; rw [RPFmt.minor5_pack]; simp (disch := decide) only [RPFmt.pol_pack, RPFmt.b_pack, RPFmt.a_pack, RPFmt.d_pack, ex_hi, ex_lo, Nat.reduceSub, ex_all, Policy.ofBits_bits, BitVec.reduceToNat]; simp

theorem clAredMax (p : Policy) (b : BitVec 6) (a : BitVec 6) (q : BitVec 2) : Statement (.clAredMax p b a q) := by
  intro o hw
  refine ofWord (RPFmt.low_pack ..) (decodeMajor_26 (RPFmt.major_pack ..)) ?_ hw
  unfold decodeMajor26; rw [RPFmt.minor5_pack]; simp (disch := decide) only [RPFmt.pol_pack, RPFmt.b_pack, RPFmt.a_pack, RPFmt.d_pack, ex_hi, ex_lo, Nat.reduceSub, ex_all, Policy.ofBits_bits, BitVec.reduceToNat]; simp

theorem clAredMin (p : Policy) (b : BitVec 6) (a : BitVec 6) (q : BitVec 2) : Statement (.clAredMin p b a q) := by
  intro o hw
  refine ofWord (RPFmt.low_pack ..) (decodeMajor_26 (RPFmt.major_pack ..)) ?_ hw
  unfold decodeMajor26; rw [RPFmt.minor5_pack]; simp (disch := decide) only [RPFmt.pol_pack, RPFmt.b_pack, RPFmt.a_pack, RPFmt.d_pack, ex_hi, ex_lo, Nat.reduceSub, ex_all, Policy.ofBits_bits, BitVec.reduceToNat]; simp

theorem clBcst (p : Policy) (b : BitVec 6) (a : BitVec 6) (q : BitVec 2) : Statement (.clBcst p b a q) := by
  intro o hw
  refine ofWord (RPFmt.low_pack ..) (decodeMajor_26 (RPFmt.major_pack ..)) ?_ hw
  unfold decodeMajor26; rw [RPFmt.minor5_pack]; simp (disch := decide) only [RPFmt.pol_pack, RPFmt.b_pack, RPFmt.a_pack, RPFmt.d_pack, ex_hi, ex_lo, Nat.reduceSub, ex_all, Policy.ofBits_bits, BitVec.reduceToNat]; simp

theorem clGath (p : Policy) (b : BitVec 6) (a : BitVec 6) (q : BitVec 2) : Statement (.clGath p b a q) := by
  intro o hw
  refine ofWord (RPFmt.low_pack ..) (decodeMajor_26 (RPFmt.major_pack ..)) ?_ hw
  unfold decodeMajor26; rw [RPFmt.minor5_pack]; simp (disch := decide) only [RPFmt.pol_pack, RPFmt.b_pack, RPFmt.a_pack, RPFmt.d_pack, ex_hi, ex_lo, Nat.reduceSub, ex_all, Policy.ofBits_bits, BitVec.reduceToNat]; simp

theorem qfCl (p : Policy) (a : BitVec 6) (q : BitVec 2) : Statement (.qfCl p a q) := by
  intro o hw
  refine ofWord (RPFmt.low_pack ..) (decodeMajor_26 (RPFmt.major_pack ..)) ?_ hw
  unfold decodeMajor26; rw [RPFmt.minor5_pack]; simp (disch := decide) only [RPFmt.pol_pack, RPFmt.b_pack, RPFmt.a_pack, RPFmt.d_pack, ex_hi, ex_lo, Nat.reduceSub, ex_all, Policy.ofBits_bits, BitVec.reduceToNat]; simp

theorem cbInit (p : Policy) (b : BitVec 6) (a : BitVec 6) : Statement (.cbInit p b a) := by
  intro o hw
  refine ofWord (RPFmt.low_pack ..) (decodeMajor_27 (RPFmt.major_pack ..)) ?_ hw
  unfold decodeMajor27; rw [RPFmt.minor5_pack]; simp (disch := decide) only [RPFmt.pol_pack, RPFmt.b_pack, RPFmt.a_pack, RPFmt.d_pack, Policy.ofBits_bits, BitVec.reduceToNat]; simp

theorem cbArr (p : Policy) (a : BitVec 6) (d : BitVec 6) : Statement (.cbArr p a d) := by
  intro o hw
  refine ofWord (RPFmt.low_pack ..) (decodeMajor_27 (RPFmt.major_pack ..)) ?_ hw
  unfold decodeMajor27; rw [RPFmt.minor5_pack]; simp (disch := decide) only [RPFmt.pol_pack, RPFmt.b_pack, RPFmt.a_pack, RPFmt.d_pack, Policy.ofBits_bits, BitVec.reduceToNat]; simp

theorem cbWt (p : Policy) (b : BitVec 6) (a : BitVec 6) (d : BitVec 6) : Statement (.cbWt p b a d) := by
  intro o hw
  refine ofWord (RPFmt.low_pack ..) (decodeMajor_27 (RPFmt.major_pack ..)) ?_ hw
  unfold decodeMajor27; rw [RPFmt.minor5_pack]; simp (disch := decide) only [RPFmt.pol_pack, RPFmt.b_pack, RPFmt.a_pack, RPFmt.d_pack, Policy.ofBits_bits, BitVec.reduceToNat]

theorem cbClr (p : Policy) (a : BitVec 6) : Statement (.cbClr p a) := by
  intro o hw
  refine ofWord (RPFmt.low_pack ..) (decodeMajor_27 (RPFmt.major_pack ..)) ?_ hw
  unfold decodeMajor27; rw [RPFmt.minor5_pack]; simp (disch := decide) only [RPFmt.pol_pack, RPFmt.b_pack, RPFmt.a_pack, RPFmt.d_pack, Policy.ofBits_bits, BitVec.reduceToNat]; simp

theorem mfsr (s : BitVec 6) (d : BitVec 6) : Statement (.mfsr s d) := by
  intro o hw
  refine ofWord (RFmt.low_pack ..) (decodeMajor_28 (RFmt.major_pack ..)) ?_ hw
  unfold decodeMajor28; rw [RFmt.minor7_pack]; simp (disch := decide) only [RFmt.b_pack, RFmt.a_pack, RFmt.d_pack, BitVec.reduceToNat]; simp

theorem mtsr (s : BitVec 6) (a : BitVec 6) : Statement (.mtsr s a) := by
  intro o hw
  refine ofWord (RFmt.low_pack ..) (decodeMajor_28 (RFmt.major_pack ..)) ?_ hw
  unfold decodeMajor28; rw [RFmt.minor7_pack]; simp (disch := decide) only [RFmt.b_pack, RFmt.a_pack, RFmt.d_pack, BitVec.reduceToNat]; simp

theorem mfcr (a : BitVec 6) (d : BitVec 6) : Statement (.mfcr a d) := by
  intro o hw
  refine ofWord (RFmt.low_pack ..) (decodeMajor_28 (RFmt.major_pack ..)) ?_ hw
  unfold decodeMajor28; rw [RFmt.minor7_pack]; simp (disch := decide) only [RFmt.b_pack, RFmt.a_pack, RFmt.d_pack, BitVec.reduceToNat]; simp

theorem mtcr (b : BitVec 6) (a : BitVec 6) : Statement (.mtcr b a) := by
  intro o hw
  refine ofWord (RFmt.low_pack ..) (decodeMajor_28 (RFmt.major_pack ..)) ?_ hw
  unfold decodeMajor28; rw [RFmt.minor7_pack]; simp (disch := decide) only [RFmt.b_pack, RFmt.a_pack, RFmt.d_pack, BitVec.reduceToNat]; simp

theorem hret : Statement (.hret ) := by
  intro o hw
  refine ofWord (RFmt.low_pack ..) (decodeMajor_28 (RFmt.major_pack ..)) ?_ hw
  unfold decodeMajor28; rw [RFmt.minor7_pack]; simp (disch := decide) only [RFmt.b_pack, RFmt.a_pack, RFmt.d_pack, BitVec.reduceToNat]; simp

theorem trap (n : BitVec 6) : Statement (.trap n) := by
  intro o hw
  refine ofWord (RFmt.low_pack ..) (decodeMajor_28 (RFmt.major_pack ..)) ?_ hw
  unfold decodeMajor28; rw [RFmt.minor7_pack]; simp (disch := decide) only [RFmt.b_pack, RFmt.a_pack, RFmt.d_pack, BitVec.reduceToNat]; simp

theorem copRd (n : BitVec 2) (a : BitVec 6) (d : BitVec 6) : Statement (.copRd n a d) := by
  intro o hw
  refine ofWord (RFmt.low_pack ..) (decodeMajor_28 (RFmt.major_pack ..)) ?_ hw
  unfold decodeMajor28; rw [RFmt.minor7_pack]; simp (disch := decide) only [RFmt.b_pack, RFmt.a_pack, RFmt.d_pack, ex_hi, ex_lo, Nat.reduceSub, ex_all, BitVec.reduceToNat]; simp

theorem copReplay (a : BitVec 6) : Statement (.copReplay a) := by
  intro o hw
  refine ofWord (RFmt.low_pack ..) (decodeMajor_28 (RFmt.major_pack ..)) ?_ hw
  unfold decodeMajor28; rw [RFmt.minor7_pack]; simp (disch := decide) only [RFmt.b_pack, RFmt.a_pack, RFmt.d_pack, BitVec.reduceToNat]; simp

theorem fltDone (b : BitVec 6) (a : BitVec 6) : Statement (.fltDone b a) := by
  intro o hw
  refine ofWord (RFmt.low_pack ..) (decodeMajor_28 (RFmt.major_pack ..)) ?_ hw
  unfold decodeMajor28; rw [RFmt.minor7_pack]; simp (disch := decide) only [RFmt.b_pack, RFmt.a_pack, RFmt.d_pack, BitVec.reduceToNat]; simp

theorem tlbInv (p : Policy) (b : BitVec 6) (a : BitVec 6) : Statement (.tlbInv p b a) := by
  intro o hw
  refine ofWord (RPFmt.low_pack ..) (decodeMajor_29 (RPFmt.major_pack ..)) ?_ hw
  unfold decodeMajor29; rw [RPFmt.minor5_pack]; simp (disch := decide) only [RPFmt.pol_pack, RPFmt.b_pack, RPFmt.a_pack, RPFmt.d_pack, Policy.ofBits_bits, BitVec.reduceToNat]; simp

theorem tlbInva (p : Policy) : Statement (.tlbInva p) := by
  intro o hw
  refine ofWord (RPFmt.low_pack ..) (decodeMajor_29 (RPFmt.major_pack ..)) ?_ hw
  unfold decodeMajor29; rw [RPFmt.minor5_pack]; simp (disch := decide) only [RPFmt.pol_pack, RPFmt.b_pack, RPFmt.a_pack, RPFmt.d_pack, Policy.ofBits_bits, BitVec.reduceToNat]; simp

theorem tlbProbe (p : Policy) (a : BitVec 6) (d : BitVec 6) : Statement (.tlbProbe p a d) := by
  intro o hw
  refine ofWord (RPFmt.low_pack ..) (decodeMajor_29 (RPFmt.major_pack ..)) ?_ hw
  unfold decodeMajor29; rw [RPFmt.minor5_pack]; simp (disch := decide) only [RPFmt.pol_pack, RPFmt.b_pack, RPFmt.a_pack, RPFmt.d_pack, Policy.ofBits_bits, BitVec.reduceToNat]; simp

theorem atpRd (d : BitVec 6) : Statement (.atpRd d) := by
  intro o hw
  refine ofWord (RPFmt.low_pack ..) (decodeMajor_29 (RPFmt.major_pack ..)) ?_ hw
  unfold decodeMajor29; rw [RPFmt.minor5_pack]; simp (disch := decide) only [RPFmt.pol_pack, RPFmt.b_pack, RPFmt.a_pack, RPFmt.d_pack, BitVec.reduceToNat]; simp

theorem atpWr (p : Policy) (a : BitVec 6) : Statement (.atpWr p a) := by
  intro o hw
  refine ofWord (RPFmt.low_pack ..) (decodeMajor_29 (RPFmt.major_pack ..)) ?_ hw
  unfold decodeMajor29; rw [RPFmt.minor5_pack]; simp (disch := decide) only [RPFmt.pol_pack, RPFmt.b_pack, RPFmt.a_pack, RPFmt.d_pack, Policy.ofBits_bits, BitVec.reduceToNat]; simp

theorem ctxNew (p : Policy) (a : BitVec 6) (d : BitVec 6) : Statement (.ctxNew p a d) := by
  intro o hw
  refine ofWord (RPFmt.low_pack ..) (decodeMajor_30 (RPFmt.major_pack ..)) ?_ hw
  unfold decodeMajor30; rw [RPFmt.minor5_pack]; simp (disch := decide) only [RPFmt.pol_pack, RPFmt.b_pack, RPFmt.a_pack, RPFmt.d_pack, Policy.ofBits_bits, BitVec.reduceToNat]; simp

theorem ctxGrant (p : Policy) (b : BitVec 6) (a : BitVec 6) : Statement (.ctxGrant p b a) := by
  intro o hw
  refine ofWord (RPFmt.low_pack ..) (decodeMajor_30 (RPFmt.major_pack ..)) ?_ hw
  unfold decodeMajor30; rw [RPFmt.minor5_pack]; simp (disch := decide) only [RPFmt.pol_pack, RPFmt.b_pack, RPFmt.a_pack, RPFmt.d_pack, Policy.ofBits_bits, BitVec.reduceToNat]; simp

theorem ctxRd (s : BitVec 6) (a : BitVec 6) (d : BitVec 6) : Statement (.ctxRd s a d) := by
  intro o hw
  refine ofWord (RPFmt.low_pack ..) (decodeMajor_30 (RPFmt.major_pack ..)) ?_ hw
  unfold decodeMajor30; rw [RPFmt.minor5_pack]; simp (disch := decide) only [RPFmt.pol_pack, RPFmt.b_pack, RPFmt.a_pack, RPFmt.d_pack, BitVec.reduceToNat]; simp

theorem ctxWr (p : Policy) (b : BitVec 6) (a : BitVec 6) (s : BitVec 6) : Statement (.ctxWr p b a s) := by
  intro o hw
  refine ofWord (RPFmt.low_pack ..) (decodeMajor_30 (RPFmt.major_pack ..)) ?_ hw
  unfold decodeMajor30; rw [RPFmt.minor5_pack]; simp (disch := decide) only [RPFmt.pol_pack, RPFmt.b_pack, RPFmt.a_pack, RPFmt.d_pack, Policy.ofBits_bits, BitVec.reduceToNat]

theorem ctxRun (p : Policy) (a : BitVec 6) : Statement (.ctxRun p a) := by
  intro o hw
  refine ofWord (RPFmt.low_pack ..) (decodeMajor_30 (RPFmt.major_pack ..)) ?_ hw
  unfold decodeMajor30; rw [RPFmt.minor5_pack]; simp (disch := decide) only [RPFmt.pol_pack, RPFmt.b_pack, RPFmt.a_pack, RPFmt.d_pack, Policy.ofBits_bits, BitVec.reduceToNat]; simp

theorem ctxStop (p : Policy) (a : BitVec 6) : Statement (.ctxStop p a) := by
  intro o hw
  refine ofWord (RPFmt.low_pack ..) (decodeMajor_30 (RPFmt.major_pack ..)) ?_ hw
  unfold decodeMajor30; rw [RPFmt.minor5_pack]; simp (disch := decide) only [RPFmt.pol_pack, RPFmt.b_pack, RPFmt.a_pack, RPFmt.d_pack, Policy.ofBits_bits, BitVec.reduceToNat]; simp

theorem ctxKill (p : Policy) (a : BitVec 6) : Statement (.ctxKill p a) := by
  intro o hw
  refine ofWord (RPFmt.low_pack ..) (decodeMajor_30 (RPFmt.major_pack ..)) ?_ hw
  unfold decodeMajor30; rw [RPFmt.minor5_pack]; simp (disch := decide) only [RPFmt.pol_pack, RPFmt.b_pack, RPFmt.a_pack, RPFmt.d_pack, Policy.ofBits_bits, BitVec.reduceToNat]; simp

theorem ctxResume (p : Policy) (c : BitVec 2) (a : BitVec 6) : Statement (.ctxResume p c a) := by
  intro o hw
  refine ofWord (RPFmt.low_pack ..) (decodeMajor_30 (RPFmt.major_pack ..)) ?_ hw
  unfold decodeMajor30; rw [RPFmt.minor5_pack]; simp (disch := decide) only [RPFmt.pol_pack, RPFmt.b_pack, RPFmt.a_pack, RPFmt.d_pack, ex_hi, ex_lo, Nat.reduceSub, ex_all, Policy.ofBits_bits, BitVec.reduceToNat]; simp

theorem ctxIntr (a : BitVec 6) : Statement (.ctxIntr a) := by
  intro o hw
  refine ofWord (RPFmt.low_pack ..) (decodeMajor_30 (RPFmt.major_pack ..)) ?_ hw
  unfold decodeMajor30; rw [RPFmt.minor5_pack]; simp (disch := decide) only [RPFmt.pol_pack, RPFmt.b_pack, RPFmt.a_pack, RPFmt.d_pack, BitVec.reduceToNat]; simp

theorem addN (d : BitVec 5) (b : BitVec 5) : Statement (.addN d b) := by
  intro o hw
  refine ofParcel (decodeQuadrant_0 (Q0Fmt.q_pack ..)) ?_ hw
  unfold decodeQuadrant0; rw [Q0Fmt.op4_pack]; simp (disch := decide) only [Q0Fmt.d_pack, Q0Fmt.b_pack, BitVec.reduceToNat]

theorem subN (d : BitVec 5) (b : BitVec 5) : Statement (.subN d b) := by
  intro o hw
  refine ofParcel (decodeQuadrant_0 (Q0Fmt.q_pack ..)) ?_ hw
  unfold decodeQuadrant0; rw [Q0Fmt.op4_pack]; simp (disch := decide) only [Q0Fmt.d_pack, Q0Fmt.b_pack, BitVec.reduceToNat]

theorem andN (d : BitVec 5) (b : BitVec 5) : Statement (.andN d b) := by
  intro o hw
  refine ofParcel (decodeQuadrant_0 (Q0Fmt.q_pack ..)) ?_ hw
  unfold decodeQuadrant0; rw [Q0Fmt.op4_pack]; simp (disch := decide) only [Q0Fmt.d_pack, Q0Fmt.b_pack, BitVec.reduceToNat]

theorem orN (d : BitVec 5) (b : BitVec 5) : Statement (.orN d b) := by
  intro o hw
  refine ofParcel (decodeQuadrant_0 (Q0Fmt.q_pack ..)) ?_ hw
  unfold decodeQuadrant0; rw [Q0Fmt.op4_pack]; simp (disch := decide) only [Q0Fmt.d_pack, Q0Fmt.b_pack, BitVec.reduceToNat]

theorem xorN (d : BitVec 5) (b : BitVec 5) : Statement (.xorN d b) := by
  intro o hw
  refine ofParcel (decodeQuadrant_0 (Q0Fmt.q_pack ..)) ?_ hw
  unfold decodeQuadrant0; rw [Q0Fmt.op4_pack]; simp (disch := decide) only [Q0Fmt.d_pack, Q0Fmt.b_pack, BitVec.reduceToNat]

theorem sllN (d : BitVec 5) (b : BitVec 5) : Statement (.sllN d b) := by
  intro o hw
  refine ofParcel (decodeQuadrant_0 (Q0Fmt.q_pack ..)) ?_ hw
  unfold decodeQuadrant0; rw [Q0Fmt.op4_pack]; simp (disch := decide) only [Q0Fmt.d_pack, Q0Fmt.b_pack, BitVec.reduceToNat]

theorem srlN (d : BitVec 5) (b : BitVec 5) : Statement (.srlN d b) := by
  intro o hw
  refine ofParcel (decodeQuadrant_0 (Q0Fmt.q_pack ..)) ?_ hw
  unfold decodeQuadrant0; rw [Q0Fmt.op4_pack]; simp (disch := decide) only [Q0Fmt.d_pack, Q0Fmt.b_pack, BitVec.reduceToNat]

theorem sraN (d : BitVec 5) (b : BitVec 5) : Statement (.sraN d b) := by
  intro o hw
  refine ofParcel (decodeQuadrant_0 (Q0Fmt.q_pack ..)) ?_ hw
  unfold decodeQuadrant0; rw [Q0Fmt.op4_pack]; simp (disch := decide) only [Q0Fmt.d_pack, Q0Fmt.b_pack, BitVec.reduceToNat]

theorem mulN (d : BitVec 5) (b : BitVec 5) : Statement (.mulN d b) := by
  intro o hw
  refine ofParcel (decodeQuadrant_0 (Q0Fmt.q_pack ..)) ?_ hw
  unfold decodeQuadrant0; rw [Q0Fmt.op4_pack]; simp (disch := decide) only [Q0Fmt.d_pack, Q0Fmt.b_pack, BitVec.reduceToNat]

theorem jrN (b : BitVec 5) : Statement (.jrN b) := by
  intro o hw
  refine ofParcel (decodeQuadrant_0 (Q0Fmt.q_pack ..)) ?_ hw
  unfold decodeQuadrant0; rw [Q0Fmt.op4_pack]; simp (disch := decide) only [Q0Fmt.d_pack, Q0Fmt.b_pack, BitVec.reduceToNat]; simp

theorem callrN (b : BitVec 5) : Statement (.callrN b) := by
  intro o hw
  refine ofParcel (decodeQuadrant_0 (Q0Fmt.q_pack ..)) ?_ hw
  unfold decodeQuadrant0; rw [Q0Fmt.op4_pack]; simp (disch := decide) only [Q0Fmt.d_pack, Q0Fmt.b_pack, BitVec.reduceToNat]; simp

theorem retN : Statement (.retN ) := by
  intro o hw
  refine ofParcel (decodeQuadrant_0 (Q0Fmt.q_pack ..)) ?_ hw
  unfold decodeQuadrant0; rw [Q0Fmt.op4_pack]; simp (disch := decide) only [Q0Fmt.d_pack, Q0Fmt.b_pack, BitVec.reduceToNat]; simp

theorem addiN (d : BitVec 5) (i : BitVec 6) : Statement (.addiN d i) := by
  intro o hw
  have hc : (!(d == 0#5 && i == 0#6)) = true := hw
  refine ofParcel (decodeQuadrant_1 (Q1Fmt.q_pack ..)) ?_ hw
  unfold decodeQuadrant1; rw [Q1Fmt.op3_pack]; simp (disch := decide) only [Q1Fmt.d_pack, Q1Fmt.i6_pack, BitVec.reduceToNat]; simp; rintro rfl rfl; simp at hc

theorem liN (d : BitVec 5) (i : BitVec 6) : Statement (.liN d i) := by
  intro o hw
  refine ofParcel (decodeQuadrant_1 (Q1Fmt.q_pack ..)) ?_ hw
  unfold decodeQuadrant1; rw [Q1Fmt.op3_pack]; simp (disch := decide) only [Q1Fmt.d_pack, Q1Fmt.i6_pack, BitVec.reduceToNat]

theorem slliN (d : BitVec 5) (i : BitVec 6) : Statement (.slliN d i) := by
  intro o hw
  refine ofParcel (decodeQuadrant_1 (Q1Fmt.q_pack ..)) ?_ hw
  unfold decodeQuadrant1; rw [Q1Fmt.op3_pack]; simp (disch := decide) only [Q1Fmt.d_pack, Q1Fmt.i6_pack, BitVec.reduceToNat]

theorem srliN (d : BitVec 5) (i : BitVec 6) : Statement (.srliN d i) := by
  intro o hw
  refine ofParcel (decodeQuadrant_1 (Q1Fmt.q_pack ..)) ?_ hw
  unfold decodeQuadrant1; rw [Q1Fmt.op3_pack]; simp (disch := decide) only [Q1Fmt.d_pack, Q1Fmt.i6_pack, BitVec.reduceToNat]

theorem sraiN (d : BitVec 5) (i : BitVec 6) : Statement (.sraiN d i) := by
  intro o hw
  refine ofParcel (decodeQuadrant_1 (Q1Fmt.q_pack ..)) ?_ hw
  unfold decodeQuadrant1; rw [Q1Fmt.op3_pack]; simp (disch := decide) only [Q1Fmt.d_pack, Q1Fmt.i6_pack, BitVec.reduceToNat]

theorem andiN (d : BitVec 5) (i : BitVec 6) : Statement (.andiN d i) := by
  intro o hw
  refine ofParcel (decodeQuadrant_1 (Q1Fmt.q_pack ..)) ?_ hw
  unfold decodeQuadrant1; rw [Q1Fmt.op3_pack]; simp (disch := decide) only [Q1Fmt.d_pack, Q1Fmt.i6_pack, BitVec.reduceToNat]

theorem addiNSp (i : BitVec 6) : Statement (.addiNSp i) := by
  intro o hw
  refine ofParcel (decodeQuadrant_1 (Q1Fmt.q_pack ..)) ?_ hw
  unfold decodeQuadrant1; rw [Q1Fmt.op3_pack]; simp (disch := decide) only [Q1Fmt.d_pack, Q1Fmt.i6_pack, BitVec.reduceToNat]; simp

theorem nopN : Statement (.nopN ) := by
  intro o hw
  refine ofParcel (decodeQuadrant_1 (Q1Fmt.q_pack ..)) ?_ hw
  unfold decodeQuadrant1; rw [Q1Fmt.op3_pack]; simp (disch := decide) only [Q1Fmt.d_pack, Q1Fmt.i6_pack, BitVec.reduceToNat]; simp

theorem ldDN (d : BitVec 3) (b : BitVec 3) (u : BitVec 3) (p : Policy) : Statement (.ldDN d b u p) := by
  intro o hw
  refine ofParcel (decodeQuadrant_2 (QAFmt.q_pack ..)) ?_ hw
  unfold decodeQuadrant2; rw [QAFmt.op3_pack]; simp (disch := decide) only [QAFmt.d3_pack, QAFmt.b3_pack, QAFmt.u3_pack, QAFmt.pol2_pack, Policy.ofBits_bits, BitVec.reduceToNat]

theorem stDN (s : BitVec 3) (b : BitVec 3) (u : BitVec 3) (p : Policy) : Statement (.stDN s b u p) := by
  intro o hw
  refine ofParcel (decodeQuadrant_2 (QAFmt.q_pack ..)) ?_ hw
  unfold decodeQuadrant2; rw [QAFmt.op3_pack]; simp (disch := decide) only [QAFmt.d3_pack, QAFmt.b3_pack, QAFmt.u3_pack, QAFmt.pol2_pack, Policy.ofBits_bits, BitVec.reduceToNat]

theorem ldWN (d : BitVec 3) (b : BitVec 3) (u : BitVec 3) (p : Policy) : Statement (.ldWN d b u p) := by
  intro o hw
  refine ofParcel (decodeQuadrant_2 (QAFmt.q_pack ..)) ?_ hw
  unfold decodeQuadrant2; rw [QAFmt.op3_pack]; simp (disch := decide) only [QAFmt.d3_pack, QAFmt.b3_pack, QAFmt.u3_pack, QAFmt.pol2_pack, Policy.ofBits_bits, BitVec.reduceToNat]

theorem stWN (s : BitVec 3) (b : BitVec 3) (u : BitVec 3) (p : Policy) : Statement (.stWN s b u p) := by
  intro o hw
  refine ofParcel (decodeQuadrant_2 (QAFmt.q_pack ..)) ?_ hw
  unfold decodeQuadrant2; rw [QAFmt.op3_pack]; simp (disch := decide) only [QAFmt.d3_pack, QAFmt.b3_pack, QAFmt.u3_pack, QAFmt.pol2_pack, Policy.ofBits_bits, BitVec.reduceToNat]

theorem ldDNSp (d : BitVec 3) (u : BitVec 6) (p : Policy) : Statement (.ldDNSp d u p) := by
  intro o hw
  refine ofParcel (decodeQuadrant_2 (QBFmt.q_pack ..)) ?_ hw
  unfold decodeQuadrant2; rw [QBFmt.op3_pack_a]; simp (disch := decide) only [QBFmt.d3_pack, QBFmt.u6_pack, QBFmt.pol2_pack, Policy.ofBits_bits, BitVec.reduceToNat]

theorem stDNSp (s : BitVec 3) (u : BitVec 6) (p : Policy) : Statement (.stDNSp s u p) := by
  intro o hw
  refine ofParcel (decodeQuadrant_2 (QBFmt.q_pack ..)) ?_ hw
  unfold decodeQuadrant2; rw [QBFmt.op3_pack_a]; simp (disch := decide) only [QBFmt.d3_pack, QBFmt.u6_pack, QBFmt.pol2_pack, Policy.ofBits_bits, BitVec.reduceToNat]

theorem jN (o : BitVec 11) : Statement (.jN o) := by
  intro o hw
  refine ofParcel (decodeQuadrant_2 (QJFmt.q_pack ..)) ?_ hw
  unfold decodeQuadrant2; rw [QJFmt.op3_pack_a]; simp (disch := decide) only [QJFmt.off11_pack, BitVec.reduceToNat]

theorem ydSleepWake (sid : Nat) : Statement (.ydSleepWake sid) := fun _ _ => trivial

theorem ydSleepTimeout (sid : Nat) : Statement (.ydSleepTimeout sid) := fun _ _ => trivial

theorem preciseTrapDelivery (sid : Nat) : Statement (.preciseTrapDelivery sid) := fun _ _ => trivial

theorem lateFaultDelivery (sid : Nat) : Statement (.lateFaultDelivery sid) := fun _ _ => trivial

theorem overwriteTrap (sid : Nat) : Statement (.overwriteTrap sid) := fun _ _ => trivial

theorem trapReflection (sid : Nat) : Statement (.trapReflection sid) := fun _ _ => trivial

theorem coreReset (cid : Nat) : Statement (.coreReset cid) := fun _ _ => trivial

theorem holdSkipEnd (sid : Nat) : Statement (.holdSkipEnd sid) := fun _ _ => trivial

theorem heldResultWrite (sid : Nat) : Statement (.heldResultWrite sid) := fun _ _ => trivial

theorem l1LineFill (cid : Nat) (slot : Nat) (line : Nat) : Statement (.l1LineFill cid slot line) := fun _ _ => trivial

theorem arrivalHoldExpiry (cid : Nat) (line : Nat) : Statement (.arrivalHoldExpiry cid line) := fun _ _ => trivial

theorem yieldEnd (sid : Nat) : Statement (.yieldEnd sid) := fun _ _ => trivial

theorem sleepTimeout (sid : Nat) : Statement (.sleepTimeout sid) := fun _ _ => trivial

theorem threadExitComplete (sid : Nat) : Statement (.threadExitComplete sid) := fun _ _ => trivial

theorem slotArbitration : Statement (.slotArbitration) := fun _ _ => trivial

theorem launchRequest (n : Nat) : Statement (.launchRequest n) := fun _ _ => trivial

theorem launchReply (n : Nat) : Statement (.launchReply n) := fun _ _ => trivial

theorem launchAdmit (cl : Nat) : Statement (.launchAdmit cl) := fun _ _ => trivial

theorem lightThreadMove (cl : Nat) : Statement (.lightThreadMove cl) := fun _ _ => trivial

theorem lightThreadArrival (sid : Nat) : Statement (.lightThreadArrival sid) := fun _ _ => trivial

theorem messageDeparture (cid : Nat) : Statement (.messageDeparture cid) := fun _ _ => trivial

theorem fabricMessageArrival (far : Bool) (n : Nat) (dev : Nat) (ctx : Nat) (idx : Nat) (clock : Nat) (cap : Word) (v : Word) (ack : Bool) : Statement (.fabricMessageArrival far n dev ctx idx clock cap v ack) := fun _ _ => trivial

theorem inboxDeferredReply (cid : Nat) : Statement (.inboxDeferredReply cid) := fun _ _ => trivial

theorem sendReply (far : Bool) (n : Nat) (sid : Nat) (gen : Nat) (since : Nat) (code : Nat) : Statement (.sendReply far n sid gen since code) := fun _ _ => trivial

theorem sendLatchTimeout (sid : Nat) : Statement (.sendLatchTimeout sid) := fun _ _ => trivial

theorem streamWriteDrain (sid : Nat) : Statement (.streamWriteDrain sid) := fun _ _ => trivial

theorem l1iFill (n : Nat) : Statement (.l1iFill n) := fun _ _ => trivial

theorem fetchPrefetch (sid : Nat) (va : Word) : Statement (.fetchPrefetch sid va) := fun _ _ => trivial

theorem demandFetch (sid : Nat) : Statement (.demandFetch sid) := fun _ _ => trivial

theorem combineDrain (cid : Nat) (line : Nat) : Statement (.combineDrain cid line) := fun _ _ => trivial

theorem combineAgeExpiry (cid : Nat) : Statement (.combineAgeExpiry cid) := fun _ _ => trivial

theorem leaseAgeExpiry (cid : Nat) (line : Nat) : Statement (.leaseAgeExpiry cid line) := fun _ _ => trivial

theorem leaseRenewal (cid : Nat) (slot : Nat) (line : Nat) : Statement (.leaseRenewal cid slot line) := fun _ _ => trivial

theorem writeGrant (cid : Nat) (slot : Nat) (line : Nat) : Statement (.writeGrant cid slot line) := fun _ _ => trivial

theorem ownershipGrant (cid : Nat) (slot : Nat) (line : Nat) : Statement (.ownershipGrant cid slot line) := fun _ _ => trivial

theorem updateMerge (cid : Nat) (line : Nat) : Statement (.updateMerge cid line) := fun _ _ => trivial

theorem remoteReply (cid : Nat) (n : Nat) (refused : Bool) (data : BitVec 512) : Statement (.remoteReply cid n refused data) := fun _ _ => trivial

theorem forwardedAccess (dev : Nat) (kind : Nat) (sys : Nat) (op : Nat) (wide : Bool) (data : BitVec 512) (mask : BitVec 64) : Statement (.forwardedAccess dev kind sys op wide data mask) := fun _ _ => trivial

theorem remoteTimeout (cid : Nat) (n : Nat) : Statement (.remoteTimeout cid n) := fun _ _ => trivial

theorem vsegWrite (cl : Nat) (v : Word) : Statement (.vsegWrite cl v) := fun _ _ => trivial

theorem vsegSegmentStep (cl : Nat) : Statement (.vsegSegmentStep cl) := fun _ _ => trivial

theorem winWrite (cl : Nat) (n : Nat) (v : Word) : Statement (.winWrite cl n v) := fun _ _ => trivial

theorem scopeEntryWrite (a : Nat) (i : Nat) (v : Word) : Statement (.scopeEntryWrite a i v) := fun _ _ => trivial

theorem hbcWrite (cl : Nat) (n : Nat) (v : Word) : Statement (.hbcWrite cl n v) := fun _ _ => trivial

theorem fqbWrite (a : Nat) (v : Word) : Statement (.fqbWrite a v) := fun _ _ => trivial

theorem fqhWrite (a : Nat) (v : Word) : Statement (.fqhWrite a v) := fun _ _ => trivial

theorem erbWrite (a : Nat) (v : Word) : Statement (.erbWrite a v) := fun _ _ => trivial

theorem ercWrite (a : Nat) (v : Word) : Statement (.ercWrite a v) := fun _ _ => trivial

theorem heldStoreReplay (cl : Nat) : Statement (.heldStoreReplay cl) := fun _ _ => trivial

theorem requestReply (sid : Nat) : Statement (.requestReply sid) := fun _ _ => trivial

theorem placeRequest (n : Nat) : Statement (.placeRequest n) := fun _ _ => trivial

theorem parkedValueDelivery (n : Nat) : Statement (.parkedValueDelivery n) := fun _ _ => trivial

theorem parkReservationExpiry (cl : Nat) : Statement (.parkReservationExpiry cl) := fun _ _ => trivial

theorem queueReservationExpiry (kind : Nat) (i : Nat) (q : Nat) : Statement (.queueReservationExpiry kind i q) := fun _ _ => trivial

theorem hbarAdvance (die : Nat) (n : Nat) : Statement (.hbarAdvance die n) := fun _ _ => trivial

theorem hbarTimeout (cl : Nat) (n : Nat) : Statement (.hbarTimeout cl n) := fun _ _ => trivial

theorem queueFencePerform (kind : Nat) (i : Nat) (q : Nat) : Statement (.queueFencePerform kind i q) := fun _ _ => trivial

theorem copyEntryStart (cl : Nat) (q : Nat) : Statement (.copyEntryStart cl q) := fun _ _ => trivial

theorem copyRow (cl : Nat) (q : Nat) : Statement (.copyRow cl q) := fun _ _ => trivial

theorem leaseGrant (cl : Nat) : Statement (.leaseGrant cl) := fun _ _ => trivial

theorem leaseHoldEnd (cl : Nat) : Statement (.leaseHoldEnd cl) := fun _ _ => trivial

theorem leaseCycleLimit (cl : Nat) : Statement (.leaseCycleLimit cl) := fun _ _ => trivial

theorem tshPerform (cl : Nat) : Statement (.tshPerform cl) := fun _ _ => trivial

theorem tldRow (cl : Nat) : Statement (.tldRow cl) := fun _ _ => trivial

theorem tstRow (cl : Nat) : Statement (.tstRow cl) := fun _ _ => trivial

theorem tzeroPerform (cl : Nat) : Statement (.tzeroPerform cl) := fun _ _ => trivial

theorem mmaStep (cl : Nat) : Statement (.mmaStep cl) := fun _ _ => trivial

theorem tqntRow (cl : Nat) : Statement (.tqntRow cl) := fun _ _ => trivial

theorem collectiveMatch (f : Nat) (q : Nat) (err : Nat) (parts : List Partner) : Statement (.collectiveMatch f q err parts) := fun _ _ => trivial

theorem collectiveStep (f : Nat) (q : Nat) : Statement (.collectiveStep f q) := fun _ _ => trivial

theorem faultRecord (sid : Nat) (va : Nat) (kind : Nat) : Statement (.faultRecord sid va kind) := fun _ _ => trivial

theorem sorterBatchClose (field : Nat) : Statement (.sorterBatchClose field) := fun _ _ => trivial

theorem scrivenerWalk (n : Nat) : Statement (.scrivenerWalk n) := fun _ _ => trivial

theorem tlbFillHoldExpiry (cid : Nat) : Statement (.tlbFillHoldExpiry cid) := fun _ _ => trivial

theorem invalidationComplete (n : Nat) : Statement (.invalidationComplete n) := fun _ _ => trivial

theorem kick (a : Nat) (q : Nat) : Statement (.kick a q) := fun _ _ => trivial

theorem ctxNewStep (a : Nat) : Statement (.ctxNewStep a) := fun _ _ => trivial

theorem cores (a : Nat) : Statement (.cores a) := fun _ _ => trivial

theorem window (a : Nat) : Statement (.window a) := fun _ _ => trivial

theorem qslot (a : Nat) : Statement (.qslot a) := fun _ _ => trivial

theorem budget (a : Nat) : Statement (.budget a) := fun _ _ => trivial

theorem map (a : Nat) : Statement (.map a) := fun _ _ => trivial

theorem recallMapped (a : Nat) : Statement (.recallMapped a) := fun _ _ => trivial

theorem ctxWrStep (a : Nat) : Statement (.ctxWrStep a) := fun _ _ => trivial

theorem cenWrite (t : Nat) (v : Word) : Statement (.cenWrite t v) := fun _ _ => trivial

theorem featWrite (t : Nat) (v : Word) : Statement (.featWrite t v) := fun _ _ => trivial

theorem rekey (t : Nat) : Statement (.rekey t) := fun _ _ => trivial

theorem ctxRunStep (a : Nat) : Statement (.ctxRunStep a) := fun _ _ => trivial

theorem ctxStopStep (a : Nat) : Statement (.ctxStopStep a) := fun _ _ => trivial

theorem ctxKillStep (a : Nat) : Statement (.ctxKillStep a) := fun _ _ => trivial

theorem ctxFreezeStep (a : Nat) : Statement (.ctxFreezeStep a) := fun _ _ => trivial

theorem ctxThawStep (a : Nat) : Statement (.ctxThawStep a) := fun _ _ => trivial

theorem tokenResume (a : Nat) (token : Word) : Statement (.tokenResume a token) := fun _ _ => trivial

theorem tokenDown (a : Nat) (token : Word) : Statement (.tokenDown a token) := fun _ _ => trivial

theorem tokenUp (a : Nat) (token : Word) : Statement (.tokenUp a token) := fun _ _ => trivial

theorem tokenKill (a : Nat) (token : Word) : Statement (.tokenKill a token) := fun _ _ => trivial

theorem corePreempt (cid : Nat) : Statement (.corePreempt cid) := fun _ _ => trivial

theorem clusterSave (t : Nat) (v : Nat) : Statement (.clusterSave t v) := fun _ _ => trivial

theorem clusterRestore (t : Nat) (v : Nat) : Statement (.clusterRestore t v) := fun _ _ => trivial

theorem liveMigration (sid : Nat) (dst : Nat) : Statement (.liveMigration sid dst) := fun _ _ => trivial

theorem queueSwitchOut (a : Nat) (q : Nat) : Statement (.queueSwitchOut a q) := fun _ _ => trivial

theorem clusterReset (cl : Nat) : Statement (.clusterReset cl) := fun _ _ => trivial

theorem dieLinkFlitRetry (link : Nat) (tries : Nat) (n : Nat) : Statement (.dieLinkFlitRetry link tries n) := fun _ _ => trivial

theorem linkFlitRetry (port : Nat) (seq : Nat) (cl : Nat) : Statement (.linkFlitRetry port seq cl) := fun _ _ => trivial

theorem portRetrain (port : Nat) (ok : Nat) (bad : Nat) : Statement (.portRetrain port ok bad) := fun _ _ => trivial

theorem portRetrainComplete (port : Nat) (lanes : Nat) : Statement (.portRetrainComplete port lanes) := fun _ _ => trivial

theorem portDown (port : Nat) (routes : List (Nat × Nat)) : Statement (.portDown port routes) := fun _ _ => trivial

theorem portCounterClear (port : Nat) (off : Nat) (v : Word) : Statement (.portCounterClear port off v) := fun _ _ => trivial

theorem hostWrite (ep : Nat) (ap : Nat) (off : Nat) (data : List Byte) : Statement (.hostWrite ep ap off data) := fun _ _ => trivial

theorem hostRead (ep : Nat) (ap : Nat) (off : Nat) (len : Nat) : Statement (.hostRead ep ap off len) := fun _ _ => trivial

theorem permissionMapWrite (cl : Nat) (device : Bool) (m : BitVec 1024) : Statement (.permissionMapWrite cl device m) := fun _ _ => trivial

theorem allotmentWrite (barrier : Bool) (i : Nat) (n : Nat) (v : Nat) : Statement (.allotmentWrite barrier i n v) := fun _ _ => trivial

theorem quotaWrite (cl : Nat) (tn : Nat) (v : Word) : Statement (.quotaWrite cl tn v) := fun _ _ => trivial

theorem umonClear (cl : Nat) (tn : Nat) : Statement (.umonClear cl tn) := fun _ _ => trivial

theorem counterSnapshot : Statement (.counterSnapshot) := fun _ _ => trivial

theorem counterPublish (a : Nat) : Statement (.counterPublish a) := fun _ _ => trivial

theorem halt (cl : Nat) (off : Nat) (v : Word) : Statement (.halt cl off v) := fun _ _ => trivial

theorem debugResume (cl : Nat) (mask : Nat) : Statement (.debugResume cl mask) := fun _ _ => trivial

theorem crossTrigger (n : Nat) : Statement (.crossTrigger n) := fun _ _ => trivial

theorem breakpointHit (sid : Nat) : Statement (.breakpointHit sid) := fun _ _ => trivial

theorem pwrsWrite (v : Word) : Statement (.pwrsWrite v) := fun _ _ => trivial

theorem slowEntry (vin : Nat) : Statement (.slowEntry vin) := fun _ _ => trivial

theorem normalReturn (vin : Nat) : Statement (.normalReturn vin) := fun _ _ => trivial

theorem saveEntry (vin : Nat) (long : Bool) : Statement (.saveEntry vin long) := fun _ _ => trivial

theorem overvoltageDisconnect (vin : Nat) (long : Bool) : Statement (.overvoltageDisconnect vin long) := fun _ _ => trivial

theorem saveComplete : Statement (.saveComplete) := fun _ _ => trivial

theorem heldRestore (vin : Nat) : Statement (.heldRestore vin) := fun _ _ => trivial

theorem holdupSpent : Statement (.holdupSpent) := fun _ _ => trivial

theorem transportEvent (g : Nat) (ms : Nat) : Statement (.transportEvent g ms) := fun _ _ => trivial

theorem extendedSelfTest (clusters : List Nat) (ports : List Nat) : Statement (.extendedSelfTest clusters ports) := fun _ _ => trivial

theorem powerUp (vin : Nat) : Statement (.powerUp vin) := fun _ _ => trivial

theorem imageLoad (port : Option Nat) (first : List Byte) (second : List Byte) (c : ImageConfig) : Statement (.imageLoad port first second c) := fun _ _ => trivial

theorem attestationRequest (ep : Nat) (nonce : BitVec 256) : Statement (.attestationRequest ep nonce) := fun _ _ => trivial

theorem streamElementArrival (sid : Nat) (n : Nat) : Statement (.streamElementArrival sid n) := fun _ _ => trivial

theorem flitAcknowledgement (port : Nat) (seq : Nat) : Statement (.flitAcknowledgement port seq) := fun _ _ => trivial

theorem deviceIdentifierAssignment (id : Nat) (routes : List (Nat × Nat)) : Statement (.deviceIdentifierAssignment id routes) := fun _ _ => trivial

end Sys2Proof.Laws.RoundTrip
end

