-- ==== Sys2Proof/Safety.lean ====
section
/-! DEFINITION. The terms that claims are stated in: when an instruction of a thread executes, what an instruction that
touches only registers leaves unchanged, and what counts as a safe step. -/

namespace Sys2Proof.Machine

/-- A safe step: the machine goes on. -/
def State.safe (s : State) : Prop := ∃ t, step s = .next t

/-- R132, R185: no register that an instruction names is in the issuing thread's pending set, and if the cores' threads
share one of them, no vector store of the thread still waits. -/
def State.unheld (s : State) (ns : List RegN) : Prop :=
  (∀ r ∈ ns, s.th.pendingAt r = none) ∧ (ns.any RegN.shared = true → s.th.lateWaits = false)

/-- R75: no scalar register that an instruction reads awaits a value. -/
def State.arrived (s : State) (rs : List (BitVec 6)) : Prop := ∀ r ∈ rs, (s.armOf r).st ≠ .awaiting

/-- R373: the issuing thread's context is granted a feature. -/
def State.granted (s : State) (f : Nat) : Prop := s.myCtx.feat.getLsbD f = true

/-- The byte of HBM at a machine address. -/
def State.byte (s : State) (a : Nat) : Byte := Memory.read s.mem a

/-- What an instruction of the issuing thread that touches only registers leaves unchanged. `ds` are the scalar
registers it writes, `rs` those it reads: a FULL register that is read changes its arming state (R164). Beside the
registers only NR, the retry counter (R14), the pc, the clock and the floors of later reads with the threads whose releases
were acquired (R130, R173, R236), the light mark (R158), the record of this cycle's writes (R128, R165), the prefix latch (R66) and the delay accumulators (R433) may
change. -/
structure State.OnlyRegs (s t : State) (rs ds : List (BitVec 6)) : Prop where
  device : t = { s with slots := t.slots, cores := t.cores }
  slots : ∀ sid, sid ≠ s.cur → t.slot sid = s.slot sid
  cores : ∀ cid, cid ≠ coreOf s.cur → t.core cid = s.core cid
  slot : t.slot s.cur = { s.slot s.cur with th := t.th }
  thread : t.th = { s.th with
    x := t.th.x, xarm := t.th.xarm, st := t.th.st, pc := t.th.pc, rtcCount := t.th.rtcCount, clock := t.th.clock,
    floor := t.th.floor, strongFloor := t.th.strongFloor, heavy := t.th.heavy, prefixLatch := t.th.prefixLatch,
    nrBefore := t.th.nrBefore, behind := t.th.behind }
  core : t.me = { s.me with
    c := t.me.c, carm := t.me.carm, ctime := t.me.ctime, wrote := t.me.wrote, disarmed := t.me.disarmed, da := t.me.da,
    nrAt := t.me.nrAt }
  status : ∀ k, k ≠ 0 → stBit t.th.st k = stBit s.th.st k
  regs : ∀ r, r ∉ ds → t.xr r = s.xr r
  arms : ∀ r, r ∉ rs → r ∉ ds → t.armOf r = s.armOf r
  memory : ∀ a, t.byte a = s.byte a

/-- What an instruction leaves of the issuing thread's registers, but for the scalar registers `ds`: vectors, masks,
operand extensions, the status word but for NR, and the special registers. -/
structure State.KeepsRegs (s t : State) (ds : List (BitVec 6)) : Prop where
  cur : t.cur = s.cur
  regs : ∀ r, r ∉ ds → t.xr r = s.xr r
  vecs : ∀ r, t.vr r = s.vr r
  masks : ∀ r, t.kr r = s.kr r
  exts : ∀ n, t.oxr n = s.oxr n
  status : ∀ k, k ≠ 0 → stBit t.th.st k = stBit s.th.st k
  nrt : t.th.nrt = s.th.nrt
  stklim : t.th.stklim = s.th.stklim
  uha : t.th.uha = s.th.uha
  trapRecord : t.th.epc = s.th.epc ∧ t.th.ecause = s.th.ecause ∧ t.th.einfo = s.th.einfo ∧ t.th.estat = s.th.estat

/-- A ready outcome that goes on at an address (R14): NR is clear and the pc is the address. -/
def State.goesOn (t : State) (pc : Word) : Prop := t.th.pc = pc ∧ stBit t.th.st 0 = false

end Sys2Proof.Machine
end

