-- ==== Sys2Proof/Certificates/Slice0/Obligations.lean ====
section
/-! DEFINITION. The statements for the provers, and the tables of the spec that they are stated over.  A table gives, for
an instruction, what the rules of spec/ say it does, in terms of the state before it; a statement says that `exec` answers
exactly that. -/

namespace Sys2Proof.Claims

open Sys2Proof.Machine

/-! ### Instructions that touch only registers -/

/-- What an instruction that touches only registers does: the scalar registers it reads, those it writes with their
values in terms of the state before it, the masks it names, its size in bytes, and the condition under which it has
this result. -/
structure RegSpec where
  reads : List (BitVec 6) := []
  writes : List (BitVec 6 × (State → Word)) := []
  masks : List (BitVec 3) := []
  size : Nat := 4
  ok : State → Prop := fun _ => True

/-- d := f(a, b). -/
def rrr (f : Word → Word → Word) (b a d : BitVec 6) (size : Nat := 4) : RegSpec :=
  { reads := [a, b], writes := [(d, fun s => f (s.xr a) (s.xr b))], size := size }

/-- d := f(a). -/
def rr (f : Word → Word) (a d : BitVec 6) (size : Nat := 4) : RegSpec :=
  { reads := [a], writes := [(d, fun s => f (s.xr a))], size := size }

/-- d := f(a, b) on private registers, for a compact form, whose a is its d. -/
def rrn (f : Word → Word → Word) (d b : BitVec 5) : RegSpec := rrr f (xreg b) (xreg d) (xreg d) 2

/-- d := f(a) on private registers. -/
def rri (f : Word → Word) (a d : BitVec 5) (size : Nat := 4) : RegSpec := rr f (xreg a) (xreg d) size

/-- 1 or 0 for a condition. -/
def one (b : Bool) : Word := if b then 1#64 else 0#64

/-- R81: the result of a division where no trap is taken: `q` for a zero divisor, else the exact result. -/
def quot (zero : Bool) (q r : Word) : Word := if zero then q else r

/-- A division: with a zero divisor it has its result only if DZE is clear. -/
def divs (zero : Word → Bool) (f : Word → Word → Word) (b a d : BitVec 6) : RegSpec :=
  { rrr f b a d with ok := fun s => ¬ (zero (s.xr b) = true ∧ stBit s.th.st 9 = true) }

/-- Bits [31:0] of a word. -/
def lo32 (x : Word) : BitVec 32 := x.setWidth 32

/-- R77, R82, R83: the register operations of majors 0 and 3. -/
noncomputable def aluSpec : Instr → Option RegSpec
  | .add b a d => some (rrr (fun x y => x + y) b a d)
  | .sub b a d => some (rrr (fun x y => x - y) b a d)
  | .and b a d => some (rrr (fun x y => x &&& y) b a d)
  | .or b a d => some (rrr (fun x y => x ||| y) b a d)
  | .xor b a d => some (rrr (fun x y => x ^^^ y) b a d)
  | .sll b a d => some (rrr (fun x y => x <<< (y.toNat % 64)) b a d)
  | .srl b a d => some (rrr (fun x y => x >>> (y.toNat % 64)) b a d)
  | .sra b a d => some (rrr (fun x y => x.sshiftRight (y.toNat % 64)) b a d)
  | .slt b a d => some (rrr (fun x y => one (x.slt y)) b a d)
  | .sltu b a d => some (rrr (fun x y => one (x.ult y)) b a d)
  | .min b a d => some (rrr (fun x y => if x.toInt ≤ y.toInt then x else y) b a d)
  | .max b a d => some (rrr (fun x y => if x.toInt ≤ y.toInt then y else x) b a d)
  | .minu b a d => some (rrr (fun x y => if x.toNat ≤ y.toNat then x else y) b a d)
  | .maxu b a d => some (rrr (fun x y => if x.toNat ≤ y.toNat then y else x) b a d)
  | .mv a d => some (rr (fun x => x) a d)
  | .addw b a d => some (rrr (fun x y => (lo32 x + lo32 y).signExtend 64) b a d)
  | .subw b a d => some (rrr (fun x y => (lo32 x - lo32 y).signExtend 64) b a d)
  | .sllw b a d => some (rrr (fun x y => (lo32 x <<< (y.toNat % 32)).signExtend 64) b a d)
  | .srlw b a d => some (rrr (fun x y => (lo32 x >>> (y.toNat % 32)).signExtend 64) b a d)
  | .sraw b a d => some (rrr (fun x y => ((lo32 x).sshiftRight (y.toNat % 32)).signExtend 64) b a d)
  | .sh1add b a d => some (rrr (fun x y => (x <<< 1) + y) b a d)
  | .sh2add b a d => some (rrr (fun x y => (x <<< 2) + y) b a d)
  | .sh3add b a d => some (rrr (fun x y => (x <<< 3) + y) b a d)
  | .sh4add b a d => some (rrr (fun x y => (x <<< 4) + y) b a d)
  | .clz a d => some (rr (fun x => w64 (if x = 0#64 then 64 else 63 - x.toNat.log2)) a d)
  | .ctz a d => some (rr (fun x => w64 (if x = 0#64 then 64 else 63 - x.reverse.toNat.log2)) a d)
  | .cpop a d => some (rr (fun x => w64 (((List.range 64).filter (fun i => x.getLsbD i)).length)) a d)
  | .rev8 a d => some (rr (fun x => (x.extractLsb' 0 8 ++ x.extractLsb' 8 8 ++ x.extractLsb' 16 8 ++
      x.extractLsb' 24 8 ++ x.extractLsb' 32 8 ++ x.extractLsb' 40 8 ++ x.extractLsb' 48 8 ++
      x.extractLsb' 56 8 : BitVec 64)) a d)
  | .brev a d => some (rr (fun x => x.reverse) a d)
  | .andn b a d => some (rrr (fun x y => x &&& ~~~y) b a d)
  | .orn b a d => some (rrr (fun x y => x ||| ~~~y) b a d)
  | .xnor b a d => some (rrr (fun x y => ~~~(x ^^^ y)) b a d)
  | .rol b a d => some (rrr (fun x y => x.rotateLeft (y.toNat % 64)) b a d)
  | .ror b a d => some (rrr (fun x y => x.rotateRight (y.toNat % 64)) b a d)
  | .bset b a d => some (rrr (fun x y => x ||| (1#64 <<< (y.toNat % 64))) b a d)
  | .bclr b a d => some (rrr (fun x y => x &&& ~~~(1#64 <<< (y.toNat % 64))) b a d)
  | .binv b a d => some (rrr (fun x y => x ^^^ (1#64 <<< (y.toNat % 64))) b a d)
  | .bext b a d => some (rrr (fun x y => (x >>> (y.toNat % 64)) &&& 1#64) b a d)
  | .ext b a d => some (rrr (fun x y =>
      let pos := y.toNat % 64
      let n := min (y.toNat / 2 ^ 8 % 2 ^ 7) (64 - pos)
      w64 (x.toNat / 2 ^ pos % 2 ^ n)) b a d)
  | .sextb a d => some (rr (fun x => (x.extractLsb' 0 8).signExtend 64) a d)
  | .sexth a d => some (rr (fun x => (x.extractLsb' 0 16).signExtend 64) a d)
  | .sextw a d => some (rr (fun x => (lo32 x).signExtend 64) a d)
  | .mod31 a d => some (rr (fun x => w64 (x.toNat % 31)) a d)
  | .div31 a d => some (rr (fun x => w64 (x.toNat / 31)) a d)
  | .bankof a d => some (rr (fun x => w64 (x.toNat / 16 % 31)) a d)
  | .rowof a d => some (rr (fun x => w64 (x.toNat / 16 / 31)) a d)
  | .spa b a d => some (rrr (fun x y => w64 ((y.toNat % 2 ^ 11 * 31 + x.toNat % 31) * 16)) b a d)
  | .addm31 b a d => some (rrr (fun x y => w64 ((x.toNat + y.toNat) % 31)) b a d)
  | _ => none

/-- R80, R81: the products of major 2, and the divisions where they do not trap. -/
noncomputable def divSpec : Instr → Option RegSpec
  | .mul b a d => some (rrr (fun x y => BitVec.ofNat 64 (x.toNat * y.toNat)) b a d)
  | .mulh b a d => some (rrr (fun x y => BitVec.ofInt 64 (x.toInt * y.toInt / 2 ^ 64)) b a d)
  | .mulhu b a d => some (rrr (fun x y => BitVec.ofNat 64 (x.toNat * y.toNat / 2 ^ 64)) b a d)
  | .mulhsu b a d => some (rrr (fun x y => BitVec.ofInt 64 (x.toInt * (y.toNat : Int) / 2 ^ 64)) b a d)
  | .mulw b a d => some (rrr (fun x y => (lo32 x * lo32 y).signExtend 64) b a d)
  | .mulN d b => some (rrn (fun x y => BitVec.ofNat 64 (x.toNat * y.toNat)) d b)
  | .div b a d => some (divs (· == 0#64) (fun x y => quot (y == 0#64) (-1#64) (BitVec.ofInt 64 (x.toInt.tdiv y.toInt))) b a d)
  | .divu b a d => some (divs (· == 0#64) (fun x y => quot (y == 0#64) (-1#64) (w64 (x.toNat / y.toNat))) b a d)
  | .rem b a d => some (divs (· == 0#64) (fun x y => quot (y == 0#64) x (BitVec.ofInt 64 (x.toInt.tmod y.toInt))) b a d)
  | .remu b a d => some (divs (· == 0#64) (fun x y => quot (y == 0#64) x (w64 (x.toNat % y.toNat))) b a d)
  | .divw b a d => some (divs (fun y => lo32 y == 0#32) (fun x y =>
      quot (lo32 y == 0#32) (-1#64) ((BitVec.ofInt 32 ((lo32 x).toInt.tdiv (lo32 y).toInt)).signExtend 64)) b a d)
  | .divuw b a d => some (divs (fun y => lo32 y == 0#32) (fun x y =>
      quot (lo32 y == 0#32) (-1#64) ((BitVec.ofNat 32 ((lo32 x).toNat / (lo32 y).toNat)).signExtend 64)) b a d)
  | .remw b a d => some (divs (fun y => lo32 y == 0#32) (fun x y =>
      quot (lo32 y == 0#32) ((lo32 x).signExtend 64)
        ((BitVec.ofInt 32 ((lo32 x).toInt.tmod (lo32 y).toInt)).signExtend 64)) b a d)
  | .remuw b a d => some (divs (fun y => lo32 y == 0#32) (fun x y =>
      quot (lo32 y == 0#32) ((lo32 x).signExtend 64)
        ((BitVec.ofNat 32 ((lo32 x).toNat % (lo32 y).toNat)).signExtend 64)) b a d)
  | _ => none

/-- R78, R77, R58: the immediate forms, the moves of operand-extension registers and the register frames. -/
noncomputable def immSpec : Instr → Option RegSpec
  | .addi i a d => some (rri (fun x => x + i.signExtend 64) a d)
  | .li i j d => some { writes := [(xreg d, fun _ => (i ++ j : BitVec 17).signExtend 64)] }
  | .andi i a d => some (rri (fun x => x &&& i.signExtend 64) a d)
  | .ori i a d => some (rri (fun x => x ||| i.signExtend 64) a d)
  | .xori i a d => some (rri (fun x => x ^^^ i.signExtend 64) a d)
  | .slti i a d => some (rri (fun x => one (x.slt (i.signExtend 64))) a d)
  | .sltiu i a d => some (rri (fun x => one (x.ult (i.signExtend 64))) a d)
  | .slli n a d => some (rri (fun x => x <<< n.toNat) a d)
  | .srli n a d => some (rri (fun x => x >>> n.toNat) a d)
  | .srai n a d => some (rri (fun x => x.sshiftRight n.toNat) a d)
  | .rori n a d => some (rri (fun x => x.rotateRight n.toNat) a d)
  | .lix n d => some { writes := [(d, fun s => (s.oxr n.toNat).signExtend 64)] }
  | .lixu n d => some { writes := [(d, fun s => (s.oxr n.toNat).setWidth 64)] }
  | .insh n d => some { reads := [d], writes := [(d, fun s => s.oxr n.toNat ++ (s.xr d).extractLsb' 0 32)] }
  | .kpack n d => some { reads := [d], masks := [0, 1, 2, 3, 4, 5, 6, 7], writes := [(d, fun s =>
      BitVec.ofFnLE (fun j : Fin 64 => if j.val / 8 = n.toNat then (s.kr (BitVec.ofNat 3 (j.val % 8))).getLsbD 0
        else (s.xr d).getLsbD j.val))] }
  | .land => some {}
  | _ => none

/-- R64, R65: the compact forms of these. -/
noncomputable def compactSpec : Instr → Option RegSpec
  | .addN d b => some (rrn (fun x y => x + y) d b)
  | .subN d b => some (rrn (fun x y => x - y) d b)
  | .andN d b => some (rrn (fun x y => x &&& y) d b)
  | .orN d b => some (rrn (fun x y => x ||| y) d b)
  | .xorN d b => some (rrn (fun x y => x ^^^ y) d b)
  | .sllN d b => some (rrn (fun x y => x <<< (y.toNat % 64)) d b)
  | .srlN d b => some (rrn (fun x y => x >>> (y.toNat % 64)) d b)
  | .sraN d b => some (rrn (fun x y => x.sshiftRight (y.toNat % 64)) d b)
  | .addiN d i => some (rri (fun x => x + i.signExtend 64) d d 2)
  | .liN d i => some { writes := [(xreg d, fun _ => i.signExtend 64)], size := 2 }
  | .slliN d i => some (rri (fun x => x <<< i.toNat) d d 2)
  | .srliN d i => some (rri (fun x => x >>> i.toNat) d d 2)
  | .sraiN d i => some (rri (fun x => x.sshiftRight i.toNat) d d 2)
  | .andiN d i => some (rri (fun x => x &&& i.signExtend 64) d d 2)
  | .addiNSp i => some (rri (fun x => x + BitVec.ofInt 64 (16 * i.toInt)) 31 31 2)
  | .nopN => some (rri (fun x => x) 0 0 2)
  | _ => none

/-- R90 to R94: the scalar FP32 instructions on the value of a step of R91, where it does not trap. -/
noncomputable def fp2 (op : FOp) (b a d : BitVec 6) : RegSpec :=
  let out (s : State) : FOut := fpLane fp32 (fpEnv s.th.st 7) op [(s.xr a).toNat % 2 ^ 32, (s.xr b).toNat % 2 ^ 32]
  { rrr (fun x _ => x) b a d with
    writes := [(d, fun s => w64 (out s).res)], ok := fun s => (out s).stop = none }

/-- A fused operation, whose d is a source. -/
noncomputable def fp3 (op : FOp) (b a d : BitVec 6) : RegSpec :=
  let out (s : State) : FOut :=
    fpLane fp32 (fpEnv s.th.st 7) op [(s.xr a).toNat % 2 ^ 32, (s.xr b).toNat % 2 ^ 32, (s.xr d).toNat % 2 ^ 32]
  { reads := [a, b, d], writes := [(d, fun s => w64 (out s).res)], ok := fun s => (out s).stop = none }

/-- A conversion or root of one operand, by the rounding mode of the instruction. -/
noncomputable def fp1 (f : FpEnv → Nat → FOut) (g : Nat → Word) (r : BitVec 3) (a d : BitVec 6) : RegSpec :=
  let out (s : State) : FOut := f (fpEnv s.th.st r.toNat) ((s.xr a).toNat % 2 ^ 32)
  { reads := [a], writes := [(d, fun s => g (out s).res)], ok := fun s => (out s).stop = none }

/-- See fp2. -/
noncomputable def fpSpec : Instr → Option RegSpec
  | .fadd b a d => some (fp2 .add b a d)
  | .fsub b a d => some (fp2 .sub b a d)
  | .fmul b a d => some (fp2 .mul b a d)
  | .fdiv b a d => some (fp2 .div b a d)
  | .fmin b a d => some (fp2 .min b a d)
  | .fmax b a d => some (fp2 .max b a d)
  | .feq b a d => some (fp2 .eq b a d)
  | .flt b a d => some (fp2 .lt b a d)
  | .fle b a d => some (fp2 .le b a d)
  | .fmadd b a d => some (fp3 .madd b a d)
  | .fmsub b a d => some (fp3 .msub b a d)
  | .fsqrt r a d => some (fp1 (fun e x => fpLane fp32 e .sqrt [x]) w64 r a d)
  | .fsgnj b a d => some (rrr (fun x y => (y.extractLsb' 31 1 ++ x.extractLsb' 0 31 : BitVec 32).setWidth 64) b a d)
  | .fsgnjn b a d => some (rrr (fun x y => (~~~(y.extractLsb' 31 1) ++ x.extractLsb' 0 31 : BitVec 32).setWidth 64) b a d)
  | .fsgnjx b a d => some (rrr (fun x y =>
      ((x.extractLsb' 31 1 ^^^ y.extractLsb' 31 1) ++ x.extractLsb' 0 31 : BitVec 32).setWidth 64) b a d)
  | .fclass a d => some (rr (fun x => w64 (fclassMask (x.toNat % 2 ^ 32))) a d)
  | .ftoi r a d => some (fp1 (fun e x => fpToInt fp32 e (-2 ^ 31) (2 ^ 31 - 1) x) (fun n => sext32 (w64 n)) r a d)
  | .ftou r a d => some (fp1 (fun e x => fpToInt fp32 e 0 (2 ^ 32 - 1) x) w64 r a d)
  | .ftol r a d => some (fp1 (fun e x => fpToInt fp32 e (-2 ^ 63) (2 ^ 63 - 1) x) w64 r a d)
  | .ftoul r a d => some (fp1 (fun e x => fpToInt fp32 e 0 (2 ^ 64 - 1) x) w64 r a d)
  | .itof r a d => some { reads := [a], writes := [(d, fun s =>
      w64 (intToFp fp32 (modeOf s.th.st r.toNat) (lo32 (s.xr a)).toInt))] }
  | .utof r a d => some { reads := [a], writes := [(d, fun s =>
      w64 (intToFp fp32 (modeOf s.th.st r.toNat) ((lo32 (s.xr a)).toNat : Int)))] }
  | .ltof r a d => some { reads := [a], writes := [(d, fun s => w64 (intToFp fp32 (modeOf s.th.st r.toNat) (s.xr a).toInt))] }
  | .ultof r a d => some { reads := [a], writes := [(d, fun s =>
      w64 (intToFp fp32 (modeOf s.th.st r.toNat) ((s.xr a).toNat : Int)))] }
  | .ftobf r a d => some (fp1 fpToBf w64 r a d)
  | .bftof a d => some (rr (fun x => w64 (bfToFp (x.toNat % 2 ^ 32))) a d)
  | _ => none

/-- The registers an instruction names (R132). -/
def RegSpec.names (p : RegSpec) : List RegN := (p.reads ++ p.writes.map (·.1)).map .x ++ p.masks.map .k

/-- Every instruction of a table completes: with its registers not held and arrived it writes exactly the values of the
table, goes on at the next instruction and leaves everything else (State.OnlyRegs). -/
def completesAs (table : Instr → Option RegSpec) : Prop :=
  ∀ (i : Instr) (p : RegSpec) (s : State), table i = some p → i.wf = true → s.unheld p.names → s.arrived p.reads → p.ok s →
    ∃ t, exec i s = .next t ∧ (∀ w ∈ p.writes, t.xr w.1 = w.2 s ∧ (t.armOf w.1).st = .unarmed) ∧
      t.goesOn (s.th.pc + w64 p.size) ∧ s.OnlyRegs t p.reads (p.writes.map (·.1))

/-- R87: the frame size in bytes. -/
def frameBytes (l h : BitVec 6) : Nat := ((h.toNat * 64) + l.toNat) * 16

/-- R87, R88, R20: the stack-limit check passes. -/
def limitOk (l h : BitVec 6) (s : State) : Prop :=
  s.th.stklim = 0#64 ∨ (frameBytes l h ≤ (s.xr 31).toNat ∧ s.th.stklim.toNat ≤ (s.xr 31).toNat - frameBytes l h)

/-- R87: the frames, where no stack-limit trap is taken. -/
noncomputable def frameSpec : Instr → Option RegSpec
  | .enter l h => some { reads := [31], ok := limitOk l h, writes := [(31, fun s => s.xr 31 - w64 (frameBytes l h))] }
  | .enterFp l h r => some { reads := [31, 28], ok := limitOk l h, writes := [
      (xreg r, fun s => s.xr 28), (28, fun s => s.xr 31 - w64 (frameBytes l h)),
      (31, fun s => s.xr 31 - w64 (frameBytes l h))] }
  | .leave l h => some { reads := [31], writes := [(31, fun s => s.xr 31 + w64 (frameBytes l h))] }
  | .leaveFp l h r => some { reads := [28, xreg r], writes := [
      (31, fun s => s.xr 28 + w64 (frameBytes l h)), (28, fun s => s.xr (xreg r))] }
  | _ => none

/-! ### Branches -/

/-- What a branch does: the registers it reads, whether it is taken, its target, the kind of the target check, whether
it links `x30`, and its size. -/
structure BranchSpec where
  reads : List (BitVec 6) := []
  taken : State → Bool := fun _ => true
  target : State → Word
  kind : BrKind := .direct
  link : Bool := false
  size : Nat := 4

/-- R84: a conditional branch on two private registers. -/
def cond (f : Word → Word → Bool) (o : BitVec 12) (b a : BitVec 5) : BranchSpec :=
  { reads := [xreg a, xreg b], taken := fun s => f (s.xr (xreg a)) (s.xr (xreg b)),
    target := fun s => s.th.pc + BitVec.ofInt 64 (2 * o.toInt) }

/-- R84, R85, R64: the branches. -/
noncomputable def branchSpec : Instr → Option BranchSpec
  | .beq o b a => some (cond (fun x y => x == y) o b a)
  | .bne o b a => some (cond (fun x y => x != y) o b a)
  | .blt o b a => some (cond (fun x y => decide (x.toInt < y.toInt)) o b a)
  | .bge o b a => some (cond (fun x y => decide (y.toInt ≤ x.toInt)) o b a)
  | .bltu o b a => some (cond (fun x y => decide (x.toNat < y.toNat)) o b a)
  | .bgeu o b a => some (cond (fun x y => decide (y.toNat ≤ x.toNat)) o b a)
  | .bnr o => some { taken := fun s => stBit s.th.st 0, target := fun s => s.th.pc + BitVec.ofInt 64 (2 * o.toInt) }
  | .brd o => some { taken := fun s => !stBit s.th.st 0, target := fun s => s.th.pc + BitVec.ofInt 64 (2 * o.toInt) }
  | .j o => some { target := fun s => s.th.pc + BitVec.ofInt 64 (2 * o.toInt) }
  | .jN o => some { target := fun s => s.th.pc + BitVec.ofInt 64 (2 * o.toInt), size := 2 }
  | .call o => some { target := fun s => s.th.pc + BitVec.ofInt 64 (2 * o.toInt), link := true }
  | .jr a => some { reads := [a], target := fun s => s.xr a, kind := .indirect }
  | .jrN b => some { reads := [xreg b], target := fun s => s.xr (xreg b), kind := .indirect, size := 2 }
  | .callr a => some { reads := [a], target := fun s => s.xr a, kind := .indirect, link := true }
  | .callrN b => some { reads := [xreg b], target := fun s => s.xr (xreg b), kind := .indirect, link := true, size := 2 }
  | .ret => some { reads := [30], target := fun s => s.xr 30, kind := .ret }
  | .retN => some { reads := [30], target := fun s => s.xr 30, kind := .ret, size := 2 }
  | _ => none

/-- The registers that a branch writes. -/
def BranchSpec.links (p : BranchSpec) : List (BitVec 6) := if p.link then [30] else []

/-- The state once the scalar registers that an instruction names have been read (R73, R164). -/
def begun (s : State) (reads ds : List (BitVec 6)) : State := (scalarUse reads ds).start s

/-! ### Loads and stores of ordinary memory, scratchpad and vault memory -/

/-- A scalar access: whether it stores, whether it is strong, its width in bytes, how a loaded value is extended, the
base register, the offset, the register loaded or stored, the policy and the size. -/
structure AccessSpec where
  store : Bool
  strong : Bool
  width : Nat
  extend : Nat → Word := fun v => BitVec.ofNat 64 v
  base : BitVec 6
  off : Word
  reg : BitVec 6
  size : Nat := 4

/-- R52: how the code of an MN load extends the value: 0 to 3 sign-extend 1, 2, 4 and 8 bytes, 4 to 6 zero-extend. -/
def extendBy (z : BitVec 3) (v : Nat) : Word :=
  if z.toNat = 0 then (BitVec.ofNat 8 v).signExtend 64
  else if z.toNat = 1 then (BitVec.ofNat 16 v).signExtend 64
  else if z.toNat = 2 then (BitVec.ofNat 32 v).signExtend 64
  else BitVec.ofNat 64 v

/-- R95, R96, R52, R65: the scalar loads and stores of ordinary memory. -/
noncomputable def accessSpec : Instr → Option AccessSpec
  | .ldW o _ b d => some { store := false, strong := true, width := 4, extend := extendBy 2, base := xreg b,
                           off := o.signExtend 64, reg := xreg d }
  | .ldD o _ b d => some { store := false, strong := true, width := 8, base := xreg b, off := o.signExtend 64, reg := xreg d }
  | .stW o _ b d => some { store := true, strong := true, width := 4, base := xreg b, off := o.signExtend 64, reg := xreg d }
  | .stD o _ b d => some { store := true, strong := true, width := 8, base := xreg b, off := o.signExtend 64, reg := xreg d }
  | .ldMn _ q z o a d => some { store := false, strong := q == 0, width := 2 ^ (z.toNat % 4), extend := extendBy z,
                                base := a, off := o.signExtend 64, reg := d }
  | .stMn _ q z o a d => some { store := true, strong := q == 0, width := 2 ^ z.toNat, base := a,
                                off := o.signExtend 64, reg := d }
  | .ldDN d b u _ => some { store := false, strong := true, width := 8, base := creg b, off := w64 (8 * u.toNat),
                            reg := creg d, size := 2 }
  | .stDN d b u _ => some { store := true, strong := true, width := 8, base := creg b, off := w64 (8 * u.toNat),
                            reg := creg d, size := 2 }
  | .ldWN d b u _ => some { store := false, strong := true, width := 4, extend := extendBy 2, base := creg b,
                            off := w64 (4 * u.toNat), reg := creg d, size := 2 }
  | .stWN d b u _ => some { store := true, strong := true, width := 4, base := creg b, off := w64 (4 * u.toNat),
                            reg := creg d, size := 2 }
  | .ldDNSp d u _ => some { store := false, strong := true, width := 8, base := 31, off := w64 (8 * u.toNat),
                            reg := creg d, size := 2 }
  | .stDNSp d u _ => some { store := true, strong := true, width := 8, base := 31, off := w64 (8 * u.toNat),
                            reg := creg d, size := 2 }
  | _ => none

/-- R252: the scalar loads and stores of the scratchpad. -/
noncomputable def spSpec : Instr → Option AccessSpec
  | .ldSp _ z o a d => some { store := false, strong := true, width := 2 ^ (z.toNat % 4), extend := extendBy z,
                              base := a, off := o.signExtend 64, reg := d }
  | .stSp _ z o a d => some { store := true, strong := true, width := 2 ^ z.toNat, base := a, off := o.signExtend 64,
                              reg := d }
  | _ => none

/-- R252: the scalar loads and stores of vault memory. -/
noncomputable def vmSpec : Instr → Option AccessSpec
  | .ldVm _ z o a d => some { store := false, strong := true, width := 2 ^ (z.toNat % 4), extend := extendBy z,
                              base := a, off := o.signExtend 64, reg := d }
  | .stVm _ z o a d => some { store := true, strong := true, width := 2 ^ z.toNat, base := a, off := o.signExtend 64,
                              reg := d }
  | _ => none

/-- The registers an access reads: the base, and what it stores. -/
def AccessSpec.reads (p : AccessSpec) : List (BitVec 6) := if p.store then [p.base, p.reg] else [p.base]
/-- The register that an access writes. -/
def AccessSpec.writes (p : AccessSpec) : List (BitVec 6) := if p.store then [] else [p.reg]
/-- The address of an access. -/
def AccessSpec.addr (p : AccessSpec) (s : State) : Word := s.xr p.base + p.off
/-- The registers of an access are not held and have arrived, and no vector store of the thread still waits (R185). -/
def AccessSpec.ready (p : AccessSpec) (s : State) : Prop :=
  s.unheld ((p.reads ++ p.writes).map .x) ∧ s.arrived p.reads ∧ s.th.lateWaits = false

/-- The state once the registers of an access have been read. -/
def AccessSpec.begun (p : AccessSpec) (s : State) : State := Claims.begun s p.reads p.writes

/-- R215, R227: the bytes of the bank of the issuing thread's cluster: vault memory, or the scratchpad. -/
def bankOf (vm : Bool) (s : State) : List Host.Cell := if vm then s.mine.vault else s.mine.scratch

/-- R217, R227: a state in which n bytes of a bank have been read: the units read have passed their check bits. -/
def bankRead (vm : Bool) (o n : Nat) (s : State) : State :=
  s.readUnits ((granules o n).map (if vm then .vm (clusterOf s.cur) else .sp (clusterOf s.cur))) s.th.ctx o false

/-- R100: a state in which a line is about to be read, or stored to at its home: the thread's own earlier stores to it have
been performed. -/
def lineReady (s : State) (line : Nat) : State := s.drainOwn line

/-- R100: a state in which a weak store to a line is about to enter the combining buffer: the thread's own earlier pushed
elements of the line have been performed. -/
def combReady (s : State) (line : Nat) : State :=
  if s.th.drains.any (fun d => d.cells.any (fun c => c.1 / 64 == line)) then s.performDrains s.cur else s

/-- The byte of a machine address as the stores of a core's thread have made it: of the core's combining entry of its
line (R208), or else of memory. -/
def byteFor (s : State) (cid a : Nat) : Byte :=
  match ((((s.core cid).comb.filter (fun e => e.line == a / 64)).flatMap (·.bytes)).find? (fun c => c.1 == a)) with
  | some c => c.2
  | none => Memory.read s.mem a

/-- R11: byte k of a value stored little-endian. -/
def byteOf (v k : Nat) : Byte := BitVec.ofNat 8 (v / 256 ^ k)

/-! ### Atomics, fences, full-empty accesses, place forms and barrier wires -/

/-- The scalar registers that an instruction names are not held, and those it reads have arrived. -/
def canRun (s : State) (names reads : List (BitVec 6)) : Prop := s.unheld (names.map .x) ∧ s.arrived reads

/-- R185, R231: the same for an instruction that follows the thread's earlier vector stores: none still waits. -/
def canAct (s : State) (names reads : List (BitVec 6)) : Prop := canRun s names reads ∧ s.th.lateWaits = false

/-- See begun, for an instruction that ends a thread's being light (R158). -/
def begunHeavy (s : State) (reads ds : List (BitVec 6)) : State :=
  ({ scalarUse reads ds with heavy := true } : Use).start s

/-- R255: an atomic: its width in bytes, scope, address register, d, the registers it reads, and the new value of the
old value, of x[d] and of x[d + 1], each on that width. -/
structure AmoSpec where
  bytes : Nat
  scope : Nat
  a : BitVec 6
  d : BitVec 6
  regs : List (BitVec 6)
  new : Nat → Nat → Nat → Option Nat

/-- The bytes of an atomic's width bit. -/
def wbytes (w : BitVec 1) : Nat := if w = 1#1 then 8 else 4

/-- An atomic that reads one operand. -/
def amo2 (f : Nat → Nat → Nat → Nat) (w : BitVec 1) (sc : BitVec 5) (a d : BitVec 6) : AmoSpec :=
  { bytes := wbytes w, scope := sc.toNat, a := a, d := d, regs := [a, d],
    new := fun old x _ => some (f (8 * wbytes w) old x) }

/-- R255: the atomics of ordinary memory. -/
noncomputable def amoSpec : Instr → Option AmoSpec
  | .amoSwap _ w sc a d => some (amo2 (fun _ _ x => x) w sc a d)
  | .amoCas _ w sc a d => some {
      bytes := wbytes w, scope := sc.toNat, a := a, d := d ++ 0#1,
      regs := [a, d ++ 0#1, (d ++ 0#1) + 1#6], new := fun old x y => if old = x then some y else none }
  | .amoAdd _ w sc a d => some (amo2 (fun n old x => (old + x) % 2 ^ n) w sc a d)
  | .amoAnd _ w sc a d => some (amo2 (fun _ old x => old &&& x) w sc a d)
  | .amoOr _ w sc a d => some (amo2 (fun _ old x => old ||| x) w sc a d)
  | .amoXor _ w sc a d => some (amo2 (fun _ old x => old ^^^ x) w sc a d)
  | .amoMin _ w sc a d => some (amo2 (fun n old x => if sval n old ≤ sval n x then old else x) w sc a d)
  | .amoMax _ w sc a d => some (amo2 (fun n old x => if sval n old ≤ sval n x then x else old) w sc a d)
  | .amoMinu _ w sc a d => some (amo2 (fun _ old x => min old x) w sc a d)
  | .amoMaxu _ w sc a d => some (amo2 (fun _ old x => max old x) w sc a d)
  | _ => none

/-- R255: the atomics of a bank, and whether the bank is vault memory. -/
noncomputable def bankSpec : Instr → Option (Bool × AmoSpec)
  | .amoSpSwap _ sc a d => some (false, amo2 (fun _ _ x => x) 1 sc a d)
  | .amoSpCas _ sc a d => some (false, {
      bytes := 8, scope := sc.toNat, a := a, d := d ++ 0#1,
      regs := [a, d ++ 0#1, (d ++ 0#1) + 1#6], new := fun old x y => if old = x then some y else none })
  | .amoSpAdd _ sc a d => some (false, amo2 (fun n old x => (old + x) % 2 ^ n) 1 sc a d)
  | .amoVmSwap _ sc a d => some (true, amo2 (fun _ _ x => x) 1 sc a d)
  | .amoVmCas _ sc a d => some (true, {
      bytes := 8, scope := sc.toNat, a := a, d := d ++ 0#1,
      regs := [a, d ++ 0#1, (d ++ 0#1) + 1#6], new := fun old x y => if old = x then some y else none })
  | .amoVmAdd _ sc a d => some (true, amo2 (fun n old x => (old + x) % 2 ^ n) 1 sc a d)
  | _ => none

/-- The old value as an atomic returns it. -/
def oldWord (bytes v : Nat) : Word := if bytes = 8 then BitVec.ofNat 64 v else (BitVec.ofNat 32 v).signExtend 64

/-- What an atomic writes, if it writes. -/
def AmoSpec.write (p : AmoSpec) (s : State) (old : Nat) : Option Nat :=
  p.new old ((s.xr p.d).toNat % 256 ^ p.bytes) ((s.xr (p.d + 1#6)).toNat % 256 ^ p.bytes)

/-- A byte after an n-byte value is written at an address of a memory, or nothing is. -/
def byteAfter (o : Option Nat) (m n a : Nat) (old : Byte) : Byte :=
  match o with
  | some v => if m ≤ a ∧ a < m + n then byteOf v (a - m) else old
  | none => old

/-- R257: the updates: kind, width bit, address register and operand. -/
noncomputable def updSpec : Instr → Option (Nat × BitVec 1 × BitVec 6 × BitVec 6)
  | .updAdd _ w a d => some (0, w, a, d)
  | .updMin _ w a d => some (1, w, a, d)
  | .updMax _ w a d => some (2, w, a, d)
  | _ => none

/-- R260: the release stores: bytes, scope, address register and data. -/
noncomputable def relSpec : Instr → Option (Nat × BitVec 5 × BitVec 6 × BitVec 6)
  | .stRelW _ sc a d => some (4, sc, a, d)
  | .stRelD _ sc a d => some (8, sc, a, d)
  | _ => none

/-- R263: a place form: its place operand, offset register, data register, whether it stores, and whether it accesses
a granule, a scratchpad doubleword or a vault doubleword. -/
structure PlaceSpec where
  c : BitVec 6
  a : BitVec 6
  d : BitVec 6
  store : Bool
  align : Nat
  limit : Nat

/-- R263: the place forms. -/
noncomputable def placeSpec : Instr → Option PlaceSpec
  | .ldffPlace _ c a d => some ⟨c, a, d, false, 16, 819200⟩
  | .ldfePlace _ c a d => some ⟨c, a, d, false, 16, 819200⟩
  | .stefPlace _ c a d => some ⟨c, a, d, true, 16, 819200⟩
  | .stffPlace _ c a d => some ⟨c, a, d, true, 16, 819200⟩
  | .ldSpDPlace _ c a d => some ⟨c, a, d, false, 8, 819200⟩
  | .stSpDPlace _ c a d => some ⟨c, a, d, true, 8, 819200⟩
  | .ldVmDPlace _ c a d => some ⟨c, a, d, false, 8, 1966080⟩
  | .stVmDPlace _ c a d => some ⟨c, a, d, true, 8, 1966080⟩
  | _ => none

/-- The registers that a place form reads: the offset, the place where a register gives it, and what it stores. -/
def PlaceSpec.reads (p : PlaceSpec) : List (BitVec 6) :=
  p.a :: (if p.c.getLsbD 5 then [] else [p.c]) ++ (if p.store then [p.d] else [])

/-- The place that a place form names (R259). -/
def PlaceSpec.place (p : PlaceSpec) (s : State) : Nat := if p.c.getLsbD 5 then p.c.toNat % 32 else (s.xr p.c).toNat

/-- The full-empty bit of a granule of the issuing thread's cluster. -/
def fullBit (s : State) (g : Nat) : Bool := s.mine.fe.contains g

/-- R258: the operand of an update, on the doubleword of its line: in its half of 4 bytes, with the other half as it has no
effect. -/
def updOperand (kind : Nat) (w : BitVec 1) (off v : Nat) : Nat :=
  if w = 1#1 then v
  else if off % 8 = 4 then updIdentity kind false % 2 ^ 32 + v % 2 ^ 32 * 2 ^ 32
  else v % 2 ^ 32 + updIdentity kind false / 2 ^ 32 * 2 ^ 32

/-- R258: the value of a unit after an update, from the unit's value, or from the identity where there is no unit. -/
def unitAfter (kind : Nat) (w : BitVec 1) (off v : Nat) (u : Option UpdUnit) : Nat :=
  updApply kind (w == 1#1) (match u with | some u => u.val.toNat | none => updIdentity kind (w == 1#1))
    (updOperand kind w off v)

/-- R243, R258: an update-only line of the issuing thread's core that it has written to, with a unit for a doubleword of
the line. -/
def hasUnit (s t : State) (line idx kind : Nat) (w : BitVec 1) (v : Nat) : Prop :=
  ∃ l ∈ t.me.upd, l.line = line ∧ s.cur ∈ l.writers ∧
    ∃ u ∈ l.units, u.idx = idx ∧ u.kind = kind ∧ u.wide = (w == 1#1) ∧ u.val = BitVec.ofNat 64 v

/-- R267: the line that `unpin` finds: through a translation of the TLBs, or else through the tables. -/
def pinAt (s : State) (va : Nat) : Option Nat :=
  match s.xlate (coreOf s.cur) s.th.ctx va {} with
  | some e => s.machineOf (e.sys va)
  | none => match s.translate false s.th.ctx va {} with
    | .ok w _ => s.machineOf w.addr
    | .fault .. => none

/-! ### Vector instructions -/

/-- R67, R180: the enabled positions of an instruction that names no stream: its prefix's mask, or all. -/
def enabledBy (s : State) : BitVec 16 :=
  match s.th.prefixLatch with
  | some p => if p.me then s.kr p.maskReg else 0xFFFF#16
  | none => 0xFFFF#16

/-- R67: the disabled lanes are zeroed. -/
def zeroing (s : State) : Bool := match s.th.prefixLatch with | some p => p.z | none => false

/-- R66: the size of a vector instruction with its prefix. -/
def vecSize (s : State) : Nat := if s.th.prefixLatch.isSome then 8 else 4

/-- R67, R112: the floating-point environment of a vector instruction: the status word and the prefix's rounding mode. -/
def vecEnv (s : State) : FpEnv := fpEnv s.th.st (match s.th.prefixLatch with | some p => p.rm.toNat | none => 7)

/-- What a vector instruction does: its hold field and required hold, the registers it reads, the register it writes,
its lanes (a mask register's bits are lanes of value 0 or 1), its scalar result, the saturations it counts, and the
condition under which it has this result. -/
structure VecSpec where
  hold : BitVec 2
  req : Nat
  srcs : List (BitVec 5) := []
  x : Option (BitVec 5) := none
  ks : Option (BitVec 3) := none
  dst : RegN
  width : Nat := 32
  elem : Nat → Nat := fun _ => 0
  word : Word := 0#64
  sat : Nat := 0
  ok : Prop := True

/-- The registers that a vector instruction names, its prefix's mask register included (R132). -/
def VecSpec.names (p : VecSpec) (s : State) : List RegN :=
  p.dst :: p.srcs.map .v ++ (p.x.toList.map (fun r => .x (xreg r))) ++ p.ks.toList.map .k ++
    (match s.th.prefixLatch with | some q => if q.me then [.k q.maskReg] else [] | none => [])

/-- When a thread may issue a vector instruction on registers: the feature is granted, nothing it names is held, its
scalar has arrived, none of its vector registers is a stream, and the ring has an entry to give. -/
def vecReady (s : State) (names : List RegN) (x : Option (BitVec 5)) : Prop :=
  s.granted fVector ∧ s.unheld names ∧ s.arrived (x.toList.map xreg) ∧ s.th.cap = none ∧
    (∀ r, RegN.v r ∈ names → s.th.streamOf r = none) ∧ (s.th.ring.filter (fun e => !e.retired)).length < 16

/-- R184: an entry of the issuing thread's ring holds a late fault. -/
def olderLate (s : State) : Bool := s.th.ring.any (fun e => !e.retired && e.fault.isSome)

/-- R180: a write of the value that a vector instruction computes, its disabled lanes merged or zeroed. -/
def VecSpec.good (p : VecSpec) (s : State) (w : RegW) : Prop :=
  match w with
  | .x r v => p.dst = .x r ∧ v = p.word
  | .v r v => p.dst = .v r ∧ ∀ j < 512 / p.width, lane p.width v j =
      if (enabledBy s).getLsbD (j * p.width / 32) then p.elem j % 2 ^ p.width
      else if zeroing s then 0 else lane p.width (s.vr r) j
  | .k r v => p.dst = .k r ∧ ∀ j < 16, v.getLsbD j =
      if (enabledBy s).getLsbD j then p.elem j == 1 else if zeroing s then false else (s.kr r).getLsbD j

/-- A register holds what a write writes. -/
def written (t : State) : RegW → Prop
  | .x r v => t.xr r = v
  | .v r v => t.vr r = v
  | .k r v => t.kr r = v

/-- What a vector instruction leaves of the registers, but for one register. -/
structure VecFrame (s t : State) (d : Option RegN) : Prop where
  regs : ∀ r, d ≠ some (.x r) → t.xr r = s.xr r
  vecs : ∀ r, d ≠ some (.v r) → t.vr r = s.vr r
  masks : ∀ r, d ≠ some (.k r) → t.kr r = s.kr r
  exts : ∀ n, t.oxr n = s.oxr n
  streams : t.th.streams = s.th.streams
  status : ∀ k, k ≠ 0 → stBit t.th.st k = stBit s.th.st k
  special : t.th.nrt = s.th.nrt ∧ t.th.stklim = s.th.stklim ∧ t.th.uha = s.th.uha
  trapRecord : t.th.epc = s.th.epc ∧ t.th.ecause = s.th.ecause ∧ t.th.einfo = s.th.einfo ∧ t.th.estat = s.th.estat

/-- R128, R133: the slot after an instruction with a hold field. -/
def heldFor (s t : State) (h : BitVec 2) : Prop :=
  (t.slot s.cur).st = if h = 0#2 then (s.slot s.cur).st else .skip h.toNat

/-- R128, R180, R182, R184: every instruction of a table completes: it becomes the youngest entry of the ring with its
result; with a required hold of 0 the result is written at once, and else when its cycles have passed. -/
def completesVec (table : State → Instr → Option VecSpec) : Prop :=
  ∀ (i : Instr) (s : State) (p : VecSpec), table s i = some p → i.wf = true → vecReady s (p.names s) p.x → p.ok →
    ∃ t e w, exec i s = .next t ∧ t.goesOn (s.th.pc + w64 (vecSize s)) ∧ t.th.prefixLatch = none ∧
      t.th.ring.getLast? = some e ∧ e.seq = s.th.nextSeq ∧ t.th.nextSeq = s.th.nextSeq + 1#8 ∧ e.addr = s.th.pc ∧
      e.fault = none ∧ e.writes = [w] ∧ p.good s w ∧ e.qsat = p.sat ∧ heldFor s t p.hold ∧
      e.retired = (p.req == 0 && !olderLate s) ∧ (e.retired = false → e.left = p.req + 1 ∧ VecFrame s t none) ∧
      (e.retired = true → written t w ∧ VecFrame s t (some p.dst)) ∧ ∀ a, t.byte a = s.byte a

/-- Lane j of width w of a vector register. -/
def la (s : State) (w : Nat) (r : BitVec 5) (j : Nat) : BitVec w := (s.vr r).extractLsb' (w * j) w

/-- R193: a lanewise integer operation of two registers. -/
def vint (s : State) (w : Nat) (f : BitVec w → BitVec w → BitVec w) (h : BitVec 2) (b a d : BitVec 5) : VecSpec :=
  { hold := h, req := 0, srcs := [a, b], dst := .v d, width := w, elem := fun j => (f (la s w a j) (la s w b j)).toNat }

/-- R193: an integer comparison into a mask. -/
def vicmp (s : State) (f : BitVec 32 → BitVec 32 → Bool) (h : BitVec 2) (b a : BitVec 5) (k : BitVec 3) : VecSpec :=
  { hold := h, req := 0, srcs := [a, b], dst := .k k, elem := fun j => b2n (f (la s 32 a j) (la s 32 b j)) }

/-- R193: the lane width of a width field. -/
def wid (w : BitVec 2) : Nat := 32 / 2 ^ w.toNat

/-- R193: the vector integer instructions. -/
noncomputable def vecIntSpec (s : State) : Instr → Option VecSpec
  | .vadd w _ h b a d => some (vint s (wid w) (fun x y => x + y) h b a d)
  | .vsub w _ h b a d => some (vint s (wid w) (fun x y => x - y) h b a d)
  | .vmul w _ h b a d => some (vint s (wid w) (fun x y => x * y) h b a d)
  | .vsll w _ h b a d => some (vint s (wid w) (fun x y => x <<< (y.toNat % wid w)) h b a d)
  | .vsrl w _ h b a d => some (vint s (wid w) (fun x y => x >>> (y.toNat % wid w)) h b a d)
  | .vsra w _ h b a d => some (vint s (wid w) (fun x y => x.sshiftRight (y.toNat % wid w)) h b a d)
  | .vmin w _ h b a d => some (vint s (wid w) (fun x y => if x.toInt ≤ y.toInt then x else y) h b a d)
  | .vmax w _ h b a d => some (vint s (wid w) (fun x y => if x.toInt ≤ y.toInt then y else x) h b a d)
  | .vminu w _ h b a d => some (vint s (wid w) (fun x y => if x.toNat ≤ y.toNat then x else y) h b a d)
  | .vmaxu w _ h b a d => some (vint s (wid w) (fun x y => if x.toNat ≤ y.toNat then y else x) h b a d)
  | .vand _ h b a d => some (vint s 32 (fun x y => x &&& y) h b a d)
  | .vor _ h b a d => some (vint s 32 (fun x y => x ||| y) h b a d)
  | .vxor _ h b a d => some (vint s 32 (fun x y => x ^^^ y) h b a d)
  | .vandn _ h b a d => some (vint s 32 (fun x y => x &&& ~~~y) h b a d)
  | .vieq _ h b a k => some (vicmp s (fun x y => x == y) h b a k)
  | .vilt _ h b a k => some (vicmp s (fun x y => decide (x.toInt < y.toInt)) h b a k)
  | .viltu _ h b a k => some (vicmp s (fun x y => decide (x.toNat < y.toNat)) h b a k)
  | .vbcast _ h a d => some { hold := h, req := 0, x := some a, dst := .v d, elem := fun _ => (s.xr (xreg a)).toNat }
  | .kget _ h k d => some { hold := h, req := 0, ks := some k, dst := .x (xreg d), word := (s.kr k).setWidth 64 }
  | .kset _ h a k => some { hold := h, req := 0, x := some a, dst := .k k,
                            elem := fun j => ((s.xr (xreg a)).extractLsb' j 1).toNat }
  | _ => none

/-- R194: a reduction of the enabled lanes of width w, extended to 64 bits. -/
def reduced (s : State) (w : Nat) (f : BitVec w → BitVec w → BitVec w) (empty : BitVec w) (h : BitVec 2)
    (a d : BitVec 5) : VecSpec :=
  let l := ((upTo (512 / w)).filter (fun j => (enabledBy s).getLsbD (j * w / 32))).map (la s w a)
  { hold := h, req := 2, srcs := [a], dst := .x (xreg d), width := w, word := (l.foldl f empty).signExtend 64 }

/-- R118, R194: an FP reduction on the tree of R118, where it reports no late fault. -/
noncomputable def reducedFp (s : State) (f : Fmt) (w k : Nat) (op : FOp) (empty : Nat) (h : BitVec 2) (a d : BitVec 5) :
    VecSpec :=
  let o := reduceFp f w k op empty
    { src := [s.vr a], en := enabledBy s, x := 0#64, env := vecEnv s, old := 0#512 }
  { hold := h, req := 2, srcs := [a], dst := .x (xreg d), word := o.val, ok := o.fault = none }

/-- R194: the permutes, lane moves and reductions. -/
noncomputable def vecPermSpec (s : State) : Instr → Option VecSpec
  | .vperm _ h b a d => some { hold := h, req := 1, srcs := [a, b], dst := .v d,
                               elem := fun j => (la s 32 a ((la s 32 b j).toNat % 16)).toNat }
  | .vperm2 _ h b a d => some { hold := h, req := 1, srcs := [a, b, s.op4], dst := .v d, elem := fun j =>
      (la s 32 (if (la s 32 b j).getLsbD 4 then s.op4 else a) ((la s 32 b j).toNat % 16)).toNat }
  | .vrot _ h n a d => some { hold := h, req := 1, srcs := [a], dst := .v d,
                              elem := fun j => (la s 32 a ((j + n.toNat) % 16)).toNat }
  | .vins _ h n a d => some { hold := h, req := 0, x := some a, dst := .v d, elem := fun j =>
      if j = n.toNat then (s.xr (xreg a)).toNat else (la s 32 d j).toNat }
  | .vext _ h n a d => some { hold := h, req := 1, srcs := [a], dst := .x (xreg d),
                              word := (la s 32 a n.toNat).signExtend 64 }
  | .vsumI32 _ h a d => some (reduced s 32 (fun x y => x + y) 0 h a d)
  | .vmaxI32 _ h a d => some (reduced s 32 (fun x y => if x.toInt ≤ y.toInt then y else x) 0x80000000 h a d)
  | .vminI32 _ h a d => some (reduced s 32 (fun x y => if x.toInt ≤ y.toInt then x else y) 0x7FFFFFFF h a d)
  | .vsumI16 _ h a d => some (reduced s 16 (fun x y => x + y) 0 h a d)
  | .vsumI8 _ h a d => some (reduced s 8 (fun x y => x + y) 0 h a d)
  | .vsumF _ h a d => some (reducedFp s fp32 32 4 .add 0 h a d)
  | .vmaxF _ h a d => some (reducedFp s fp32 32 4 .max 0xFF800000 h a d)
  | .vminF _ h a d => some (reducedFp s fp32 32 4 .min 0x7F800000 h a d)
  | .vsumBf _ h a d => some (reducedFp s bf16 16 5 .add 0 h a d)
  | _ => none

/-- A lanewise computation with the steps of R91: `g j` is the outcome of lane j, and no enabled lane may trap. -/
def vout (s : State) (h : BitVec 2) (req : Nat) (srcs : List (BitVec 5)) (d : RegN) (width : Nat) (g : Nat → FOut) :
    VecSpec :=
  { hold := h, req := req, srcs := srcs, dst := d, width := width, elem := fun j => (g j).res,
    ok := ∀ j < 512 / width, (enabledBy s).getLsbD (j * width / 32) = true → (g j).stop = none }

/-- R192: a lanewise FP operation of the lanes of registers. -/
noncomputable def vfp (s : State) (op : FOp) (req : Nat) (h : BitVec 2) (srcs : List (BitVec 5)) (d : RegN) : VecSpec :=
  vout s h req srcs d 32 (fun j => fpLane fp32 (vecEnv s) op (srcs.map (fun r => (la s 32 r j).toNat)))

/-- R197, R198: a special function of the lanes of registers. -/
noncomputable def vsfu (s : State) (inv : List FV → Bool) (f : List FV → Nat × Nat) (req : Nat) (h : BitVec 2)
    (srcs : List (BitVec 5)) (d : BitVec 5) : VecSpec :=
  vout s h req srcs (.v d) 32 (fun j => sfuLane (vecEnv s) (srcs.map (fun r => (la s 32 r j).toNat)) inv f)

/-- R199: lane j of width w from a quarter or half g of a register. -/
def part (s : State) (w : Nat) (a : BitVec 5) (g j : Nat) : BitVec w := la s w a (16 * g + j)

/-- R192, R197 to R200: the vector FP instructions, special functions and conversions. -/
noncomputable def vecFpSpec (s : State) : Instr → Option VecSpec
  | .vfadd _ h b a d => some (vfp s .add 1 h [a, b] (.v d))
  | .vfsub _ h b a d => some (vfp s .sub 1 h [a, b] (.v d))
  | .vfmul _ h b a d => some (vfp s .mul 1 h [a, b] (.v d))
  | .vfmin _ h b a d => some (vfp s .min 0 h [a, b] (.v d))
  | .vfmax _ h b a d => some (vfp s .max 0 h [a, b] (.v d))
  | .vfabs _ h a d => some { hold := h, req := 0, srcs := [a], dst := .v d,
                             elem := fun j => ((la s 32 a j) &&& 0x7FFFFFFF#32).toNat }
  | .vfneg _ h a d => some { hold := h, req := 0, srcs := [a], dst := .v d,
                             elem := fun j => ((la s 32 a j) ^^^ 0x80000000#32).toNat }
  | .vfma _ h b a d => some (vfp s .madd 1 h [a, b, d] (.v d))
  | .vfms _ h b a d => some (vfp s .msub 1 h [a, b, d] (.v d))
  | .vfma4 _ h b a d => some (vfp s .madd 1 h [a, b, s.op4] (.v d))
  | .vfeq _ h b a k => some (vfp s .eq 0 h [a, b] (.k k))
  | .vflt _ h b a k => some (vfp s .lt 0 h [a, b] (.k k))
  | .vfle _ h b a k => some (vfp s .le 0 h [a, b] (.k k))
  | .vrcpA _ h a d => some (vsfu s (fun _ => false) fRcp 2 h [a] d)
  | .vrsqA _ h a d => some (vsfu s belowZero fRsq 2 h [a] d)
  | .vrcpS _ h b a d => some (vsfu s (fun _ => false) (fRcpS (vecEnv s)) 2 h [a, b] d)
  | .vrsqS _ h b a d => some (vsfu s (fun _ => false) (fRsqS (vecEnv s)) 2 h [a, b] d)
  | .vexp2A _ h a d => some (vsfu s (fun _ => false) fExp2 3 h [a] d)
  | .vlog2A _ h a d => some (vsfu s belowZero fLog2 3 h [a] d)
  | .vcvtFI _ h a d => some { hold := h, req := 1, srcs := [a], dst := .v d,
                              elem := fun j => intToFp fp32 (vecEnv s).mode (la s 32 a j).toInt }
  | .vcvtIF _ h a d => some (vout s h 1 [a] (.v d) 32 (fun j =>
      fpToInt fp32 (vecEnv s) (-2 ^ 31) (2 ^ 31 - 1) (la s 32 a j).toNat))
  | .vcvtBfF _ h b a d => some (vout s h 1 [a, b] (.v d) 16 (fun j =>
      fpToBf (vecEnv s) (la s 32 (if j < 16 then a else b) (j % 16)).toNat))
  | .vcvtFBf _ h g a d => some { hold := h, req := 1, srcs := [a], dst := .v d,
                                 elem := fun j => bfToFp (part s 16 a g.toNat j).toNat }
  | .vcvtFMk8 _ h q a d => some { hold := h, req := 1, srcs := [a], dst := .v d,
                                  elem := fun j => (decodeMk8 (part s 8 a q.toNat j).toNat).into fp32 .rne }
  | .vpackI16 _ h b a d =>
    let v (j : Nat) : Int := (la s 32 (if j < 16 then a else b) (j % 16)).toInt
    some { hold := h, req := 1, srcs := [a, b], dst := .v d, width := 16,
           elem := fun j => (BitVec.ofInt 16 (max (-32768) (min 32767 (v j)))).toNat,
           sat := ((upTo 32).filter (fun j => (enabledBy s).getLsbD (j / 2) && (decide (v j < -32768) || decide (32767 < v j)))).length }
  | .vunpkI16 _ h g a d => some { hold := h, req := 1, srcs := [a], dst := .v d,
                                  elem := fun j => ((part s 16 a g.toNat j).signExtend 32).toNat }
  | .vunpkI8 _ h q a d => some { hold := h, req := 1, srcs := [a], dst := .v d,
                                 elem := fun j => ((part s 8 a q.toNat j).signExtend 32).toNat }
  | .vquant _ h t a d =>
    let o := quantVec t.toNat
      { src := [s.vr (a ++ 0#1), s.vr (a ++ 1#1)], en := enabledBy s, x := 0#64, env := vecEnv s, old := s.vr d }
    some { hold := h, req := 3, srcs := [a ++ 0#1, a ++ 1#1], dst := .v d, width := 8, elem := fun j => o.lanes.getD j 0,
           sat := o.qsat, ok := o.fault = none }
  | _ => none

/-- R195: the address of a vector access. -/
def vecAddrOf (s : State) (o a : BitVec 5) : Word := s.xr (xreg a) + o.signExtend 64 * 64#64

/-- What an instruction that loads a register leaves at its completion; see completesVec. -/
def VecSpec.loads (p : VecSpec) (s t : State) : Prop :=
  ∃ e w, t.goesOn (s.th.pc + w64 (vecSize s)) ∧ t.th.prefixLatch = none ∧ t.th.ring.getLast? = some e ∧
    e.seq = s.th.nextSeq ∧ e.fault = none ∧ e.writes = [w] ∧ p.good s w ∧ heldFor s t p.hold ∧
    e.retired = (p.req == 0 && !olderLate s) ∧ (e.retired = false → e.left = p.req + 1 ∧ VecFrame s t none) ∧
    (e.retired = true → written t w ∧ VecFrame s t (some p.dst))

/-- R185: what a store that waits writes when it is performed: over a byte at an address, f of both. -/
def latePuts (d : LateStore) (f : Nat → Byte → Byte) : Prop :=
  ∀ (l : List Host.Cell) (y : Nat), Memory.read (Memory.writeAll l (presentCells d.bytes d.at_)) y = f y (Memory.read l y)

/-- R185: what a vector store leaves of the registers, and its entry of the ring: retired, or, where an older entry has
not retired and the store has a lane to write, waiting with the store as described. -/
def stores (s t : State) (h : BitVec 2) (late : LateStore → Prop) : Prop :=
  t.goesOn (s.th.pc + w64 (vecSize s)) ∧ t.th.prefixLatch = none ∧ VecFrame s t none ∧ heldFor s t h ∧
    ∃ e, t.th.ring.getLast? = some e ∧ e.seq = s.th.nextSeq ∧ e.writes = [] ∧ e.fault = none ∧
      if s.th.inFlight = true ∧ enabledBy s ≠ 0#16 then
        e.retired = false ∧ e.left = 1 ∧ ∃ d, e.store = some d ∧ late d
      else e.retired = true ∧ e.store = none

/-- A vector store of d with the base register a may issue, and nothing older in the ring will report a fault. -/
def storeReady (s : State) (a d : BitVec 5) : Prop :=
  vecReady s (.v d :: .x (xreg a) ::
    (match s.th.prefixLatch with | some q => if q.me then [.k q.maskReg] else [] | none => [])) (some a) ∧
  olderLate s = false

/-- R195: byte k of what a vector store stores, at an address of it: that of the register where its lane is enabled. -/
def lanesOver (s : State) (d : BitVec 5) (m a : Nat) (old : Byte) : Byte :=
  if m ≤ a ∧ a < m + 64 ∧ (enabledBy s).getLsbD ((a - m) / 4) = true then byteOf (s.vr d).toNat (a - m) else old

/-- R196, R222: lane j of a load of a window, of a format and a scale. -/
noncomputable def winLane (fmt sc v j : Nat) : Nat :=
  if fmt = 1 then (scaledMk8 (v / 2 ^ (8 * j) % 2 ^ 8) sc).into fp32 .rne
  else if fmt = 2 then ((BitVec.ofNat 8 (v / 2 ^ (8 * j))).signExtend 32).toNat
  else if fmt = 3 then bfToFp (v / 2 ^ (16 * j) % 2 ^ 16)
  else v / 2 ^ (32 * j) % 2 ^ 32

/-- R196: a lane as a store to a window encodes it, and the step of R91 it meets. -/
noncomputable def winCode (env : FpEnv) (fmt sc v : Nat) : FOut :=
  if fmt = 1 then (mk8Store env sc v).1
  else if fmt = 2 then ⟨(BitVec.ofInt 8 (max (-128) (min 127 (BitVec.ofNat 32 v).toInt))).toNat, none⟩
  else if fmt = 3 then fpToBf env v
  else ⟨v, none⟩

/-! ### Engines -/

/-- R274, R275, R295, R310: the last conditions of an enqueue: the thread has no held store, nothing of it is unordered
in scope 4, and the queue has an entry for it. -/
def admitted (s : State) (q : QueueId) : Prop :=
  s.holding = false ∧ s.unordered 4 = false ∧ (s.queueCtl q).admits (s.queueLen q) s.refusedMe = true

/-- R279: the control doubleword of a completion barrier after an arrival without an error. -/
def afterArrival (c : Nat) : Nat :=
  let exp := c % 2 ^ 16
  let arr := c / 2 ^ 16 % 2 ^ 16
  let phn := c / 2 ^ 32 % 2 ^ 7
  let code := c / 2 ^ 40 % 2 ^ 8
  if arr + 1 < exp then exp + (arr + 1) * 2 ^ 16 + phn * 2 ^ 32 + c / 2 ^ 39 % 2 * 2 ^ 39 + code * 2 ^ 40 +
    c / 2 ^ 48 % 8 * 2 ^ 48
  else exp + (phn + 1) % 128 * 2 ^ 32 + c / 2 ^ 49 % 2 * 2 ^ 39 + code * 2 ^ 40 + c / 2 ^ 50 % 2 * 2 ^ 48

/-- Only granule g of the issuing thread's scratchpad may differ. -/
def onlyGranule (s t : State) (g : Nat) : Prop :=
  ∀ y, (y < 16 * g ∨ 16 * g + 16 ≤ y) → Memory.read t.mine.scratch y = Memory.read s.mine.scratch y

/-- The doublewords of a granule. -/
def cbLow (s : State) (g : Nat) : Nat := Memory.nat s.mine.scratch (16 * g) 8
/-- See cbLow. -/
def cbHigh (s : State) (g : Nat) : Nat := Memory.nat s.mine.scratch (16 * g + 8) 8

/-- R294, R299 to R304: the tile commands: the registers they read, the command, whether its entry takes the barrier
word, and the condition under which the instruction itself does not trap. -/
structure TileSpec where
  reads : List (BitVec 6) := []
  cmd : TileCmd
  bar : Bool := true
  ok : Prop := True

/-- R296: the offset and pitch of a tile load or store. -/
def movable (o pitch : Word) : Prop :=
  pitch ≠ 0#64 ∧ pitch.toNat % 16 = 0 ∧ pitch.toNat < 2 ^ 20 ∧ o.toNat < 819200 ∧ o.toNat % 16 = 0

/-- R288: a shape word for a tile: the format and dimensions of an operand tile or of an accumulator, or empty. -/
def shapeOk (t : Nat) (w : Word) : Prop :=
  let f := w.extractLsb' 16 3
  let r := (w.extractLsb' 0 7).toNat
  let c := (w.extractLsb' 8 7).toNat
  w.getLsbD 7 = false ∧ w.extractLsb' 15 1 = 0 ∧ w.extractLsb' 19 45 = 0 ∧
    (if f = 0 then r = 0 ∧ c = 0
     else (if t < 16 then f = 1 ∨ f = 2 ∨ f = 3 else f = 5 ∨ f = 6) ∧ 1 ≤ r ∧ r ≤ 64 ∧ 1 ≤ c ∧
       c ≤ if f = 3 then 32 else 64)

/-- See TileSpec. -/
def tileSpec (s : State) : Instr → Option TileSpec
  | .tsh _ a t => some { reads := [a], cmd := .tsh t.toNat (s.xr a), bar := false, ok := shapeOk t.toNat (s.xr a) }
  | .tld _ b a t => some { reads := [a, b], cmd := .tld t.toNat (s.xr a) (s.xr b), ok := movable (s.xr a) (s.xr b) }
  | .tst _ b a t => some { reads := [a, b], cmd := .tst t.toNat (s.xr a) (s.xr b), ok := movable (s.xr a) (s.xr b) }
  | .tzero _ t => some { cmd := .tzero t.toNat }
  | .mma _ b a f z c => some { cmd := .mma f.toNat (z == 1#1) (16 + c.toNat) a.toNat b.toNat }
  | .tqnt _ b u t => some { reads := [b], cmd := .tqnt t.toNat u.toNat (s.xr b).toNat, ok := (s.xr b).toNat < 256 }
  | _ => none

/-- R307, R318: the copies: whether one is indexed (1 gather, 2 scatter), destination, source, and the fields. -/
structure CopySpec where
  idxd : Nat := 0
  dst : Space
  src : Space
  b : BitVec 5
  a : BitVec 5
  r : BitVec 1
  w : BitVec 1
  q : BitVec 3

/-- See CopySpec. -/
def copySpec : Instr → Option CopySpec
  | .cpMm _ b a r w q => some { dst := .mem, src := .mem, b := b, a := a, r := r, w := w, q := q }
  | .cpMs _ b a r w q => some { dst := .mem, src := .sp, b := b, a := a, r := r, w := w, q := q }
  | .cpMv _ b a r w q => some { dst := .mem, src := .vm, b := b, a := a, r := r, w := w, q := q }
  | .cpSm _ b a r w q => some { dst := .sp, src := .mem, b := b, a := a, r := r, w := w, q := q }
  | .cpSs _ b a r w q => some { dst := .sp, src := .sp, b := b, a := a, r := r, w := w, q := q }
  | .cpSv _ b a r w q => some { dst := .sp, src := .vm, b := b, a := a, r := r, w := w, q := q }
  | .cpVm _ b a r w q => some { dst := .vm, src := .mem, b := b, a := a, r := r, w := w, q := q }
  | .cpVs _ b a r w q => some { dst := .vm, src := .sp, b := b, a := a, r := r, w := w, q := q }
  | .cpVv _ b a r w q => some { dst := .vm, src := .vm, b := b, a := a, r := r, w := w, q := q }
  | .cpGth _ b a r w q => some { idxd := 1, dst := .sp, src := .mem, b := b, a := a, r := r, w := w, q := q }
  | .cpSct _ b a r w q => some { idxd := 2, dst := .mem, src := .sp, b := b, a := a, r := r, w := w, q := q }
  | _ => none

/-- R307, R308: the entry of a copy. -/
def CopySpec.entry (p : CopySpec) (s : State) : CopyEntry :=
  { who := s.issuer, num := s.nextEntry, dst := p.dst, src := p.src, idxd := p.idxd, few := p.w == 1#1, fer := p.r == 1#1,
    dbase := s.xr (p.a ++ 0#1), dpitch := s.xr (p.a ++ 1#1), sbase := s.xr (p.b ++ 0#1), spitch := s.xr (p.b ++ 1#1),
    ox0 := s.oxr 0, ox1 := s.oxr 1, ox2 := s.oxr 2, bar := s.oxr 3 }

/-- R307: the registers of a copy. -/
def CopySpec.reads (p : CopySpec) : List (BitVec 6) := [p.a ++ 0#1, p.a ++ 1#1, p.b ++ 0#1, p.b ++ 1#1]

/-- R320: the collectives: form, source and destination registers, queue. -/
def collSpec : Instr → Option (Nat × BitVec 6 × BitVec 6 × BitVec 2)
  | .clAredSum _ b a q => some (0, b, a, q)
  | .clAredMax _ b a q => some (1, b, a, q)
  | .clAredMin _ b a q => some (2, b, a, q)
  | .clBcst _ b a q => some (3, b, a, q)
  | .clGath _ b a q => some (4, b, a, q)
  | _ => none

/-- What an instruction that gives an entry to an engine leaves: registers and memory. -/
def gives (s t : State) : Prop := t.goesOn (s.th.pc + 4#64) ∧ s.KeepsRegs t [] ∧ ∀ x, t.byte x = s.byte x

/-! ### System, translation and context instructions -/

/-- R334: the special registers that `mfsr` reads. -/
def srOf (h : Thread) (n : Nat) : Word :=
  if n = 0 then h.st else if n = 1 then h.uha else if n = 2 then h.epc else if n = 3 then h.ecause
  else if n = 4 then h.einfo else if n = 5 then h.estat else if n = 6 then w64 (h.rtcCount % 8192)
  else if n = 7 then h.nrt else h.stklim

/-- R334, R10: a special register after `mtsr` wrote v; `ecause` and `einfo` are read-only. -/
def srAfter (h : Thread) (n : Nat) (v : Word) : Word :=
  if n = 0 then stWrite (stSet h.st 0 false) v else if n = 3 ∨ n = 4 then srOf h n
  else if n = 5 then stWrite h.estat v else if n = 6 then w64 (v.toNat % 8192) else v

/-- R335: the context and cluster registers by selector. -/
def crOf (s : State) (sel : Nat) : Option Word :=
  if 0x100 ≤ sel ∧ sel < 0x108 then some (vrd s.mine.win (sel - 0x100))
  else if 0x200 ≤ sel ∧ sel < 0x206 then some 0x8000000000000000#64
  else if 0x206 ≤ sel ∧ sel < 0x220 then some (vrd s.myCtx.scopes (sel - 0x200))
  else if 0x300 ≤ sel ∧ sel < 0x304 then some (vrd s.mine.hbc (sel - 0x300))
  else if sel = 0x400 then some s.myCtx.fqb
  else if sel = 0x401 then some (s.myCtx.fqh.setWidth 64)
  else if sel = 0x402 then some (s.myCtx.fqt.setWidth 64)
  else if sel = 0x403 then some s.myCtx.fqd
  else if sel = 0x500 then some s.myCtx.erb
  else if sel = 0x501 then some (w64 s.myCtx.ert)
  else if sel = 0x502 then some s.myCtx.erc
  else if sel = 0x503 then some s.myCtx.erth
  else none

/-- R340, R347: a ring register keeps its old value where LN is not permitted, and its reserved bits read 0. -/
def ringAfter (old v : Word) : Word :=
  if 6 ≤ v.toNat % 32 ∧ v.toNat % 32 ≤ 16 then v &&& 0xFFFFFFFFFFFFF01F#64 else old

/-- R335, R220, R238, R268, R340, R347: a context or cluster register after a write of v. -/
def crAfter (s : State) (sel : Nat) (old v : Word) : Word :=
  if sel < 0x108 then winWrite old v
  else if sel < 0x206 then old
  else if sel < 0x220 then scopeWrite (sel - 0x200) old v
  else if sel < 0x304 then hbWrite old v
  else if sel = 0x400 then (if s.myCtx.fqh = s.myCtx.fqt then ringAfter old v else old)
  else if sel = 0x401 then (v.setWidth 32).setWidth 64
  else if sel = 0x402 ∨ sel = 0x501 then old
  else if sel = 0x403 then v &&& 0x8000000003FFFFFF#64
  else if sel = 0x500 then ringAfter old v
  else if sel = 0x502 then v
  else v &&& 0xBF000000FFFFFFFF#64

/-- A kernel thread of a context with a feature. -/
def kernel (s : State) (f : Nat) : Prop := s.granted f ∧ s.th.kern = true

/-- R254, R363: the reply of the thread's request at its pc has come, without an error. -/
def replied (s : State) : Prop := s.th.rl.st = .done ∧ s.th.rl.tag = s.th.pc ∧ s.th.rl.code = 0

/-- R389: the context engine's queue may take an operation of the thread. -/
def engineOpen (s : State) : Prop :=
  barBad (s.oxr 3) = false ∧ s.holding = false ∧ s.unordered 4 = false ∧ s.myCtx.engine.length < 16

/-- R389: the queue of the issuer's context has one operation more. -/
def entered (s t : State) (op : CtxOp) (xa : Word) : Prop :=
  (t.ctx s.th.ctx).engine = s.myCtx.engine ++ [{ who := s.issuer, op := op, bar := s.oxr 3, xa := xa }]

/-- R370, R389: a handle of the issuer's context names a context; 255 names itself where the form allows it. -/
def handled (s : State) (x : Word) (self : Bool) : Prop :=
  x.toNat ≤ 255 ∧ (x.toNat = 255 → self = true) ∧ (s.ofHandle s.th.ctx x.toNat).isSome = true

/-! ### Events: what each does where its conditions hold -/

/-- The owed job at position n is done: it leaves the list and is performed. -/
def performsOwed (i : Instr) (s : State) (n : Nat) (j : Job) : Prop :=
  s.due[n]? = some j → ∃ t, exec i s = .next t ∧ t = ({ s with due := s.due.eraseIdx n } : State).perform j

/-- The same of messages, work and requests that keep their order on a way: the first of that way is performed (R171, R410). -/
def performsFirst (i : Instr) (s : State) (n : Nat) (j : Job) : Prop :=
  s.due[s.firstOfWay n]? = some j →
    ∃ t, exec i s = .next t ∧ t = ({ s with due := s.due.eraseIdx (s.firstOfWay n) } : State).perform j

/-- A slot goes back to issuing, and nothing else changes. -/
def awakes (i : Instr) (s : State) (sid : Nat) : Prop :=
  ∃ t, exec i s = .next t ∧ (t.slot sid) = { s.slot sid with st := .run } ∧
    (∀ k, k ≠ sid → t.slot k = s.slot k) ∧ t = { s with slots := t.slots }

/-- The thread is in the handler its context's user half names (R53, R349): the record of the trap, TM set and NR clear,
and the pc at UHA. -/
def inHandler (h h' : Thread) (tr : Trap) : Prop :=
  h'.epc = tr.pc ∧ h'.ecause = causeWord tr ∧ h'.einfo = tr.info ∧ h'.estat = tr.st ∧ h'.pc = h.uha ∧
    stBit h'.st 7 = true ∧ stBit h'.st 0 = false ∧ h'.x = h.x ∧ h'.v = h.v ∧ h'.k = h.k

/-! ### Traps, policies, decoding, memory -/

/-- An instruction ends in a precise trap: nothing of it happens but the raising of the trap (R17, R328). -/
def traps (i : Instr) (s : State) (code : Nat) (info : Word) : Prop := exec i s = .next (s.raise code info)

/-- Every memory of the device is in its canonical form. -/
def memoriesWf (s : State) : Prop :=
  Memory.wf s.mem = true ∧ ∀ cl, Memory.wf (s.cluster cl).scratch = true ∧ Memory.wf (s.cluster cl).vault = true

/-- R122, R125, R329, R432: the current slot has nothing before the instruction at its pc. -/
def unencumbered (s : State) : Prop :=
  (s.slot s.cur).st = .run ∧ s.me.halted = false ∧ s.th.lateFault = none ∧ s.th.trapWait = none ∧
    (s.th.pendOv = none ∨ stBit s.th.st 7 = true) ∧ s.th.cap = none ∧ s.breakpointAt = none ∧ s.th.fresh = false

/-- The end of a cycle of a core after what was issued in it. -/
def closed (cid : Nat) : Host.Outcome State Fault Refusal → Host.Outcome State Fault Refusal
  | .next t => .next (t.closeCycle cid)
  | o => o

/-- The parcel that the two bytes of a list begin with, and the word of its four (R11, R45). -/
def parcelAt (bs : List Byte) : BitVec 16 := bs.getD 1 0#8 ++ bs.getD 0 0#8
def wordAt (bs : List Byte) : BitVec 32 := bs.getD 3 0#8 ++ bs.getD 2 0#8 ++ parcelAt bs

/-- R373: the feature bit of the instruction that a word encodes: by its major, and of the hardware barriers and of the
work-placement instructions by their minor. -/
def featureOf (w : BitVec 32) : Option Nat :=
  let major := (w.extractLsb' 2 5).toNat
  let minor := (w.extractLsb' 25 5).toNat
  if (16 ≤ major ∧ major ≤ 21) ∨ major = 23 then some 0 else if major = 24 then some 1 else if major = 25 then some 2
  else if major = 26 then some 3 else if major = 13 then some 4 else if major = 12 ∧ (minor = 23 ∨ minor = 24) then some 5
  else if major = 15 ∧ minor ≤ 2 then some 6 else if major = 30 then some 7 else if major = 29 then some 8 else none

/-- R335, R362, R388: the instructions that only a kernel thread may execute. -/
def kernelOnly : Instr → Bool
  | .mfcr .. | .mtcr .. | .fltDone .. | .tlbInv .. | .tlbInva .. | .tlbProbe .. | .atpRd .. | .atpWr .. | .ctxNew .. |
    .ctxGrant .. | .ctxRd .. | .ctxWr .. | .ctxRun .. | .ctxStop .. | .ctxKill .. | .ctxResume .. | .ctxIntr .. => true
  | _ => false

/-- R75, R132: the registers that an instruction names, those of its scalar sources, and whether it has a policy. -/
structure Operands where
  names : List RegN
  reads : List (BitVec 6) := []
  policy : Bool := true

/-- The operands of an instruction that names scalar registers only. -/
def scalars (names reads : List (BitVec 6)) (policy : Bool := true) : Operands := ⟨names.map .x, reads, policy⟩

/-- The operands of the scalar instructions that no table has. -/
def restOperands : Instr → Option Operands
  | .kunpack _ a => some ⟨.x a :: ([0, 1, 2, 3, 4, 5, 6, 7] : List (BitVec 3)).map .k, [a], false⟩
  | .ldff _ a d | .ldfe _ a d | .feTest _ a d | .pin _ a d | .cbArr _ a d | .hbarWt _ _ a d | .rcv _ a d | .tlbProbe _ a d |
    .ctxNew _ a d => some (scalars [a, d] [a])
  | .stef _ a d | .stff _ a d => some (scalars [a, d] [a, d])
  | .feEmpty a | .unpin a | .wake a | .copReplay a | .ctxIntr a | .mtsr _ a => some (scalars [a] [a] false)
  | .park _ a | .qfCp _ a _ | .qfCl _ a _ | .cbClr _ a | .atpWr _ a | .ctxRun _ a | .ctxStop _ a | .ctxKill _ a |
    .ctxResume _ _ a => some (scalars [a] [a])
  | .hbarArr _ _ d | .mlease _ d | .tshr _ _ d => some (scalars [d] [])
  | .sleep _ d | .rdskip _ d | .selfid d | .fabst _ d | .placeSelf d | .placeLoad d | .mfsr _ d | .atpRd d =>
    some (scalars [d] [] false)
  | .place a d | .mfcr a d | .ctxRd _ a d => some (scalars [a, d] [a] false)
  | .mtcr b a | .fltDone b a => some (scalars [a, b] [a, b] false)
  | .copRd n a d => some (if n.toNat < 2 then scalars [a, d] [a] false else scalars [d] [] false)
  | .arm _ n a | .disarm _ n a => some (scalars ((List.range (n.toNat + 1)).map (fun i => a + BitVec.ofNat 6 i)) [] false)
  | .mint _ n a d => some (scalars (d :: (List.range (n.toNat + 1)).map (fun i => a + BitVec.ofNat 6 i)) [] false)
  | .snd _ b a _ | .launch _ b a | .cbInit _ b a | .tlbInv _ b a | .ctxGrant _ b a | .ctxWr _ b a _ =>
    some (scalars [a, b] [a, b])
  | .sndA _ _ b a d | .cbWt _ b a d => some (scalars [a, b, d] [a, b])
  | .cast _ b a c => some (scalars [a, b, chanReg c, chanReg c + 1#6] [a, b, chanReg c])
  | .recast _ c => some (scalars [chanReg c, chanReg c + 1#6] [chanReg c, chanReg c + 1#6])
  | .scfg b a n => some ⟨[.x a, .x b, .v (streamReg n)], [a, b], false⟩
  | .sclr n => some ⟨[.v (streamReg n)], [], false⟩
  | .srem n d => some ⟨[.v (streamReg n), .x d], [], false⟩
  | _ => none

/-- The operands of a vector instruction, its prefix's mask register among the registers it names. -/
noncomputable def vectorOperands (s : State) (i : Instr) : Option Operands :=
  let mem (a d : BitVec 5) : VecSpec := { hold := 0, req := 0, x := some a, dst := .v d }
  ((vecIntSpec s i).orElse (fun _ => (vecPermSpec s i).orElse (fun _ => (vecFpSpec s i).orElse (fun _ => match i with
    | .vld _ _ _ a d | .vldWk _ _ _ a d | .vst _ _ _ a d | .vstWk _ _ _ a d | .vldSp _ _ _ a d | .vstSp _ _ _ a d |
      .vldWin _ _ _ a d | .vstWin _ _ _ a d => some (mem a d)
    | _ => none)))).map (fun p => ⟨p.names s, p.x.toList.map xreg, true⟩)

/-- The operands of every instruction that names a register. -/
noncomputable def operandsOf (s : State) (i : Instr) : Option Operands :=
  let reg := ((aluSpec i).orElse (fun _ => (divSpec i).orElse (fun _ => (immSpec i).orElse (fun _ =>
    (compactSpec i).orElse (fun _ => (fpSpec i).orElse (fun _ => frameSpec i)))))).map
      (fun p => (⟨p.names, p.reads, false⟩ : Operands))
  let branch := (branchSpec i).map (fun p => scalars (p.reads ++ p.links) p.reads false)
  let access := ((accessSpec i).orElse (fun _ => (spSpec i).orElse (fun _ => vmSpec i))).map
    (fun p => scalars (p.reads ++ p.writes) p.reads)
  let amo := ((amoSpec i).orElse (fun _ => (bankSpec i).map (·.2))).map (fun p => scalars p.regs p.regs)
  let upd := (updSpec i).map (fun p => scalars [p.2.2.1, p.2.2.2] [p.2.2.1, p.2.2.2])
  let rel := (relSpec i).map (fun p => scalars [p.2.2.1, p.2.2.2] [p.2.2.1, p.2.2.2])
  let place := (placeSpec i).map (fun p => scalars (p.reads ++ (if p.store then [] else [p.d])) p.reads)
  let tile := (tileSpec s i).map (fun p => scalars p.reads p.reads)
  let copy := (copySpec i).map (fun p => scalars p.reads p.reads)
  let coll := (collSpec i).map (fun p => scalars [p.2.2.1, p.2.1] [p.2.2.1, p.2.1])
  reg.orElse (fun _ => branch.orElse (fun _ => access.orElse (fun _ => amo.orElse (fun _ => upd.orElse (fun _ =>
    rel.orElse (fun _ => place.orElse (fun _ => tile.orElse (fun _ => copy.orElse (fun _ => coll.orElse (fun _ =>
      (restOperands i).orElse (fun _ => vectorOperands s i)))))))))))

/-- The checks that precede those of an instruction's registers pass (R328, steps 3 and 4). -/
def mayIssue (s : State) (i : Instr) : Prop :=
  (∀ w f, encode i = .word w → featureOf w = some f → s.myCtx.feat.getLsbD f = true) ∧
    (kernelOnly i = true → s.th.kern = true)

/-- An instruction does what is said and no more, but that a vector instruction also ends its prefix. -/
def does (i : Instr) (s t : State) : Prop :=
  exec i s = .next t ∨ exec i s = .next (t.modTh (fun h => { h with prefixLatch := none }))

end Sys2Proof.Claims

open Sys2Proof Sys2Proof.Machine Sys2Proof.Claims

/-- R64, R65, R77, R78, R82, R83, R87 to R89: every register operation of majors 0 and 3, the immediate forms, the moves of
operand extensions, `kpack`, `land`, the compact register and immediate forms, and the frames where the stack-limit check
passes, complete with their results. -/
def Obligations.AluComplete : Prop :=
  completesAs aluSpec ∧ completesAs immSpec ∧ completesAs compactSpec ∧ completesAs frameSpec
/-- R80, R81: every instruction of major 2 completes with its result, a division with a zero divisor only where DZE is
clear; with DZE set it takes the trap DIVZERO, with `einfo` the whole dividend register. No other case traps. -/
def Obligations.DivComplete : Prop :=
  completesAs divSpec ∧
  ∀ (b a d : BitVec 6) (s : State), canRun s [a, b, d] [a, b] → stBit s.th.st 9 = true →
    (s.xr b = 0#64 → ∀ i ∈ [Instr.div b a d, .divu b a d, .rem b a d, .remu b a d], traps i s tDIVZERO (s.xr a)) ∧
    (lo32 (s.xr b) = 0#32 → ∀ i ∈ [Instr.divw b a d, .divuw b a d, .remw b a d, .remuw b a d],
      traps i s tDIVZERO (s.xr a))
/-- R90 to R94: the scalar FP32 instructions complete where no step of R91 traps. -/
def Obligations.FpComplete : Prop := completesAs fpSpec

/-- R84, R85, R73: a branch that is not taken goes on behind itself; a taken one whose target passes its check goes on at
the target, with the prefix latch clear and `x30` holding the address behind it where it links. -/
def Obligations.BranchComplete : Prop :=
  ∀ (i : Instr) (p : BranchSpec) (s : State), branchSpec i = some p →
    s.unheld ((p.reads ++ p.links).map .x) → s.arrived p.reads →
    (p.taken s = false → ∃ t, exec i s = .next t ∧ t.goesOn (s.th.pc + w64 p.size) ∧ s.OnlyRegs t p.reads []) ∧
    (p.taken s = true → (begun s p.reads p.links).checkTarget p.kind (p.target s) = .ok →
      ∃ t, exec i s = .next t ∧ t.goesOn (p.target s) ∧ t.th.prefixLatch = none ∧
        (p.link = true → t.xr 30 = s.th.pc + w64 p.size) ∧ s.OnlyRegs t p.reads p.links)

/-- R58, R89: the instructions that write operand-extension or mask registers; the other minors of major 4 are no
instructions. -/
def Obligations.ExtAndMaskComplete : Prop :=
  (∀ (v : BitVec 16) (n : BitVec 2) (s : State), ∃ t, exec (.oxl v n) s = .next t ∧ t.goesOn (s.th.pc + 4#64) ∧
    t.oxr n.toNat = (s.oxr n.toNat).extractLsb' 16 16 ++ v ∧
    (∀ m : BitVec 2, m ≠ n → t.oxr m.toNat = s.oxr m.toNat) ∧
    s.OnlyRegs (t.modTh (fun h => { h with ox := s.th.ox })) [] []) ∧
  (∀ (v : BitVec 16) (n : BitVec 2) (s : State), ∃ t, exec (.oxh v n) s = .next t ∧ t.goesOn (s.th.pc + 4#64) ∧
    t.oxr n.toNat = v ++ (s.oxr n.toNat).extractLsb' 0 16 ∧
    (∀ m : BitVec 2, m ≠ n → t.oxr m.toNat = s.oxr m.toNat) ∧
    s.OnlyRegs (t.modTh (fun h => { h with ox := s.th.ox })) [] []) ∧
  (∀ (n : BitVec 3) (a : BitVec 6) (s : State), s.unheld (.x a :: ([0, 1, 2, 3, 4, 5, 6, 7] : List (BitVec 3)).map .k) →
    s.arrived [a] → ∃ t, exec (.kunpack n a) s = .next t ∧ t.goesOn (s.th.pc + 4#64) ∧
    (∀ i : BitVec 3, t.kr i = (s.kr i).extractLsb' 1 15 ++ (s.xr a).extractLsb' (8 * n.toNat + i.toNat) 1) ∧
    s.OnlyRegs (t.modTh (fun h => { h with k := s.th.k })) [a] []) ∧
  (∀ w : BitVec 32, w.extractLsb' 0 7 = 0x13#7 → 2#7 ≤ w.extractLsb' 25 7 → decodeWord w = none)

/-- R96, R97, R232 to R236: a load whose address passes its checks and whose line has a usable copy in the L1, or in the
slot's bypass line.
The model's choice: which copies may still serve a thread that has acquired (log entry 70). -/
def Obligations.LoadComplete : Prop :=
  ∀ (i : Instr) (p : AccessSpec) (s s2 : State) (e : TlbEntry) (m : Nat) (c : L1Line),
    accessSpec i = some p → i.wf = true → p.store = false → p.ready s →
    (p.begun s).resolve (p.addr s) p.width (Kind.ofCode 0) = .ok e s2 →
    s2.machineOf (e.sys (p.addr s).toNat) = some m → s2.ownUpdate (m / 64) = false →
    let s3 := lineReady s2 (m / 64)
    s3.copyFor (coreOf s.cur) (s.cur % 16) (m / 64) s.th.pc = some c → s3.usable c p.strong = true →
    let s4 := s3.readCopy (coreOf s.cur) (m / 64) s.th.ctx (p.addr s).toNat
    let d := ((s4.copyFor (coreOf s.cur) (s.cur % 16) (m / 64) s.th.pc).getD c).data
    ∃ t, exec i s = .next t ∧ t.xr p.reg = p.extend (d.toNat / 2 ^ (8 * (m % 64)) % 2 ^ (8 * p.width)) ∧
      t.goesOn (s.th.pc + w64 p.size) ∧ s.KeepsRegs t [p.reg] ∧ ∀ a, t.byte a = s4.byte a

/-- R98, R208: a weak store whose address passes its checks and that finds room in the combining buffer: it enters the
buffer, and no byte of HBM changes but by the thread's own earlier stores that it must follow. -/
def Obligations.WeakStoreComplete : Prop :=
  ∀ (i : Instr) (p : AccessSpec) (s s2 : State) (e : TlbEntry) (m : Nat),
    accessSpec i = some p → i.wf = true → p.store = true → p.strong = false → p.ready s →
    (p.begun s).resolve (p.addr s) p.width (Kind.ofCode 1) = .ok e s2 →
    s2.machineOf (e.sys (p.addr s).toNat) = some m → s2.ownUpdate (m / 64) = false → m % 64 + p.width ≤ 64 →
    let s3 := combReady s2 (m / 64)
    ((∃ x ∈ s3.me.comb, x.line = m / 64) ∨ s3.me.comb.length < 16) →
    ∃ t, exec i s = .next t ∧ t.goesOn (s.th.pc + w64 p.size) ∧ s.KeepsRegs t [] ∧ (∀ a, t.byte a = s3.byte a) ∧
      ∀ a, byteFor t (coreOf s.cur) a =
        if m ≤ a ∧ a < m + p.width then byteOf (s.xr p.reg).toNat (a - m) else byteFor s3 (coreOf s.cur) a

/-- R98, R232: a strong store whose address passes its checks and that has its grant: its bytes are in memory, and every
other byte of memory is as its own earlier stores that it must follow leave it.
The model's choice: a store that has its grant is performed at once (log entry 14). -/
def Obligations.StrongStoreComplete : Prop :=
  ∀ (i : Instr) (p : AccessSpec) (s s2 : State) (e : TlbEntry) (m : Nat),
    accessSpec i = some p → i.wf = true → p.store = true → p.strong = true → p.ready s →
    (p.begun s).resolve (p.addr s) p.width (Kind.ofCode 1) = .ok e s2 →
    s2.machineOf (e.sys (p.addr s).toNat) = some m → s2.ownUpdate (m / 64) = false →
    let s3 := lineReady s2 (m / 64)
    (∃ g ∈ s3.me.grants, g.1 = s.cur % 16 ∧ g.2.1 = m / 64) →
    ∃ t, exec i s = .next t ∧ t.goesOn (s.th.pc + w64 p.size) ∧ s.KeepsRegs t [] ∧
      ∀ a, t.byte a = if m ≤ a ∧ a < m + p.width then byteOf (s.xr p.reg).toNat (a - m) else s3.byte a

/-- R252, R215, R226, R227: an aligned access of the scratchpad within its usable bytes, and of vault memory within the
cluster's, no reconfiguration being under way. -/
def Obligations.BankAccessComplete : Prop :=
  ∀ (vm : Bool) (i : Instr) (p : AccessSpec) (s : State), (if vm then vmSpec i else spSpec i) = some p → i.wf = true →
    p.ready s → (vm = true → s.mine.vsegTo = none) →
    (p.addr s).toNat + p.width ≤ (if vm then s.mine.vmSize else 819200) → (p.addr s).toNat % p.width = 0 →
    let q := if p.store then p.begun s else bankRead vm (p.addr s).toNat p.width (p.begun s)
    ∃ t, exec i s = .next t ∧ t.goesOn (s.th.pc + w64 p.size) ∧ s.KeepsRegs t p.writes ∧ (∀ a, t.byte a = q.byte a) ∧
      (p.store = false → t.xr p.reg = p.extend (Memory.nat (bankOf vm q) (p.addr s).toNat p.width) ∧
        bankOf vm t = bankOf vm q) ∧
      (p.store = true → ∀ a, Memory.read (bankOf vm t) a =
        if (p.addr s).toNat ≤ a ∧ a < (p.addr s).toNat + p.width then
          byteOf (s.xr p.reg).toNat (a - (p.addr s).toNat)
        else Memory.read (bankOf vm q) a) ∧
      bankOf (!vm) t = bankOf (!vm) q ∧ ∀ cl, cl ≠ clusterOf s.cur → t.cluster cl = q.cluster cl

/-- R96, R97, R11, R343: what the checks of an address answer, in their order. -/
def Obligations.AddressChecks : Prop :=
  ∀ (s : State) (va : Word) (n : Nat) (k : Kind),
    (canonical va = false → s.resolve va n k = .trap tADDRESS va) ∧
    (canonical va = true → va.toNat % n ≠ 0 → s.resolve va n k = .trap tMISALIGNED va) ∧
    (canonical va = true → va.toNat % n = 0 →
      (∀ e, s.xlate (coreOf s.cur) s.th.ctx va.toNat k = some e → e.grants k = false → s.resolve va n k = .trap tACCESS va) ∧
      ((∀ e, s.xlate (coreOf s.cur) s.th.ctx va.toNat k = some e → e.grants k = true) →
        (va.toNat / 4096 ∈ s.th.failed → s.resolve va n k = .failed (va.toNat / 4096) va) ∧
        (va.toNat / 4096 ∉ s.th.failed → (s.pending (va.toNat / 4096) = true ∨ s.heldOn (va.toNat / 4096) = true) →
          ∃ t, s.resolve va n k = .nr [.faultPending (va.toNat / 4096)] t ∧ s.KeepsRegs t []) ∧
        (va.toNat / 4096 ∉ s.th.failed → s.pending (va.toNat / 4096) = false → s.heldOn (va.toNat / 4096) = false →
          (s.xlate (coreOf s.cur) s.th.ctx va.toNat k = none →
            ∃ t, s.resolve va n k = .nr [.translation va.toNat k.w] t ∧ t = { s with slots := t.slots, due := t.due } ∧
              s.KeepsRegs t []) ∧
          (∀ e, s.xlate (coreOf s.cur) s.th.ctx va.toNat k = some e →
            ∃ t, s.resolve va n k = .ok e t ∧ t = { s with slots := t.slots } ∧ s.KeepsRegs t []))))

/-- R255, R256, R242: an atomic of scope at most 2 whose line its core owns: d takes the old value and memory the new. -/
def Sys2Proof.Claims.amoComplete : Prop :=
  ∀ (i : Instr) (p : AmoSpec) (s s2 s3 s4 : State) (e : TlbEntry) (m : Nat) (c : L1Line),
    amoSpec i = some p → canAct s p.regs p.regs → (begun s p.regs []).scopeCheck p.scope = some s2 →
    s2.resolve (s.xr p.a) p.bytes (Kind.ofCode 3) = .ok e s3 → s3.releaseFence p.scope = .ok () s4 →
    s4.machineOf (e.sys (s.xr p.a).toNat) = some m → s4.ownUpdate (m / 64) = false → p.scope ≤ 2 →
    (lineReady s4 (m / 64)).copyFor (coreOf s.cur) (s.cur % 16) (m / 64) s.th.pc = some c → c.excl = true →
    s.th.lost ≠ some s.th.pc →
    let s5 := ((lineReady s4 (m / 64)).mergeAll (m / 64)).readLine (m / 64) s.th.ctx m false true
    let old := Memory.nat s5.mem m p.bytes
    ∃ t, exec i s = .next t ∧ t.goesOn (s.th.pc + 4#64) ∧ s.KeepsRegs t [p.d] ∧ t.xr p.d = oldWord p.bytes old ∧
      ∀ a, t.byte a = byteAfter (p.write s old) m p.bytes a (s5.byte a)

/-- R254, R256: an atomic of a wider scope, or to a page elsewhere, completes when its reply has come: d takes the value
that the request latch holds. -/
def Sys2Proof.Claims.amoReplyComplete : Prop :=
  ∀ (i : Instr) (p : AmoSpec) (s s2 s3 s4 : State) (e : TlbEntry),
    amoSpec i = some p → canAct s p.regs p.regs → (begun s p.regs []).scopeCheck p.scope = some s2 →
    s2.resolve (s.xr p.a) p.bytes (Kind.ofCode 3) = .ok e s3 → s3.releaseFence p.scope = .ok () s4 →
    let far := s4.machineOf (e.sys (s.xr p.a).toNat) = none
    (far ∨ 2 < p.scope ∧ ∃ m, s4.machineOf (e.sys (s.xr p.a).toNat) = some m ∧ s4.ownUpdate (m / 64) = false) →
    s.th.rl.st = .done → s.th.rl.tag = s.th.pc → s.th.rl.code = 0 →
    ∃ t, exec i s = .next t ∧ t.goesOn (s.th.pc + 4#64) ∧ s.KeepsRegs t [p.d] ∧ t.th.rl.st = .idle ∧
      t.xr p.d = oldWord p.bytes s.th.rl.value.toNat ∧ ∀ a, t.byte a = s4.byte a

/-- R255, R256: an atomic at a bank of the cluster: d takes the old doubleword and the bank the new one. -/
def Sys2Proof.Claims.amoBankComplete : Prop :=
  ∀ (i : Instr) (vm : Bool) (p : AmoSpec) (s s2 s3 : State), bankSpec i = some (vm, p) → canAct s p.regs p.regs →
    (begun s p.regs []).scopeCheck p.scope = some s2 → s2.releaseFence p.scope = .ok () s3 →
    (s.xr p.a).toNat % 8 = 0 → (s.xr p.a).toNat + 8 ≤ (if vm then s.mine.vmSize else 819200) →
    (vm = true → s.mine.vsegTo = none) →
    let q := bankRead vm (s.xr p.a).toNat 8 s3
    let old := Memory.nat (bankOf vm q) (s.xr p.a).toNat 8
    ∃ t, exec i s = .next t ∧ t.goesOn (s.th.pc + 4#64) ∧ s.KeepsRegs t [p.d] ∧ t.xr p.d = BitVec.ofNat 64 old ∧
      (∀ a, Memory.read (bankOf vm t) a =
        byteAfter (p.write s old) (s.xr p.a).toNat 8 a (Memory.read (bankOf vm q) a)) ∧
      bankOf (!vm) t = bankOf (!vm) q ∧ ∀ a, t.byte a = q.byte a

/-- The atomics complete: at a line that the core owns, with the reply of their request, and at a bank of the cluster.
The model's choice: an atomic is performed at its home at once (log entry 14). -/
def Obligations.AmoComplete : Prop := Claims.amoComplete ∧ Claims.amoReplyComplete ∧ Claims.amoBankComplete

/-- R243, R257, R258: the updates of a line of this device: the unit of the core's update-only line takes the operand; a
new line takes a way of the L1; an update that finds none goes to the home as one merge. -/
def Sys2Proof.Claims.updLocalComplete : Prop :=
  ∀ (i : Instr) (kind : Nat) (w : BitVec 1) (a d : BitVec 6) (s s2 : State) (e : TlbEntry) (m : Nat),
    updSpec i = some (kind, w, a, d) → canAct s [a, d] [a, d] →
    (begun s [a, d] []).resolve (s.xr a) (wbytes w) (Kind.ofCode 3) = .ok e s2 →
    s2.machineOf (e.sys (s.xr a).toNat) = some m →
    let q := lineReady s2 (m / 64)
    let val := unitAfter kind w (m % 64) (s.xr d).toNat
    (∀ l, q.me.upd.find? (fun l => l.line == m / 64) = some l →
      (∀ u, l.units.find? (fun u => u.idx == m % 64 / 8) = some u → u.kind = kind ∧ u.wide = (w == 1#1)) →
      ∃ t, exec i s = .next t ∧ t.goesOn (s.th.pc + 4#64) ∧ s.KeepsRegs t [] ∧ (∀ a, t.byte a = q.byte a) ∧
        hasUnit s t (m / 64) (m % 64 / 8) kind w (val (l.units.find? (fun u => u.idx == m % 64 / 8)))) ∧
    (q.me.upd.find? (fun l => l.line == m / 64) = none → ∀ r, q.updRoom (m / 64) = some r →
      ∃ t, exec i s = .next t ∧ t.goesOn (s.th.pc + 4#64) ∧ s.KeepsRegs t [] ∧ (∀ a, t.byte a = r.byte a) ∧
        hasUnit s t (m / 64) (m % 64 / 8) kind w (val none)) ∧
    (q.me.upd.find? (fun l => l.line == m / 64) = none → q.updRoom (m / 64) = none → q.me.comb.length < 16 →
      let r := q.readLine (m / 64) s.th.ctx (m / 8 * 8) false true
      ∃ t, exec i s = .next t ∧ t.goesOn (s.th.pc + 4#64) ∧ s.KeepsRegs t [] ∧ t.me.upd = q.me.upd ∧
        ∀ a, t.byte a = byteAfter (some (updApply kind (w == 1#1) (Memory.nat r.mem (m / 8 * 8) 8) (val none)))
          (m / 8 * 8) 8 a (r.byte a))

/-- R99, R257, R345: an update to a page elsewhere becomes a request to its owner; one to a page whose fault is serviced is
held. -/
def Sys2Proof.Claims.updAwayComplete : Prop :=
  ∀ (i : Instr) (kind : Nat) (w : BitVec 1) (a d : BitVec 6) (s : State), updSpec i = some (kind, w, a, d) →
    canAct s [a, d] [a, d] → let b := begun s [a, d] []
    (∀ e s2, b.resolve (s.xr a) (wbytes w) (Kind.ofCode 3) = .ok e s2 →
      s2.machineOf (e.sys (s.xr a).toNat) = none → s2.me.remote.length < Config.requestRoom →
      ∃ t, exec i s = .next t ∧ t.goesOn (s.th.pc + 4#64) ∧ s.KeepsRegs t [] ∧ (∀ a, t.byte a = s2.byte a) ∧
        ∃ r ∈ t.me.remote, r.kind = 3 ∧ r.sys = e.sys (s.xr a).toNat ∧ r.op = kind ∧ r.wide = (w == 1#1) ∧
          r.operand = s.xr d ∧ r.slot = s.cur % 16 ∧ r.uid = s.th.uid) ∧
    (canonical (s.xr a) = true → (s.xr a).toNat % wbytes w = 0 → b.denied (s.xr a).toNat (Kind.ofCode 3) = false →
      (b.pending ((s.xr a).toNat / 4096) = true ∨ b.heldOn ((s.xr a).toNat / 4096) = true) →
      s.mine.replay.length < Config.replayRoom →
      ∃ t, exec i s = .next t ∧ t.goesOn (s.th.pc + 4#64) ∧ s.KeepsRegs t [] ∧ (∀ a, t.byte a = s.byte a) ∧
        ∃ h ∈ t.mine.replay, h.who.uid = s.th.uid ∧ h.va = (s.xr a).toNat ∧ h.upd = some (kind, w == 1#1, s.xr d))

/-- The commutative updates complete. -/
def Obligations.UpdComplete : Prop := Claims.updLocalComplete ∧ Claims.updAwayComplete

/-- R260, R261, R236, R240: the fences: a `fence.s` whose conditions hold has acquired what its weak loads have seen of the
threads of its scope, and its later writes carry it; `fence.i` has discarded the core's instruction lines. -/
def Sys2Proof.Claims.fenceComplete : Prop :=
  (∀ (p : Policy) (sc : BitVec 5) (s s2 s3 : State), (begun s [] []).scopeCheck sc.toNat = some s2 →
    s2.fence sc.toNat = .ok () s3 → ∃ t, exec (.fenceS p sc) s = .next t ∧ t.goesOn (s.th.pc + 4#64) ∧
      s.KeepsRegs t [] ∧ (∀ a, t.byte a = s3.byte a) ∧
      (sc.toNat ≠ 0 → ∃ r ∈ t.th.fences, r.scope = sc.toNat ∧ r.upto = t.performed ∧ r.cid = coreOf s.cur ∧
        (∀ q ∈ s.th.seen, t.member r (16 * q.cid) = true → q.upto ≤ t.th.floor) ∧
        t.th.strongFloor ≤ t.th.floor ∧ t.th.clock ≤ t.th.fenceClock ∧ (sc.toNat ≠ 1 → t.th.stale = []))) ∧
  (∀ (s : State), ∃ t, exec .fenceI s = .next t ∧ t.goesOn (s.th.pc + 4#64) ∧ s.KeepsRegs t [] ∧
      (∀ a, t.byte a = s.byte a) ∧ t.me.l1i = [] ∧ t.th.fetched = [] ∧ ∀ k, k ≠ s.cur → t.slot k = s.slot k)

/-- R240, R241, R249: when the conditions of a fence hold: what it finds once the thread's earlier vector stores have been
performed. -/
def Sys2Proof.Claims.fenceConditions : Prop :=
  ∀ (s : State) (sc : Nat),
    (sc = 0 → s.fence sc = .ok () s) ∧
    (sc ≠ 0 → s.holding = false → s.unordered sc = false → s.fence sc = .ok () (s.fenced sc)) ∧
    (sc ≠ 0 → s.holding = true → ∃ cs t, s.fence sc = .nr (.heldStores :: cs) t) ∧
    (sc ≠ 0 → s.holding = false → s.unordered sc = true → ∃ t, s.fence sc = .nr [.order sc] t)

/-- R236, R240, R260, R261: the fences, and when their conditions hold.
The model's choices: an older copy that has served a load is an access that a fence of scope cluster or wider waits for (log
entry 68); what a fence leaves with the thread of its strong loads (log entry 70). -/
def Obligations.FenceComplete : Prop := Claims.fenceComplete ∧ Claims.fenceConditions

/-- R260: a release store whose fence's conditions hold and that has its grant. -/
def Obligations.ReleaseComplete : Prop :=
  ∀ (i : Instr) (n : Nat) (sc : BitVec 5) (a d : BitVec 6) (s s2 s3 s4 : State) (e : TlbEntry) (m : Nat),
    relSpec i = some (n, sc, a, d) → canAct s [a, d] [a, d] → (begun s [a, d] []).scopeCheck sc.toNat = some s2 →
    s2.resolve (s.xr a) n (Kind.ofCode 1) = .ok e s3 → s3.releaseFence sc.toNat = .ok () s4 →
    s4.machineOf (e.sys (s.xr a).toNat) = some m → s4.ownUpdate (m / 64) = false →
    let s5 := lineReady s4 (m / 64)
    (∃ g ∈ s5.me.grants, g.1 = s.cur % 16 ∧ g.2.1 = m / 64) →
    ∃ t, exec i s = .next t ∧ t.goesOn (s.th.pc + 4#64) ∧ s.KeepsRegs t [] ∧
      ∀ x, t.byte x = byteAfter (some (s.xr d).toNat) m n x (s5.byte x)

/-- R262, R264: the full-empty accesses of an aligned granule within the scratchpad. A store serves those that wait on the
granule, in the order in which they entered: each parked thread is woken, up to the first remote load, which takes the
doubleword and leaves the granule empty; those served leave the park table. -/
def Obligations.FullEmptyComplete : Prop :=
  ∀ (p : Policy) (a d : BitVec 6) (s : State), (s.xr a).toNat < 819200 → (s.xr a).toNat % 16 = 0 →
    let g := (s.xr a).toNat / 16
    let q := bankRead false (s.xr a).toNat 8 (begun s [a] [d])
    let dw := BitVec.ofNat 64 (Memory.nat q.mine.scratch (s.xr a).toNat 8)
    let others (t : State) : Prop := ∀ h, h ≠ g → fullBit t h = fullBit s h
    let read (t : State) : Prop := t.mine.scratch = q.mine.scratch ∧ ∀ x, t.byte x = q.byte x
    let waiting := s.mine.park.filter (fun e => e.gran == g)
    let woken := waiting.takeWhile (fun e => e.kind == 1)
    let taker := waiting.find? (fun e => e.kind != 1)
    let wrote (t : State) : Prop := (∀ x, t.byte x = s.byte x) ∧ others t ∧
      (∀ x, Memory.read t.mine.scratch x =
        byteAfter (some (s.xr d).toNat) (s.xr a).toNat 8 x (Memory.read s.mine.scratch x)) ∧
      (fullBit t g = true ↔ taker = none) ∧ (∀ e ∈ woken, Job.parkWake e.ctx e.frame ∈ t.due) ∧
      (∀ e, taker = some e → ∃ m, Job.arrive (clusterOf s.cur) m ∈ t.due ∧ m.delivery = true ∧ m.value = s.xr d ∧
        m.idx = e.reg.toNat ∧ m.tuid = e.uid) ∧
      t.mine.park = (woken ++ taker.toList).foldl List.erase s.mine.park
    (canAct s [a, d] [a] → fullBit s g = true → ∃ t, exec (.ldff p a d) s = .next t ∧ t.goesOn (s.th.pc + 4#64) ∧
      s.KeepsRegs t [d] ∧ t.xr d = dw ∧ read t ∧ t.mine.fe = s.mine.fe) ∧
    (canAct s [a, d] [a] → fullBit s g = true → ∃ t, exec (.ldfe p a d) s = .next t ∧ t.goesOn (s.th.pc + 4#64) ∧
      s.KeepsRegs t [d] ∧ t.xr d = dw ∧ read t ∧ fullBit t g = false ∧ others t) ∧
    (canAct s [a, d] [a, d] → fullBit s g = false →
      ∃ t, exec (.stef p a d) s = .next t ∧ t.goesOn (s.th.pc + 4#64) ∧ s.KeepsRegs t [] ∧ wrote t) ∧
    (canAct s [a, d] [a, d] →
      ∃ t, exec (.stff p a d) s = .next t ∧ t.goesOn (s.th.pc + 4#64) ∧ s.KeepsRegs t [] ∧ wrote t) ∧
    (canAct s [a] [a] → ∃ t, exec (.feEmpty a) s = .next t ∧ t.goesOn (s.th.pc + 4#64) ∧ s.KeepsRegs t [] ∧
      fullBit t g = false ∧ others t ∧ t.mine.scratch = s.mine.scratch ∧ (∀ x, t.byte x = s.byte x) ∧
      t.mine.park = s.mine.park) ∧
    (canAct s [a, d] [a] → ∃ t, exec (.feTest p a d) s = .next t ∧ t.goesOn (s.th.pc + 4#64) ∧ s.KeepsRegs t [d] ∧
      t.xr d = one (fullBit s g) ∧ read t ∧ t.mine.fe = s.mine.fe)

/-- R263, R254, R259: a place form completes when its reply has come: a load takes the value that the request latch
holds. -/
def Obligations.PlaceFormComplete : Prop :=
  ∀ (i : Instr) (p : PlaceSpec) (s : State), placeSpec i = some p →
    canAct s (p.reads ++ (if p.store then [] else [p.d])) p.reads → p.place s ≤ s.th.pm1 →
    (s.xr p.a).toNat % p.align = 0 → (s.xr p.a).toNat + p.align ≤ p.limit →
    s.th.rl.st = .done → s.th.rl.tag = s.th.pc → s.th.rl.code = 0 →
    ∃ t, exec i s = .next t ∧ t.goesOn (s.th.pc + 4#64) ∧ t.th.rl.st = .idle ∧
      (∀ a, t.byte a = s.byte a) ∧
      s.KeepsRegs t (if p.store then [] else [p.d]) ∧ (p.store = false → t.xr p.d = s.th.rl.value)

/-- R265, R393 to R395: `park` on a full granule is ready at once; on an empty one the thread goes into a save frame, which
holds its registers, and its slot is left, with an entry of the park table for it; memory changes only by the thread's own
earlier stores and in the frame. -/
def Obligations.ParkComplete : Prop :=
  ∀ (p : Policy) (a : BitVec 6) (s : State), canAct s [a] [a] → (s.xr a).toNat < 819200 → (s.xr a).toNat % 16 = 0 →
    s.th.pendingAny = false → s.th.rl.st ≠ .busy → s.th.ll.st ≠ .busy → s.th.sl.st ≠ .busy →
    (fullBit s ((s.xr a).toNat / 16) = true → ∃ t, exec (.park p a) s = .next t ∧ t.goesOn (s.th.pc + 4#64) ∧
      s.KeepsRegs t [] ∧ ∀ x, t.byte x = s.byte x) ∧
    (∀ n s2, fullBit s ((s.xr a).toNat / 16) = false →
      (begunHeavy s [a] []).parkAdmits (clusterOf s.cur) (begunHeavy s [a] []).issuer = true →
      (begunHeavy s [a] []).myCtx.freeFrame = some n →
      let s1 := ((((begunHeavy s [a] []).flushPort (coreOf s.cur)).flushSends s.cur).settle s.cur).releaseLines s.cur
      let h : Thread := { s1.th.ready with pc := s1.th.pc + 4#64 }
      s1.ctxWrite s1.th.ctx ((s1.ctx s1.th.ctx).frameAddr n) (h.slotFrame ++ h.extension (s1.slot s.cur).qo) = some s2 →
      ∃ t, exec (.park p a) s = .next t ∧ (t.slot s.cur).occupied = false ∧ (∀ x, t.byte x = s2.byte x) ∧
        (∃ e ∈ t.mine.park, e.kind = 1 ∧ e.gran = (s.xr a).toNat / 16 ∧ e.sid = s.cur ∧ e.frame = n) ∧
        ∃ f ∈ (t.ctx s.th.ctx).framesIn, f.num = n ∧ f.why = 1 ∧ f.sid = s.cur ∧ f.th = h ∧ f.th.uid = s.th.uid ∧
          f.th.pc = s.th.pc + 4#64 ∧ (s.me.port = [] → f.th.x = s.th.x) ∧ f.th.v = s.th.v ∧ f.th.k = s.th.k ∧
          f.th.ox = s.th.ox ∧ f.th.streams = s.th.streams ∧ f.th.nrt = s.th.nrt ∧ f.th.stklim = s.th.stklim ∧
          f.th.uha = s.th.uha ∧ ∀ k, k ≠ 0 → stBit f.th.st k = stBit s.th.st k)

/-- R267: the pins of lines of the core's L1: of a line that the L1 holds, and of one that it does not, which nothing can
pin. -/
def Sys2Proof.Claims.pinSets : Prop :=
  ∀ (p : Policy) (a d : BitVec 6) (s s2 : State) (e : TlbEntry), canAct s [a, d] [a] →
    (begun s [a] [d]).resolve (s.xr a) 1 (Kind.ofCode 0) = .ok e s2 →
    (∀ m c, s2.machineOf (e.sys (s.xr a).toNat) = some m → s2.ownUpdate (m / 64) = false →
      s2.me.l1.find? (m / 64) = some c →
      let room := c.pins.contains (s.cur % 16) ||
        decide ((s2.releaseHold (coreOf s.cur) (s.cur % 16) (m / 64)).me.pinCount < 128)
      ∃ t, exec (.pin p a d) s = .next t ∧ t.goesOn (s.th.pc + 4#64) ∧ s.KeepsRegs t [d] ∧ t.xr d = one room ∧
        (∀ x, t.byte x = s.byte x) ∧
        (room = true → ∃ c', t.me.l1.find? (m / 64) = some c' ∧ s.cur % 16 ∈ c'.pins ∧ c'.data = c.data)) ∧
    (∀ m c, s2.machineOf (e.sys (s.xr a).toNat) = some m → s2.ownUpdate (m / 64) = false →
      s2.me.l1.find? (m / 64) = none → s2.copyFor (coreOf s.cur) (s.cur % 16) (m / 64) s.th.pc = some c →
      ∃ t, exec (.pin p a d) s = .next t ∧ t.goesOn (s.th.pc + 4#64) ∧ s.KeepsRegs t [d] ∧ t.xr d = 0#64 ∧
        ∀ x, t.byte x = s.byte x) ∧
    (∀ c, s2.machineOf (e.sys (s.xr a).toNat) = none →
      s2.copyFor (coreOf s.cur) (s.cur % 16) (e.sys (s.xr a).toNat / 64) s.th.pc = some c →
      ∃ t, exec (.pin p a d) s = .next t ∧ t.goesOn (s.th.pc + 4#64) ∧ s.KeepsRegs t [d] ∧ t.xr d = 0#64 ∧
        ∀ x, t.byte x = s.byte x)

/-- R266, R267: releasing pins, and the prefetch, which waits for nothing and consumes nothing. -/
def Sys2Proof.Claims.pinReleases : Prop :=
  ∀ (a : BitVec 6) (s : State),
    (canRun s [a] [a] → ∃ t, exec (.unpin a) s = .next t ∧ t.goesOn (s.th.pc + 4#64) ∧ s.KeepsRegs t [] ∧
      (∀ x, t.byte x = s.byte x) ∧
      ∀ m c, pinAt (begun s [a] []) (s.xr a).toNat = some m → t.me.l1.find? (m / 64) = some c →
        s.cur % 16 ∉ c.pins) ∧
    (∃ t, exec .unpinAll s = .next t ∧ t.goesOn (s.th.pc + 4#64) ∧ s.KeepsRegs t [] ∧ (∀ x, t.byte x = s.byte x) ∧
      ∀ l ∈ t.me.l1, s.cur % 16 ∉ l.2.pins) ∧
    (∃ t, exec (.pf a) s = .next t ∧ t.goesOn (s.th.pc + 4#64) ∧ s.KeepsRegs t [] ∧
      (∀ r, t.armOf r = s.armOf r) ∧ t.me.l1 = s.me.l1 ∧ ∀ x, t.byte x = s.byte x)

/-- `pin`, `unpin`, `unpin.all` and `pf` complete. -/
def Obligations.PinComplete : Prop := Claims.pinSets ∧ Claims.pinReleases

/-- R268 to R270: an arrival that is not one too many counts, and a wait whose phase is past answers the phase. -/
def Obligations.HbarComplete : Prop :=
  ∀ (p : Policy) (n : BitVec 2) (a d : BitVec 6) (s : State), s.granted fHbar → s.hbarOk n.toNat = true →
    (∀ s2, canAct s [d] [] → (begun s [] [d]).fence 4 = .ok () s2 →
      hbArr (vrd s.mine.hbc n.toNat) ≠ hbCnt (vrd s.mine.hbc n.toNat) →
      ∃ t, exec (.hbarArr p n d) s = .next t ∧ t.goesOn (s.th.pc + 4#64) ∧ s.KeepsRegs t [d] ∧
        t.xr d = w64 (hbPhase (vrd s.mine.hbc n.toNat)) ∧
        vrd t.mine.hbc n.toNat = vrd s.mine.hbc n.toNat + 0x1000000#64) ∧
    (canAct s [a, d] [a] → hbPhase (vrd s.mine.hbc n.toNat) ≠ (s.xr a).toNat % 256 →
      ∃ t, exec (.hbarWt p n a d) s = .next t ∧ t.goesOn (s.th.pc + 4#64) ∧ s.KeepsRegs t [d] ∧
        t.xr d = w64 ((if hbT (vrd s.mine.hbc n.toNat) then 256 else 0) + hbPhase (vrd s.mine.hbc n.toNat)))

/-- R176, R166 to R168: arming, disarming and minting over the n + 1 registers of a run.
The model's choice: the seal is the opaque function of log entry 5. -/
def Obligations.ArmingComplete : Prop :=
  ∀ (n : BitVec 3) (a : BitVec 6) (s : State), s.granted fFabric → runFits a n = true →
    let run : List (BitVec 6) := (List.range (n.toNat + 1)).map (fun i => a + BitVec.ofNat 6 i)
    (∀ (e : BitVec 1), canRun s run [] → ∃ t, exec (.arm e n a) s = .next t ∧ t.goesOn (s.th.pc + 4#64) ∧
      s.KeepsRegs t [] ∧ (∀ r ∈ run, (t.armOf r).re = (e == 1#1) ∧
        (t.armOf r).st = if (s.armOf r).st = .unarmed then .awaiting else (s.armOf r).st) ∧
      ∀ r, r ∉ run → t.armOf r = s.armOf r) ∧
    (∀ (g : BitVec 1), canRun s run [] → ∃ t, exec (.disarm g n a) s = .next t ∧ t.goesOn (s.th.pc + 4#64) ∧
      s.KeepsRegs t [] ∧ (∀ r ∈ run, (t.armOf r).re = false ∧ (t.armOf r).st = .unarmed) ∧
      (∀ r, r ∉ run → t.armOf r = s.armOf r) ∧
      (g = 1#1 → t.th.gen = (s.slot s.cur).gen + 1#8) ∧ (g = 0#1 → t.th.gen = s.th.gen)) ∧
    (∀ (r : BitVec 2) (d : BitVec 6), canRun s (run ++ [d]) [] → (∀ q ∈ run, (s.armOf q).st ≠ .unarmed) →
      ∃ t, exec (.mint r n a d) s = .next t ∧ t.goesOn (s.th.pc + 4#64) ∧ s.KeepsRegs t [d] ∧
        (t.xr d).extractLsb' 37 27 = BitVec.ofNat 27 (s.selfWord s.th.ctx s.cur) ∧ (t.xr d).extractLsb' 31 6 = a ∧
        (t.xr d).extractLsb' 28 3 = n ∧ (t.xr d).extractLsb' 20 8 = s.th.gen ∧ (t.xr d).extractLsb' 18 2 = r ∧
        (t.xr d).extractLsb' 0 18 =
          Config.sealOf (Config.secret s.myCtx.secretNo) ((t.xr d).extractLsb' 18 46))

/-- R173, R177, R178, R164: sends, receives and the fabric word. -/
def Obligations.FabricComplete : Prop :=
  ∀ (p : Policy) (i : BitVec 3) (a b d : BitVec 6) (s : State), s.granted fFabric →
    (canAct s [a, b] [a, b] → i.toNat ≤ capBits (s.xr a) 28 3 → s.holding = false → s.sendRoom = true →
      ∃ t m, exec (.snd p b a i) s = .next t ∧ t.goesOn (s.th.pc + 4#64) ∧ s.KeepsRegs t [] ∧
        t.me.sendq = s.me.sendq ++ [m] ∧ m.cap = s.xr a ∧ m.idx = i.toNat ∧ m.value = s.xr b ∧ m.ack = false ∧
        m.ctx = s.th.ctx ∧ m.from_ = s.cur) ∧
    (canAct s [a, b, d] [a, b] → s.th.sl.st = .done → s.th.sl.tag = s.th.pc →
      ∃ t, exec (.sndA p i b a d) s = .next t ∧ t.goesOn (s.th.pc + 4#64) ∧ s.KeepsRegs t [d] ∧
        t.xr d = w64 s.th.sl.code ∧ t.th.sl.st = .idle ∧ t.me.sendq = s.me.sendq) ∧
    (canRun s [a, d] [a] → ∃ t, exec (.rcv p a d) s = .next t ∧ t.goesOn (s.th.pc + 4#64) ∧ s.OnlyRegs t [a] [d] ∧
      t.xr d = s.xr a ∧ (a ≠ d → (s.armOf a).st = .full →
        (t.armOf a).st = if (s.armOf a).re then .awaiting else .unarmed)) ∧
    (∀ (c : BitVec 1), canRun s [d] [] → ∃ t, exec (.fabst c d) s = .next t ∧ t.goesOn (s.th.pc + 4#64) ∧
      s.KeepsRegs t [d] ∧ t.xr d = w64 (s.th.owc % 2 ^ 32 + s.th.gen.toNat * 2 ^ 32 + s.th.last.toNat * 2 ^ 40) ∧
      (c = 1#1 → t.th.owc = 0 ∧ t.th.last = 0#4) ∧ (c = 0#1 → t.th.owc = s.th.owc ∧ t.th.last = s.th.last))

/-- R139 to R144, R60: thread control. -/
def Obligations.ThreadControlComplete : Prop :=
  ∀ (s : State),
    (∀ (n : BitVec 6), ∃ t, exec (.yield n) s = .next t ∧ t.goesOn (s.th.pc + 4#64) ∧ s.KeepsRegs t [] ∧
      (t.slot s.cur).st = .sleep .yield (n.toNat + 1) ∧ ∀ x, t.byte x = s.byte x) ∧
    (∀ (n d : BitVec 6), canRun s [d] [] →
      (s.th.wakeLatch = true → ∃ t, exec (.sleep n d) s = .next t ∧ t.goesOn (s.th.pc + 4#64) ∧ s.KeepsRegs t [d] ∧
        t.xr d = 1#64 ∧ t.th.wakeLatch = false ∧ (t.slot s.cur).st = (s.slot s.cur).st) ∧
      (s.th.wakeLatch = false → ∃ t, exec (.sleep n d) s = .next t ∧ t.goesOn (s.th.pc + 4#64) ∧ s.KeepsRegs t [] ∧
        (t.slot s.cur).st = .sleep (.sleep d) (n.toNat + 1))) ∧
    (∀ (a : BitVec 6), canRun s [a] [a] → ∃ t, exec (.wake a) s = .next t ∧ t.goesOn (s.th.pc + 4#64) ∧
      s.KeepsRegs t [] ∧
      ∀ w, w = 16 * coreOf s.cur + (s.xr a).toNat % 16 → (s.slot w).occupied = true →
        (t.thread w).wakeLatch = true ∧ ∀ q n, (s.slot w).st = .sleep (.sleep q) n → (t.slot w).st = .sleep (.sleep q) 0) ∧
    (∀ (p : Policy), s.th.pendingAny = false → ∃ t, exec (.hold p) s = .next t ∧ t.goesOn (s.th.pc + 4#64) ∧
      s.OnlyRegs t [] []) ∧
    (s.th.pendingAny = false → s.th.lateWaits = false → ∃ t, exec .exit s = .next t ∧ (t.slot s.cur).occupied = false ∧
      (t.slot s.cur).dying = true) ∧
    (∀ (d : BitVec 6), canRun s [d] [] → ∃ t, exec (.selfid d) s = .next t ∧ t.goesOn (s.th.pc + 4#64) ∧
      s.OnlyRegs t [] [d] ∧ t.xr d = w64 (s.devId * 2 ^ 17 + s.vclOf s.th.ctx (clusterOf s.cur) * 2 ^ 7 +
        coreOf s.cur % 8 * 16 + s.cur % 16)) ∧
    (∀ (c : BitVec 1) (d : BitVec 6), canRun s [d] [] → ∃ t, exec (.rdskip c d) s = .next t ∧
      t.goesOn (s.th.pc + 4#64) ∧ s.KeepsRegs t [d] ∧ t.xr d = s.th.skipCtr ∧
      (c = 1#1 → t.th.skipCtr = 0#64) ∧ (c = 0#1 → t.th.skipCtr = s.th.skipCtr)) ∧
    (∀ (p : Policy) (h : BitVec 2) (b a d : BitVec 6), ∃ t, exec (.hint p h b a d) s = .next t ∧
      t.goesOn (s.th.pc + 4#64) ∧ s.OnlyRegs t [] [])

/-- R148, R161, R162: a launch whose reply has come, casting to an empty channel, taking a role from a full one, and
the place instructions.
The model's choice: the order of the tests of the launch latch (log entry 83). -/
def Obligations.WorkComplete : Prop :=
  ∀ (p : Policy) (a b d : BitVec 6) (ch : BitVec 4) (s : State),
    let c := chanReg ch
    (s.granted fLaunch → canAct s [a, b] [a, b] → s.holding = false →
      s.launchFault s.th.ctx (s.xr a) (s.oxr 0) (s.oxr 1) (s.oxr 2) = none → s.th.ll.st = .done →
      s.th.ll.tag = s.th.pc → ∃ t, exec (.launch p b a) s = .next t ∧ t.goesOn (s.th.pc + 4#64) ∧ s.KeepsRegs t [] ∧
        t.th.ll.st = .idle ∧ ∀ x, t.byte x = ((begun s [a, b] []).settle s.cur).byte x) ∧
    (s.granted fLaunch → canAct s [a, b, c, c + 1#6] [a, b, c] → s.xr a ≠ 0#64 → (s.xr a).getLsbD 0 = false →
      s.xr c = 0#64 → ∃ t, exec (.cast p b a ch) s = .next t ∧ t.goesOn (s.th.pc + 4#64) ∧
        s.OnlyRegs t [a, b, c] [c, c + 1#6] ∧ t.xr c = s.xr a ∧ t.xr (c + 1#6) = s.xr b) ∧
    (s.granted fLaunch → canAct s [c, c + 1#6] [c, c + 1#6] → s.th.pendingAny = false → s.th.ll.st ≠ .busy →
      s.xr c ≠ 0#64 → (begun s [c, c + 1#6] []).checkTarget .indirect (s.xr c) = .ok →
      ∃ t, exec (.recast p ch) s = .next t ∧ t.goesOn (s.xr c) ∧ t.xr c = 0#64 ∧ t.xr (c + 1#6) = 0#64 ∧
        t.xr 0 = s.xr (c + 1#6) ∧ t.xr 1 = w64 s.th.gidx ∧ t.xr 2 = w64 s.th.place ∧
        (∀ r : BitVec 6, r.toNat = 29 ∨ r.toNat = 31 → t.xr r = s.xr r) ∧
        (∀ r : BitVec 6, r.toNat < 31 → 2 < r.toNat → r.toNat ≠ 29 → t.xr r = 0#64) ∧
        (∀ r : BitVec 6, 31 < r.toNat → r ≠ c → r ≠ c + 1#6 → t.xr r = s.xr r) ∧ ∀ x, t.byte x = s.byte x) ∧
    (canRun s [a, d] [a] → (s.xr a).toNat ≤ s.th.pm1 → ∃ t, exec (.place a d) s = .next t ∧
      t.goesOn (s.th.pc + 4#64) ∧ s.OnlyRegs t [a] [d] ∧
      t.xr d = (s.groupOf s.th).binding.getD (s.xr a).toNat 0#64) ∧
    (canRun s [d] [] → ∃ t, exec (.placeSelf d) s = .next t ∧ t.goesOn (s.th.pc + 4#64) ∧ s.OnlyRegs t [] [d] ∧
      t.xr d = w64 (s.th.place % 64 + s.th.pm1 % 64 * 2 ^ 6 + s.th.gidx * 2 ^ 16)) ∧
    (canRun s [d] [] → ∃ t, exec (.placeLoad d) s = .next t ∧ t.goesOn (s.th.pc + 4#64) ∧ s.OnlyRegs t [] [d] ∧
      t.xr d = s.mine.loadReg)

/-- R118, R180, R182, R192 to R194, R197 to R200: every vector integer instruction, permute and reduction completes with its
result, the FP reductions where they report no fault; the vector FP instructions, special functions and conversions
complete where no enabled lane traps.
The model's choices: the inner precision of `vexp2.a` and `vlog2.a` (log entry 59) and the zero sign of `vrsq.s` (log entry 44). -/
def Obligations.VectorComplete : Prop := completesVec vecIntSpec ∧ completesVec vecPermSpec ∧ completesVec vecFpSpec

/-- R195, R185: the vector loads and stores of ordinary memory: a load whose line has a usable copy, a strong store that
has its grant, a weak store that finds room; a store writes the bytes of the enabled lanes and no other, at once or, where
older entries of the ring have not retired, when they have.
The model's choice: a store with no enabled lane makes its checks (log entry 16). -/
def Obligations.VecMemComplete : Prop :=
  ∀ (p : Policy) (h : BitVec 2) (o a d : BitVec 5) (s s2 : State) (e : TlbEntry) (m : Nat),
    s2.machineOf (e.sys (vecAddrOf s o a).toNat) = some m → s2.ownUpdate (m / 64) = false →
    (∀ (c : L1Line) (strong : Bool), let s3 := lineReady s2 (m / 64)
      let s4 := s3.readCopy (coreOf s.cur) (m / 64) s.th.ctx (vecAddrOf s o a).toNat
      let data := ((s4.copyFor (coreOf s.cur) (s.cur % 16) (m / 64) s.th.pc).getD c).data
      let v : VecSpec := { hold := h, req := 0, x := some a, dst := .v d,
                           elem := fun j => data.toNat / 2 ^ (8 * (m % 64) + 32 * j) }
      vecReady s (v.names s) v.x → s.th.lateWaits = false →
      (begunHeavy s [xreg a] []).resolve (vecAddrOf s o a) 64 (Kind.ofCode 0) = .ok e s2 →
      s3.copyFor (coreOf s.cur) (s.cur % 16) (m / 64) s.th.pc = some c → s3.usable c strong = true →
      ∃ t, exec (if strong then .vld p h o a d else .vldWk p h o a d) s = .next t ∧ v.loads s t ∧
        ∀ x, t.byte x = s4.byte x) ∧
    (storeReady s a d → (begunHeavy s [xreg a] []).resolve (vecAddrOf s o a) 64 (Kind.ofCode 1) = .ok e s2 →
      let late (strong : Bool) (q : LateStore) : Prop := q.dest = (if strong then .strong else .weak) ∧
        q.va = (vecAddrOf s o a).toNat ∧ q.at_ = m ∧ latePuts q (lanesOver s d m)
      (enabledBy s ≠ 0#16 → let s3 := lineReady s2 (m / 64)
        (∃ g ∈ s3.me.grants, g.1 = s.cur % 16 ∧ g.2.1 = m / 64) →
        ∃ t, exec (.vst p h o a d) s = .next t ∧ stores s t h (late true) ∧
          ∀ x, t.byte x = if s.th.inFlight then s.byte x else lanesOver s d m x (s3.byte x)) ∧
      (enabledBy s ≠ 0#16 → m % 64 = 0 → let s3 := combReady s2 (m / 64)
        ((∃ x ∈ s3.me.comb, x.line = m / 64) ∨ s3.me.comb.length < 16) →
        ∃ t, exec (.vstWk p h o a d) s = .next t ∧ stores s t h (late false) ∧
          (∀ x, t.byte x = if s.th.inFlight then s.byte x else s3.byte x) ∧
          ∀ x, byteFor t (coreOf s.cur) x = if s.th.inFlight then byteFor s (coreOf s.cur) x
            else lanesOver s d m x (byteFor s3 (coreOf s.cur) x)) ∧
      (enabledBy s = 0#16 → ∀ strong : Bool,
        ∃ t, exec (if strong then .vst p h o a d else .vstWk p h o a d) s = .next t ∧
          stores s t h (fun _ => False) ∧ ∀ x, t.byte x = s.byte x))

/-- R195, R196, R185, R221, R222: the vector accesses of the scratchpad, raw and through a format window. -/
def Obligations.VecScratchpadComplete : Prop :=
  ∀ (p : Policy) (h : BitVec 2) (o a d : BitVec 5) (s : State),
    let x := (vecAddrOf s o a).toNat
    let w := s.winAt (vecAddrOf s o a)
    let n := winBytes w.1
    let b := begunHeavy s [xreg a] []
    let ld (req : Nat) (f : Nat → Nat) : VecSpec := { hold := h, req := req, x := some a, dst := .v d, elem := f }
    (vecReady s ((ld 0 (fun _ => 0)).names s) (some a) → s.th.lateWaits = false →
      (x + 64 ≤ 819200 → x % 16 = 0 → let q := bankRead false x 64 b
        ∃ t, exec (.vldSp p h o a d) s = .next t ∧
          (ld 0 (fun j => Memory.nat q.mine.scratch x 64 / 2 ^ (32 * j))).loads s t ∧
          t.mine.scratch = q.mine.scratch ∧ ∀ y, t.byte y = q.byte y) ∧
      (x + n ≤ 819200 → x % n = 0 → let v := Memory.nat (bankRead false x n b).mine.scratch x n
        let q := (b.spLoad (clusterOf s.cur) x n).2.readScale w.2 x
        ∃ t, exec (.vldWin p h o a d) s = .next t ∧ (ld 1 (winLane w.1 q.1 v)).loads s t ∧
          t.mine.scratch = q.2.mine.scratch ∧ ∀ y, t.byte y = q.2.byte y)) ∧
    (storeReady s a d →
      let late (f : Nat → Byte → Byte) (q : LateStore) : Prop := q.dest = .sp ∧ q.at_ = x ∧ latePuts q f
      (x + 64 ≤ 819200 → x % 16 = 0 →
        ∃ t, exec (.vstSp p h o a d) s = .next t ∧ stores s t h (late (lanesOver s d x)) ∧
          (∀ y, Memory.read t.mine.scratch y = if s.th.inFlight then Memory.read s.mine.scratch y
            else lanesOver s d x y (Memory.read s.mine.scratch y)) ∧
          ∀ y, t.byte y = s.byte y) ∧
      (x + n ≤ 819200 → x % n = 0 →
        let q := if enabledBy s = 0#16 then (127, b) else b.readScale w.2 x
        let code (j : Nat) : FOut := winCode (vecEnv s) w.1 q.1 (la s 32 d j).toNat
        let f (y : Nat) (old : Byte) : Byte :=
          if x ≤ y ∧ y < x + n ∧ (enabledBy s).getLsbD ((y - x) / (n / 16)) = true then
            byteOf (code ((y - x) / (n / 16))).res ((y - x) % (n / 16))
          else old
        (∀ j < 16, (enabledBy s).getLsbD j = true → (code j).stop = none) →
        ∃ t, exec (.vstWin p h o a d) s = .next t ∧ stores s t h (late f) ∧
          ∀ y, if s.th.inFlight ∧ enabledBy s ≠ 0#16 then
              t.byte y = s.byte y ∧ Memory.read t.mine.scratch y = Memory.read s.mine.scratch y
            else t.byte y = q.2.byte y ∧ Memory.read t.mine.scratch y = f y (Memory.read q.2.mine.scratch y)))

/-- R66, R186, R187, R191: the prefix, and beginning, ending and measuring a stream. -/
def Obligations.StreamComplete : Prop :=
  (∀ (z : BitVec 1) (o : BitVec 5) (r : BitVec 3) (e : BitVec 1) (k : BitVec 3) (s : State),
    ∃ t, exec (.pfx z o r e k) s = .next t ∧ s.KeepsRegs t [] ∧ t.th.pc = s.th.pc ∧ (∀ x, t.byte x = s.byte x) ∧
      t.th.prefixLatch = some { z := z == 1#1, op4 := o, rm := r, me := e == 1#1, maskReg := k }) ∧
  (∀ (a b d : BitVec 6) (n : BitVec 2) (s : State), s.granted fVector → s.unheld [.x a, .x b, .x d, .v (streamReg n)] →
    let v := streamReg n
    let ctl := s.xr b
    let size : Int := if ctl.extractLsb' 0 4 = 0 then 4 else if ctl.extractLsb' 0 4 = 3 ∨ ctl.extractLsb' 0 4 = 4 ∨
      ctl.extractLsb' 0 4 = 6 then 1 else 2
    (s.arrived [a, b] → ctl.extractLsb' 32 32 ≠ 0 → (s.oxr 0).extractLsb' 0 16 ≠ 0 → (s.oxr 0).extractLsb' 16 16 ≠ 0 →
      ctl.extractLsb' 6 10 = 0 → (ctl.extractLsb' 0 4).toNat ≤ 6 → ((s.xr a).toNat : Int) % size = 0 →
      (ctl.extractLsb' 16 16).toInt % size = 0 → (s.oxr 1).toInt % size = 0 → (s.oxr 2).toInt % size = 0 →
      ∃ t, exec (.scfg b a n) s = .next t ∧ t.goesOn (s.th.pc + 4#64) ∧ s.KeepsRegs t [] ∧
        (∀ x, t.byte x = s.byte x) ∧
        t.th.streamOf v = some { base := s.xr a, ctl := ctl, ox0 := s.oxr 0, s1 := s.oxr 1, s2 := s.oxr 2, p := 0 } ∧
        ∀ r, r ≠ v → t.th.streamOf r = s.th.streamOf r) ∧
    (∃ t, exec (.sclr n) s = .next t ∧ t.goesOn (s.th.pc + 4#64) ∧ VecFrame (s.modTh (fun h => { h with
        streams := t.th.streams })) t (some (.v v)) ∧ t.vr v = 0#512 ∧ t.th.streamOf v = none ∧
        (∀ r, r ≠ v → t.th.streamOf r = s.th.streamOf r) ∧ ∀ x, t.byte x = s.byte x) ∧
    (∃ t, exec (.srem n d) s = .next t ∧ t.goesOn (s.th.pc + 4#64) ∧ s.OnlyRegs t [] [d] ∧
        t.xr d = w64 (match s.th.streamOf v with | some q => q.len - q.p | none => 0)))

/-- R278 to R283: the instructions on a completion barrier of an aligned granule of the scratchpad. -/
def Obligations.CompletionBarrierComplete : Prop :=
  ∀ (p : Policy) (a b d : BitVec 6) (s : State), (s.xr a).toNat < 819200 → (s.xr a).toNat % 16 = 0 →
    let g := (s.xr a).toNat / 16
    let gone (q t : State) : Prop := t.goesOn (s.th.pc + 4#64) ∧ ∀ x, t.byte x = q.byte x
    (canAct s [a, b] [a, b] → 1 ≤ (s.xr b).toNat → (s.xr b).toNat ≤ 65535 →
      let q := begun s [a, b] []
      ∃ t, exec (.cbInit p b a) s = .next t ∧ gone q t ∧ s.KeepsRegs t [] ∧ cbLow t g = (s.xr b).toNat ∧
        cbHigh t g = 0 ∧ onlyGranule q t g) ∧
    (canAct s [a, d] [a] → s.holding = false → s.unordered 4 = false →
      let q := ((begun s [a] [d]).fenced 4).cbRead g
      ∃ t, exec (.cbArr p a d) s = .next t ∧ gone q t ∧ s.KeepsRegs t [d] ∧
        t.xr d = w64 (cbLow q g / 2 ^ 32 % 2 ^ 8) ∧ cbHigh t g = cbHigh q g ∧
        onlyGranule q t g ∧ cbLow t g = if cbLow q g % 2 ^ 16 = 0 then cbLow q g else afterArrival (cbLow q g)) ∧
    (canAct s [a, b, d] [a, b] → let q := (begun s [a, b] [d]).cbRead g
      cbLow q g / 2 ^ 32 % 2 ^ 7 ≠ (s.xr b).toNat % 128 →
      ∃ t, exec (.cbWt p b a d) s = .next t ∧ gone q t ∧ s.KeepsRegs t [d] ∧ t.xr d = w64 (cbLow q g) ∧
        t.mine.scratch = q.mine.scratch) ∧
    (canAct s [a] [a] → let q := (begun s [a] []).cbRead g
      ∃ t, exec (.cbClr p a) s = .next t ∧ gone q t ∧ s.KeepsRegs t [] ∧ cbHigh t g = 0 ∧ onlyGranule q t g ∧
        cbLow t g = cbLow q g % 2 ^ 40 + cbLow q g / 2 ^ 48 * 2 ^ 48)

/-- R290, R297, R298: the lease and the shape registers: with the lease held, `mlease` gives its serial number; `mrel`
releases it; `tshr` reads the shape of a tile that no queued command sets. -/
def Sys2Proof.Claims.leaseComplete : Prop :=
  ∀ (p : Policy) (t d : BitVec 6) (s : State), s.granted fMatrix →
    (canAct s [d] [] → s.mine.lease.holder = some (coreOf s.cur % 8) → s.mine.lease.released = false →
      ∃ u, exec (.mlease p d) s = .next u ∧ u.goesOn (s.th.pc + 4#64) ∧ s.OnlyRegs u [] [d] ∧
        u.xr d = s.mine.lease.serial.setWidth 64) ∧
    (s.th.lateWaits = false → ∃ u, exec .mrel s = .next u ∧ gives s u ∧
      (s.mine.lease.holder ≠ some (coreOf s.cur % 8) → u.mine = s.mine) ∧
      (s.mine.lease.holder = some (coreOf s.cur % 8) → (u.mine.lease.holder = none ∨ u.mine.lease.released = true) ∧
        (s.mine.tileq = [] → u.mine.lease.holder = none))) ∧
    (canAct s [d] [] → (∀ e ∈ s.mine.tileq, ∀ w, e.cmd ≠ .tsh t.toNat w) →
      ∃ u, exec (.tshr p t d) s = .next u ∧ u.goesOn (s.th.pc + 4#64) ∧ s.OnlyRegs u [] [d] ∧
        u.xr d = (vrd s.mine.tiles t.toNat).tsh)

/-- R293 to R304: a tile command enters the sequencer's queue, its core holding the lease and its barrier word good. -/
def Sys2Proof.Claims.tileComplete : Prop :=
  ∀ (i : Instr) (s : State) (p : TileSpec), tileSpec s i = some p → i.wf = true → s.granted fMatrix →
    canAct s p.reads p.reads → p.ok → (p.bar = true → barBad (s.oxr 3) = false) →
    s.mine.lease.holder = some (coreOf s.cur % 8) → s.mine.lease.released = false →
    admitted s (.tile (clusterOf s.cur)) →
    ∃ t e, exec i s = .next t ∧ gives s t ∧ t.mine.tileq = s.mine.tileq ++ [e] ∧ e.who = s.issuer ∧ e.cmd = p.cmd ∧
      e.bar = (if p.bar then s.oxr 3 else 0#32) ∧ t.mine.tiles = s.mine.tiles ∧ t.mine.scratch = s.mine.scratch

/-- The lease, the shape registers and the tile commands. -/
def Obligations.TileComplete : Prop := Claims.leaseComplete ∧ Claims.tileComplete

/-- R307 to R310, R318, R319: a copy, or a fence of copy queues, enters the queue it names. -/
def Sys2Proof.Claims.copyComplete : Prop :=
  (∀ (i : Instr) (s : State) (p : CopySpec), copySpec i = some p → i.wf = true → s.granted fCopy →
    canAct s p.reads p.reads → (p.entry s).fault 0 = none → admitted s (.copy (clusterOf s.cur) p.q.toNat) →
    ∃ t, exec i s = .next t ∧ gives s t ∧
      (∀ j : BitVec 3, vrd t.mine.copyq j.toNat =
        if j = p.q then vrd s.mine.copyq j.toNat ++ [p.entry s] else vrd s.mine.copyq j.toNat) ∧
      t.mine.scratch = s.mine.scratch ∧ t.mine.vault = s.mine.vault) ∧
  (∀ (p : Policy) (a : BitVec 6) (q : BitVec 3) (s : State), s.granted fCopy → canAct s [a] [a] →
    (s.xr a).toNat < 256 → admitted s (.copy (clusterOf s.cur) q.toNat) →
    ∃ t e, exec (.qfCp p a q) s = .next t ∧ gives s t ∧ e.fence = some (s.xr a).toNat ∧ e.who = s.issuer ∧
      e.num = s.nextEntry ∧ ∀ j : BitVec 3, vrd t.mine.copyq j.toNat =
        if j = q then vrd s.mine.copyq j.toNat ++ [e] else vrd s.mine.copyq j.toNat)

/-- R273, R319 to R321: a collective, or a fence of collective queues, enters a queue of the field that the context
holds. -/
def Sys2Proof.Claims.collectiveComplete : Prop :=
  (∀ (i : Instr) (s : State) (form : Nat) (b a : BitVec 6) (q : BitVec 2), collSpec i = some (form, b, a, q) →
    let e : CollEntry := {
      who := s.issuer, num := s.nextEntry, cl := clusterOf s.cur, form := form, dst := s.xr a, src := s.xr b,
      ox0 := s.oxr 0, ox1 := s.oxr 1, ox2 := s.oxr 2, bar := s.oxr 3 }
    i.wf = true → s.granted fCollective → canAct s [a, b] [a, b] → s.holdsQueue q.toNat = true →
    e.fault s.devId = none → admitted s (.coll s.myField q.toNat) →
    ∃ t, exec i s = .next t ∧ gives s t ∧ ∀ j : BitVec 2, vrd (t.field s.myField).collq j.toNat =
      if j = q then vrd (s.field s.myField).collq j.toNat ++ [e] else vrd (s.field s.myField).collq j.toNat) ∧
  (∀ (p : Policy) (a : BitVec 6) (q : BitVec 2) (s : State), s.granted fCollective → canAct s [a] [a] →
    (s.xr a).toNat < 16 → s.holdsQueue q.toNat = true →
    (∀ j < 4, (s.xr a).getLsbD j = true → s.holdsQueue j = true) → admitted s (.coll s.myField q.toNat) →
    ∃ t e, exec (.qfCl p a q) s = .next t ∧ gives s t ∧ e.fence = some (s.xr a).toNat ∧ e.who = s.issuer ∧
      e.num = s.nextEntry ∧ ∀ j : BitVec 2, vrd (t.field s.myField).collq j.toNat =
        if j = q then vrd (s.field s.myField).collq j.toNat ++ [e] else vrd (s.field s.myField).collq j.toNat)

/-- The copies, the collectives and the fences of their queues enter a queue. -/
def Obligations.CopyAndCollectiveComplete : Prop := Claims.copyComplete ∧ Claims.collectiveComplete

/-- R341 to R343: `flt.done` by a kernel thread of the owning context ends the range: no thread waits on its pages any
more, and where b is not 0 each access that waited has failed. -/
def Obligations.FaultDoneComplete : Prop :=
  ∀ (a b : BitVec 6) (s s2 : State) (r : FaultRange), canRun s [a, b] [a, b] → s.th.kern = true →
    (s.xr a).toNat < 2 ^ 32 → s.rangeOf ((s.xr a).setWidth 32) = some r → r.owner = s.th.ctx →
    (begun s [a, b] []).fence 4 = .ok () s2 →
    ∃ t, exec (.fltDone b a) s = .next t ∧ t.goesOn (s.th.pc + 4#64) ∧ t.rangeOf r.fid = none ∧
      (∀ sid page, (clusterOf sid, (t.thread sid).ctx, page) ∈ r.waits → page ∉ (t.thread sid).waits) ∧
      (s.xr b ≠ 0#64 → ∀ sid page, (clusterOf sid, (s.thread sid).ctx, page) ∈ r.waits → page ∈ (s.thread sid).waits →
        page ∈ (t.thread sid).failed) ∧
      (s.xr b = 0#64 → s.KeepsRegs t [] ∧ ∀ x, t.byte x = s2.byte x)

/-- R333 to R335, R10: the reads and writes of special registers and of context and cluster registers. -/
def Obligations.RegisterMovesComplete : Prop :=
  ∀ (n a b d : BitVec 6) (s : State),
    (n.toNat < 9 → canRun s [d] [] → ∃ t, exec (.mfsr n d) s = .next t ∧ t.goesOn (s.th.pc + 4#64) ∧
      s.OnlyRegs t [] [d] ∧ t.xr d = srOf s.th n.toNat) ∧
    (n.toNat < 9 → canRun s [a] [a] → ∃ t, exec (.mtsr n a) s = .next t ∧ t.th.pc = s.th.pc + 4#64 ∧
      srOf t.th n.toNat = srAfter s.th n.toNat (s.xr a) ∧
      (∀ m < 9, m ≠ n.toNat → m ≠ 0 → m ≠ 6 → srOf t.th m = srOf s.th m) ∧
      (n ≠ 0#6 → t.th.st = stSet s.th.st 0 false) ∧
      (∀ r, t.xr r = s.xr r) ∧ (∀ r, t.vr r = s.vr r) ∧ (∀ r, t.kr r = s.kr r) ∧ ∀ x, t.byte x = s.byte x) ∧
    (s.th.kern = true → canRun s [a, d] [a] → ∀ v, crOf s (s.xr a).toNat = some v →
      ∃ t, exec (.mfcr a d) s = .next t ∧ t.goesOn (s.th.pc + 4#64) ∧ s.OnlyRegs t [a] [d] ∧ t.xr d = v) ∧
    (s.th.kern = true → canRun s [a, b] [a, b] → ∀ v, crOf s (s.xr a).toNat = some v →
      ∃ t, exec (.mtcr b a) s = .next t ∧ t.goesOn (s.th.pc + 4#64) ∧ s.KeepsRegs t [] ∧ (∀ x, t.byte x = s.byte x) ∧
        crOf t (s.xr a).toNat = some (crAfter s (s.xr a).toNat v (s.xr b)) ∧
        ∀ m, m ≠ (s.xr a).toNat → crOf t m = crOf s m)

/-- R336, R327, R329, R375: `trap` reports TRAP, which goes by reflection, once every older ring entry has retired; and
`hret` leaves the user handler.
The model's choices: `estat` holds NR as before the first execution of the instruction (log entry 15); a reflection is a job
that is owed (log entry 61). -/
def Obligations.TrapReturnComplete : Prop :=
  (∀ (n : BitVec 6) (s : State),
    let r : Trap := { code := 0x0F, info := n.setWidth 64, pc := s.th.pc, st := s.th.stBefore }
    (s.th.inFlight = false → ∃ t, exec (.trap n) s = .next t ∧ (t.slot s.cur).st = .sleep (.reflect r) 0 ∧
      t.th.pc = s.th.pc ∧ t.th.st = s.th.st ∧ .reflect s.cur ∈ t.due ∧ (∀ q, t.xr q = s.xr q) ∧
      (∀ x, t.byte x = s.byte x) ∧ (stBit s.th.st 7 = false → t.th.epc = s.th.pc ∧ t.th.ecause = 0x0F#64 ∧
        t.th.einfo = n.setWidth 64 ∧ t.th.estat = s.th.stBefore) ∧
      (stBit s.th.st 7 = true → t.th.epc = s.th.epc ∧ t.th.ecause = s.th.ecause ∧ t.th.einfo = s.th.einfo ∧
        t.th.estat = s.th.estat)) ∧
    (s.th.inFlight = true → ∃ t, exec (.trap n) s = .next t ∧ t.th.trapWait = some r ∧ t.th.pc = s.th.pc ∧
      t.th.skipCtr = s.th.skipCtr + 1#64 ∧ (t.slot s.cur).st = (s.slot s.cur).st)) ∧
  (∀ (s : State), stBit s.th.st 7 = true → (begun s [] []).checkTarget .ret s.th.epc = .ok →
    ∃ t, exec .hret s = .next t ∧ t.th.pc = s.th.epc ∧
      t.th.st = stSet (stWrite (stSet s.th.st 0 false) s.th.estat) 7 false ∧ t.th.replay = [] ∧
      t.th.prefixLatch = none ∧ (∀ r, t.xr r = s.xr r) ∧ (∀ r, t.vr r = s.vr r) ∧ (∀ r, t.kr r = s.kr r) ∧
      t.th.epc = s.th.epc ∧ t.th.estat = s.th.estat ∧ t.th.ecause = s.th.ecause ∧ t.th.einfo = s.th.einfo ∧
      ∀ x, t.byte x = s.byte x)

/-- R331, R332: reading the ring and its replay list, and beginning a replay.
The model's choice: a replay reissues one entry at an offered cycle (log entry 22). -/
def Obligations.RingComplete : Prop :=
  ∀ (a d : BitVec 6) (s : State),
    let q : BitVec 8 := (s.xr a).setWidth 8
    (∀ n : BitVec 2, canRun s (if n.toNat < 2 then [a, d] else [d]) (if n.toNat < 2 then [a] else []) →
      ∃ t, exec (.copRd n a d) s = .next t ∧ t.goesOn (s.th.pc + 4#64) ∧
        s.OnlyRegs t (if n.toNat < 2 then [a] else []) [d] ∧
        (n = 0#2 → t.xr d = match (s.th.replay ++ s.th.ring).find? (fun e => e.seq == q) with
          | some e => e.addr | none => 0#64) ∧
        (n = 1#2 → t.xr d = w64 (s.th.entryStatus q)) ∧
        (n = 2#2 → t.xr d = w64 ((s.th.ring.filter (fun e => !e.retired)).length + s.th.nextSeq.toNat * 2 ^ 8 +
          (match s.th.replay with | e :: _ => e.seq.toNat | [] => 0) * 2 ^ 24 + s.th.replay.length * 2 ^ 32)) ∧
        (n = 3#2 → t.xr d = s.th.rpc)) ∧
    (canRun s [a] [a] → (∃ e ∈ s.th.replay, e.seq = q) →
      ∃ t, exec (.copReplay a) s = .next t ∧ s.KeepsRegs t [] ∧ t.th.pc = s.th.pc ∧ (∀ x, t.byte x = s.byte x) ∧
        t.th.replay = s.th.replay.dropWhile (fun e => e.seq != q) ∧ t.th.cap = t.th.replay.head? ∧
        ∃ e, t.th.cap = some e ∧ e.seq = q)

/-- R364: the fields of the probe word: of a page with a fault pending, of one that every stage maps, and of one whose
stage has an invalid entry. OUT is the smallest page that holds the probed one at the composed size.
The model's choices: OUT and SZ where a window cuts a leaf (log entry 31), and a range pending by its table page (log
entry 32). -/
def Sys2Proof.Claims.probeFields : Prop :=
  ∀ (s : State) (cl a va : Nat), let v : Word := w64 (s.probeWord cl a va)
    (s.faultPending cl a (va / 4096) = true → v = 0x2000000000000000#64) ∧
    (s.faultPending cl a (va / 4096) = false →
      (∀ w u, s.translateFor cl false a va (Kind.ofCode 0) = .ok w u → let n := min w.pages (2 ^ 18)
        v.getLsbD 63 = true ∧ v.getLsbD 62 = (s.machineOf w.addr).isNone ∧ v.getLsbD 61 = false ∧
        v.getLsbD 60 = (w.x && w.kx) ∧ v.getLsbD 59 = (w.w && w.kw) ∧ v.getLsbD 58 = (w.r && w.kr) ∧
        v.extractLsb' 56 2 = 0#2 ∧ v.extractLsb' 12 44 = BitVec.ofNat 44 (w.first / 4096 / n * n) ∧
        v.extractLsb' 8 4 = (if n < 16 then 0#4 else if n < 512 then 1#4 else if n < 131072 then 2#4
          else if n < 262144 then 3#4 else 4#4) ∧ v.extractLsb' 0 8 = 0#8) ∧
      (∀ c l p k u, s.translateFor cl false a va (Kind.ofCode 0) = .fault c l p k u →
        ((s.pendingLevel cl c p).isSome = true → v = 0x2000000000000000#64) ∧
        ((s.pendingLevel cl c p).isSome = false → (s.ctx c).depth < 16 → l < 16 → v.extractLsb' 8 56 = 0#56 ∧
          v.extractLsb' 4 4 = BitVec.ofNat 4 (s.ctx c).depth ∧ v.extractLsb' 0 4 = BitVec.ofNat 4 l)))

/-- R362 to R365: an invalidation, and a write of ATP, complete with their reply; the execution that sends it has the
fence conditions of a device fence, advances the stage's generation and, for `atp.wr`, gives ATP x[a]. The probe is not
ready until the scrivener has walked for it, and then gives its word (Claims.probeFields); `atp.rd` reads ATP.
The model's choices: the pace of an invalidation (log entry 32) and the generation's wrap (log entry 31). -/
def Sys2Proof.Claims.translationComplete : Prop :=
  ∀ (p : Policy) (a b d : BitVec 6) (s : State), kernel s fTranslation → s.th.lateWaits = false →
    let ends (i : Instr) : Prop := ∃ t, exec i s = .next t ∧ gives s t ∧ t.th.rl.st = .idle
    let fenced : Prop := s.holding = false ∧ s.unordered 4 = false
    let sends (i : Instr) (atp : Word) : Prop := ∃ t, exec i s = .next t ∧ t.th.rl.st = .busy ∧
      (t.ctx s.th.ctx).stageGen = s.myCtx.stageGen + 1#32 ∧ (t.ctx s.th.ctx).atp = atp ∧ ∀ r, t.xr r = s.xr r
    (canAct s [a, b] [a, b] → canonical (s.xr a) = true → 1 ≤ (s.xr b).toNat → (s.xr b).toNat ≤ 2 ^ 20 →
      (s.xr a).toNat / 4096 + (s.xr b).toNat ≤ 2 ^ 52 → fenced →
      (s.th.rl.st = .idle → sends (.tlbInv p b a) s.myCtx.atp) ∧ (replied s → ends (.tlbInv p b a))) ∧
    (fenced → (s.th.rl.st = .idle → sends (.tlbInva p) s.myCtx.atp) ∧ (replied s → ends (.tlbInva p))) ∧
    (canAct s [a] [a] → (s.xr a).extractLsb' 44 16 = 0#16 →
      ((s.xr a).extractLsb' 60 4 = 0#4 ∨ (s.xr a).extractLsb' 60 4 = 10#4) → fenced →
      (s.th.rl.st = .idle → sends (.atpWr p a) (s.xr a)) ∧ (replied s → ends (.atpWr p a))) ∧
    (canAct s [a, d] [a] → canonical (s.xr a) = true →
      (s.th.probed = none → ∃ t, exec (.tlbProbe p a d) s = .next t ∧ .probe s.issuer (s.xr a) s.th.pc ∈ t.due ∧
        ∀ r, t.xr r = s.xr r) ∧
      (∀ v, s.th.probed = some (s.th.pc, s.xr a, v) → ∃ t, exec (.tlbProbe p a d) s = .next t ∧
        t.goesOn (s.th.pc + 4#64) ∧ s.OnlyRegs t [a] [d] ∧ t.xr d = v)) ∧
    (canAct s [d] [] → ∃ t, exec (.atpRd d) s = .next t ∧ t.goesOn (s.th.pc + 4#64) ∧ s.OnlyRegs t [] [d] ∧
      t.xr d = s.myCtx.atp)

/-- The instructions of translation, and the fields of the probe word. -/
def Obligations.TranslationComplete : Prop := Claims.translationComplete ∧ Claims.probeFields

/-- R388, R389, R383: the context instructions of a kernel thread: each enters its operation in the context's queue,
`ctx.new` with a new handle; `ctx.rd` reads the context block; `ctx.intr` raises an interrupt in the issuer's context. -/
def Obligations.ContextComplete : Prop :=
  ∀ (p : Policy) (a b d sel : BitVec 6) (s : State), kernel s fContext → s.th.ctx < 2048 →
    (canAct s [a, d] [a] → canonical (s.xr a) = true → (s.xr a).toNat % 64 = 0 → engineOpen s →
      s.myCtx.usedChildren < s.myCtx.children → ∀ h < 255, s.myCtx.handles.find? h = none →
      (∀ k < h, (s.myCtx.handles.find? k).isSome = true) →
      ∃ t, exec (.ctxNew p a d) s = .next t ∧ t.goesOn (s.th.pc + 4#64) ∧ s.KeepsRegs t [d] ∧ t.xr d = w64 h ∧
        entered s t (.new h (s.xr a).toNat) (s.xr a) ∧ (∀ x, t.byte x = s.byte x) ∧
        (t.ctx s.th.ctx).usedChildren = s.myCtx.usedChildren + 1 ∧
        ∃ k, (t.ctx s.th.ctx).handles.find? h = some k ∧ (t.ctx k).parent = some (s.th.ctx, h) ∧
          (t.ctx k).depth = s.myCtx.depth + 1) ∧
    (canAct s [a, b] [a, b] → handled s (s.xr a) true → canonical (s.xr b) = true → (s.xr b).toNat % 32 = 0 →
      engineOpen s → ∃ t, exec (.ctxGrant p b a) s = .next t ∧ gives s t ∧
        entered s t (.grant (s.xr a).toNat (s.xr b).toNat) (s.xr a)) ∧
    (canAct s [a, d] [a] → handled s (s.xr a) true →
      ∃ t c, exec (.ctxRd sel a d) s = .next t ∧ t.goesOn (s.th.pc + 4#64) ∧ s.KeepsRegs t [d] ∧
        s.ofHandle s.th.ctx (s.xr a).toNat = some c ∧ (∀ v, s.readBlock c sel.toNat = some v → t.xr d = v) ∧
        ∀ x, t.byte x = s.byte x) ∧
    (canAct s [a, b] [a, b] → handled s (s.xr a) true → engineOpen s →
      ((s.xr a).toNat = 255 → sel.toNat ∈ [3, 10, 11, 13, 14, 17]) →
      ((s.xr a).toNat ≠ 255 → sel.toNat ∈ [1, 3, 6, 7, 8, 10, 14, 17]) →
      ∃ t, exec (.ctxWr p b a sel) s = .next t ∧ gives s t ∧
        entered s t (.wr (s.xr a).toNat sel.toNat (s.xr b)) (s.xr a)) ∧
    (canAct s [a] [a] → handled s (s.xr a) false → engineOpen s →
      (∃ t, exec (.ctxRun p a) s = .next t ∧ gives s t ∧ entered s t (.run (s.xr a).toNat) (s.xr a)) ∧
      (∃ t, exec (.ctxStop p a) s = .next t ∧ gives s t ∧ entered s t (.stop (s.xr a).toNat) (s.xr a)) ∧
      (∃ t, exec (.ctxKill p a) s = .next t ∧ gives s t ∧ entered s t (.kill (s.xr a).toNat) (s.xr a))) ∧
    (∀ c : BitVec 2, canAct s [a] [a] → (s.heldBy s.th.ctx (s.xr a)).isSome = true → engineOpen s →
      ∃ t, exec (.ctxResume p c a) s = .next t ∧ gives s t ∧
        entered s t (.resume (s.xr a).toNat c.toNat) (s.xr a)) ∧
    (canAct s [a] [a] → (s.xr a).toNat < 64 →
      ∃ t, exec (.ctxIntr a) s = .next t ∧ t.goesOn (s.th.pc + 4#64) ∧ s.KeepsRegs t [] ∧
        (s.myCtx.act = false → (t.ctx s.th.ctx).ipend = s.myCtx.ipend ||| (1#64 <<< (s.xr a).toNat)) ∧
        ∀ x, t.byte x = ((begun s [a] []).interrupt s.th.ctx (s.xr a).toNat).byte x)

/-- R13, R14, R131, R139, R140, R142: the events that end a wait of a slot, and an exit.
The model's choice: an event out of its time changes nothing (log entry 12). -/
def Obligations.SlotWakeEvents : Prop :=
  ∀ (sid : Nat) (s : State),
    (∀ cs, (s.slot sid).st = .sleep (.policy cs) 0 → awakes (.ydSleepTimeout sid) s sid) ∧
    (∀ cs n, (s.slot sid).st = .sleep (.policy cs) n →
      (s.opens (coreOf sid) = true → (s.core (coreOf sid)).halted = false →
        cs.all ({ s with cur := sid } : State).clear = true → awakes (.ydSleepWake sid) s sid) ∧
      (s.opens (coreOf sid) = false ∨ (s.core (coreOf sid)).halted = true ∨
        cs.all ({ s with cur := sid } : State).clear = false → exec (.ydSleepWake sid) s = .next s)) ∧
    ((s.slot sid).st = .sleep .yield 0 → awakes (.yieldEnd sid) s sid) ∧
    ((s.slot sid).st = .skip 0 → awakes (.holdSkipEnd sid) s sid) ∧
    (∀ d, (s.slot sid).st = .sleep (.sleep d) 0 →
      ∃ t, exec (.sleepTimeout sid) s = .next t ∧ (t.slot sid).st = .run ∧ (t.thread sid).wakeLatch = false ∧
        ({ t with cur := sid } : State).xr d = w64 (b2n (s.thread sid).wakeLatch) ∧
        (∀ r, r ≠ d → ({ t with cur := sid } : State).xr r = ({ s with cur := sid } : State).xr r) ∧
        t.cur = s.cur ∧ ∀ a, t.byte a = s.byte a) ∧
    ((s.slot sid).dying = true → s.opens (coreOf sid) = true → ∃ t, exec (.threadExitComplete sid) s = .next t ∧
      t.slot sid = { gen := (s.slot sid).gen } ∧ (∀ k, k ≠ sid → t.slot k = s.slot k) ∧
      (t.ctx (s.thread sid).ctx).usedSlots = (s.ctx (s.thread sid).ctx).usedSlots - (if (s.slot sid).left then 0 else 1) ∧
      ∀ a, t.byte a = s.byte a)

/-- R172, R184, R329, R375: the events that deliver a trap: at once where the thread takes it, and else the slot waits
for its reflection, which puts the thread into a save frame, tells its handler and leaves the slot.
The model's choices: `estat` holds NR as before the first execution of the instruction (log entry 15); an event out of its
time changes nothing (log entry 12). -/
def Obligations.TrapEvents : Prop :=
  ∀ (sid : Nat) (s : State),
    (∀ tr, (s.thread sid).trapWait = some tr → (s.thread sid).inFlight = false →
      ∃ t, exec (.preciseTrapDelivery sid) s = .next t ∧ (t.thread sid).trapWait = none ∧
        ((s.thread sid).takesTrap tr.code = true → inHandler (s.thread sid) (t.thread sid) tr) ∧
        ((s.thread sid).takesTrap tr.code = false → (t.slot sid).st = .sleep (.reflect tr) 0)) ∧
    (∀ e code info, (s.thread sid).lateFault = some e → e.fault = some (code, info) →
      let tr : Trap := { code := code, info := info, seq := e.seq, org := 1, pc := e.addr, st := (s.thread sid).st }
      ∃ t, exec (.lateFaultDelivery sid) s = .next t ∧ t.cur = s.cur ∧
        (t.thread sid).ring.length ≤ (s.thread sid).ring.length ∧
        ((s.thread sid).takesTrap code = true → (t.thread sid).epc = e.addr ∧ (t.thread sid).einfo = info ∧
          (t.thread sid).pc = (s.thread sid).uha ∧ stBit (t.thread sid).st 7 = true) ∧
        ((s.thread sid).takesTrap code = false → (t.slot sid).st = .sleep (.reflect tr) 0)) ∧
    (∀ r why, (s.thread sid).pendOv = some (r, why) → stBit (s.thread sid).st 7 = false →
      let tr : Trap := { code := tOVERWRITE, info := overwriteInfo r why, pc := (s.thread sid).pc,
                         st := (s.thread sid).stBefore }
      ((s.thread sid).inFlight = true → exec (.overwriteTrap sid) s = .next s) ∧
      ((s.thread sid).inFlight = false → ∃ t, exec (.overwriteTrap sid) s = .next t ∧ (t.thread sid).pendOv = none ∧
        ((s.thread sid).takesTrap tOVERWRITE = true → inHandler (s.thread sid) (t.thread sid) tr) ∧
        ((s.thread sid).takesTrap tOVERWRITE = false → (t.slot sid).st = .sleep (.reflect tr) 0))) ∧
    (∀ tr n k, (s.slot sid).st = .sleep (.reflect tr) n → (s.thread sid).inFlight = false →
      let anc := s.handlerOf (s.thread sid) tr
      let c := (s.thread sid).ctx
      (s.ctx anc).tqRoom = true → (s.ctx c).freeFrame = some k →
      let s1 := (((({ s with nextToken := s.nextToken + 1 } : State).flushPort (coreOf sid)).flushSends sid).settle sid).releaseLines sid
      let f : Frame := { num := k, sid := sid, why := 2, token := w64 (s.nextToken + 1), handler := anc, trap := some tr,
                         qo := (s1.slot sid).qo, th := { s1.thread sid with pc := tr.pc } }
      (∀ u, s1.toFrame c f = some u → exec (.trapReflection sid) s = .next ((u.postTrap anc f tr).vacate sid)) ∧
      (s1.toFrame c f = none → exec (.trapReflection sid) s = .next (s1.modCtx c (fun c => { c with lastErr := 1 }))))

/-- R122, R128, R170, R173, R185, R190: the events that carry on what a thread has in flight, and the reset of a core.
The model's choices: how a store that waits is performed (log entry 76), and what a reset sets (log entry 2). -/
def Obligations.RingEvents : Prop :=
  (∀ (sid : Nat) (e : RingEntry) (s : State), (s.thread sid).ring.find? (fun o => !o.retired) = some e → e.fault = none →
    ({ s with cur := sid } : State).arrivedAt e = false →
    let room (d : LateStore) : Prop := (s.core (coreOf sid)).comb.any (fun c => c.line == d.at_ / 64) = true ∨
      (s.core (coreOf sid)).comb.length < 16
    ((∀ d, e.store = some d → d.dest = .weak → room d) →
      ∃ t, exec (.heldResultWrite sid) s = .next t ∧ t.cur = s.cur ∧
        (t.thread sid).ring.length = (s.thread sid).ring.length ∧
        (∀ o ∈ (t.thread sid).ring, o.seq = e.seq → o.retired = true) ∧ (e.store = none → t.mem = s.mem) ∧
        ∀ d, e.store = some d →
          (d.dest = .strong → t.mem = Memory.writeAll s.mem (presentCells d.bytes d.at_)) ∧
          (d.dest = .sp → t.mem = s.mem ∧ (t.cluster (clusterOf sid)).scratch =
            Memory.writeAll (s.cluster (clusterOf sid)).scratch (presentCells d.bytes d.at_)) ∧
          (d.dest = .weak → (t.core (coreOf sid)).comb.any (fun c => c.line == d.at_ / 64) = true ∧
            ((s.thread sid).drains = [] → t.mem = s.mem))) ∧
    (∀ d, e.store = some d → d.dest = .weak → ¬ room d →
      ∃ t, exec (.heldResultWrite sid) s = .next t ∧ (t.thread sid).ring = (s.thread sid).ring ∧
        (t.core (coreOf sid)).comb = (s.core (coreOf sid)).comb)) ∧
  (∀ (sid : Nat) (s : State), ∃ t, exec (.sendLatchTimeout sid) s = .next t ∧
    (∀ k, k ≠ sid → t.slot k = s.slot k) ∧ t = { s with slots := t.slots } ∧
    ((s.thread sid).sl.st = .busy → (s.thread sid).sl.since + 65536 ≤ s.cycle →
      (t.thread sid).sl.st = .done ∧ (t.thread sid).sl.code = 11) ∧
    (¬ ((s.thread sid).sl.st = .busy ∧ (s.thread sid).sl.since + 65536 ≤ s.cycle) → t.thread sid = s.thread sid)) ∧
  (∀ (cid : Nat) (s : State), let k := s.core cid
    ∃ t, exec (.inboxDeferredReply cid) s = .next t ∧ (∀ k, k ≠ cid → t.core k = s.core k) ∧ t = { s with cores := t.cores } ∧
      t.core cid = { k with
        inbox := k.inbox ++ (k.deferred.take (48 - k.inbox.length)).map InboxEntry.kept,
        deferred := k.deferred.drop (48 - k.inbox.length) }) ∧
  (∀ (sid : Nat) (s : State), ∃ t, exec (.streamWriteDrain sid) s = .next t ∧ (t.thread sid).drains = [] ∧
    t.mem = (s.thread sid).drains.foldl (fun m d => Memory.writeAll m d.cells) s.mem) ∧
  (∀ (cid : Nat) (s : State), ∃ t, exec (.coreReset cid) s = .next t ∧ (∀ k, k ≠ cid → t.core k = s.core k) ∧
    t = { s with cores := t.cores } ∧ (t.core cid).cycle = 0 ∧ (t.core cid).start = s.cycle ∧
    (t.core cid).c = .replicate 32 0#64 ∧ (t.core cid).carm = .replicate 32 {} ∧ (t.core cid).w = .replicate 16 0#512)

/-- R134, R208, R232, R233, R243, R256: the events on the lines that a core keeps: a fill gives the issuing slot a
copy of the line as memory holds it; a drain writes the entry's bytes and frees it; a merge applies the core's updates to
what it reads (where no unit has an error, R217, R346, to memory); holds and leases run out.
The model's choices: ownership of a line stays for the hold of the thread that asked for it (log entry 64); a fill, a grant
and a merge are performed whole (log entry 61); entries that fall due in the coming rotation are drained (log entry 13). -/
def Obligations.LineEvents : Prop :=
  ∀ (cid slot line : Nat) (s : State), slot < 16 →
    let pc := s.askPc cid slot line
    (∃ t c, exec (.l1LineFill cid slot line) s = .next t ∧ t.copyFor cid slot line pc = some c ∧
      c.data = t.lineData line) ∧
    (∃ t c, exec (.leaseRenewal cid slot line) s = .next t ∧ t.copyFor cid slot line pc = some c ∧
      c.data = t.lineData line ∧ (t.homeOf line).wt ≤ (t.thread (16 * cid + slot)).clock) ∧
    (∃ t, exec (.writeGrant cid slot line) s = .next t ∧ t.mem = s.mem ∧
      ∃ c, (slot, line, c) ∈ (t.core cid).grants ∧ (s.thread (16 * cid + slot)).clock < c ∧
        (s.homeOf line).wt < c ∧ (s.homeOf line).maxLease < c) ∧
    (s.ownedElsewhere cid line = false → ((s.core cid).l1.find? line).isSome = true →
      ∃ t c, exec (.ownershipGrant cid slot line) s = .next t ∧ (t.homeOf line).excl = some cid ∧
        (t.core cid).l1.find? line = some c ∧ c.excl = true ∧ c.data = t.lineData line) ∧
    (s.ownedElsewhere cid line = true → exec (.ownershipGrant cid slot line) s = .next s) ∧
    (∀ e, (s.core cid).comb.find? (fun e => e.line == line) = some e →
      ∃ t, exec (.combineDrain cid line) s = .next t ∧ t.mem = Memory.writeAll s.mem e.bytes ∧
        (t.core cid).comb = (s.core cid).comb.filter (fun e => e.line != line)) ∧
    (let due := s.combDue cid (s.core cid).cycle
      ∃ t, exec (.combineAgeExpiry cid) s = .next t ∧
        (t.core cid).comb = (s.core cid).comb.filter (fun e => !due.contains e.line) ∧ (due = [] → t = s) ∧
        ∀ e, due = [line] → (s.core cid).comb.find? (fun e => e.line == line) = some e →
          t.mem = Memory.writeAll s.mem e.bytes) ∧
    (∃ t, exec (.updateMerge cid line) s = .next t ∧
      (t.core cid).upd = (s.core cid).upd.filter (fun u => u.line != line) ∧
      (s.ecc = [] → t.mem = (((s.core cid).upd.find? (fun u => u.line == line)).elim [] (·.units)).foldl (fun m u =>
        let a := line * 64 + u.idx * 8
        Memory.writeAll m (cellsAt a (leBytes (updApply u.kind u.wide (Memory.nat m a 8) u.val.toNat) 8))) s.mem)) ∧
    (∀ c, (s.core cid).l1.find? line = some c →
      ∃ t, exec (.arrivalHoldExpiry cid line) s = .next t ∧ t.mem = s.mem ∧ (t.core cid).l1.find? line =
        some { c with holds := c.holds.filter (fun h => decide ((s.core cid).cycle < h.2 + 32)) }) ∧
    (∀ c, (s.core cid).l1.find? line = some c → c.fresh (s.core cid).cycle = false → c.kept (s.core cid).cycle = false →
      ∃ t, exec (.leaseAgeExpiry cid line) s = .next t ∧ t.mem = s.mem ∧ (t.core cid).l1 = (s.core cid).l1.drop line)

/-- R99, R100, R190, R212, R213, R345, R425: the events on lines that are fetched, streamed or remote.
The model's choices: code of other devices is fetched for one instruction (log entry 79); an event out of its time changes
nothing (log entry 12). -/
def Obligations.RemoteEvents : Prop :=
  (∀ (sid : Nat) (va a : Word) (s : State), (s.slot sid).occupied = true → a ∈ s.prefetches sid (s.thread sid).pc →
    a.toNat / 64 = va.toNat / 64 →
    (∀ p, s.fetchParcel sid va = .got p → exec (.fetchPrefetch sid va) s = .next s) ∧
    (s.fetchParcel sid va = .fault → exec (.fetchPrefetch sid va) s = .next s) ∧
    (∀ cid line st, s.fetchParcel sid va = .wait (some (.fetch cid line st)) →
      ∃ t, exec (.fetchPrefetch sid va) s = .next t ∧ t = s.fillL1i cid line st ∧
        ((t.core cid).l1i.find? line).isSome = true)) ∧
  (∀ (sid : Nat) (s : State), (s.slot sid).st = .run → (s.slot sid).occupied = true →
    (∀ p, s.fetchAt sid (s.thread sid).pc = .one p → ∃ t, exec (.demandFetch sid) s = .next t ∧
      (t.thread sid).fetched = [((s.thread sid).pc.toNat, p)]) ∧
    (∀ w, s.fetchAt sid (s.thread sid).pc = .two w → ∃ t, exec (.demandFetch sid) s = .next t ∧
      (t.thread sid).fetched = [((s.thread sid).pc.toNat, w.setWidth 16),
        (((s.thread sid).pc + 2#64).toNat, w.extractLsb' 16 16)]) ∧
    (∀ j, s.fetchAt sid (s.thread sid).pc = .wait j → exec (.demandFetch sid) s = .next (s.oweOpt j))) ∧
  (∀ (sid n : Nat) (st : Stream) (s : State), vrd (s.thread sid).streams n = some st →
    (st.inSp = true ∨ st.isWrite = true → exec (.streamElementArrival sid n) s = .next s) ∧
    (st.inSp = false → st.isWrite = false → st.p + 1 = st.len → ∀ e m,
      s.xlate (coreOf sid) (s.thread sid).ctx (st.addr st.p).toNat (Kind.ofCode 0) = some e →
      s.machineOf (e.sys (st.addr st.p).toNat) = some m →
      ∃ t, exec (.streamElementArrival sid n) s = .next t ∧
        (t.copyFor (coreOf sid) (sid % 16) (m / 64) (s.thread sid).pc).isSome = true)) ∧
  (∀ (cid n : Nat) (data : BitVec 512) (r : RemoteReq) (s : State), (s.core cid).remote[n]? = some r → r.slot < 16 →
    (s.travels cid n = false → ∀ b, exec (.remoteReply cid n b data) s = .next s) ∧
    (s.travels cid n = true → r.kind = 0 → (s.thread (16 * cid + r.slot)).uid = r.uid →
      ∃ t b, exec (.remoteReply cid n false data) s = .next t ∧ t.mem = s.mem ∧
        (t.core cid).remote = (s.core cid).remote.eraseIdx n ∧
        (t.slot (16 * cid + r.slot)).bypass = some b ∧ b.line = r.sys / 64 ∧ b.pc = r.pc ∧
        b.copy.data = (((s.core cid).remote.take n).filter (fun q => q.uid == r.uid && q.sys / 64 == r.sys / 64)).foldl
          (fun d q => q.over d) data) ∧
    (s.travels cid n = true → r.kind = 1 ∨ r.kind = 3 → ∃ t, exec (.remoteReply cid n false data) s = .next t ∧ t = { s with cores := t.cores } ∧
      (t.core cid).remote = (s.core cid).remote.eraseIdx n) ∧
    (∃ t, exec (.remoteTimeout cid n) s = .next t ∧ ((s.core cid).cycle < r.since + 2 ^ 20 → t = s) ∧
      (r.since + 2 ^ 20 ≤ (s.core cid).cycle → t = s.remoteFail cid n ∧
        (s.travels cid n = true → exec (.remoteReply cid n true data) s = .next t)))) ∧
  (∀ (dev kind sys op m : Nat) (wide : Bool) (data : BitVec 512) (mask : BitVec 64) (s : State), sys < 2 ^ 56 →
    sysReserved sys = false → s.machineOf sys = some m →
    ∃ t, exec (.forwardedAccess dev kind sys op wide data mask) s = .next t ∧
      (kind = 1 → t.mem = Memory.writeAll s.mem (maskedCells (m / 64) data mask)) ∧
      (kind = 0 → s.ecc = [] → s.cores.all (fun p => p.2.upd.all (fun u => u.line != m / 64)) = true → t.mem = s.mem))

/-- R148, R169, R171, R173, R210, R254, R263, R264, R354, R359, R430: the events that perform what another unit is owed: it
leaves the list of owed work and takes its effect; of what keeps its order on one way, the first.
The model's choice: what is owed is a list of jobs, each performed whole (log entry 61). -/
def Obligations.OwedEvents : Prop :=
  ∀ (n : Nat) (s : State),
    (∀ w, performsFirst (.launchRequest n) s n (.launch w)) ∧
    (∀ who code id cl, performsFirst (.launchReply n) s n (.launchReply who code id cl)) ∧
    (∀ cl m dev ctx idx clock cap v ack, m.delivery = false → s.due[s.firstOfWay n]? = some (.arrive cl m) →
      ∃ t, exec (.fabricMessageArrival false n dev ctx idx clock cap v ack) s = .next t ∧
        t = ({ s with due := s.due.eraseIdx (s.firstOfWay n) } : State).arrive cl m) ∧
    (∀ cl m, m.delivery = true → performsFirst (.parkedValueDelivery n) s n (.arrive cl m)) ∧
    (∀ m code cl sid gen since c, performsFirst (.sendReply false n sid gen since c) s n (.reply m code cl)) ∧
    (∀ cid line st, performsOwed (.l1iFill n) s n (.fetch cid line st)) ∧
    (∀ r, performsFirst (.placeRequest n) s n (.request r)) ∧
    (∀ cid ctx va kind who eng, performsOwed (.scrivenerWalk n) s n (.walk cid ctx va kind who eng)) ∧
    (∀ who va pc, performsOwed (.scrivenerWalk n) s n (.probe who va pc)) ∧
    (∀ a b since, performsOwed (.crossTrigger n) s n (.trigger a b since)) ∧
    (∀ r a b c, r.op = .inval a b c → s.due[n]? = some (.request r) →
      ∃ t, exec (.invalidationComplete n) s = .next t ∧
        t = ({ s with due := s.due.eraseIdx n } : State).invalidateDone a r) ∧
    (∀ sid r k, firstIdx s.due (fun j => match j with | .request r => r.who.sid == sid | _ => false) = some k →
      s.due[s.firstOfWay k]? = some (.request r) →
      ∃ t, exec (.requestReply sid) s = .next t ∧
        t = ({ s with due := s.due.eraseIdx (s.firstOfWay k) } : State).perform (.request r))

/-- R122, R148, R157, R159, R169: the events of work and messages that wait: arbitration, once at a boundary, frees the
slots of threads that ended; the launches that wait enter the router's buffer in their order while it has room; a light
thread leaves for a free slot and is seated there; the first message of a core's send queue leaves.
The model's choices: where launches wait (log entry 72), which light thread moves (log entry 84), and that an event out of
its time changes nothing (log entry 12). -/
def Obligations.MoveEvents : Prop :=
  (∀ s : State, (s.atBoundary = false ∨ s.cycle ≤ s.arbed → exec .slotArbitration s = .next s) ∧
    (s.atBoundary = true → s.arbed < s.cycle → (∀ p ∈ s.ctxs, p.2.framesIn = []) → (∀ p ∈ s.clusters, p.2.work = []) →
      ∃ t, exec .slotArbitration s = .next t ∧ t.mem = s.mem ∧ t.arbed = s.cycle ∧
        ∀ sid, t.slot sid = if (s.slot sid).dying && s.atOwn (coreOf sid) then { gen := (s.slot sid).gen } else s.slot sid)) ∧
  (∀ (cl : Nat) (s : State), let k := 16 - (s.cluster cl).work.length
    ∃ t, exec (.launchAdmit cl) s = .next t ∧ (t.cluster cl).waiters = (s.cluster cl).waiters.drop k ∧
      (t.cluster cl).work = (s.cluster cl).work ++
        (((s.cluster cl).waiters.take k).zipIdx).map (fun p => { p.1 with id := s.nextLaunch + p.2 }) ∧
      ∀ p ∈ ((s.cluster cl).waiters.take k).zipIdx, .launchReply p.1.who 0 (s.nextLaunch + p.2) cl ∈ t.due) ∧
  (∀ (cl : Nat) (s : State),
    (s.cycle < (s.cluster cl).lightAt → exec (.lightThreadMove cl) s = .next s) ∧
    (∀ sid d, (s.cluster cl).lightAt ≤ s.cycle → ((upTo 128).map (fun i => 128 * cl + i)).find? (s.mayMove cl) = some sid →
      (s.lightDest (s.thread sid).ctx cl).bind (fun d => (s.freeSlots d).head?) = some d →
      ∃ t f, exec (.lightThreadMove cl) s = .next t ∧ t.slot sid = { gen := (s.slot sid).gen } ∧
        (t.slot d).reserved = true ∧ .lightArrive d ∈ t.due ∧ f ∈ (t.ctx (s.thread sid).ctx).framesIn ∧
        f.num = 65536 + d ∧ f.why = 3 ∧ f.sid = sid ∧ f.th.uid = (s.thread sid).uid ∧ f.th.pc = (s.thread sid).pc)) ∧
  (∀ (sid a : Nat) (f : Frame) (s : State),
    s.ctxs.findSome? (fun p => (p.2.framesIn.find? (fun f => f.num == 65536 + sid)).map (fun f => (p.1, f))) = some (a, f) →
    ∃ t, exec (.lightThreadArrival sid) s = .next t ∧ (t.slot sid).st = .run ∧ (t.slot sid).qo = f.qo ∧
      (t.slot sid).reserved = false ∧ (t.slot sid).dying = false) ∧
  (∀ (cid : Nat) (m : Msg) (r : List Msg) (s : State), (s.core cid).sendq = m :: r →
    ∃ t, exec (.messageDeparture cid) s = .next t ∧ (t.core cid).sendq = r ∧
      (∀ dst, capBits m.cap 54 10 = s.devId → s.physOf m.ctx (capBits m.cap 44 10) = some dst →
        s.permits (cid / 8) dst = true → .arrive dst m ∈ t.due) ∧
      (∀ dst, capBits m.cap 54 10 = s.devId → s.physOf m.ctx (capBits m.cap 44 10) = some dst →
        s.permits (cid / 8) dst = false → m.ack = true → .reply m 9 (cid / 8) ∈ t.due))

/-- R220, R221, R227, R238, R268, R340, R347, R417, R418: the events that write a register of a cluster or of a context. -/
def Sys2Proof.Claims.blockWriteEvents : Prop :=
  (∀ (cl n : Nat) (v : Word) (s : State), ∃ t, exec (.winWrite cl n v) s = .next t ∧ t = { s with clusters := t.clusters } ∧
    (∀ k, k ≠ cl → t.cluster k = s.cluster k) ∧
    t.cluster cl = { s.cluster cl with win := (t.cluster cl).win, winOld := (t.cluster cl).winOld } ∧
    (t.cluster cl).winsAt s.cycle = (s.cluster cl).winsAt s.cycle ∧
    vrd (t.cluster cl).win n =
      if winEn v ∧ (winRows v = 0 ∨ winFirst v + winRows v > 1651 ∨ winFmt v ≥ 5) then vrd (s.cluster cl).win n
      else v &&& 0xF03FFFFF#64) ∧
  (∀ (a n : Nat) (v : Word) (s : State), n < 32 → ∃ t, exec (.scopeEntryWrite a n v) s = .next t ∧
    t = { s with ctxs := t.ctxs } ∧ (∀ k, k ≠ a → t.ctx k = s.ctx k) ∧
    (t.ctx a).scopesAt s.cycle = (s.ctx a).scopesAt s.cycle ∧ vrd (t.ctx a).scopes n =
      if n < 6 ∨ (v.getLsbD 63 = true ∧ (bitsAt v.toNat 11 11 = 0 ∨ bitsAt v.toNat 11 11 > 1024 ∨ bitsAt v.toNat 22 10 = 0 ∨
        bitsAt v.toNat 32 8 = 0)) then vrd (s.ctx a).scopes n else v &&& 0x800000FFFFFFFBFF#64) ∧
  (∀ (cl n : Nat) (v : Word) (s : State), ∃ t, exec (.hbcWrite cl n v) s = .next t ∧ t = { s with clusters := t.clusters } ∧
    (∀ k, k ≠ cl → t.cluster k = s.cluster k) ∧
    (hbArr (vrd (s.cluster cl).hbc n) ≠ 0 → vrd (t.cluster cl).hbc n = vrd (s.cluster cl).hbc n) ∧
    (hbEn v = true → hbCnt v = 0 ∨ hbCnt v > 128 → vrd (t.cluster cl).hbc n = vrd (s.cluster cl).hbc n) ∧
    (hbArr (vrd (s.cluster cl).hbc n) = 0 → hbEn v = true → 0 < hbCnt v → hbCnt v ≤ 128 →
      hbEn (vrd (t.cluster cl).hbc n) = true ∧ hbCnt (vrd (t.cluster cl).hbc n) = hbCnt v ∧
      hbArr (vrd (t.cluster cl).hbc n) = 0 ∧ hbPhase (vrd (t.cluster cl).hbc n) = hbPhase (vrd (s.cluster cl).hbc n))) ∧
  (∀ (a : Nat) (v : Word) (s : State),
    (∃ t, exec (.fqbWrite a v) s = .next t ∧ (∀ k, k ≠ a → t.ctx k = s.ctx k) ∧ (t.ctx a).fqb =
      if lnOk (ringLn v) = true ∧ (s.ctx a).fqh = (s.ctx a).fqt then ringMask v else (s.ctx a).fqb) ∧
    (∃ t, exec (.fqhWrite a v) s = .next t ∧ (∀ k, k ≠ a → t.ctx k = s.ctx k) ∧ (t.ctx a).fqh = v.setWidth 32) ∧
    (∃ t, exec (.erbWrite a v) s = .next t ∧ (∀ k, k ≠ a → t.ctx k = s.ctx k) ∧ (t.ctx a).erb =
      if lnOk (ringLn v) = true then ringMask v else (s.ctx a).erb) ∧
    (∃ t, exec (.ercWrite a v) s = .next t ∧ (∀ k, k ≠ a → t.ctx k = s.ctx k) ∧ (t.ctx a).erc = v)) ∧
  (∀ (cl : Nat) (v : Word) (s : State), ∃ t, exec (.vsegWrite cl v) s = .next t ∧ t.mem = s.mem ∧
    (t.cluster cl).vseg = (s.cluster cl).vseg ∧ (t.cluster cl).vault = (s.cluster cl).vault ∧
    (t.cluster cl).vsegTo = if v &&& 0xFFFE#64 = (s.cluster cl).vseg then none else some (v &&& 0xFFFE#64)) ∧
  (∀ (cl n : Nat) (v : Word) (s : State),
    (∃ t, exec (.quotaWrite cl n v) s = .next t ∧
      (t.cluster (cl % 1024)).quotasAt s.cycle = (s.cluster (cl % 1024)).quotasAt s.cycle ∧
      (t.cluster (cl % 1024)).quota.find? (n % 64) = some (v.setWidth 16 &&& 0xFFFE#16)) ∧
    (∃ t, exec (.umonClear cl n) s = .next t ∧
      (t.cluster (cl % 1024)).umon.find? (n % 64) = some (List.replicate 16 0)))

/-- R369, R374, R386, R415, R416, R419, R422, R430, R441: the events that write a register of a context, of the
fabric, of the debug unit or of the module; a cluster's own bit of its map stays 1.
The model's choices: the fresh secret of `rekey` (log entry 5), and where routes come from (log entry 51). -/
def Sys2Proof.Claims.controlWriteEvents : Prop :=
  (∀ (a : Nat) (v : Word) (s : State), ∃ t, exec (.cenWrite a v) s = .next t ∧ (t.ctx a).cen = v.getLsbD 0 ∧
    t.mem = s.mem) ∧
  (∀ (a p h : Nat) (v : Word) (s : State), (s.ctx a).parent = some (p, h) →
    v.setWidth 9 &&& ~~~(s.ctx p).feat = 0#9 →
    ∃ t, exec (.featWrite a v) s = .next t ∧ (t.ctx a).feat = v.setWidth 9 ∧
      ∀ c, c ≠ a → (t.ctx c).feat = if s.within c a then (s.ctx c).feat &&& ~~~((s.ctx a).feat &&& ~~~v.setWidth 9)
        else (s.ctx c).feat) ∧
  (∀ (a : Nat) (s : State), ∃ t, exec (.rekey a) s = .next t ∧ (t.ctx a).secretNo = s.freeCtr ∧
    t.freeCtr = s.freeCtr + 1 ∧ ∀ k, k ≠ a → t.ctx k = s.ctx k) ∧
  (∀ (cl : Nat) (device : Bool) (m : BitVec 1024) (s : State), cl < 1024 → s.inFlightPackets = false →
    ∃ t, exec (.permissionMapWrite cl device m) s = .next t ∧ (∀ k, k ≠ cl → t.cluster k = s.cluster k) ∧
      (∀ d < 1024, (device = true ∨ d ≠ cl → (if device then t.permitsDev cl d else t.permits cl d) = m.getLsbD d)) ∧
      t.permits cl cl = true) ∧
  (∀ (k n v : Nat) (s : State), n < 4 →
    (k < 4 → (∀ p ∈ s.clusters, dieOf p.1 = k → hbEn (vrd p.2.hbc n) = false) →
      ∃ t, exec (.allotmentWrite true k n v) s = .next t ∧ t.hbaOf k = allotPut (s.hbaOf k) n v) ∧
    (k < 8 → vrd (s.field k).collq n = [] →
      ∃ t, exec (.allotmentWrite false k n v) s = .next t ∧ (t.field k).cqa = allotPut (s.field k).cqa n v)) ∧
  (∀ (cl i : Nat) (v : Word) (s : State), cl < 1024 → i < 8 →
    (∃ t, exec (.halt cl 0 v) s = .next t ∧ t.mem = s.mem ∧
      (t.cluster cl).dmctl = (v &&& 0x70000#64) |||
        (((s.cluster cl).dmctl ||| v) &&& 0xFF#64 &&& ~~~(w64 (bitsAt v.toNat 8 8))) ∧
      (t.core (8 * cl + i)).halted = if v.getLsbD (8 + i) then false else v.getLsbD i || (s.core (8 * cl + i)).halted) ∧
    (∃ t, exec (.debugResume cl (2 ^ i)) s = .next t ∧ t.mem = s.mem ∧ (t.core (8 * cl + i)).halted = false ∧
      ∀ k < 8, k ≠ i → (t.core (8 * cl + k)).halted = (s.core (8 * cl + k)).halted)) ∧
  (∀ (n : Nat) (s : State), n < 18 →
    let p := s.ports.get {} n
    ∀ e ∈ [(0x00, { p with fecOk := 0 }), (0x08, { p with fecBad := 0 }), (0x10, { p with retried := 0 }),
      (0x18, { p with dropped := 0 }), (0x20, { p with retrains := 0 })],
      ∃ t, exec (.portCounterClear n e.1 0#64) s = .next t ∧ t = { s with ports := t.ports } ∧ t.ports.get {} n = e.2) ∧
  (∀ (d : Nat) (e : Nat × Nat) (s : State), d < 1024 → s.ctxs.all (fun p => p.2.phase != .running) = true →
    ∃ t, exec (.deviceIdentifierAssignment d [e]) s = .next t ∧ t = { s with devId := d, route := t.route } ∧
      t.route.find? e.1 = some (e.2 % 18)) ∧
  (∀ (v : Word) (s : State), ∃ t, exec (.pwrsWrite v) s = .next t ∧ t = { s with modl := t.modl } ∧ t.modl = { s.modl with
    ovc := if bitsAt v.toNat 32 8 = 0 then s.modl.ovc else 0,
    drc := if bitsAt v.toNat 8 8 = 0 then s.modl.drc else 0 })

/-- The writes of registers that no instruction writes. -/
def Obligations.RegisterWriteEvents : Prop := Claims.blockWriteEvents ∧ Claims.controlWriteEvents

/-- R225, R269, R275, R277: what the queues and barriers of a cluster do by themselves. -/
def Obligations.QueueEvents : Prop :=
  (∀ (die n : Nat) (s : State), s.hbarMembers die n ≠ [] →
    (∀ cl ∈ s.hbarMembers die n, hbArr (vrd (s.cluster cl).hbc n) = hbCnt (vrd (s.cluster cl).hbc n)) →
    ∃ t, exec (.hbarAdvance die n) s = .next t ∧ t = { s with clusters := t.clusters } ∧
      (∀ cl ∈ s.hbarMembers die n, hbArr (vrd (t.cluster cl).hbc n) = 0 ∧ hbT (vrd (t.cluster cl).hbc n) = false ∧
        hbCnt (vrd (t.cluster cl).hbc n) = hbCnt (vrd (s.cluster cl).hbc n)) ∧
      (∀ cl, s.hbarMembers die n = [cl] →
        hbPhase (vrd (t.cluster cl).hbc n) = (hbPhase (vrd (s.cluster cl).hbc n) + 1) % 256)) ∧
  (∀ (cl n : Nat) (s : State), s.hbarExpired cl n = true →
    ∃ t, exec (.hbarTimeout cl n) s = .next t ∧ t = { s with clusters := t.clusters } ∧
      hbArr (vrd (t.cluster cl).hbc n) = 0 ∧ hbT (vrd (t.cluster cl).hbc n) = true) ∧
  (∀ (k i q : Nat) (s : State), ∃ t, exec (.queueReservationExpiry k i q) s = .next t ∧ t.mem = s.mem ∧
    t.queueCtl (queueOf k i q) = (s.queueCtl (queueOf k i q)).expire s.cycle) ∧
  (∀ (cl : Nat) (s : State), ∃ t, exec (.parkReservationExpiry cl) s = .next t ∧ t = { s with clusters := t.clusters } ∧
    (t.cluster cl).park = (s.cluster cl).park ∧
    ((∀ r ∈ (s.cluster cl).parkResv, s.cycle < r.2.2) → t = s) ∧
    (∀ r, (s.cluster cl).parkResv.find? (fun r => decide (r.2.2 ≤ s.cycle)) = some r →
      (∀ v ∈ (t.cluster cl).parkResv, v ∈ (s.cluster cl).parkResv.erase r ∨ s.cycle < v.2.2) ∧
      ((s.cluster cl).parkResv.erase r).length ≤ (t.cluster cl).parkResv.length)) ∧
  (∀ (i q m : Nat) (e : CopyEntry) (s : State), s.copyHead i q = some e → e.fence = some m →
    (∀ j < 8, bitAt m j = true → j ≠ q → ∀ o ∈ vrd (s.cluster i).copyq j, e.num ≤ o.num) →
    ∃ t, exec (.queueFencePerform 0 i q) s = .next t ∧ t.mem = s.mem ∧
      vrd (t.cluster i).copyq q = (vrd (s.cluster i).copyq q).drop 1) ∧
  (∀ (i q m : Nat) (e : CollEntry) (s : State), s.collHead i q = some e → e.fence = some m →
    (∀ j < 4, bitAt m j = true → j ≠ q → ∀ o ∈ vrd (s.field i).collq j, e.num ≤ o.num) →
    ∃ t, exec (.queueFencePerform 1 i q) s = .next t ∧ t.mem = s.mem ∧
      vrd (t.field i).collq q = (vrd (s.field i).collq q).drop 1)

/-- R311 to R317, R320 to R324: the copy engine takes the windows as they stand when an entry starts, and moves a row
whose ends have no error; the collective engine matches the entries of its partners, ends where one disagrees or reports
an error, and performs one part a step. The model's choice: how partners are announced (log entry 26). -/
def Obligations.EngineEvents : Prop :=
  (∀ (cl q : Nat) (e : CopyEntry) (s : State), s.copyHead cl q = some e → e.fence = none → e.wins = none →
    (∀ r < e.rows, e.rowBreaks ((s.cluster cl).winsAt s.cycle).toList (e.rowAddrs r 0).1 (e.rowAddrs r 0).2 = none) →
    ∃ t, exec (.copyEntryStart cl q) s = .next t ∧
      t.copyHead cl q = some { e with wins := some ((s.cluster cl).winsAt s.cycle).toList } ∧
      (vrd (t.cluster cl).copyq q).drop 1 = (vrd (s.cluster cl).copyq q).drop 1 ∧ t.mem = s.mem ∧
      (t.cluster cl).scratch = (s.cluster cl).scratch) ∧
  (∀ (cl q : Nat) (e : CopyEntry) (wins : List Word) (sp dp : EndPt) (u v : State) (p p' : Option Nat) (s : State),
    s.copyHead cl q = some e → e.wins = some wins → e.idxd = 0 → e.fer = false →
    let a := e.rowAddrs e.row (sval 32 (Memory.nat (s.cluster cl).scratch (e.itg * 16 + 4 * (e.row % e.n1)) 4))
    let sf := endFmt e.src e.sfmt wins a.1
    let df := endFmt e.dst e.dfmt wins a.2
    let sz := endSizes sf.1 df.1
    s.endAddress cl e.src a.1 (e.elems * sz.1) = none → s.endAddress cl e.dst a.2 (e.elems * sz.2) = none →
    a.1.toNat % sz.1 = 0 → a.2.toNat % sz.2 = 0 → (s.cluster cl).vsegTo = none →
    s.engErr cl e.who.ctx e.failedPage (endPieces e.src a.1 (e.elems * sz.1)) (endPieces e.dst a.2 (e.elems * sz.2)) = none →
    s.endMap cl e e.src a.1 (e.elems * sz.1) ⟨true, false, false⟩ = (.ok (some sp), u, p) →
    u.endMap cl e e.dst a.2 (e.elems * sz.2) ⟨false, true, false⟩ = (.ok (some dp), v, p') →
    ∃ t, exec (.copyRow cl q) s = .next t ∧ t = if e.row + 1 < e.rows then
        (v.moveRow cl e sp dp a.1 a.2 sf df sz).modCopyHead cl q (fun e => { e with row := e.row + 1, waitPage := none })
      else (v.moveRow cl e sp dp a.1 a.2 sf df sz).copyDone cl q e none) ∧
  (∀ (f q : Nat) (e : CollEntry) (parts : List Partner) (s : State), s.collHead f q = some e → e.fence = none →
    2 ≤ e.cnt → e.parts = none → s.collPermits e = true → (e.partners s.devId f q parts).length + 1 = e.cnt →
    ((∀ p ∈ e.partners s.devId f q parts, e.agrees p = true) →
      ∃ t, exec (.collectiveMatch f q 0 parts) s = .next t ∧ t.mem = s.mem ∧ t.collHead f q = some { e with
        parts := some ((e.partners s.devId f q parts).map (fun p => (p.dev, p.src.map (fun v => v % 2 ^ (8 * e.size))))) }) ∧
    ((∃ p ∈ e.partners s.devId f q parts, e.agrees p = false) →
      ∃ t, exec (.collectiveMatch f q 0 parts) s = .next t ∧
        t = s.free.2.collDone f q e (some (6, (Config.freeWord s.free.1).toNat)))) ∧
  (∀ (f q err : Nat) (e : CollEntry) (parts : List Partner) (s : State), s.collHead f q = some e → e.fence = none →
    2 ≤ e.cnt →
    (1 ≤ err → err ≤ 5 → ∃ t, exec (.collectiveMatch f q err parts) s = .next t ∧ t = s.collDone f q e (some (err, 0))) ∧
    (err = 6 → ∃ t, exec (.collectiveMatch f q err parts) s = .next t ∧
      t = s.free.2.collDone f q e (some (6, (Config.freeWord s.free.1).toNat)))) ∧
  (∀ (f q : Nat) (e : CollEntry) (sl dl : List (Nat × Nat)) (u v : State) (s : State), s.collHead f q = some e →
    e.fence = none → e.parts.isSome = true ∨ e.cnt = 1 →
    s.endAddress e.cl .mem e.src e.srcBytes = none → s.endAddress e.cl .mem e.dst e.dstBytes = none →
    e.src.toNat % e.size = 0 → e.dst.toNat % e.size = 0 →
    s.engErr e.cl e.who.ctx e.failedPage (pagePieces e.src.toNat e.srcBytes) (pagePieces e.dst.toNat e.dstBytes) = none →
    s.engMap e.cl e.who ⟨true, false, false⟩ (pagePieces e.src.toNat e.srcBytes) = .ok sl u →
    u.engMap e.cl e.who ⟨false, true, false⟩ (pagePieces e.dst.toNat e.dstBytes) = .ok dl v →
    let r := v.collSource e (e.base + e.step) sl
    let acc := e.combine (e.base + e.step) r.1
    let refused := e.base + e.step = v.devId ∧ v.collPermits e = false
    (refused → ∃ t, exec (.collectiveStep f q) s = .next t ∧ t = v.collDone f q e (some (5, e.dst.toNat))) ∧
    (¬ refused → ∃ t, exec (.collectiveStep f q) s = .next t ∧ t = if e.step + 1 < e.cnt then
        r.2.modCollHead f q (fun e => { e with step := e.step + 1, acc := acc, waitPage := none })
      else (r.2.engWrite e.who.ctx dl (acc.flatMap (fun v => leBytes v e.size))).collDone f q e none))

/-- R217, R299: a state after a tile command has read a row: its elements, and the scale bytes of a window of scaled
blocks. -/
def Sys2Proof.Claims.rowRead (s : State) (cl a : Nat) (w : Option Win) (f n sz o : Nat) : State :=
  let s := s.engSpRead cl a o (n * sz)
  match w with
  | some w => if f = 1 then
      (upTo ((n + 31) / 32)).foldl (fun (s : State) k => s.engSpRead cl a (w.scaleAt (o + 32 * k)) 1) s else s
  | none => s

/-- R288, R290 to R292, R298 to R306: what the tile unit of a cluster does by itself: it is leased to a core that asked,
at a rotation boundary; the hold ends, its commands saved, or is renewed; and the first command of the queue takes a step.
The model's choices: `arrayBad` counts the attempts of the array that an error strikes (log entry 67); a core with saved
entries requests the lease again by itself (log entry 78). -/
def Obligations.TileEvents : Prop :=
  ∀ (cl : Nat) (s : State),
    (∀ c, s.cycle % 16 = 0 → (s.cluster cl).lease.holder = none → (s.cluster cl).lease.next = some c →
      ∃ t, exec (.leaseGrant cl) s = .next t ∧ (t.cluster cl).lease.holder = some c ∧
        (t.cluster cl).lease.serial = (s.cluster cl).lease.serial + 1#32 ∧ (t.cluster cl).lease.since = s.cycle ∧
        (t.cluster cl).lease.released = false ∧ (t.cluster cl).tileq = (s.cluster cl).lease.saved.get [] c ∧
        (t.cluster cl).tiles = (s.cluster cl).tiles) ∧
    ((s.cluster cl).lease.holder.isSome = true → (s.cluster cl).lease.released = true → (s.cluster cl).tileq = [] →
      ∃ t, exec (.leaseHoldEnd cl) s = .next t ∧ (t.cluster cl).lease.holder = none ∧ t.mem = s.mem ∧
        (t.cluster cl).tiles = (s.cluster cl).tiles) ∧
    ((s.cluster cl).lease.holder.isSome = true → (s.cluster cl).lease.since + 8192 ≤ s.cycle →
      ∃ t, exec (.leaseCycleLimit cl) s = .next t ∧ t.mem = s.mem ∧ (t.cluster cl).tiles = (s.cluster cl).tiles ∧
        ((∃ c ∈ (s.cluster cl).lease.reqs, some c ≠ (s.cluster cl).lease.holder) → (t.cluster cl).lease.holder = none) ∧
        ((∀ c ∈ (s.cluster cl).lease.reqs, some c = (s.cluster cl).lease.holder) →
          (t.cluster cl).lease.holder = (s.cluster cl).lease.holder ∧ (t.cluster cl).lease.cmds = 0 ∧
          (t.cluster cl).lease.since = s.cycle) ∧
        (∀ c, (s.cluster cl).lease.holder = some c → (∃ d ∈ (s.cluster cl).lease.reqs, d ≠ c) → (s.cluster cl).tileq ≠ [] →
          (t.cluster cl).tileq = [] ∧ (t.cluster cl).lease.saved.get [] c = (s.cluster cl).tileq ∧
          c ∈ (t.cluster cl).lease.reqs)) ∧
    (∀ e, s.tileHead cl = some e →
      (∀ t w, e.cmd = .tsh t w → ∃ u, exec (.tshPerform cl) s = .next u ∧ u.mem = s.mem ∧
        (u.cluster cl).tile t = { (s.cluster cl).tile t with tsh := w }) ∧
      (∀ t, e.cmd = .tzero t → ∃ u, exec (.tzeroPerform cl) s = .next u ∧ u.mem = s.mem ∧
        (u.cluster cl).tile t = { (s.cluster cl).tile t with rows := [], scale := [] }) ∧
      (∀ sh, e.shapes = some sh →
        (∀ t o pitch w sz, e.cmd = .tld t o pitch →
          let f := tshFmt (w64 sh.1)
          let n := tshCols (w64 sh.1)
          let at' := rowOffset o pitch e.step
          f ≠ 0 → f ≠ 6 → rowCheck loadSize ((s.cluster cl).winsAt s.cycle).toList f n at' = .ok (w, sz) →
          let r := Claims.rowRead s cl e.who.ctx w f n sz at'
          ∃ u, exec (.tldRow cl) s = .next u ∧ u.mem = s.mem ∧ (u.cluster cl).tile t =
            ((r.cluster cl).tile t).loadRow (r.cluster cl).scratch w sz f n e.step at') ∧
        (∀ t o pitch sz, e.cmd = .tst t o pitch →
          let f := tshFmt (w64 sh.1)
          f ≠ 0 → e.step + 1 < e.nstep → (∀ c ∈ (s.cluster cl).lease.reqs, some c = (s.cluster cl).lease.holder) →
          rowCheck storeSize ((s.cluster cl).winsAt s.cycle).toList f (tshCols (w64 sh.1)) (rowOffset o pitch e.step) =
            .ok (none, sz) →
          let r := s.readUnits [.tile cl t e.step] e.who.ctx 0 true
          ∃ u, exec (.tstRow cl) s = .next u ∧ u.mem = s.mem ∧ (u.cluster cl).tiles = (r.cluster cl).tiles ∧
            (u.cluster cl).scratch = Memory.writeAll (s.cluster cl).scratch (cellsAt (rowOffset o pitch e.step)
              (((r.cluster cl).tile t).storeRow 0 sz f (tshCols (w64 sh.1)) e.step).1)) ∧
        (∀ f z c a b, e.cmd = .mma f z c a b → mmaShapesOk f (w64 sh.1) (w64 sh.2.1) (w64 sh.2.2) = true →
          let m := tshRows (w64 sh.1)
          let n := tshRows (w64 sh.2.1)
          let r := ((s.tileRead cl e.who.ctx a m).tileRead cl e.who.ctx b n).tileRead cl e.who.ctx c m
          let p := mmaStep f z ((r.cluster cl).tile a) ((r.cluster cl).tile b) ((r.cluster cl).tile c) m n
            (tshCols (w64 sh.1)) e.step
          let checked := mmaChecked f ((r.cluster cl).tile a) ((r.cluster cl).tile b) m n (tshCols (w64 sh.1)) e.step
          let bad := (s.cluster cl).arrayBad
          ∃ u, exec (.mmaStep cl) s = .next u ∧ u.mem = s.mem ∧
            (bad = 0 ∨ (checked = true ∧ bad < 2) → (u.cluster cl).tile c = p.1 ∧
              (u.ctx e.who.ctx).asat = (r.ctx e.who.ctx).asat + w64 p.2) ∧
            (u.ctx e.who.ctx).mck = (r.ctx e.who.ctx).mck + (if checked = true ∧ 2 ≤ bad then 1#64 else 0#64) ∧
            (u.cluster cl).arrayBad = bad - (if checked then 2 else 1)) ∧
        (∀ t v sc, e.cmd = .tqnt t v sc → tshFmt (w64 sh.1) = 5 → tshFmt (w64 sh.2.1) = 1 →
          tshRows (w64 sh.1) = tshRows (w64 sh.2.1) → tshCols (w64 sh.1) = tshCols (w64 sh.2.1) →
          let r := s.readUnits [.tile cl v e.step] e.who.ctx 0 true
          ∃ u, exec (.tqntRow cl) s = .next u ∧ u.mem = s.mem ∧ (u.cluster cl).tile t =
            (quantRow ((r.cluster cl).tile v) ((r.cluster cl).tile t) (tshCols (w64 sh.1)) sc e.step).1)))

/-- R227, R337, R338, R342, R356: what the fault units, the vault partition and the translation caches do by
themselves.
The model's choices: what an access to a pending page records (log entry 65), and that an event out of its time changes
nothing (log entry 12). -/
def Obligations.FaultEvents : Prop :=
  (∀ (cl i : Nat) (t : Word) (s : State), (s.cluster cl).vsegTo = some t →
    (upTo 16).find? (fun i => (s.cluster cl).vseg.getLsbD i != t.getLsbD i) = some i →
    ∃ u, exec (.vsegSegmentStep cl) s = .next u ∧ u.mem = s.mem ∧
      (∀ j < 64, (u.cluster cl).vseg.getLsbD j =
        if j = i then !(s.cluster cl).vseg.getLsbD j else (s.cluster cl).vseg.getLsbD j) ∧
      (u.cluster cl).vsegTo = if (u.cluster cl).vseg = t then none else some t) ∧
  (∀ (sid va kind c l p : Nat) (k : Kind) (u s : State),
    s.faultPending (clusterOf sid) (s.thread sid).ctx (va / 4096) = false →
    s.translate true (s.thread sid).ctx va (Kind.ofCode kind) = .fault c l p k u →
    ∃ t, exec (.faultRecord sid va kind) s = .next t ∧
      ((∀ f ∈ u.fields, ∀ r ∈ f.2.ranges, r.holds c (u.ctx c).depth p = false) →
        ((∀ r ∈ (u.field (fieldOf (clusterOf sid))).closed ++ (u.field (fieldOf (clusterOf sid))).batch,
          r.sameAs (clusterOf sid) c (u.ctx c).depth p = false) →
        (t.field (fieldOf (clusterOf sid))).batch = (u.field (fieldOf (clusterOf sid))).batch ++
          [{ owner := c, stage := (u.ctx c).depth, level := l, page := p, r := k.r, w := k.w, x := k.x, eng := false,
             who := ⟨sid, (s.thread sid).gen, (s.thread sid).ctx, (s.thread sid).uid⟩, cl := clusterOf sid,
             waits := [((s.thread sid).ctx, va / 4096)], asked := Kind.ofCode kind, since := u.cycle }])) ∧
      (∀ (f : Nat) (r : Field), u.fields.find? f = some r → ∀ q ∈ r.ranges, q.holds c (u.ctx c).depth p = true →
        ∃ q' ∈ (t.field f).ranges, q'.fid = q.fid ∧ q'.npg = q.npg ∧
          (clusterOf sid, (s.thread sid).ctx, va / 4096) ∈ q'.waits)) ∧
  (∀ (f : Nat) (s : State), (s.field f).closed = [] →
    (∀ r l, (s.field f).batch = r :: l → l.length < 63 ∧ s.cycle < r.since + 4096) →
    ∃ t, exec (.sorterBatchClose f) s = .next t ∧ t = { s with fields := t.fields } ∧ ∀ k, t.field k = s.field k) ∧
  (∀ (f : Nat) (s : State),
    let v := s.sealBatch f
    let ms := batchRanges (v.field f).closed
    let owners := uniq (ms.map (·.owner))
    let given (posts : Nat → Bool) (i a : Nat) : Nat :=
      ((ms.take i).zipIdx.filter (fun p => posts p.2 && (p.1.owner == a))).length
    let taken (posts : Nat → Bool) (i : Nat) : Nat := ((upTo i).filter posts).length
    (∀ r l, (s.field f).closed = [] → (s.field f).batch = r :: l → 63 ≤ l.length ∨ r.since + 4096 ≤ s.cycle →
      (v.field f).closed = (r :: l).take 64 ∧ (v.field f).batch = (r :: l).drop 64) ∧
    ((v.field f).closed ≠ [] → ∀ posts : Nat → Bool,
      (∀ i m, ms[i]? = some m → posts i = v.fqUsable m.owner ((v.ctx m.owner).fqt.toNat + given posts i m.owner)) →
      let fits := ∀ i m, ms[i]? = some m → (v.field f).ranges.length + taken posts i < 256 ∧
        (posts i = true → given posts i m.owner < (v.ctx m.owner).fqRoom)
      (¬ fits → exec (.sorterBatchClose f) s = .next v) ∧
      (fits → ∃ t, exec (.sorterBatchClose f) s = .next t ∧
          t = owners.foldl (fun u a => if (u.ctx a).fqt = (v.ctx a).fqt then u
            else u.doorbell a (u.ctx a).fqd (u.ctx a).fqt.toNat)
            (ms.foldl (fun u m => u.postRange f m) (v.modField f (fun f => { f with closed := [] })))))) ∧
  (∀ (cl : Nat) (s : State),
    ((∀ h ∈ (s.cluster cl).replay, h.released = none) → exec (.heldStoreReplay cl) s = .next s) ∧
    (∀ fid, (s.cluster cl).replay.findSome? (·.released) = some fid →
      ∃ t, exec (.heldStoreReplay cl) s = .next t ∧
        t = if ((s.replayAll fid).cluster cl).replay.any (·.released.isSome) then
          (s.replayAll fid).owe (.replayHeld cl) else s.replayAll fid)) ∧
  (∀ (cid : Nat) (s : State), ∃ t, exec (.tlbFillHoldExpiry cid) s = .next t ∧ t = { s with cores := t.cores } ∧
    (∀ k, k ≠ cid → t.core k = s.core k) ∧ t.core cid = { s.core cid with tlb := (s.core cid).tlb.map (fun e =>
      if e.heldUntil ≤ (s.core cid).cycle then { e with heldUntil := 0 } else e) })

/-- R384, R386, R389: the first operation of an active context's queue takes its step, unless the queues of the context
are being frozen, and what is begun is recorded in STATE. -/
def Sys2Proof.Claims.engineSteps : Prop :=
  ∀ (a b : Nat) (e : CtxEntry) (r : List CtxEntry) (s : State), (s.ctx a).act = true → s.frozenQueues a = false →
    (s.ctx a).engine = e :: r →
    let takes (i : Instr) (t : State) : Prop := exec i s = .next (t.noteOp a)
    (∀ h d, e.op = .new h d → takes (.ctxNewStep a) (s.newStep a e h d)) ∧
    (∀ h d k, e.op = .grant h d → s.grantKind a = some k → s.ofHandle a h = some b →
      ∀ p ∈ [(1, Instr.cores a), (2, .window a), (3, .qslot a), (4, .budget a), (5, .map a), (6, .recallMapped a)],
        k = p.1 → takes p.2 (s.grantStep a b (h == 255) e d)) ∧
    (∀ h sel v, e.op = .wr h sel v → s.ofHandle a h = some b →
      takes (.ctxWrStep a) ((s.writeBlock b sel v (s.ctx a).feat).ctxDone a b e)) ∧
    (∀ h, e.op = .run h → s.ofHandle a h = some b → takes (.ctxRunStep a)
        (if e.step = 0 ∧ (s.ctx b).phase ≠ .built ∧ (s.ctx b).phase ≠ .frozen then s.ctxFail a b e 6
        else s.runStep a b 4 e)) ∧
    (∀ h, e.op = .stop h → s.ofHandle a h = some b → e.step = 0 → (s.ctx b).phase ≠ .running →
      takes (.ctxStopStep a) (s.ctxFail a b e 6)) ∧
    (∀ h, e.op = .stop h → s.ofHandle a h = some b → e.step ≠ 0 ∨ (s.ctx b).phase = .running → takes (.ctxStopStep a)
        (if (s.stopStep a b 5 e).1 then
          ((s.stopStep a b 5 e).2.modCtx b (fun c => { c with phase := .frozen })).ctxDone a b e
        else (s.stopStep a b 5 e).2)) ∧
    (∀ h, e.op = .kill h → s.ofHandle a h = some b → takes (.ctxKillStep a) (s.killStep a b e)) ∧
    (e.op = .freeze b → e.step ≠ 0 ∨ (s.ctx b).act = true → takes (.ctxFreezeStep a)
        (if (s.stopStep a b 8 e).1 then (s.stopStep a b 8 e).2.ctxDone a b e else (s.stopStep a b 8 e).2)) ∧
    (e.op = .thaw b → e.step ≠ 0 ∨ ((s.ctx b).act = false ∧ (s.ctx b).phase = .running ∧ s.mayRun b = true) →
      takes (.ctxThawStep a) (s.runStep a b 9 e))

/-- R384, R385, R369, R370, R390: what the three steps of `ctx.new` change: the budget moves from the issuer's; the child
has its ASID, its tenant number, its secret and its handle; its block is what the descriptor says. A failing step leaves
the child FAILED with its LASTERR, and the operation is over.
The model's choices: a child without an ASID has a number of the model's own (log entry 36); its budget is charged at the
first step (log entry 41); secrets are opaque (log entry 5). -/
def Sys2Proof.Claims.newEffects : Prop :=
  ∀ (a h d k : Nat) (e : CtxEntry) (r : List CtxEntry) (s : State), (s.ctx a).act = true → s.frozenQueues a = false →
    (s.ctx a).engine = e :: r → e.op = .new h d → (s.ctx a).handles.find? h = some k → k ≠ a →
    ∃ t, exec (.ctxNewStep a) s = .next t ∧
      let failed (n : Nat) : Prop := (t.ctx k).phase = .failed ∧ (t.ctx k).lastErr = n ∧ (t.ctx a).engine = r
      let begun : Prop := ∃ e', (t.ctx a).engine = e' :: r ∧ e'.op = e.op ∧ e'.step = e.step + 1
      let b := newBudget (e.data.headD 0)
      (e.step = 0 → (s.ctx a).depth ≠ 0 ∨ s.modl.testStep = 0 →
        (7 ≤ (s.ctx a).depth → failed 4) ∧
        (∀ l u, (s.ctx a).depth < 7 → s.engErr (clusterOf e.who.sid) e.who.ctx e.failedPage (pagePieces d 64) [] = none →
          s.engMap (clusterOf e.who.sid) e.who (Kind.ofCode 0) (pagePieces d 64) = .ok l u →
          let q := u.engRead e.who.ctx d l
          let w := leNat q.1
          (newBad w (s.ctx a).feat = true → failed 1) ∧
          (newBad w (s.ctx a).feat = false →
            let free := (s.ctx a).freeBudget
            (free.1 < (newBudget w).1 ∨ free.2.1 < (newBudget w).2.1 ∨ free.2.2 < (newBudget w).2.2 → failed 2) ∧
            ((newBudget w).1 ≤ free.1 → (newBudget w).2.1 ≤ free.2.1 → (newBudget w).2.2 ≤ free.2.2 →
              begun ∧ (t.ctx a).engine.map (·.data) = [w] :: r.map (·.data) ∧
              (t.ctx a).usedSlots = (q.2.ctx a).usedSlots + (newBudget w).1 ∧
              (t.ctx a).usedFrames = (q.2.ctx a).usedFrames + (newBudget w).2.1 ∧
              (t.ctx a).usedChildren = (q.2.ctx a).usedChildren + (newBudget w).2.2)))) ∧
      (e.step = 1 →
        (s.freeAsid = none → failed 3 ∧ (t.ctx a).usedSlots = (s.ctx a).usedSlots - b.1 ∧
          (t.ctx a).usedFrames = (s.ctx a).usedFrames - b.2.1 ∧ (t.ctx a).usedChildren = (s.ctx a).usedChildren - b.2.2) ∧
        (s.freeAsid.isSome = true → s.childTnum a = none → failed 7) ∧
        (∀ n tn, s.freeAsid = some n → s.childTnum a = some tn → begun ∧ (t.ctx a).handles.find? h = some n ∧
          (t.ctx n).tnum = tn ∧ (t.ctx n).secretNo = s.freeCtr ∧ (t.ctx n).parent = (s.ctx k).parent)) ∧
      (2 ≤ e.step →
        let w (i : Nat) : Word := w64 (bitsAt (e.data.headD 0) (64 * i) 64)
        (t.ctx a).engine = r ∧ (t.ctx k).phase = .built ∧ (t.ctx k).feat = (w 6).setWidth 9 ∧ (t.ctx k).atp = w 7 ∧
          (t.ctx k).slots = b.1 ∧ (t.ctx k).frames = b.2.1 ∧ (t.ctx k).children = b.2.2 ∧ (t.ctx k).kpb = w 4 ∧
          (t.ctx k).qdb = w 3 ∧ (t.ctx k).dbb = ringMask (w 2) ∧ (t.ctx k).tqb = ringMask (w 1) ∧ (t.ctx k).ivb = w 0)

/-- R371: what a grant whose descriptor has been read changes: the cores, a window of the child's stage, a hardware queue
slot, a budget, the mapping of a queue; and a descriptor that breaks a rule changes nothing but LASTERR.
The model's choices: the root's virtual clusters are the physical ones (log entry 20); a queue of a slot that is granted is
switched out first (log entry 38). -/
def Sys2Proof.Claims.grantEffects : Prop :=
  ∀ (a b h d g : Nat) (rest : List Nat) (e : CtxEntry) (r : List CtxEntry) (s : State), (s.ctx a).act = true →
    s.frozenQueues a = false → (s.ctx a).engine = e :: r → e.op = .grant h d → e.data = g :: rest →
    s.ofHandle a h = some b → h ≠ 255 → a ≠ b →
    let w (i : Nat) : Nat := bitsAt g (64 * i) 64
    let fails (i : Instr) (n : Nat) : Prop := ∃ t, exec i s = .next t ∧ (t.ctx a).engine = r ∧ (t.ctx b).lastErr = n ∧
      (t.ctx b).vcls = (s.ctx b).vcls ∧ (t.ctx b).windows = (s.ctx b).windows ∧ (t.ctx b).qslots = (s.ctx b).qslots ∧
      (t.ctx b).slots = (s.ctx b).slots
    (w 0 = 1 →
      let base := w 1 % 2 ^ 10
      let n := w 1 / 2 ^ 10 % 2 ^ 11
      let child := w 1 / 2 ^ 21 % 2 ^ 10
      let mask := w 1 / 2 ^ 31 % 2 ^ 8
      (2 ^ 39 ≤ w 1 ∨ w 2 ≠ 0 ∨ w 3 ≠ 0 ∨ n = 0 ∨ 1024 < n ∨ 1024 < base + n ∨ 1024 < child + n ∨ mask = 0 →
        fails (.cores a) 1) ∧
      (w 1 < 2 ^ 39 → w 2 = 0 → w 3 = 0 → 0 < n → n ≤ 1024 → base + n ≤ 1024 → child + n ≤ 1024 → mask ≠ 0 →
        (∀ i < n, ∃ v, s.vcluster a (base + i) = some v ∧ v.saved = false ∧ v.mask &&& mask = mask ∧
          ((s.ctx a).depth = 0 → v.phys ∉ s.modl.bad ∧ ∀ q ∈ s.ctxs, q.2.depth = 1 → q.1 ≠ b → ∀ x ∈ q.2.vcls,
            x.phys = v.phys → x.saved = true ∨ x.mask &&& mask = 0) ∧
          ∀ x ∈ (s.ctx b).vcls, x.saved = false → (x.vcl = child + i ↔ x.phys = v.phys)) →
        (s.ctx b).act = false → (s.ctx b).depth ≠ 1 ∨ s.inFlightPackets = false →
        ∃ t, exec (.cores a) s = .next t ∧ (t.ctx a).engine = r ∧ ∀ i < n, ∃ v x,
          s.vcluster a (base + i) = some v ∧ x ∈ (t.ctx b).vcls ∧ x.vcl = child + i ∧ x.mask &&& mask = mask ∧
          (x.saved = false → x.phys = v.phys))) ∧
    (w 0 = 2 →
      (w 1 % 4096 ≠ 0 ∨ w 2 % 4096 ≠ 0 ∨ w 3 / 2 ^ 3 % 2 = 1 ∨ 256 ≤ w 3 → fails (.window a) 1) ∧
      (w 1 % 4096 = 0 → w 2 % 4096 = 0 → w 3 / 2 ^ 3 % 2 = 0 → w 3 < 256 →
        ∃ t, exec (.window a) s = .next t ∧ (t.ctx a).engine = r ∧
          (t.ctx b).windows.find? (w 3 / 2 ^ 4) = (if w 2 = 0 then none else some {
            base := w 1, size := w 2, r := bitAt (w 3) 0, w := bitAt (w 3) 1, x := bitAt (w 3) 2 }) ∧
          (∀ i, i ≠ w 3 / 2 ^ 4 → (t.ctx b).windows.find? i = (s.ctx b).windows.find? i) ∧
          (t.ctx b).stageGen = (s.ctx b).stageGen + 1#32)) ∧
    (w 0 = 3 →
      (254 < w 1 ∨ w 2 ≠ 0 ∨ w 3 ≠ 0 → fails (.qslot a) 1) ∧
      (w 1 ≤ 254 → w 2 = 0 → w 3 = 0 →
        (w 1 ∉ (s.ctx a).qslots → fails (.qslot a) 5) ∧
        (w 1 ∈ (s.ctx a).qslots → ∃ t, exec (.qslot a) s = .next t ∧ (t.ctx a).engine = r ∧
          w 1 ∈ (t.ctx b).qslots ∧ w 1 ∉ (t.ctx a).qslots))) ∧
    (w 0 = 4 →
      let free := (s.ctx a).freeBudget
      (free.1 < w 1 ∨ free.2.1 < w 2 ∨ free.2.2 < w 3 → fails (.budget a) 2) ∧
      (w 1 ≤ free.1 → w 2 ≤ free.2.1 → w 3 ≤ free.2.2 →
        ∃ t, exec (.budget a) s = .next t ∧ (t.ctx a).engine = r ∧ (t.ctx a).usedSlots = (s.ctx a).usedSlots + w 1 ∧
          (t.ctx a).usedFrames = (s.ctx a).usedFrames + w 2 ∧ (t.ctx a).usedChildren = (s.ctx a).usedChildren + w 3 ∧
          (t.ctx b).slots = (s.ctx b).slots + w 1 ∧ (t.ctx b).frames = (s.ctx b).frames + w 2 ∧
          (t.ctx b).children = (s.ctx b).children + w 3)) ∧
    (w 0 = 5 →
      (63 < w 1 ∨ 255 < w 2 ∨ w 3 ≠ 0 → fails (.map a) 1) ∧
      (w 1 ≤ 63 → w 3 = 0 →
        (w 2 = 255 → ∃ t, exec (.map a) s = .next t ∧ (t.ctx a).engine = r ∧ t.mappedTo b (w 1) = none) ∧
        (w 2 < 255 → w 2 ∉ (s.ctx b).qslots → fails (.map a) 5) ∧
        (w 2 < 255 → w 2 ∈ (s.ctx b).qslots → s.hqOwner.find? (w 2) = none → ∀ q u,
          (s.readDesc b (w 1)).bind (fun p => (p.2.switchOut b (w 1)).readDesc b (w 1)) = some (q, u) →
          ∃ t, exec (.map a) s = .next t ∧ (t.ctx a).engine = r ∧ t.hqOwner.find? (w 2) = some (b, w 1))))

/-- R384, R387, R366: what the steps of `ctx.kill` that follow its cluster steps change: the context and all below it become
inactive, and it REVOKING; then every descendant, deepest first, and last the context itself, is free: its block is gone, its
parent has its handle, budget and hardware queue slots back. -/
def Sys2Proof.Claims.killEffects : Prop :=
  ∀ (a b h : Nat) (e : CtxEntry) (r : List CtxEntry) (s : State), (s.ctx a).act = true → s.frozenQueues a = false →
    (s.ctx a).engine = e :: r → e.op = .kill h → s.ofHandle a h = some b → a ≠ b → s.within a b = false → e.who.ctx = a →
    (e.step = (s.ctx b).vcls.length + 1 →
      ∃ t, exec (.ctxKillStep a) s = .next t ∧ (t.ctx b).phase = .revoking ∧
        ∀ c, s.within c b = true → (t.ctx c).act = false) ∧
    ((s.ctx b).vcls.length + 1 < e.step →
      (∀ c, s.deepest b = some c → (∀ p n, (s.ctx c).parent = some (p, n) → p ≠ c) →
        ∃ t, exec (.ctxKillStep a) s = .next t ∧ t.ctxs.find? c = none ∧
          (∀ k, ∀ q ∈ (t.core k).tlb, q.asid ≠ c) ∧ ∀ q ∈ t.hqOwner, q.2.1 ≠ c) ∧
      (s.deepest b = none → (s.ctx b).parent = some (a, h) →
        ∃ t, exec (.ctxKillStep a) s = .next t ∧ t.ctxs.find? b = none ∧ (t.ctx a).handles.find? h = none ∧
          (t.ctx a).engine = r ∧ (t.ctx a).usedSlots = (s.ctx a).usedSlots - (s.ctx b).slots ∧
          (t.ctx a).usedFrames = (s.ctx a).usedFrames - (s.ctx b).frames ∧
          (t.ctx a).usedChildren = (s.ctx a).usedChildren - ((s.ctx b).children + 1) ∧
          (t.ctx a).qslots = (s.ctx b).qslots ++ (s.ctx a).qslots))

/-- The steps of the operations of a context queue, and what those of `ctx.new`, of a grant and of a kill change. -/
def Obligations.EngineStepEvents : Prop :=
  Claims.engineSteps ∧ Claims.newEffects ∧ Claims.grantEffects ∧ Claims.killEffects

/-- R223, R377, R380, R391, R398, R400, R401, R403, R435: frames and clusters that leave the machine and come back.
The model's choices: what a save takes and a restore takes back (log entry 37); an event out of its time, and an operation
on a trap that has no other handler, change nothing (log entries 12, 19); a kick is seen when its store is performed (log
entry 23). -/
def Obligations.TokenEvents : Prop :=
  (∀ (a c : Nat) (token : Word) (f : Frame) (s : State), s.heldBy a token = some (c, f) →
    (∃ t, exec (.tokenResume a token) s = .next t ∧ t.mem = s.mem ∧
      ∀ g ∈ (t.ctx c).framesIn, g.num = f.num → g.why = 4 ∧ g.token = 0#64 ∧ g.trap = none) ∧
    (let h := (s.frameThread c f).1;
      (stBit h.st 7 = true ∨ h.uha = 0#64 ∨ h.uha.getLsbD 0 = true → exec (.tokenDown a token) s = .next s) ∧
      (stBit h.st 7 = false → h.uha ≠ 0#64 → h.uha.getLsbD 0 = false →
        ∃ t, exec (.tokenDown a token) s = .next t ∧ ∀ g ∈ (t.ctx c).framesIn, g.num = f.num →
          g.why = 4 ∧ g.th.pc = h.uha ∧ stBit g.th.st 7 = true ∧ g.th.x = h.x ∧ g.th.epc = h.epc ∧
            g.th.ecause = (h.ecause &&& ~~~0xFF0000#64) ||| 0x20000#64)) ∧
    (f.trap = none → exec (.tokenUp a token) s = .next s) ∧
    (∀ tr, f.trap = some tr →
      let above := ((s.lineage c).dropWhile (fun x => x != a)).drop 1
      let anc := if above.isEmpty then a else s.firstQueue above;
      ((s.ctx anc).tqRoom = false → exec (.tokenUp a token) s = .next s) ∧
      ((s.ctx anc).tqRoom = true → ∃ t, exec (.tokenUp a token) s = .next t ∧
        t = (s.modFrame c f.num (fun _ => { f with handler := anc })).postTrap anc { f with handler := anc } tr)) ∧
    (∃ t, exec (.tokenKill a token) s = .next t ∧ t = (((s.dropInbox f.away f.sid f.th.uid).dropForward f.th.uid).dropFrame
      c f.num).launchEnded f.th.launchId)) ∧
  (∀ (cid : Nat) (s : State), ∃ t, exec (.corePreempt cid) s = .next t ∧ (t.core cid).stopped = true ∧ (t.core cid).emptying = true) ∧
  (∀ (c v : Nat) (e : VCluster) (s : State), (s.ctx c).vcls.find? (fun e => e.vcl == v && !e.saved) = some e →
    s.saves.length < Config.saveRegions → s.inTransit c e.phys = false → (s.saves.filter (fun g => g.phys == e.phys)).length < 64 →
    let u := (upTo 8).foldl (fun (u : State) i => u.unkeep (8 * e.phys + i)) s
    (∀ sid ∈ u.slotsOf c e.phys, (u.slot sid).reflecting = false) →
    ∃ t, exec (.clusterSave c v) s = .next t ∧ ∃ g ∈ t.saves, g.ctx = c ∧ g.vcl = v ∧ g.phys = e.phys) ∧
  (∀ (c v phys : Nat) (e : VCluster) (u s : State), (s.ctx c).vcls.find? (fun e => e.vcl == v && e.saved) = some e →
    s.restorePlace c e = some phys → s.vaultFits c v phys = true → s.restoreCluster c v phys = some u →
    ∃ t, exec (.clusterRestore c v) s = .next t ∧ t = u) ∧
  (∀ (sid dst : Nat) (s : State), s.mayMigrate sid dst = true →
    ∃ t, exec (.liveMigration sid dst) s = .next t ∧ (t.slot dst).reserved = true ∧ .lightArrive dst ∈ t.due ∧
      (t.slot sid).dying = true ∧ (t.slot sid).left = true ∧ (t.slot sid).occupied = false) ∧
  (∀ (a q h : Nat) (s : State), q < 64 → s.mappedTo a q = some h →
    ∃ t, exec (.queueSwitchOut a q) s = .next t ∧ (t.ctx a).queues.find? q = none) ∧
  (∀ (cl : Nat) (s : State), ∃ t, exec (.clusterReset cl) s = .next t ∧ t = { s with clusters := t.clusters } ∧
    t.cluster cl = {} ∧ ∀ k, k ≠ cl → t.cluster k = s.cluster k) ∧
  (∀ (a q : Nat) (s : State), q < 64 → s.isLive a q = false →
    ∃ t, exec (.kick a q) s = .next t ∧ t = { s with ctxs := t.ctxs } ∧ (t.ctx a).pend.getLsbD q = true) ∧
  (∀ (a q w : Nat) (u s : State), q < 64 → s.isLive a q = true →
    s.ctxNat a ((s.ctx a).kpb.toNat / 4096 * 4096 + 8 * q) 8 = some (w, u) →
    let v := u.modCtx a (fun c => { c with pend := c.pend &&& ~~~(1#64 <<< q) });
    let far := 2 ^ (v.queue a q).rln < (BitVec.ofNat 32 w - (v.queue a q).head).toNat;
    (far → ∃ t, exec (.kick a q) s = .next t ∧
      t = v.daybook a 4 q ((v.queue a q).head.toNat % 2 ^ (v.queue a q).rln) (BitVec.ofNat 32 w).toNat 0) ∧
    (¬far → ∃ t, exec (.kick a q) s = .next t ∧
      t = (v.modQueue a q (fun d => { d with tail := BitVec.ofNat 32 w })).acceptUpTo a q 65536)) ∧
  (∀ (a : Nat) (s : State), (s.ctxs.find? a).isSome = true → ∃ t, exec (.counterPublish a) s = .next t ∧ t = s.publish a)

/-- R412, R421 to R424, R427, R432: links, ports, the host and the debug unit.
The model's choices: packets of a link and what is lost with one (log entries 51, 52), and when the host is answered (log
entry 56); an event out of its time changes nothing (log entry 12). -/
def Obligations.LinkEvents : Prop :=
  (∀ (link tries n : Nat) (s : State),
    (tries < 8 ∨ s.crossesDies n = false → exec (.dieLinkFlitRetry link tries n) s = .next s) ∧
    (8 ≤ tries → s.crossesDies n = true → ∀ j, s.due[n]? = some j →
      ∃ t, exec (.dieLinkFlitRetry link tries n) s = .next t ∧ t.dieLinks.get 0 link = s.dieLinks.get 0 link + 1 ∧
        ((∃ cl m, j = .arrive cl m) ∨ (∃ m c cl, j = .reply m c cl) → t.due = s.due.eraseIdx n ∧
          t = { s with due := t.due, dieLinks := t.dieLinks }) ∧
        (∀ cid line, j = .drain cid line → (t.core cid).comb = (s.core cid).comb.filter (fun e => e.line != line)) ∧
        (∀ cid line, j = .merge cid line → (t.core cid).upd = (s.core cid).upd.filter (fun u => u.line != line)) ∧
        (∀ cid slot line, j = .grant cid slot line ∨ j = .own cid slot line →
          (t.thread (16 * cid + slot)).lost = some (s.thread (16 * cid + slot)).rtcTag))) ∧
  (∀ (n seq cl tries : Nat) (pkt : Packet) (s : State), n < 18 →
    let p := s.ports.get {} n;
    p.replay.find? (fun e => e.1 == seq) = some (seq, tries, pkt) →
    (tries < 8 → ∃ t, exec (.linkFlitRetry n seq cl) s = .next t ∧ t.outbox = s.outbox ∧ t.ports.get {} n = { p with
      retried := sat64 (p.retried + 1),
      replay := p.replay.map (fun e => if e.1 == seq then (e.1, e.2.1 + 1, e.2.2) else e) }) ∧
    (8 ≤ tries → (∀ q ∈ s.hostWaits, q.pkts = []) → ∃ t, exec (.linkFlitRetry n seq cl) s = .next t ∧
      t.outbox = s.outbox.filter (fun q => q.num != pkt.num) ∧ t.ports.get {} n = { p with
        dropped := sat64 (p.dropped + 1), replay := p.replay.filter (fun e => e.1 != seq) })) ∧
  (∀ (n seq : Nat) (s : State), n < 18 → ∃ t, exec (.flitAcknowledgement n seq) s = .next t ∧
    let p := s.ports.get {} n
    let u : State := { s with ports := s.ports.put n { p with replay := p.replay.filter (fun e => e.1 != seq) } }
    ((∀ q ∈ s.hostWaits, q.pkts = []) → t = { s with ports := t.ports } ∧ t.ports.get {} n = u.ports.get {} n) ∧
    ∀ q, q ∈ t.hostWaits ↔ q ∈ s.hostWaits ∧ (q.pkts = [] ∨ ∃ k ∈ q.pkts, ∃ o ∈ u.ports,
      (∃ e ∈ o.2.replay, e.2.2.num = k) ∨ ∃ e ∈ o.2.held, e.num = k)) ∧
  (∀ (n ok bad : Nat) (s : State), n < 18 → ∃ t, exec (.portRetrain n ok bad) s = .next t ∧ t = { s with ports := t.ports } ∧
    (t.ports.get {} n).fecOk = sat64 ((s.ports.get {} n).fecOk + ok) ∧
    (t.ports.get {} n).fecBad = sat64 ((s.ports.get {} n).fecBad + bad) ∧
    ((s.ports.get {} n).down = false → (t.ports.get {} n).retraining = true ∧
      (t.ports.get {} n).attempts = if (s.ports.get {} n).retraining then (s.ports.get {} n).attempts + 1 else 0)) ∧
  (∀ (n lanes : Nat) (s : State), n < 18 → (s.ports.get {} n).retraining = true → (s.ports.get {} n).down = false →
    lanes = 8 ∨ lanes = 4 →
    ∃ t, exec (.portRetrainComplete n lanes) s = .next t ∧ t.outbox = s.outbox ++ (s.ports.get {} n).held ∧
      (t.ports.get {} n).retraining = false ∧ (t.ports.get {} n).lanes = lanes ∧ (t.ports.get {} n).held = [] ∧
      (t.ports.get {} n).sendSeq = (s.ports.get {} n).sendSeq + (s.ports.get {} n).held.length ∧
      (t.ports.get {} n).replay = (s.ports.get {} n).replay ++
        ((s.ports.get {} n).held.zipIdx).map (fun e => ((s.ports.get {} n).sendSeq + e.2, 0, e.1))) ∧
  (∀ (n : Nat) (routes : List (Nat × Nat)) (s : State), n < 18 → (s.ports.get {} n).retraining = true →
    (∀ q ∈ s.hostWaits, q.pkts = []) →
    let p := s.ports.get {} n
    (p.attempts < 3 → s.cycle < p.since + 2 ^ 19 → exec (.portDown n routes) s = .next s) ∧
    (3 ≤ p.attempts ∨ p.since + 2 ^ 19 ≤ s.cycle →
      let u : State := { s with
        outbox := s.outbox.filter (fun o => !p.replay.any (fun e => e.2.2.num == o.num))
        ports := s.ports.put n { p with
          down := true, retraining := false, dropped := sat64 (p.dropped + p.replay.length + p.held.length),
          replay := [], held := [], routes := routes } }
      ∃ t, exec (.portDown n routes) s = .next t ∧ t = { u with route := t.route, ports := t.ports } ∧
        (t.ports.get {} n).down = true ∧ (t.ports.get {} n).replay = [] ∧ (t.ports.get {} n).held = [] ∧
        (routes = [] ∨ u.flowsOn n = true → t = u) ∧
        (u.flowsOn n = false → (∀ d, s.route.get 0 d ≠ n → t.route.get 0 d = s.route.get 0 d) ∧
          ∀ d m, routes = [(d, m)] → s.route.get 0 d = n → t.route.get 0 d = m % 18))) ∧
  (∀ (ep ap off len : Nat) (data : List Byte) (s : State), ep < 1022 → ap < 16 →
    (bitAt (s.aperture ep ap).lo.toNat 63 = false →
      (∃ t, exec (.hostWrite ep ap off data) s = .next t ∧ t = s.hostReply ep 1 []) ∧
      (∃ t, exec (.hostRead ep ap off len) s = .next t ∧ t = s.hostReply ep 1 [])) ∧
    (bitAt (s.aperture ep ap).lo.toNat 63 = true →
      (s.ctxs.find? (bitsAt (s.aperture ep ap).lo.toNat 50 11)).isSome = true → ∀ l u,
      let asid := bitsAt (s.aperture ep ap).lo.toNat 50 11
      let va := (bitsAt (s.aperture ep ap).hi.toNat 12 52 * 4096 + off) % 2 ^ 64;
      (bitAt (s.aperture ep ap).lo.toNat 62 = true →
        off < bitsAt (s.aperture ep ap).lo.toNat 0 40 * 4096 →
        off + data.length ≤ bitsAt (s.aperture ep ap).lo.toNat 0 40 * 4096 →
        s.engMap 0 ⟨hostSid, 0#8, asid, 0⟩ (Kind.ofCode 1) (pagePieces va data.length) = .ok l u →
        let v := u.engWrite asid l data
        (v.nextPkt = u.nextPkt → ∃ t, exec (.hostWrite ep ap off data) s = .next t ∧ t = v.hostReply ep 0 []) ∧
        (v.nextPkt ≠ u.nextPkt → ∃ t, exec (.hostWrite ep ap off data) s = .next t ∧ t = { v with hostWaits := t.hostWaits } ∧
          ∃ q, t.hostWaits = v.hostWaits ++ [q] ∧ q.ep = ep ∧ q.pkts = (upTo (v.nextPkt - u.nextPkt)).map (u.nextPkt + ·))) ∧
      (bitAt (s.aperture ep ap).lo.toNat 61 = true → off < bitsAt (s.aperture ep ap).lo.toNat 0 40 * 4096 →
        off + len ≤ bitsAt (s.aperture ep ap).lo.toNat 0 40 * 4096 →
        s.engMap 0 ⟨hostSid, 0#8, asid, 0⟩ (Kind.ofCode 0) (pagePieces va len) = .ok l u →
        ∃ t, exec (.hostRead ep ap off len) s = .next t ∧ t = (u.engRead asid va l).2.hostReply ep 0 (u.engRead asid va l).1))) ∧
  (∀ s : State, ∃ t, exec .counterSnapshot s = .next t ∧ t.access = []) ∧
  (∀ (sid : Nat) (s : State),
    (({ s with cur := sid } : State).breakpointAt = none → exec (.breakpointHit sid) s = .next s) ∧
    (∀ w, (s.slot sid).st = .run → (s.slot sid).occupied = true → ({ s with cur := sid } : State).breakpointAt = some w →
      ∃ t, exec (.breakpointHit sid) s = .next t ∧
        t = { ({ s with cur := sid } : State).debugAct w.act (s.thread sid).pc.toNat with cur := s.cur }))

/-- R442, R443, R445, R447, R449: the module's power modes, its tests, its boot and its reports.
A voltage that an event brings is what VIN reads. An overvoltage starts SAVE, whatever the MODE.
The model's choices: when SAVE has ended, and what HELD keeps (log entry 49); an overvoltage in HELD (log entry 48); the
steps of the self-test (log entry 54); an event out of its time changes nothing (log entry 12). -/
def Obligations.PlatformEvents : Prop :=
  (∀ (vin : Nat) (s : State),
    (s.modl.mode = .normal → vin < 4600 → ∃ t, exec (.slowEntry vin) s = .next t ∧
      t = { s with modl := { s.modl with mode := .slow, vin := vin, drc := min (s.modl.drc + 1) 255 } }) ∧
    (s.modl.mode = .slow → 4800 ≤ vin → vin ≤ 6000 → ∃ t, exec (.normalReturn vin) s = .next t ∧
      t = { s with modl := { s.modl with mode := .normal, vin := vin } }) ∧
    (s.modl.mode = .slow → vin < 4000 → ∃ t, exec (.saveEntry vin false) s = .next t ∧ t.modl.mode = .save ∧
      t.modl.testStep = 0 ∧ t.mem = s.mem) ∧
    (s.modl.mode = .slow → vin < 4600 → ∃ t, exec (.saveEntry vin true) s = .next t ∧ t.modl.mode = .save ∧
      t.mem = s.mem) ∧
    (∀ long, s.modl.disconnected = false → s.modl.mode ≠ .off → 6600 ≤ vin ∨ (6000 < vin ∧ long = true) →
      ∃ t, exec (.overvoltageDisconnect vin long) s = .next t ∧ t.modl.disconnected = true ∧ t.mem = s.mem ∧
        t.modl.ovc = min (s.modl.ovc + 1) 255 ∧ t.modl.mode = .save ∧ t.modl.testStep = 0) ∧
    (s.modl.mode = .held → 4800 ≤ vin → vin ≤ 5800 → ∃ t, exec (.heldRestore vin) s = .next t ∧ t.mem = s.mem ∧
      t.modl.mode = .normal ∧ t.modl.disconnected = false ∧ t.modl.waiting = []) ∧
    (s.modl.mode = .off → ∃ t, exec (.powerUp vin) s = .next t ∧ (s.modl.waiting = [] → t = { s with modl := t.modl }) ∧
      t.modl.mode = .normal ∧ t.modl.boots = s.modl.boots + 1 ∧ t.modl.bootKind = 0 ∧ t.modl.meas = 0#256 ∧
      t.modl.waiting = [] ∧ t.mem = s.mem) ∧
    (∀ long, ∀ i ∈ [Instr.slowEntry vin, .normalReturn vin, .saveEntry vin long, .overvoltageDisconnect vin long,
      .heldRestore vin, .powerUp vin], ∃ t, exec i s = .next t ∧ t.modl.vin = vin)) ∧
  (∀ s : State,
    (s.modl.mode = .save → s.saved = true → ∃ t, exec .saveComplete s = .next t ∧ t.modl.mode = .held ∧ t.mem = s.mem ∧
      t.due = s.due.filter (·.lasts) ∧ (∀ cid, t.core cid = {}) ∧ ∀ sid, (t.slot sid).occupied = false) ∧
    (s.modl.mode = .save → s.saved = false → exec .saveComplete s = .next s) ∧
    (s.modl.mode = .held → ∃ t, exec .holdupSpent s = .next t ∧ t.modl.mode = .off ∧ t.mem = [] ∧
      t.slots = State.reset.slots ∧ t.ctxs = State.reset.ctxs ∧ t.due = [] ∧ t.modl.minVersion = s.modl.minVersion ∧
      t.modl.revoked = s.modl.revoked ∧ t.modl.boots = s.modl.boots ∧ t.modl.waiting = s.modl.waiting ∧
      t.agenda = s.agenda)) ∧
  (∀ (g ms : Nat) (s : State), s.modl.mode = .off → 80 < g ∨ (40 < g ∧ 6 < ms) →
    ∃ t, exec (.transportEvent g ms) s = .next t ∧ t = { s with modl := { s.modl with transport := true } }) ∧
  (∀ (clusters ports : List Nat) (s : State), s.modl.testStep ≠ 0 →
    (∀ p ∈ s.ctxs, p.2.depth = 1 → 4096 ≤ p.1) →
    ∃ t, exec (.extendedSelfTest clusters ports) s = .next t ∧ t.mem = s.mem ∧
      (s.modl.testStep < 4 → t.modl.testStep = s.modl.testStep + 1) ∧
      (4 ≤ s.modl.testStep → t.modl.testStep = 0 ∧ t.modl.transport = false) ∧
      (∀ c ∈ clusters, c % 1024 ∈ t.modl.bad) ∧ (∀ n ∈ ports, n % 18 ∈ t.modl.badPorts) ∧ ∀ n ∈ ports, (t.ports.get {} (n % 18)).down = true) ∧
  (∀ (first second : List Byte) (c : ImageConfig) (s : State), s.modl.bootKind < 4 →
    s.modl.mode = .normal ∨ s.modl.mode = .slow → s.modl.recovery = false →
    ∃ t, exec (.imageLoad none first second c) s = .next t ∧
      (s.modl.accepts (s.modl.bootKind + 1) first = true → t = s.acceptImage first c) ∧
      (s.modl.accepts (s.modl.bootKind + 1) first = false → s.modl.accepts (s.modl.bootKind + 1) second = true →
        t = s.acceptImage second c) ∧
      (s.modl.accepts (s.modl.bootKind + 1) first = false → s.modl.accepts (s.modl.bootKind + 1) second = false →
        t = { s with modl := { s.modl with recovery := true } })) ∧
  (∀ (ep : Nat) (nonce : BitVec 256) (s : State), ep < 1022 →
    (s.modl.mode = .normal ∨ s.modl.mode = .slow → ∃ t, exec (.attestationRequest ep nonce) s = .next t ∧
      t = s.attest ep (leBytes nonce.toNat 32)) ∧
    (s.modl.mode = .save ∨ s.modl.mode = .held → ∃ t, exec (.attestationRequest ep nonce) s = .next t ∧
      t.modl.waiting = s.modl.waiting ++ [(ep, leBytes nonce.toNat 32)] ∧ t.mem = s.mem))

/-- R12, R14, R16: what a not-ready outcome does, by policy. -/
def Sys2Proof.Claims.policies : Prop :=
  ∀ (s : State) (causes : List Cause) (code size : Nat) (p : Policy),
    (stBit s.th.st 2 = true → s.th.countRetry.rtcCount = 4096 → ∃ t : State, s.notReady causes code p size = t.raise tPROGRESS (w64 code) ∧
      t.th.st = s.th.st ∧ t.th.pc = s.th.pc ∧ t.cur = s.cur ∧ t.mem = s.mem) ∧
    (stBit s.th.st 2 = false ∨ s.th.countRetry.rtcCount ≠ 4096 →
      let t := s.notReady causes code p size
      t.cur = s.cur ∧
      (p ≠ .br ∨ s.checkTarget .indirect s.th.nrt = .ok → t.th.rtcTag = s.th.pc ∧
        t.th.rtcCount = if s.th.rtcTag = s.th.pc then min (s.th.rtcCount + 1) 8191 else 1) ∧
      (p = .rt → t.th.pc = s.th.pc ∧ stBit t.th.st 0 = true ∧ (t.slot s.cur).st = (s.slot s.cur).st ∧ t.mem = s.mem ∧
        s.KeepsRegs t []) ∧
      (p = .fl → t.th.pc = s.th.pc + w64 size ∧ stBit t.th.st 0 = true ∧ t.mem = s.mem ∧ s.KeepsRegs t []) ∧
      (p = .yd → t.th.pc = s.th.pc ∧ stBit t.th.st 0 = true ∧ (t.slot s.cur).st = .sleep (.policy causes) 64 ∧
        t.mem = s.mem ∧ s.KeepsRegs t []) ∧
      (p = .br → s.checkTarget .indirect s.th.nrt = .ok →
        t.th.pc = s.th.nrt ∧ stBit t.th.st 0 = true ∧ t.mem = s.mem ∧ s.KeepsRegs t []))

/-- R262, R14: a full-empty access that waits is not ready: it changes nothing but what its policy says. -/
def Sys2Proof.Claims.fullEmptyWaits : Prop :=
  ∀ (p : Policy) (a d : BitVec 6) (s : State), canAct s [a, d] [a, d] → (s.xr a).toNat < spLimit →
    (s.xr a).toNat % 16 = 0 →
    let g := (s.xr a).toNat / 16
    let full := s.feFull (clusterOf s.cur) g
    (full = false → ∀ i ∈ [Instr.ldff p a d, .ldfe p a d], ∃ u : State, exec i s = .next (u.notReady [.empty g] 13 p 4) ∧
      u.th.pc = s.th.pc ∧ s.KeepsRegs u [] ∧ (∀ x, u.byte x = s.byte x) ∧ u.mine.scratch = s.mine.scratch) ∧
    (full = true → ∃ u : State, exec (.stef p a d) s = .next (u.notReady [.granuleFull g] 14 p 4) ∧
      u.th.pc = s.th.pc ∧ s.KeepsRegs u [] ∧ (∀ x, u.byte x = s.byte x) ∧ u.mine.scratch = s.mine.scratch)

/-- What a not-ready outcome does, and one that the full-empty accesses have. -/
def Obligations.NotReadyOutcomes : Prop := Claims.policies ∧ Claims.fullEmptyWaits

/-- R17, R18, R328: a precise trap of a thread without held instructions: it is delivered to the thread's own handler
where its class allows it, TM is clear and UHA names one, with the record of R17; and else it is recorded, unless TM is
set, and the slot sleeps until its reflection. With held instructions it waits for them.
The model's choices: `estat` holds NR as before the first execution of the instruction (log entry 15); a reflection is a job
that is owed (log entry 61). -/
def Obligations.TrapTaking : Prop :=
  ∀ (s : State) (code : Nat) (info : Word),
    let tr : Trap := { code := code, info := info, pc := s.th.pc, st := s.th.stBefore }
    let t := s.raise code info
    (∀ x, t.byte x = s.byte x) ∧ t.cur = s.cur ∧ (∀ k, k ≠ s.cur → t.slot k = s.slot k) ∧
    (s.th.inFlight = false → userClass code = true → stBit s.th.st 7 = false → s.th.uha ≠ 0#64 →
      s.th.uha.getLsbD 0 = false → inHandler s.th t.th tr ∧ (t.slot s.cur).st = (s.slot s.cur).st) ∧
    (s.th.inFlight = false → s.th.takesTrap code = false → (t.slot s.cur).st = .sleep (.reflect tr) 0 ∧
      t.th.pc = s.th.pc ∧ t.th.x = s.th.x ∧ .reflect s.cur ∈ t.due ∧
      (stBit s.th.st 7 = false → t.th.epc = s.th.pc ∧ t.th.ecause = causeWord tr ∧ t.th.einfo = info ∧
        t.th.estat = s.th.stBefore) ∧
      (stBit s.th.st 7 = true → t.th.epc = s.th.epc ∧ t.th.ecause = s.th.ecause)) ∧
    (s.th.inFlight = true → t.th.trapWait = some tr ∧ t.th.pc = s.th.pc ∧ t.th.epc = s.th.epc ∧
      t.th.skipCtr = s.th.skipCtr + 1#64)

/-- R75, R132, R328, R335, R362, R373, R374, R388: an instruction of a feature that the context lacks; a kernel instruction
in a user thread; an instruction that names a register that a held instruction of the thread writes, which with HCK clear
skips its cycle; and one without a policy that reads a register that awaits a value. -/
def Sys2Proof.Claims.issueTraps : Prop :=
  ∀ (i : Instr) (s : State), i.wf = true → s.th.cap = none →
    (∀ w f, encode i = .word w → featureOf w = some f → s.myCtx.feat.getLsbD f = false →
      does i s (s.raise tFEATURE (w.setWidth 64))) ∧
    (kernelOnly i = true → (∀ w f, encode i = .word w → featureOf w = some f → s.myCtx.feat.getLsbD f = true) →
      s.th.kern = false → traps i s tPRIVILEGE (w64 (encodeNat i))) ∧
    (∀ o, operandsOf s i = some o → mayIssue s i →
      ((∃ r ∈ o.names, (s.th.pendingAt r).isSome = true) → ∃ r ∈ o.names, ∃ e, s.th.pendingAt r = some e ∧
        (stBit s.th.st 1 = true → does i s (s.raise tHOLD (holdInfo r e.seq))) ∧
        (stBit s.th.st 1 = false → does i s s.skipCounted)) ∧
      (o.policy = false → s.unheld o.names → (∃ r ∈ o.reads, (s.armOf r).st = .awaiting) →
        ∃ r ∈ o.reads, (s.armOf r).st = .awaiting ∧ does i s (s.raise tAWAITING (w64 r.toNat))))

/-- R20, R154, R161, R168, R173, R262, R270, R336: traps of an instruction's own: nothing else of it happens. -/
def Sys2Proof.Claims.ownTraps : Prop :=
  ∀ (s : State) (a b d : BitVec 6),
    (∀ l h, canRun s [rSP] [rSP] → s.th.stklim ≠ 0#64 → (s.xr rSP).toNat < (frameSize l h).toNat ∨
        (s.xr rSP).toNat - (frameSize l h).toNat < s.th.stklim.toNat →
      traps (.enter l h) s tSTACK (s.xr rSP - frameSize l h)) ∧
    (∀ n, traps (.trap n) s tTRAP (n.setWidth 64)) ∧
    (stBit s.th.st 7 = false → traps .hret s tILLEGAL 0x08000073#64) ∧
    (canRun s [a, d] [a] → s.th.pm1 < (s.xr a).toNat → traps (.place a d) s tPLACE (s.xr a)) ∧
    (∀ p c, s.granted fLaunch → canRun s [a, b, chanReg c, chanReg c + 1#6] [a, b, chanReg c] →
      s.xr a = 0#64 ∨ (s.xr a).getLsbD 0 = true → traps (.cast p b a c) s tDESC (s.xr a)) ∧
    (∀ p m, s.granted fFabric → canRun s [a, b] [a, b] → capBits (s.xr a) 28 3 < m.toNat →
      traps (.snd p b a m) s tINDEX (s.xr a)) ∧
    (∀ r, s.granted fFabric → canRun s [a, d] [] → (s.armOf a).st = .unarmed →
      traps (.mint r 0#3 a d) s tMINT (w64 a.toNat)) ∧
    (∀ p n, s.granted fHbar → canRun s [d] [] → s.hbarOk n.toNat = false →
      traps (.hbarArr p n d) s tBARRIER (w64 n.toNat)) ∧
    (∀ p, canRun s [a, d] [a, d] → spLimit ≤ (s.xr a).toNat →
      ∀ i ∈ [Instr.ldff p a d, .ldfe p a d, .stef p a d, .stff p a d], traps i s tADDRESS (s.xr a)) ∧
    (∀ p, canRun s [a, d] [a, d] → (s.xr a).toNat < spLimit → (s.xr a).toNat % 16 ≠ 0 →
      ∀ i ∈ [Instr.ldff p a d, .ldfe p a d, .stef p a d, .stff p a d], traps i s tMISALIGNED (s.xr a))

/-- Precise traps at issue: of what an instruction may not be issued for, and of an instruction's own. -/
def Obligations.PreciseTraps : Prop := Claims.issueTraps ∧ Claims.ownTraps

/-- R45, R122, R329: a step runs the instruction that the bytes at the pc decode to. With nothing scheduled, owed or at a
rotation boundary, the next core's cycle is opened, the instruction at the pc of its slot is executed, and the cycle is
closed: results in flight age, and the fabric port applies an arrival. A word that decodes to nothing raises the
illegal-instruction trap.
The model's choice: the order of what a step does, and that the cores with a thread have a cycle in turn (log entry 11). -/
def Obligations.StepRunsDecoded : Prop :=
  ∀ (s : State) (bs : List Byte) (cid : Nat), s.nextCore = some cid →
    let o := s.openCycle cid
    s.agenda = [] → s.due = [] → s.powered = true → s.atBoundary = false → o.me.stopped = false → o.mayIssue = true →
    unencumbered o →
    (∀ i, o.fetchAt o.cur o.th.pc = .two (wordAt bs) → (majorOf (wordAt bs)).toNat ≠ 22 → 4 ≤ bs.length →
      decodeBytes true bs = .ok (i, bs.drop 4) → step s = closed cid (exec i o)) ∧
    (∀ i, o.fetchAt o.cur o.th.pc = .one (parcelAt bs) → (parcelAt bs).extractLsb' 0 2 ≠ 3#2 → 2 ≤ bs.length →
      decodeBytes true bs = .ok (i, bs.drop 2) → step s = closed cid (exec i o)) ∧
    (∀ w i p, o.fetchAt o.cur o.th.pc = .two (wordAt bs) → (majorOf (wordAt bs)).toNat = 22 →
      o.fetchAt o.cur (o.th.pc + 4#64) = .two w → pairOf (wordAt bs) w = some (p, i) →
      step s = closed cid (execPair p i o)) ∧
    (o.fetchAt o.cur o.th.pc = .two (wordAt bs) → (majorOf (wordAt bs)).toNat ≠ 22 → decodeWord (wordAt bs) = none →
      step s = .next ((o.raise tILLEGAL ((wordAt bs).setWidth 64)).closeCycle cid))

/-- R46 to R60: words written out from the spec's encodings decode to the instructions they stand for. -/
def Obligations.DecodeWords : Prop :=
  decodeTableWord 32 0x0038C283 = some (.add 7#6 6#6 5#6) ∧
  decodeTableWord 32 0xFFF06287 = some (.addi 0xFFF#12 6#5 5#5) ∧
  decodeTableWord 32 0x42000283 = some (.lixu 0#2 5#6) ∧
  decodeTableWord 32 0xE6000003 = some .land ∧
  decodeTableWord 32 0x8230B43F = some (.cast .yd 6#6 5#6 4#4) ∧
  decodeTableWord 32 0x8405003F = some (.recast .yd 4#4) ∧
  decodeTableWord 32 0x080004BF = some (.placeSelf 9#6) ∧
  decodeTableWord 16 0x0001 = some .nopN

/-- Decoding the bytes of a well-formed instruction gives it back, with every operand at every value, and leaves the bytes
after it; and decoding gives well-formed instructions only. -/
def Obligations.EncodeDecode : Prop :=
  (∀ (i : Instr) (rest : List Byte), i.wf = true → encode i ≠ .event →
    decodeBytes true (encodeBytes i ++ rest) = .ok (i, rest)) ∧
  (∀ (i : Instr) (o : Bool) (w : BitVec 32), i.wfIn o = true → encode i = .word w → decodeWordIn o w = some i) ∧
  (∀ (al : Bool) (bs r : List Byte) (i : Instr), decodeBytes al bs = .ok (i, r) → i.wf = true)

/-- Every operation that writes a memory keeps the canonical form of all, and what is read after a write is what was
written. -/
def Obligations.MemoryInvariant : Prop :=
  (∀ (m : List Host.Cell) (a : Nat) (b : Byte), Memory.wf m = true →
    Memory.wf (Memory.write m a b) = true ∧
    ∀ x, Memory.read (Memory.write m a b) x = if x = a then b else Memory.read m x) ∧
  (∀ (m l : List Host.Cell), Memory.wf m = true → Memory.wf l = true → (∀ a, Memory.read m a = Memory.read l a) → m = l) ∧
  (∀ s : State, memoriesWf s →
    (∀ line cells clock who, memoriesWf (s.performWrite line cells clock who)) ∧
    (∀ cid line, memoriesWf (s.mergeLine cid line)) ∧ (∀ line, memoriesWf (s.mergeAll line)) ∧
    (∀ cid line, memoriesWf (s.drainComb cid line)) ∧ (∀ sid, memoriesWf (s.performDrains sid)) ∧
    (∀ a l bs, memoriesWf (s.engWrite a l bs)) ∧ (∀ lo n, memoriesWf (s.zeroRange lo n)) ∧
    (∀ cl o n cells, memoriesWf (s.spStore cl o n cells)) ∧ (∀ cl o bs rels, memoriesWf (s.engSpWrite cl o bs rels)) ∧
    (∀ cl g lo hi clock rels, memoriesWf (s.putGranule cl g lo hi clock rels)) ∧ (∀ u, memoriesWf (s.zeroUnit u)) ∧
    (∀ cid parts, memoriesWf (s.writeTail cid parts)) ∧ (∀ cl, memoriesWf (s.vsegStep cl)) ∧
    (∀ line a addr eng ma, memoriesWf (s.readLine line a addr eng ma)) ∧ (∀ a l, memoriesWf (s.poolWrite a l)) ∧
    (∀ i l, memoriesWf (s.streamOut i l)) ∧ (∀ n w, memoriesWf (s.withFetchWord n w)))

/-- R122, R125, R163, R223, R287, R418, R447: the device after reset: no thread in any slot, no context, no queue with an
entry; core-shared registers 0 and UNARMED; scratchpads and vault memories 0, every granule empty.
The model's choices: memory that nothing has written reads as 0 (log entry 1); caches, TLBs and fault tables start empty (log
entry 2) and the module in NORMAL (log entry 3). -/
def Obligations.ResetState : Prop :=
  let s := State.reset
  s.mem = [] ∧ memoriesWf s ∧ s.due = [] ∧ s.agenda = [] ∧
  (∀ sid, (s.slot sid).st = .free ∧ (s.slot sid).occupied = false) ∧
  (∀ cid, (s.core cid).cycle = 0 ∧ (s.core cid).c = .replicate 32 0#64 ∧ (s.core cid).carm = .replicate 32 {} ∧
    (s.core cid).w = .replicate 16 0#512 ∧ (s.core cid).l1 = [] ∧ (s.core cid).tlb = []) ∧
  (∀ cl, (s.cluster cl).scratch = [] ∧ (s.cluster cl).vault = [] ∧ (s.cluster cl).fe = [] ∧
    (s.cluster cl).win = .replicate 8 0#64 ∧ (s.cluster cl).hbc = .replicate 4 0#64 ∧
    (s.cluster cl).lease.serial = 0#32 ∧ (s.cluster cl).lease.holder = none ∧ (s.cluster cl).cbx = 0#32 ∧
    (s.cluster cl).tiles = .replicate 20 {} ∧ (s.cluster cl).copyq = .replicate 8 [] ∧ (s.cluster cl).ptcAll = true ∧
    (s.cluster cl).ptdAll = true) ∧
  (∀ f, (s.field f).collq = .replicate 4 [] ∧ (s.field f).ranges = [] ∧ (s.field f).lastSlot = 255) ∧
  s.ctxs = [] ∧ s.saves = [] ∧ s.modl.mode = .normal
end

