-- ==== Sys2Proof/Laws/State.lean ====
section
/-! SUPPORT. What each update of the state leaves and what it changes: one lemma per field per update. -/

namespace Sys2Proof.Machine

/-! ### Tables -/

theorem Tab.find?_put {α : Type} (t : Tab α) (n m : Nat) (v : α) :
    (t.put n v).find? m = if m = n then some v else t.find? m := by
  induction t with
  | nil => simp [Tab.put, Tab.find?, eq_comm]
  | cons p r ih =>
    obtain ⟨k, w⟩ := p
    simp only [Tab.put]
    split
    · next h =>
      subst h
      by_cases hm : k = m
      · simp [Tab.find?, hm]
      · simp [Tab.find?, hm, Ne.symm hm]
    · split
      · by_cases hm : n = m
        · simp [Tab.find?, hm]
        · simp [Tab.find?, hm, Ne.symm hm]
      · simp only [Tab.find?, ih]
        by_cases hk : k = m
        · subst hk; simp_all
        · simp [hk]

theorem Tab.get_put {α : Type} (t : Tab α) (d v : α) (n m : Nat) :
    (t.put n v).get d m = if m = n then v else t.get d m := by
  unfold Tab.get; rw [Tab.find?_put]; split <;> simp

/-- Reading a table after an update of one key. -/
theorem Tab.get_upd {α : Type} (t : Tab α) (d : α) (n m : Nat) (f : α → α) :
    (t.upd d n f).get d m = if m = n then f (t.get d n) else t.get d m := by
  unfold Tab.upd; exact Tab.get_put ..

@[simp] theorem Tab.get_upd_same {α : Type} (t : Tab α) (d : α) (n : Nat) (f : α → α) :
    (t.upd d n f).get d n = f (t.get d n) := by simp [Tab.get_upd]

theorem Tab.get_upd_ne {α : Type} (t : Tab α) (d : α) {n m : Nat} (f : α → α) (h : m ≠ n) :
    (t.upd d n f).get d m = t.get d m := by simp [Tab.get_upd, h]

/-! ### Vectors -/

theorem vrd_vwr {α : Type} {n : Nat} [NeZero n] (v : Vector α n) (i j : Nat) (a : α) :
    vrd (vwr v i a) j = if j % n = i % n then a else vrd v j := by
  unfold vrd vwr
  by_cases h : j % n = i % n
  · simp [h]
  · rw [if_neg h, Vector.getElem_set_ne _ _ (Ne.symm h)]

@[simp] theorem vrd_vwr_same {α : Type} {n : Nat} [NeZero n] (v : Vector α n) (i : Nat) (a : α) :
    vrd (vwr v i a) i = a := by simp [vrd_vwr]

/-! ### modSlot -/

@[simp] theorem State.cores_modSlot (s : State) (sid : Nat) (f : Slot → Slot) : (s.modSlot sid f).cores = s.cores := rfl
@[simp] theorem State.clusters_modSlot (s : State) (sid : Nat) (f : Slot → Slot) : (s.modSlot sid f).clusters = s.clusters := rfl
@[simp] theorem State.fields_modSlot (s : State) (sid : Nat) (f : Slot → Slot) : (s.modSlot sid f).fields = s.fields := rfl
@[simp] theorem State.ctxs_modSlot (s : State) (sid : Nat) (f : Slot → Slot) : (s.modSlot sid f).ctxs = s.ctxs := rfl
@[simp] theorem State.groups_modSlot (s : State) (sid : Nat) (f : Slot → Slot) : (s.modSlot sid f).groups = s.groups := rfl
@[simp] theorem State.launches_modSlot (s : State) (sid : Nat) (f : Slot → Slot) : (s.modSlot sid f).launches = s.launches := rfl
@[simp] theorem State.cur_modSlot (s : State) (sid : Nat) (f : Slot → Slot) : (s.modSlot sid f).cur = s.cur := rfl
@[simp] theorem State.cycle_modSlot (s : State) (sid : Nat) (f : Slot → Slot) : (s.modSlot sid f).cycle = s.cycle := rfl
@[simp] theorem State.acted_modSlot (s : State) (sid : Nat) (f : Slot → Slot) : (s.modSlot sid f).acted = s.acted := rfl
@[simp] theorem State.arbed_modSlot (s : State) (sid : Nat) (f : Slot → Slot) : (s.modSlot sid f).arbed = s.arbed := rfl
@[simp] theorem State.mem_modSlot (s : State) (sid : Nat) (f : Slot → Slot) : (s.modSlot sid f).mem = s.mem := rfl
@[simp] theorem State.home_modSlot (s : State) (sid : Nat) (f : Slot → Slot) : (s.modSlot sid f).home = s.home := rfl
@[simp] theorem State.performed_modSlot (s : State) (sid : Nat) (f : Slot → Slot) : (s.modSlot sid f).performed = s.performed := rfl
@[simp] theorem State.hrt_modSlot (s : State) (sid : Nat) (f : Slot → Slot) : (s.modSlot sid f).hrt = s.hrt := rfl
@[simp] theorem State.hba_modSlot (s : State) (sid : Nat) (f : Slot → Slot) : (s.modSlot sid f).hba = s.hba := rfl
@[simp] theorem State.hqOwner_modSlot (s : State) (sid : Nat) (f : Slot → Slot) : (s.modSlot sid f).hqOwner = s.hqOwner := rfl
@[simp] theorem State.hqWeight_modSlot (s : State) (sid : Nat) (f : Slot → Slot) : (s.modSlot sid f).hqWeight = s.hqWeight := rfl
@[simp] theorem State.nextLaunch_modSlot (s : State) (sid : Nat) (f : Slot → Slot) : (s.modSlot sid f).nextLaunch = s.nextLaunch := rfl
@[simp] theorem State.nextGroup_modSlot (s : State) (sid : Nat) (f : Slot → Slot) : (s.modSlot sid f).nextGroup = s.nextGroup := rfl
@[simp] theorem State.nextEntry_modSlot (s : State) (sid : Nat) (f : Slot → Slot) : (s.modSlot sid f).nextEntry = s.nextEntry := rfl
@[simp] theorem State.nextToken_modSlot (s : State) (sid : Nat) (f : Slot → Slot) : (s.modSlot sid f).nextToken = s.nextToken := rfl
@[simp] theorem State.nextThread_modSlot (s : State) (sid : Nat) (f : Slot → Slot) : (s.modSlot sid f).nextThread = s.nextThread := rfl
@[simp] theorem State.freeCtr_modSlot (s : State) (sid : Nat) (f : Slot → Slot) : (s.modSlot sid f).freeCtr = s.freeCtr := rfl
@[simp] theorem State.devId_modSlot (s : State) (sid : Nat) (f : Slot → Slot) : (s.modSlot sid f).devId = s.devId := rfl
@[simp] theorem State.ports_modSlot (s : State) (sid : Nat) (f : Slot → Slot) : (s.modSlot sid f).ports = s.ports := rfl
@[simp] theorem State.route_modSlot (s : State) (sid : Nat) (f : Slot → Slot) : (s.modSlot sid f).route = s.route := rfl
@[simp] theorem State.apertures_modSlot (s : State) (sid : Nat) (f : Slot → Slot) : (s.modSlot sid f).apertures = s.apertures := rfl
@[simp] theorem State.access_modSlot (s : State) (sid : Nat) (f : Slot → Slot) : (s.modSlot sid f).access = s.access := rfl
@[simp] theorem State.dieLinks_modSlot (s : State) (sid : Nat) (f : Slot → Slot) : (s.modSlot sid f).dieLinks = s.dieLinks := rfl
@[simp] theorem State.ecc_modSlot (s : State) (sid : Nat) (f : Slot → Slot) : (s.modSlot sid f).ecc = s.ecc := rfl
@[simp] theorem State.stackEcc_modSlot (s : State) (sid : Nat) (f : Slot → Slot) : (s.modSlot sid f).stackEcc = s.stackEcc := rfl
@[simp] theorem State.modl_modSlot (s : State) (sid : Nat) (f : Slot → Slot) : (s.modSlot sid f).modl = s.modl := rfl
@[simp] theorem State.saves_modSlot (s : State) (sid : Nat) (f : Slot → Slot) : (s.modSlot sid f).saves = s.saves := rfl
@[simp] theorem State.outbox_modSlot (s : State) (sid : Nat) (f : Slot → Slot) : (s.modSlot sid f).outbox = s.outbox := rfl
@[simp] theorem State.hostWaits_modSlot (s : State) (sid : Nat) (f : Slot → Slot) : (s.modSlot sid f).hostWaits = s.hostWaits := rfl
@[simp] theorem State.agenda_modSlot (s : State) (sid : Nat) (f : Slot → Slot) : (s.modSlot sid f).agenda = s.agenda := rfl
@[simp] theorem State.due_modSlot (s : State) (sid : Nat) (f : Slot → Slot) : (s.modSlot sid f).due = s.due := rfl
@[simp] theorem State.core_modSlot (s : State) (sid : Nat) (f : Slot → Slot) (k : Nat) : (s.modSlot sid f).core k = s.core k := rfl
@[simp] theorem State.cluster_modSlot (s : State) (sid : Nat) (f : Slot → Slot) (k : Nat) : (s.modSlot sid f).cluster k = s.cluster k := rfl
@[simp] theorem State.field_modSlot (s : State) (sid : Nat) (f : Slot → Slot) (k : Nat) : (s.modSlot sid f).field k = s.field k := rfl
@[simp] theorem State.ctx_modSlot (s : State) (sid : Nat) (f : Slot → Slot) (k : Nat) : (s.modSlot sid f).ctx k = s.ctx k := rfl
@[simp] theorem State.homeOf_modSlot (s : State) (sid : Nat) (f : Slot → Slot) (k : Nat) : (s.modSlot sid f).homeOf k = s.homeOf k := rfl
@[simp] theorem State.me_modSlot (s : State) (sid : Nat) (f : Slot → Slot) : (s.modSlot sid f).me = s.me := rfl
@[simp] theorem State.mine_modSlot (s : State) (sid : Nat) (f : Slot → Slot) : (s.modSlot sid f).mine = s.mine := rfl

/-! ### modCore -/

@[simp] theorem State.slots_modCore (s : State) (cid : Nat) (f : Core → Core) : (s.modCore cid f).slots = s.slots := rfl
@[simp] theorem State.clusters_modCore (s : State) (cid : Nat) (f : Core → Core) : (s.modCore cid f).clusters = s.clusters := rfl
@[simp] theorem State.fields_modCore (s : State) (cid : Nat) (f : Core → Core) : (s.modCore cid f).fields = s.fields := rfl
@[simp] theorem State.ctxs_modCore (s : State) (cid : Nat) (f : Core → Core) : (s.modCore cid f).ctxs = s.ctxs := rfl
@[simp] theorem State.groups_modCore (s : State) (cid : Nat) (f : Core → Core) : (s.modCore cid f).groups = s.groups := rfl
@[simp] theorem State.launches_modCore (s : State) (cid : Nat) (f : Core → Core) : (s.modCore cid f).launches = s.launches := rfl
@[simp] theorem State.cur_modCore (s : State) (cid : Nat) (f : Core → Core) : (s.modCore cid f).cur = s.cur := rfl
@[simp] theorem State.cycle_modCore (s : State) (cid : Nat) (f : Core → Core) : (s.modCore cid f).cycle = s.cycle := rfl
@[simp] theorem State.acted_modCore (s : State) (cid : Nat) (f : Core → Core) : (s.modCore cid f).acted = s.acted := rfl
@[simp] theorem State.arbed_modCore (s : State) (cid : Nat) (f : Core → Core) : (s.modCore cid f).arbed = s.arbed := rfl
@[simp] theorem State.mem_modCore (s : State) (cid : Nat) (f : Core → Core) : (s.modCore cid f).mem = s.mem := rfl
@[simp] theorem State.home_modCore (s : State) (cid : Nat) (f : Core → Core) : (s.modCore cid f).home = s.home := rfl
@[simp] theorem State.performed_modCore (s : State) (cid : Nat) (f : Core → Core) : (s.modCore cid f).performed = s.performed := rfl
@[simp] theorem State.hrt_modCore (s : State) (cid : Nat) (f : Core → Core) : (s.modCore cid f).hrt = s.hrt := rfl
@[simp] theorem State.hba_modCore (s : State) (cid : Nat) (f : Core → Core) : (s.modCore cid f).hba = s.hba := rfl
@[simp] theorem State.hqOwner_modCore (s : State) (cid : Nat) (f : Core → Core) : (s.modCore cid f).hqOwner = s.hqOwner := rfl
@[simp] theorem State.hqWeight_modCore (s : State) (cid : Nat) (f : Core → Core) : (s.modCore cid f).hqWeight = s.hqWeight := rfl
@[simp] theorem State.nextLaunch_modCore (s : State) (cid : Nat) (f : Core → Core) : (s.modCore cid f).nextLaunch = s.nextLaunch := rfl
@[simp] theorem State.nextGroup_modCore (s : State) (cid : Nat) (f : Core → Core) : (s.modCore cid f).nextGroup = s.nextGroup := rfl
@[simp] theorem State.nextEntry_modCore (s : State) (cid : Nat) (f : Core → Core) : (s.modCore cid f).nextEntry = s.nextEntry := rfl
@[simp] theorem State.nextToken_modCore (s : State) (cid : Nat) (f : Core → Core) : (s.modCore cid f).nextToken = s.nextToken := rfl
@[simp] theorem State.nextThread_modCore (s : State) (cid : Nat) (f : Core → Core) : (s.modCore cid f).nextThread = s.nextThread := rfl
@[simp] theorem State.freeCtr_modCore (s : State) (cid : Nat) (f : Core → Core) : (s.modCore cid f).freeCtr = s.freeCtr := rfl
@[simp] theorem State.devId_modCore (s : State) (cid : Nat) (f : Core → Core) : (s.modCore cid f).devId = s.devId := rfl
@[simp] theorem State.ports_modCore (s : State) (cid : Nat) (f : Core → Core) : (s.modCore cid f).ports = s.ports := rfl
@[simp] theorem State.route_modCore (s : State) (cid : Nat) (f : Core → Core) : (s.modCore cid f).route = s.route := rfl
@[simp] theorem State.apertures_modCore (s : State) (cid : Nat) (f : Core → Core) : (s.modCore cid f).apertures = s.apertures := rfl
@[simp] theorem State.access_modCore (s : State) (cid : Nat) (f : Core → Core) : (s.modCore cid f).access = s.access := rfl
@[simp] theorem State.dieLinks_modCore (s : State) (cid : Nat) (f : Core → Core) : (s.modCore cid f).dieLinks = s.dieLinks := rfl
@[simp] theorem State.ecc_modCore (s : State) (cid : Nat) (f : Core → Core) : (s.modCore cid f).ecc = s.ecc := rfl
@[simp] theorem State.stackEcc_modCore (s : State) (cid : Nat) (f : Core → Core) : (s.modCore cid f).stackEcc = s.stackEcc := rfl
@[simp] theorem State.modl_modCore (s : State) (cid : Nat) (f : Core → Core) : (s.modCore cid f).modl = s.modl := rfl
@[simp] theorem State.saves_modCore (s : State) (cid : Nat) (f : Core → Core) : (s.modCore cid f).saves = s.saves := rfl
@[simp] theorem State.outbox_modCore (s : State) (cid : Nat) (f : Core → Core) : (s.modCore cid f).outbox = s.outbox := rfl
@[simp] theorem State.hostWaits_modCore (s : State) (cid : Nat) (f : Core → Core) : (s.modCore cid f).hostWaits = s.hostWaits := rfl
@[simp] theorem State.agenda_modCore (s : State) (cid : Nat) (f : Core → Core) : (s.modCore cid f).agenda = s.agenda := rfl
@[simp] theorem State.due_modCore (s : State) (cid : Nat) (f : Core → Core) : (s.modCore cid f).due = s.due := rfl
@[simp] theorem State.slot_modCore (s : State) (cid : Nat) (f : Core → Core) (k : Nat) : (s.modCore cid f).slot k = s.slot k := rfl
@[simp] theorem State.thread_modCore (s : State) (cid : Nat) (f : Core → Core) (k : Nat) : (s.modCore cid f).thread k = s.thread k := rfl
@[simp] theorem State.cluster_modCore (s : State) (cid : Nat) (f : Core → Core) (k : Nat) : (s.modCore cid f).cluster k = s.cluster k := rfl
@[simp] theorem State.field_modCore (s : State) (cid : Nat) (f : Core → Core) (k : Nat) : (s.modCore cid f).field k = s.field k := rfl
@[simp] theorem State.ctx_modCore (s : State) (cid : Nat) (f : Core → Core) (k : Nat) : (s.modCore cid f).ctx k = s.ctx k := rfl
@[simp] theorem State.homeOf_modCore (s : State) (cid : Nat) (f : Core → Core) (k : Nat) : (s.modCore cid f).homeOf k = s.homeOf k := rfl
@[simp] theorem State.th_modCore (s : State) (cid : Nat) (f : Core → Core) : (s.modCore cid f).th = s.th := rfl
@[simp] theorem State.mine_modCore (s : State) (cid : Nat) (f : Core → Core) : (s.modCore cid f).mine = s.mine := rfl

/-! ### modCluster -/

@[simp] theorem State.slots_modCluster (s : State) (cl : Nat) (f : Cluster → Cluster) : (s.modCluster cl f).slots = s.slots := rfl
@[simp] theorem State.cores_modCluster (s : State) (cl : Nat) (f : Cluster → Cluster) : (s.modCluster cl f).cores = s.cores := rfl
@[simp] theorem State.fields_modCluster (s : State) (cl : Nat) (f : Cluster → Cluster) : (s.modCluster cl f).fields = s.fields := rfl
@[simp] theorem State.ctxs_modCluster (s : State) (cl : Nat) (f : Cluster → Cluster) : (s.modCluster cl f).ctxs = s.ctxs := rfl
@[simp] theorem State.groups_modCluster (s : State) (cl : Nat) (f : Cluster → Cluster) : (s.modCluster cl f).groups = s.groups := rfl
@[simp] theorem State.launches_modCluster (s : State) (cl : Nat) (f : Cluster → Cluster) : (s.modCluster cl f).launches = s.launches := rfl
@[simp] theorem State.cur_modCluster (s : State) (cl : Nat) (f : Cluster → Cluster) : (s.modCluster cl f).cur = s.cur := rfl
@[simp] theorem State.cycle_modCluster (s : State) (cl : Nat) (f : Cluster → Cluster) : (s.modCluster cl f).cycle = s.cycle := rfl
@[simp] theorem State.acted_modCluster (s : State) (cl : Nat) (f : Cluster → Cluster) : (s.modCluster cl f).acted = s.acted := rfl
@[simp] theorem State.arbed_modCluster (s : State) (cl : Nat) (f : Cluster → Cluster) : (s.modCluster cl f).arbed = s.arbed := rfl
@[simp] theorem State.mem_modCluster (s : State) (cl : Nat) (f : Cluster → Cluster) : (s.modCluster cl f).mem = s.mem := rfl
@[simp] theorem State.home_modCluster (s : State) (cl : Nat) (f : Cluster → Cluster) : (s.modCluster cl f).home = s.home := rfl
@[simp] theorem State.performed_modCluster (s : State) (cl : Nat) (f : Cluster → Cluster) : (s.modCluster cl f).performed = s.performed := rfl
@[simp] theorem State.hrt_modCluster (s : State) (cl : Nat) (f : Cluster → Cluster) : (s.modCluster cl f).hrt = s.hrt := rfl
@[simp] theorem State.hba_modCluster (s : State) (cl : Nat) (f : Cluster → Cluster) : (s.modCluster cl f).hba = s.hba := rfl
@[simp] theorem State.hqOwner_modCluster (s : State) (cl : Nat) (f : Cluster → Cluster) : (s.modCluster cl f).hqOwner = s.hqOwner := rfl
@[simp] theorem State.hqWeight_modCluster (s : State) (cl : Nat) (f : Cluster → Cluster) : (s.modCluster cl f).hqWeight = s.hqWeight := rfl
@[simp] theorem State.nextLaunch_modCluster (s : State) (cl : Nat) (f : Cluster → Cluster) : (s.modCluster cl f).nextLaunch = s.nextLaunch := rfl
@[simp] theorem State.nextGroup_modCluster (s : State) (cl : Nat) (f : Cluster → Cluster) : (s.modCluster cl f).nextGroup = s.nextGroup := rfl
@[simp] theorem State.nextEntry_modCluster (s : State) (cl : Nat) (f : Cluster → Cluster) : (s.modCluster cl f).nextEntry = s.nextEntry := rfl
@[simp] theorem State.nextToken_modCluster (s : State) (cl : Nat) (f : Cluster → Cluster) : (s.modCluster cl f).nextToken = s.nextToken := rfl
@[simp] theorem State.nextThread_modCluster (s : State) (cl : Nat) (f : Cluster → Cluster) : (s.modCluster cl f).nextThread = s.nextThread := rfl
@[simp] theorem State.freeCtr_modCluster (s : State) (cl : Nat) (f : Cluster → Cluster) : (s.modCluster cl f).freeCtr = s.freeCtr := rfl
@[simp] theorem State.devId_modCluster (s : State) (cl : Nat) (f : Cluster → Cluster) : (s.modCluster cl f).devId = s.devId := rfl
@[simp] theorem State.ports_modCluster (s : State) (cl : Nat) (f : Cluster → Cluster) : (s.modCluster cl f).ports = s.ports := rfl
@[simp] theorem State.route_modCluster (s : State) (cl : Nat) (f : Cluster → Cluster) : (s.modCluster cl f).route = s.route := rfl
@[simp] theorem State.apertures_modCluster (s : State) (cl : Nat) (f : Cluster → Cluster) : (s.modCluster cl f).apertures = s.apertures := rfl
@[simp] theorem State.access_modCluster (s : State) (cl : Nat) (f : Cluster → Cluster) : (s.modCluster cl f).access = s.access := rfl
@[simp] theorem State.dieLinks_modCluster (s : State) (cl : Nat) (f : Cluster → Cluster) : (s.modCluster cl f).dieLinks = s.dieLinks := rfl
@[simp] theorem State.ecc_modCluster (s : State) (cl : Nat) (f : Cluster → Cluster) : (s.modCluster cl f).ecc = s.ecc := rfl
@[simp] theorem State.stackEcc_modCluster (s : State) (cl : Nat) (f : Cluster → Cluster) : (s.modCluster cl f).stackEcc = s.stackEcc := rfl
@[simp] theorem State.modl_modCluster (s : State) (cl : Nat) (f : Cluster → Cluster) : (s.modCluster cl f).modl = s.modl := rfl
@[simp] theorem State.saves_modCluster (s : State) (cl : Nat) (f : Cluster → Cluster) : (s.modCluster cl f).saves = s.saves := rfl
@[simp] theorem State.outbox_modCluster (s : State) (cl : Nat) (f : Cluster → Cluster) : (s.modCluster cl f).outbox = s.outbox := rfl
@[simp] theorem State.hostWaits_modCluster (s : State) (cl : Nat) (f : Cluster → Cluster) : (s.modCluster cl f).hostWaits = s.hostWaits := rfl
@[simp] theorem State.agenda_modCluster (s : State) (cl : Nat) (f : Cluster → Cluster) : (s.modCluster cl f).agenda = s.agenda := rfl
@[simp] theorem State.due_modCluster (s : State) (cl : Nat) (f : Cluster → Cluster) : (s.modCluster cl f).due = s.due := rfl
@[simp] theorem State.slot_modCluster (s : State) (cl : Nat) (f : Cluster → Cluster) (k : Nat) : (s.modCluster cl f).slot k = s.slot k := rfl
@[simp] theorem State.thread_modCluster (s : State) (cl : Nat) (f : Cluster → Cluster) (k : Nat) : (s.modCluster cl f).thread k = s.thread k := rfl
@[simp] theorem State.core_modCluster (s : State) (cl : Nat) (f : Cluster → Cluster) (k : Nat) : (s.modCluster cl f).core k = s.core k := rfl
@[simp] theorem State.field_modCluster (s : State) (cl : Nat) (f : Cluster → Cluster) (k : Nat) : (s.modCluster cl f).field k = s.field k := rfl
@[simp] theorem State.ctx_modCluster (s : State) (cl : Nat) (f : Cluster → Cluster) (k : Nat) : (s.modCluster cl f).ctx k = s.ctx k := rfl
@[simp] theorem State.homeOf_modCluster (s : State) (cl : Nat) (f : Cluster → Cluster) (k : Nat) : (s.modCluster cl f).homeOf k = s.homeOf k := rfl
@[simp] theorem State.th_modCluster (s : State) (cl : Nat) (f : Cluster → Cluster) : (s.modCluster cl f).th = s.th := rfl
@[simp] theorem State.me_modCluster (s : State) (cl : Nat) (f : Cluster → Cluster) : (s.modCluster cl f).me = s.me := rfl

/-! ### modField -/

@[simp] theorem State.slots_modField (s : State) (n : Nat) (f : Field → Field) : (s.modField n f).slots = s.slots := rfl
@[simp] theorem State.cores_modField (s : State) (n : Nat) (f : Field → Field) : (s.modField n f).cores = s.cores := rfl
@[simp] theorem State.clusters_modField (s : State) (n : Nat) (f : Field → Field) : (s.modField n f).clusters = s.clusters := rfl
@[simp] theorem State.ctxs_modField (s : State) (n : Nat) (f : Field → Field) : (s.modField n f).ctxs = s.ctxs := rfl
@[simp] theorem State.groups_modField (s : State) (n : Nat) (f : Field → Field) : (s.modField n f).groups = s.groups := rfl
@[simp] theorem State.launches_modField (s : State) (n : Nat) (f : Field → Field) : (s.modField n f).launches = s.launches := rfl
@[simp] theorem State.cur_modField (s : State) (n : Nat) (f : Field → Field) : (s.modField n f).cur = s.cur := rfl
@[simp] theorem State.cycle_modField (s : State) (n : Nat) (f : Field → Field) : (s.modField n f).cycle = s.cycle := rfl
@[simp] theorem State.acted_modField (s : State) (n : Nat) (f : Field → Field) : (s.modField n f).acted = s.acted := rfl
@[simp] theorem State.arbed_modField (s : State) (n : Nat) (f : Field → Field) : (s.modField n f).arbed = s.arbed := rfl
@[simp] theorem State.mem_modField (s : State) (n : Nat) (f : Field → Field) : (s.modField n f).mem = s.mem := rfl
@[simp] theorem State.home_modField (s : State) (n : Nat) (f : Field → Field) : (s.modField n f).home = s.home := rfl
@[simp] theorem State.performed_modField (s : State) (n : Nat) (f : Field → Field) : (s.modField n f).performed = s.performed := rfl
@[simp] theorem State.hrt_modField (s : State) (n : Nat) (f : Field → Field) : (s.modField n f).hrt = s.hrt := rfl
@[simp] theorem State.hba_modField (s : State) (n : Nat) (f : Field → Field) : (s.modField n f).hba = s.hba := rfl
@[simp] theorem State.hqOwner_modField (s : State) (n : Nat) (f : Field → Field) : (s.modField n f).hqOwner = s.hqOwner := rfl
@[simp] theorem State.hqWeight_modField (s : State) (n : Nat) (f : Field → Field) : (s.modField n f).hqWeight = s.hqWeight := rfl
@[simp] theorem State.nextLaunch_modField (s : State) (n : Nat) (f : Field → Field) : (s.modField n f).nextLaunch = s.nextLaunch := rfl
@[simp] theorem State.nextGroup_modField (s : State) (n : Nat) (f : Field → Field) : (s.modField n f).nextGroup = s.nextGroup := rfl
@[simp] theorem State.nextEntry_modField (s : State) (n : Nat) (f : Field → Field) : (s.modField n f).nextEntry = s.nextEntry := rfl
@[simp] theorem State.nextToken_modField (s : State) (n : Nat) (f : Field → Field) : (s.modField n f).nextToken = s.nextToken := rfl
@[simp] theorem State.nextThread_modField (s : State) (n : Nat) (f : Field → Field) : (s.modField n f).nextThread = s.nextThread := rfl
@[simp] theorem State.freeCtr_modField (s : State) (n : Nat) (f : Field → Field) : (s.modField n f).freeCtr = s.freeCtr := rfl
@[simp] theorem State.devId_modField (s : State) (n : Nat) (f : Field → Field) : (s.modField n f).devId = s.devId := rfl
@[simp] theorem State.ports_modField (s : State) (n : Nat) (f : Field → Field) : (s.modField n f).ports = s.ports := rfl
@[simp] theorem State.route_modField (s : State) (n : Nat) (f : Field → Field) : (s.modField n f).route = s.route := rfl
@[simp] theorem State.apertures_modField (s : State) (n : Nat) (f : Field → Field) : (s.modField n f).apertures = s.apertures := rfl
@[simp] theorem State.access_modField (s : State) (n : Nat) (f : Field → Field) : (s.modField n f).access = s.access := rfl
@[simp] theorem State.dieLinks_modField (s : State) (n : Nat) (f : Field → Field) : (s.modField n f).dieLinks = s.dieLinks := rfl
@[simp] theorem State.ecc_modField (s : State) (n : Nat) (f : Field → Field) : (s.modField n f).ecc = s.ecc := rfl
@[simp] theorem State.stackEcc_modField (s : State) (n : Nat) (f : Field → Field) : (s.modField n f).stackEcc = s.stackEcc := rfl
@[simp] theorem State.modl_modField (s : State) (n : Nat) (f : Field → Field) : (s.modField n f).modl = s.modl := rfl
@[simp] theorem State.saves_modField (s : State) (n : Nat) (f : Field → Field) : (s.modField n f).saves = s.saves := rfl
@[simp] theorem State.outbox_modField (s : State) (n : Nat) (f : Field → Field) : (s.modField n f).outbox = s.outbox := rfl
@[simp] theorem State.hostWaits_modField (s : State) (n : Nat) (f : Field → Field) : (s.modField n f).hostWaits = s.hostWaits := rfl
@[simp] theorem State.agenda_modField (s : State) (n : Nat) (f : Field → Field) : (s.modField n f).agenda = s.agenda := rfl
@[simp] theorem State.due_modField (s : State) (n : Nat) (f : Field → Field) : (s.modField n f).due = s.due := rfl
@[simp] theorem State.slot_modField (s : State) (n : Nat) (f : Field → Field) (k : Nat) : (s.modField n f).slot k = s.slot k := rfl
@[simp] theorem State.thread_modField (s : State) (n : Nat) (f : Field → Field) (k : Nat) : (s.modField n f).thread k = s.thread k := rfl
@[simp] theorem State.core_modField (s : State) (n : Nat) (f : Field → Field) (k : Nat) : (s.modField n f).core k = s.core k := rfl
@[simp] theorem State.cluster_modField (s : State) (n : Nat) (f : Field → Field) (k : Nat) : (s.modField n f).cluster k = s.cluster k := rfl
@[simp] theorem State.ctx_modField (s : State) (n : Nat) (f : Field → Field) (k : Nat) : (s.modField n f).ctx k = s.ctx k := rfl
@[simp] theorem State.homeOf_modField (s : State) (n : Nat) (f : Field → Field) (k : Nat) : (s.modField n f).homeOf k = s.homeOf k := rfl
@[simp] theorem State.th_modField (s : State) (n : Nat) (f : Field → Field) : (s.modField n f).th = s.th := rfl
@[simp] theorem State.me_modField (s : State) (n : Nat) (f : Field → Field) : (s.modField n f).me = s.me := rfl
@[simp] theorem State.mine_modField (s : State) (n : Nat) (f : Field → Field) : (s.modField n f).mine = s.mine := rfl

/-! ### modCtx -/

@[simp] theorem State.slots_modCtx (s : State) (a : Nat) (f : Ctx → Ctx) : (s.modCtx a f).slots = s.slots := rfl
@[simp] theorem State.cores_modCtx (s : State) (a : Nat) (f : Ctx → Ctx) : (s.modCtx a f).cores = s.cores := rfl
@[simp] theorem State.clusters_modCtx (s : State) (a : Nat) (f : Ctx → Ctx) : (s.modCtx a f).clusters = s.clusters := rfl
@[simp] theorem State.fields_modCtx (s : State) (a : Nat) (f : Ctx → Ctx) : (s.modCtx a f).fields = s.fields := rfl
@[simp] theorem State.groups_modCtx (s : State) (a : Nat) (f : Ctx → Ctx) : (s.modCtx a f).groups = s.groups := rfl
@[simp] theorem State.launches_modCtx (s : State) (a : Nat) (f : Ctx → Ctx) : (s.modCtx a f).launches = s.launches := rfl
@[simp] theorem State.cur_modCtx (s : State) (a : Nat) (f : Ctx → Ctx) : (s.modCtx a f).cur = s.cur := rfl
@[simp] theorem State.cycle_modCtx (s : State) (a : Nat) (f : Ctx → Ctx) : (s.modCtx a f).cycle = s.cycle := rfl
@[simp] theorem State.acted_modCtx (s : State) (a : Nat) (f : Ctx → Ctx) : (s.modCtx a f).acted = s.acted := rfl
@[simp] theorem State.arbed_modCtx (s : State) (a : Nat) (f : Ctx → Ctx) : (s.modCtx a f).arbed = s.arbed := rfl
@[simp] theorem State.mem_modCtx (s : State) (a : Nat) (f : Ctx → Ctx) : (s.modCtx a f).mem = s.mem := rfl
@[simp] theorem State.home_modCtx (s : State) (a : Nat) (f : Ctx → Ctx) : (s.modCtx a f).home = s.home := rfl
@[simp] theorem State.performed_modCtx (s : State) (a : Nat) (f : Ctx → Ctx) : (s.modCtx a f).performed = s.performed := rfl
@[simp] theorem State.hrt_modCtx (s : State) (a : Nat) (f : Ctx → Ctx) : (s.modCtx a f).hrt = s.hrt := rfl
@[simp] theorem State.hba_modCtx (s : State) (a : Nat) (f : Ctx → Ctx) : (s.modCtx a f).hba = s.hba := rfl
@[simp] theorem State.hqOwner_modCtx (s : State) (a : Nat) (f : Ctx → Ctx) : (s.modCtx a f).hqOwner = s.hqOwner := rfl
@[simp] theorem State.hqWeight_modCtx (s : State) (a : Nat) (f : Ctx → Ctx) : (s.modCtx a f).hqWeight = s.hqWeight := rfl
@[simp] theorem State.nextLaunch_modCtx (s : State) (a : Nat) (f : Ctx → Ctx) : (s.modCtx a f).nextLaunch = s.nextLaunch := rfl
@[simp] theorem State.nextGroup_modCtx (s : State) (a : Nat) (f : Ctx → Ctx) : (s.modCtx a f).nextGroup = s.nextGroup := rfl
@[simp] theorem State.nextEntry_modCtx (s : State) (a : Nat) (f : Ctx → Ctx) : (s.modCtx a f).nextEntry = s.nextEntry := rfl
@[simp] theorem State.nextToken_modCtx (s : State) (a : Nat) (f : Ctx → Ctx) : (s.modCtx a f).nextToken = s.nextToken := rfl
@[simp] theorem State.nextThread_modCtx (s : State) (a : Nat) (f : Ctx → Ctx) : (s.modCtx a f).nextThread = s.nextThread := rfl
@[simp] theorem State.freeCtr_modCtx (s : State) (a : Nat) (f : Ctx → Ctx) : (s.modCtx a f).freeCtr = s.freeCtr := rfl
@[simp] theorem State.devId_modCtx (s : State) (a : Nat) (f : Ctx → Ctx) : (s.modCtx a f).devId = s.devId := rfl
@[simp] theorem State.ports_modCtx (s : State) (a : Nat) (f : Ctx → Ctx) : (s.modCtx a f).ports = s.ports := rfl
@[simp] theorem State.route_modCtx (s : State) (a : Nat) (f : Ctx → Ctx) : (s.modCtx a f).route = s.route := rfl
@[simp] theorem State.apertures_modCtx (s : State) (a : Nat) (f : Ctx → Ctx) : (s.modCtx a f).apertures = s.apertures := rfl
@[simp] theorem State.access_modCtx (s : State) (a : Nat) (f : Ctx → Ctx) : (s.modCtx a f).access = s.access := rfl
@[simp] theorem State.dieLinks_modCtx (s : State) (a : Nat) (f : Ctx → Ctx) : (s.modCtx a f).dieLinks = s.dieLinks := rfl
@[simp] theorem State.ecc_modCtx (s : State) (a : Nat) (f : Ctx → Ctx) : (s.modCtx a f).ecc = s.ecc := rfl
@[simp] theorem State.stackEcc_modCtx (s : State) (a : Nat) (f : Ctx → Ctx) : (s.modCtx a f).stackEcc = s.stackEcc := rfl
@[simp] theorem State.modl_modCtx (s : State) (a : Nat) (f : Ctx → Ctx) : (s.modCtx a f).modl = s.modl := rfl
@[simp] theorem State.saves_modCtx (s : State) (a : Nat) (f : Ctx → Ctx) : (s.modCtx a f).saves = s.saves := rfl
@[simp] theorem State.outbox_modCtx (s : State) (a : Nat) (f : Ctx → Ctx) : (s.modCtx a f).outbox = s.outbox := rfl
@[simp] theorem State.hostWaits_modCtx (s : State) (a : Nat) (f : Ctx → Ctx) : (s.modCtx a f).hostWaits = s.hostWaits := rfl
@[simp] theorem State.agenda_modCtx (s : State) (a : Nat) (f : Ctx → Ctx) : (s.modCtx a f).agenda = s.agenda := rfl
@[simp] theorem State.due_modCtx (s : State) (a : Nat) (f : Ctx → Ctx) : (s.modCtx a f).due = s.due := rfl
@[simp] theorem State.slot_modCtx (s : State) (a : Nat) (f : Ctx → Ctx) (k : Nat) : (s.modCtx a f).slot k = s.slot k := rfl
@[simp] theorem State.thread_modCtx (s : State) (a : Nat) (f : Ctx → Ctx) (k : Nat) : (s.modCtx a f).thread k = s.thread k := rfl
@[simp] theorem State.core_modCtx (s : State) (a : Nat) (f : Ctx → Ctx) (k : Nat) : (s.modCtx a f).core k = s.core k := rfl
@[simp] theorem State.cluster_modCtx (s : State) (a : Nat) (f : Ctx → Ctx) (k : Nat) : (s.modCtx a f).cluster k = s.cluster k := rfl
@[simp] theorem State.field_modCtx (s : State) (a : Nat) (f : Ctx → Ctx) (k : Nat) : (s.modCtx a f).field k = s.field k := rfl
@[simp] theorem State.homeOf_modCtx (s : State) (a : Nat) (f : Ctx → Ctx) (k : Nat) : (s.modCtx a f).homeOf k = s.homeOf k := rfl
@[simp] theorem State.th_modCtx (s : State) (a : Nat) (f : Ctx → Ctx) : (s.modCtx a f).th = s.th := rfl
@[simp] theorem State.me_modCtx (s : State) (a : Nat) (f : Ctx → Ctx) : (s.modCtx a f).me = s.me := rfl
@[simp] theorem State.mine_modCtx (s : State) (a : Nat) (f : Ctx → Ctx) : (s.modCtx a f).mine = s.mine := rfl

/-! ### modHome -/

@[simp] theorem State.slots_modHome (s : State) (line : Nat) (f : HomeLine → HomeLine) : (s.modHome line f).slots = s.slots := rfl
@[simp] theorem State.cores_modHome (s : State) (line : Nat) (f : HomeLine → HomeLine) : (s.modHome line f).cores = s.cores := rfl
@[simp] theorem State.clusters_modHome (s : State) (line : Nat) (f : HomeLine → HomeLine) : (s.modHome line f).clusters = s.clusters := rfl
@[simp] theorem State.fields_modHome (s : State) (line : Nat) (f : HomeLine → HomeLine) : (s.modHome line f).fields = s.fields := rfl
@[simp] theorem State.ctxs_modHome (s : State) (line : Nat) (f : HomeLine → HomeLine) : (s.modHome line f).ctxs = s.ctxs := rfl
@[simp] theorem State.groups_modHome (s : State) (line : Nat) (f : HomeLine → HomeLine) : (s.modHome line f).groups = s.groups := rfl
@[simp] theorem State.launches_modHome (s : State) (line : Nat) (f : HomeLine → HomeLine) : (s.modHome line f).launches = s.launches := rfl
@[simp] theorem State.cur_modHome (s : State) (line : Nat) (f : HomeLine → HomeLine) : (s.modHome line f).cur = s.cur := rfl
@[simp] theorem State.cycle_modHome (s : State) (line : Nat) (f : HomeLine → HomeLine) : (s.modHome line f).cycle = s.cycle := rfl
@[simp] theorem State.acted_modHome (s : State) (line : Nat) (f : HomeLine → HomeLine) : (s.modHome line f).acted = s.acted := rfl
@[simp] theorem State.arbed_modHome (s : State) (line : Nat) (f : HomeLine → HomeLine) : (s.modHome line f).arbed = s.arbed := rfl
@[simp] theorem State.mem_modHome (s : State) (line : Nat) (f : HomeLine → HomeLine) : (s.modHome line f).mem = s.mem := rfl
@[simp] theorem State.performed_modHome (s : State) (line : Nat) (f : HomeLine → HomeLine) : (s.modHome line f).performed = s.performed := rfl
@[simp] theorem State.hrt_modHome (s : State) (line : Nat) (f : HomeLine → HomeLine) : (s.modHome line f).hrt = s.hrt := rfl
@[simp] theorem State.hba_modHome (s : State) (line : Nat) (f : HomeLine → HomeLine) : (s.modHome line f).hba = s.hba := rfl
@[simp] theorem State.hqOwner_modHome (s : State) (line : Nat) (f : HomeLine → HomeLine) : (s.modHome line f).hqOwner = s.hqOwner := rfl
@[simp] theorem State.hqWeight_modHome (s : State) (line : Nat) (f : HomeLine → HomeLine) : (s.modHome line f).hqWeight = s.hqWeight := rfl
@[simp] theorem State.nextLaunch_modHome (s : State) (line : Nat) (f : HomeLine → HomeLine) : (s.modHome line f).nextLaunch = s.nextLaunch := rfl
@[simp] theorem State.nextGroup_modHome (s : State) (line : Nat) (f : HomeLine → HomeLine) : (s.modHome line f).nextGroup = s.nextGroup := rfl
@[simp] theorem State.nextEntry_modHome (s : State) (line : Nat) (f : HomeLine → HomeLine) : (s.modHome line f).nextEntry = s.nextEntry := rfl
@[simp] theorem State.nextToken_modHome (s : State) (line : Nat) (f : HomeLine → HomeLine) : (s.modHome line f).nextToken = s.nextToken := rfl
@[simp] theorem State.nextThread_modHome (s : State) (line : Nat) (f : HomeLine → HomeLine) : (s.modHome line f).nextThread = s.nextThread := rfl
@[simp] theorem State.freeCtr_modHome (s : State) (line : Nat) (f : HomeLine → HomeLine) : (s.modHome line f).freeCtr = s.freeCtr := rfl
@[simp] theorem State.devId_modHome (s : State) (line : Nat) (f : HomeLine → HomeLine) : (s.modHome line f).devId = s.devId := rfl
@[simp] theorem State.ports_modHome (s : State) (line : Nat) (f : HomeLine → HomeLine) : (s.modHome line f).ports = s.ports := rfl
@[simp] theorem State.route_modHome (s : State) (line : Nat) (f : HomeLine → HomeLine) : (s.modHome line f).route = s.route := rfl
@[simp] theorem State.apertures_modHome (s : State) (line : Nat) (f : HomeLine → HomeLine) : (s.modHome line f).apertures = s.apertures := rfl
@[simp] theorem State.access_modHome (s : State) (line : Nat) (f : HomeLine → HomeLine) : (s.modHome line f).access = s.access := rfl
@[simp] theorem State.dieLinks_modHome (s : State) (line : Nat) (f : HomeLine → HomeLine) : (s.modHome line f).dieLinks = s.dieLinks := rfl
@[simp] theorem State.ecc_modHome (s : State) (line : Nat) (f : HomeLine → HomeLine) : (s.modHome line f).ecc = s.ecc := rfl
@[simp] theorem State.stackEcc_modHome (s : State) (line : Nat) (f : HomeLine → HomeLine) : (s.modHome line f).stackEcc = s.stackEcc := rfl
@[simp] theorem State.modl_modHome (s : State) (line : Nat) (f : HomeLine → HomeLine) : (s.modHome line f).modl = s.modl := rfl
@[simp] theorem State.saves_modHome (s : State) (line : Nat) (f : HomeLine → HomeLine) : (s.modHome line f).saves = s.saves := rfl
@[simp] theorem State.outbox_modHome (s : State) (line : Nat) (f : HomeLine → HomeLine) : (s.modHome line f).outbox = s.outbox := rfl
@[simp] theorem State.hostWaits_modHome (s : State) (line : Nat) (f : HomeLine → HomeLine) : (s.modHome line f).hostWaits = s.hostWaits := rfl
@[simp] theorem State.agenda_modHome (s : State) (line : Nat) (f : HomeLine → HomeLine) : (s.modHome line f).agenda = s.agenda := rfl
@[simp] theorem State.due_modHome (s : State) (line : Nat) (f : HomeLine → HomeLine) : (s.modHome line f).due = s.due := rfl
@[simp] theorem State.slot_modHome (s : State) (line : Nat) (f : HomeLine → HomeLine) (k : Nat) : (s.modHome line f).slot k = s.slot k := rfl
@[simp] theorem State.thread_modHome (s : State) (line : Nat) (f : HomeLine → HomeLine) (k : Nat) : (s.modHome line f).thread k = s.thread k := rfl
@[simp] theorem State.core_modHome (s : State) (line : Nat) (f : HomeLine → HomeLine) (k : Nat) : (s.modHome line f).core k = s.core k := rfl
@[simp] theorem State.cluster_modHome (s : State) (line : Nat) (f : HomeLine → HomeLine) (k : Nat) : (s.modHome line f).cluster k = s.cluster k := rfl
@[simp] theorem State.field_modHome (s : State) (line : Nat) (f : HomeLine → HomeLine) (k : Nat) : (s.modHome line f).field k = s.field k := rfl
@[simp] theorem State.ctx_modHome (s : State) (line : Nat) (f : HomeLine → HomeLine) (k : Nat) : (s.modHome line f).ctx k = s.ctx k := rfl
@[simp] theorem State.th_modHome (s : State) (line : Nat) (f : HomeLine → HomeLine) : (s.modHome line f).th = s.th := rfl
@[simp] theorem State.me_modHome (s : State) (line : Nat) (f : HomeLine → HomeLine) : (s.modHome line f).me = s.me := rfl
@[simp] theorem State.mine_modHome (s : State) (line : Nat) (f : HomeLine → HomeLine) : (s.modHome line f).mine = s.mine := rfl

/-! ### modThread -/

@[simp] theorem State.cores_modThread (s : State) (sid : Nat) (f : Thread → Thread) : (s.modThread sid f).cores = s.cores := rfl
@[simp] theorem State.clusters_modThread (s : State) (sid : Nat) (f : Thread → Thread) : (s.modThread sid f).clusters = s.clusters := rfl
@[simp] theorem State.fields_modThread (s : State) (sid : Nat) (f : Thread → Thread) : (s.modThread sid f).fields = s.fields := rfl
@[simp] theorem State.ctxs_modThread (s : State) (sid : Nat) (f : Thread → Thread) : (s.modThread sid f).ctxs = s.ctxs := rfl
@[simp] theorem State.groups_modThread (s : State) (sid : Nat) (f : Thread → Thread) : (s.modThread sid f).groups = s.groups := rfl
@[simp] theorem State.launches_modThread (s : State) (sid : Nat) (f : Thread → Thread) : (s.modThread sid f).launches = s.launches := rfl
@[simp] theorem State.cur_modThread (s : State) (sid : Nat) (f : Thread → Thread) : (s.modThread sid f).cur = s.cur := rfl
@[simp] theorem State.cycle_modThread (s : State) (sid : Nat) (f : Thread → Thread) : (s.modThread sid f).cycle = s.cycle := rfl
@[simp] theorem State.acted_modThread (s : State) (sid : Nat) (f : Thread → Thread) : (s.modThread sid f).acted = s.acted := rfl
@[simp] theorem State.arbed_modThread (s : State) (sid : Nat) (f : Thread → Thread) : (s.modThread sid f).arbed = s.arbed := rfl
@[simp] theorem State.mem_modThread (s : State) (sid : Nat) (f : Thread → Thread) : (s.modThread sid f).mem = s.mem := rfl
@[simp] theorem State.home_modThread (s : State) (sid : Nat) (f : Thread → Thread) : (s.modThread sid f).home = s.home := rfl
@[simp] theorem State.performed_modThread (s : State) (sid : Nat) (f : Thread → Thread) : (s.modThread sid f).performed = s.performed := rfl
@[simp] theorem State.hrt_modThread (s : State) (sid : Nat) (f : Thread → Thread) : (s.modThread sid f).hrt = s.hrt := rfl
@[simp] theorem State.hba_modThread (s : State) (sid : Nat) (f : Thread → Thread) : (s.modThread sid f).hba = s.hba := rfl
@[simp] theorem State.hqOwner_modThread (s : State) (sid : Nat) (f : Thread → Thread) : (s.modThread sid f).hqOwner = s.hqOwner := rfl
@[simp] theorem State.hqWeight_modThread (s : State) (sid : Nat) (f : Thread → Thread) : (s.modThread sid f).hqWeight = s.hqWeight := rfl
@[simp] theorem State.nextLaunch_modThread (s : State) (sid : Nat) (f : Thread → Thread) : (s.modThread sid f).nextLaunch = s.nextLaunch := rfl
@[simp] theorem State.nextGroup_modThread (s : State) (sid : Nat) (f : Thread → Thread) : (s.modThread sid f).nextGroup = s.nextGroup := rfl
@[simp] theorem State.nextEntry_modThread (s : State) (sid : Nat) (f : Thread → Thread) : (s.modThread sid f).nextEntry = s.nextEntry := rfl
@[simp] theorem State.nextToken_modThread (s : State) (sid : Nat) (f : Thread → Thread) : (s.modThread sid f).nextToken = s.nextToken := rfl
@[simp] theorem State.nextThread_modThread (s : State) (sid : Nat) (f : Thread → Thread) : (s.modThread sid f).nextThread = s.nextThread := rfl
@[simp] theorem State.freeCtr_modThread (s : State) (sid : Nat) (f : Thread → Thread) : (s.modThread sid f).freeCtr = s.freeCtr := rfl
@[simp] theorem State.devId_modThread (s : State) (sid : Nat) (f : Thread → Thread) : (s.modThread sid f).devId = s.devId := rfl
@[simp] theorem State.ports_modThread (s : State) (sid : Nat) (f : Thread → Thread) : (s.modThread sid f).ports = s.ports := rfl
@[simp] theorem State.route_modThread (s : State) (sid : Nat) (f : Thread → Thread) : (s.modThread sid f).route = s.route := rfl
@[simp] theorem State.apertures_modThread (s : State) (sid : Nat) (f : Thread → Thread) : (s.modThread sid f).apertures = s.apertures := rfl
@[simp] theorem State.access_modThread (s : State) (sid : Nat) (f : Thread → Thread) : (s.modThread sid f).access = s.access := rfl
@[simp] theorem State.dieLinks_modThread (s : State) (sid : Nat) (f : Thread → Thread) : (s.modThread sid f).dieLinks = s.dieLinks := rfl
@[simp] theorem State.ecc_modThread (s : State) (sid : Nat) (f : Thread → Thread) : (s.modThread sid f).ecc = s.ecc := rfl
@[simp] theorem State.stackEcc_modThread (s : State) (sid : Nat) (f : Thread → Thread) : (s.modThread sid f).stackEcc = s.stackEcc := rfl
@[simp] theorem State.modl_modThread (s : State) (sid : Nat) (f : Thread → Thread) : (s.modThread sid f).modl = s.modl := rfl
@[simp] theorem State.saves_modThread (s : State) (sid : Nat) (f : Thread → Thread) : (s.modThread sid f).saves = s.saves := rfl
@[simp] theorem State.outbox_modThread (s : State) (sid : Nat) (f : Thread → Thread) : (s.modThread sid f).outbox = s.outbox := rfl
@[simp] theorem State.hostWaits_modThread (s : State) (sid : Nat) (f : Thread → Thread) : (s.modThread sid f).hostWaits = s.hostWaits := rfl
@[simp] theorem State.agenda_modThread (s : State) (sid : Nat) (f : Thread → Thread) : (s.modThread sid f).agenda = s.agenda := rfl
@[simp] theorem State.due_modThread (s : State) (sid : Nat) (f : Thread → Thread) : (s.modThread sid f).due = s.due := rfl
@[simp] theorem State.core_modThread (s : State) (sid : Nat) (f : Thread → Thread) (k : Nat) : (s.modThread sid f).core k = s.core k := rfl
@[simp] theorem State.cluster_modThread (s : State) (sid : Nat) (f : Thread → Thread) (k : Nat) : (s.modThread sid f).cluster k = s.cluster k := rfl
@[simp] theorem State.field_modThread (s : State) (sid : Nat) (f : Thread → Thread) (k : Nat) : (s.modThread sid f).field k = s.field k := rfl
@[simp] theorem State.ctx_modThread (s : State) (sid : Nat) (f : Thread → Thread) (k : Nat) : (s.modThread sid f).ctx k = s.ctx k := rfl
@[simp] theorem State.homeOf_modThread (s : State) (sid : Nat) (f : Thread → Thread) (k : Nat) : (s.modThread sid f).homeOf k = s.homeOf k := rfl
@[simp] theorem State.me_modThread (s : State) (sid : Nat) (f : Thread → Thread) : (s.modThread sid f).me = s.me := rfl
@[simp] theorem State.mine_modThread (s : State) (sid : Nat) (f : Thread → Thread) : (s.modThread sid f).mine = s.mine := rfl

/-! ### modTh -/

@[simp] theorem State.cores_modTh (s : State) (f : Thread → Thread) : (s.modTh f).cores = s.cores := rfl
@[simp] theorem State.clusters_modTh (s : State) (f : Thread → Thread) : (s.modTh f).clusters = s.clusters := rfl
@[simp] theorem State.fields_modTh (s : State) (f : Thread → Thread) : (s.modTh f).fields = s.fields := rfl
@[simp] theorem State.ctxs_modTh (s : State) (f : Thread → Thread) : (s.modTh f).ctxs = s.ctxs := rfl
@[simp] theorem State.groups_modTh (s : State) (f : Thread → Thread) : (s.modTh f).groups = s.groups := rfl
@[simp] theorem State.launches_modTh (s : State) (f : Thread → Thread) : (s.modTh f).launches = s.launches := rfl
@[simp] theorem State.cur_modTh (s : State) (f : Thread → Thread) : (s.modTh f).cur = s.cur := rfl
@[simp] theorem State.cycle_modTh (s : State) (f : Thread → Thread) : (s.modTh f).cycle = s.cycle := rfl
@[simp] theorem State.acted_modTh (s : State) (f : Thread → Thread) : (s.modTh f).acted = s.acted := rfl
@[simp] theorem State.arbed_modTh (s : State) (f : Thread → Thread) : (s.modTh f).arbed = s.arbed := rfl
@[simp] theorem State.mem_modTh (s : State) (f : Thread → Thread) : (s.modTh f).mem = s.mem := rfl
@[simp] theorem State.home_modTh (s : State) (f : Thread → Thread) : (s.modTh f).home = s.home := rfl
@[simp] theorem State.performed_modTh (s : State) (f : Thread → Thread) : (s.modTh f).performed = s.performed := rfl
@[simp] theorem State.hrt_modTh (s : State) (f : Thread → Thread) : (s.modTh f).hrt = s.hrt := rfl
@[simp] theorem State.hba_modTh (s : State) (f : Thread → Thread) : (s.modTh f).hba = s.hba := rfl
@[simp] theorem State.hqOwner_modTh (s : State) (f : Thread → Thread) : (s.modTh f).hqOwner = s.hqOwner := rfl
@[simp] theorem State.hqWeight_modTh (s : State) (f : Thread → Thread) : (s.modTh f).hqWeight = s.hqWeight := rfl
@[simp] theorem State.nextLaunch_modTh (s : State) (f : Thread → Thread) : (s.modTh f).nextLaunch = s.nextLaunch := rfl
@[simp] theorem State.nextGroup_modTh (s : State) (f : Thread → Thread) : (s.modTh f).nextGroup = s.nextGroup := rfl
@[simp] theorem State.nextEntry_modTh (s : State) (f : Thread → Thread) : (s.modTh f).nextEntry = s.nextEntry := rfl
@[simp] theorem State.nextToken_modTh (s : State) (f : Thread → Thread) : (s.modTh f).nextToken = s.nextToken := rfl
@[simp] theorem State.nextThread_modTh (s : State) (f : Thread → Thread) : (s.modTh f).nextThread = s.nextThread := rfl
@[simp] theorem State.freeCtr_modTh (s : State) (f : Thread → Thread) : (s.modTh f).freeCtr = s.freeCtr := rfl
@[simp] theorem State.devId_modTh (s : State) (f : Thread → Thread) : (s.modTh f).devId = s.devId := rfl
@[simp] theorem State.ports_modTh (s : State) (f : Thread → Thread) : (s.modTh f).ports = s.ports := rfl
@[simp] theorem State.route_modTh (s : State) (f : Thread → Thread) : (s.modTh f).route = s.route := rfl
@[simp] theorem State.apertures_modTh (s : State) (f : Thread → Thread) : (s.modTh f).apertures = s.apertures := rfl
@[simp] theorem State.access_modTh (s : State) (f : Thread → Thread) : (s.modTh f).access = s.access := rfl
@[simp] theorem State.dieLinks_modTh (s : State) (f : Thread → Thread) : (s.modTh f).dieLinks = s.dieLinks := rfl
@[simp] theorem State.ecc_modTh (s : State) (f : Thread → Thread) : (s.modTh f).ecc = s.ecc := rfl
@[simp] theorem State.stackEcc_modTh (s : State) (f : Thread → Thread) : (s.modTh f).stackEcc = s.stackEcc := rfl
@[simp] theorem State.modl_modTh (s : State) (f : Thread → Thread) : (s.modTh f).modl = s.modl := rfl
@[simp] theorem State.saves_modTh (s : State) (f : Thread → Thread) : (s.modTh f).saves = s.saves := rfl
@[simp] theorem State.outbox_modTh (s : State) (f : Thread → Thread) : (s.modTh f).outbox = s.outbox := rfl
@[simp] theorem State.hostWaits_modTh (s : State) (f : Thread → Thread) : (s.modTh f).hostWaits = s.hostWaits := rfl
@[simp] theorem State.agenda_modTh (s : State) (f : Thread → Thread) : (s.modTh f).agenda = s.agenda := rfl
@[simp] theorem State.due_modTh (s : State) (f : Thread → Thread) : (s.modTh f).due = s.due := rfl
@[simp] theorem State.core_modTh (s : State) (f : Thread → Thread) (k : Nat) : (s.modTh f).core k = s.core k := rfl
@[simp] theorem State.cluster_modTh (s : State) (f : Thread → Thread) (k : Nat) : (s.modTh f).cluster k = s.cluster k := rfl
@[simp] theorem State.field_modTh (s : State) (f : Thread → Thread) (k : Nat) : (s.modTh f).field k = s.field k := rfl
@[simp] theorem State.ctx_modTh (s : State) (f : Thread → Thread) (k : Nat) : (s.modTh f).ctx k = s.ctx k := rfl
@[simp] theorem State.homeOf_modTh (s : State) (f : Thread → Thread) (k : Nat) : (s.modTh f).homeOf k = s.homeOf k := rfl
@[simp] theorem State.me_modTh (s : State) (f : Thread → Thread) : (s.modTh f).me = s.me := rfl
@[simp] theorem State.mine_modTh (s : State) (f : Thread → Thread) : (s.modTh f).mine = s.mine := rfl

/-! ### modMe -/

@[simp] theorem State.slots_modMe (s : State) (f : Core → Core) : (s.modMe f).slots = s.slots := rfl
@[simp] theorem State.clusters_modMe (s : State) (f : Core → Core) : (s.modMe f).clusters = s.clusters := rfl
@[simp] theorem State.fields_modMe (s : State) (f : Core → Core) : (s.modMe f).fields = s.fields := rfl
@[simp] theorem State.ctxs_modMe (s : State) (f : Core → Core) : (s.modMe f).ctxs = s.ctxs := rfl
@[simp] theorem State.groups_modMe (s : State) (f : Core → Core) : (s.modMe f).groups = s.groups := rfl
@[simp] theorem State.launches_modMe (s : State) (f : Core → Core) : (s.modMe f).launches = s.launches := rfl
@[simp] theorem State.cur_modMe (s : State) (f : Core → Core) : (s.modMe f).cur = s.cur := rfl
@[simp] theorem State.cycle_modMe (s : State) (f : Core → Core) : (s.modMe f).cycle = s.cycle := rfl
@[simp] theorem State.acted_modMe (s : State) (f : Core → Core) : (s.modMe f).acted = s.acted := rfl
@[simp] theorem State.arbed_modMe (s : State) (f : Core → Core) : (s.modMe f).arbed = s.arbed := rfl
@[simp] theorem State.mem_modMe (s : State) (f : Core → Core) : (s.modMe f).mem = s.mem := rfl
@[simp] theorem State.home_modMe (s : State) (f : Core → Core) : (s.modMe f).home = s.home := rfl
@[simp] theorem State.performed_modMe (s : State) (f : Core → Core) : (s.modMe f).performed = s.performed := rfl
@[simp] theorem State.hrt_modMe (s : State) (f : Core → Core) : (s.modMe f).hrt = s.hrt := rfl
@[simp] theorem State.hba_modMe (s : State) (f : Core → Core) : (s.modMe f).hba = s.hba := rfl
@[simp] theorem State.hqOwner_modMe (s : State) (f : Core → Core) : (s.modMe f).hqOwner = s.hqOwner := rfl
@[simp] theorem State.hqWeight_modMe (s : State) (f : Core → Core) : (s.modMe f).hqWeight = s.hqWeight := rfl
@[simp] theorem State.nextLaunch_modMe (s : State) (f : Core → Core) : (s.modMe f).nextLaunch = s.nextLaunch := rfl
@[simp] theorem State.nextGroup_modMe (s : State) (f : Core → Core) : (s.modMe f).nextGroup = s.nextGroup := rfl
@[simp] theorem State.nextEntry_modMe (s : State) (f : Core → Core) : (s.modMe f).nextEntry = s.nextEntry := rfl
@[simp] theorem State.nextToken_modMe (s : State) (f : Core → Core) : (s.modMe f).nextToken = s.nextToken := rfl
@[simp] theorem State.nextThread_modMe (s : State) (f : Core → Core) : (s.modMe f).nextThread = s.nextThread := rfl
@[simp] theorem State.freeCtr_modMe (s : State) (f : Core → Core) : (s.modMe f).freeCtr = s.freeCtr := rfl
@[simp] theorem State.devId_modMe (s : State) (f : Core → Core) : (s.modMe f).devId = s.devId := rfl
@[simp] theorem State.ports_modMe (s : State) (f : Core → Core) : (s.modMe f).ports = s.ports := rfl
@[simp] theorem State.route_modMe (s : State) (f : Core → Core) : (s.modMe f).route = s.route := rfl
@[simp] theorem State.apertures_modMe (s : State) (f : Core → Core) : (s.modMe f).apertures = s.apertures := rfl
@[simp] theorem State.access_modMe (s : State) (f : Core → Core) : (s.modMe f).access = s.access := rfl
@[simp] theorem State.dieLinks_modMe (s : State) (f : Core → Core) : (s.modMe f).dieLinks = s.dieLinks := rfl
@[simp] theorem State.ecc_modMe (s : State) (f : Core → Core) : (s.modMe f).ecc = s.ecc := rfl
@[simp] theorem State.stackEcc_modMe (s : State) (f : Core → Core) : (s.modMe f).stackEcc = s.stackEcc := rfl
@[simp] theorem State.modl_modMe (s : State) (f : Core → Core) : (s.modMe f).modl = s.modl := rfl
@[simp] theorem State.saves_modMe (s : State) (f : Core → Core) : (s.modMe f).saves = s.saves := rfl
@[simp] theorem State.outbox_modMe (s : State) (f : Core → Core) : (s.modMe f).outbox = s.outbox := rfl
@[simp] theorem State.hostWaits_modMe (s : State) (f : Core → Core) : (s.modMe f).hostWaits = s.hostWaits := rfl
@[simp] theorem State.agenda_modMe (s : State) (f : Core → Core) : (s.modMe f).agenda = s.agenda := rfl
@[simp] theorem State.due_modMe (s : State) (f : Core → Core) : (s.modMe f).due = s.due := rfl
@[simp] theorem State.slot_modMe (s : State) (f : Core → Core) (k : Nat) : (s.modMe f).slot k = s.slot k := rfl
@[simp] theorem State.thread_modMe (s : State) (f : Core → Core) (k : Nat) : (s.modMe f).thread k = s.thread k := rfl
@[simp] theorem State.cluster_modMe (s : State) (f : Core → Core) (k : Nat) : (s.modMe f).cluster k = s.cluster k := rfl
@[simp] theorem State.field_modMe (s : State) (f : Core → Core) (k : Nat) : (s.modMe f).field k = s.field k := rfl
@[simp] theorem State.ctx_modMe (s : State) (f : Core → Core) (k : Nat) : (s.modMe f).ctx k = s.ctx k := rfl
@[simp] theorem State.homeOf_modMe (s : State) (f : Core → Core) (k : Nat) : (s.modMe f).homeOf k = s.homeOf k := rfl
@[simp] theorem State.th_modMe (s : State) (f : Core → Core) : (s.modMe f).th = s.th := rfl
@[simp] theorem State.mine_modMe (s : State) (f : Core → Core) : (s.modMe f).mine = s.mine := rfl

/-! ### modMine -/

@[simp] theorem State.slots_modMine (s : State) (f : Cluster → Cluster) : (s.modMine f).slots = s.slots := rfl
@[simp] theorem State.cores_modMine (s : State) (f : Cluster → Cluster) : (s.modMine f).cores = s.cores := rfl
@[simp] theorem State.fields_modMine (s : State) (f : Cluster → Cluster) : (s.modMine f).fields = s.fields := rfl
@[simp] theorem State.ctxs_modMine (s : State) (f : Cluster → Cluster) : (s.modMine f).ctxs = s.ctxs := rfl
@[simp] theorem State.groups_modMine (s : State) (f : Cluster → Cluster) : (s.modMine f).groups = s.groups := rfl
@[simp] theorem State.launches_modMine (s : State) (f : Cluster → Cluster) : (s.modMine f).launches = s.launches := rfl
@[simp] theorem State.cur_modMine (s : State) (f : Cluster → Cluster) : (s.modMine f).cur = s.cur := rfl
@[simp] theorem State.cycle_modMine (s : State) (f : Cluster → Cluster) : (s.modMine f).cycle = s.cycle := rfl
@[simp] theorem State.acted_modMine (s : State) (f : Cluster → Cluster) : (s.modMine f).acted = s.acted := rfl
@[simp] theorem State.arbed_modMine (s : State) (f : Cluster → Cluster) : (s.modMine f).arbed = s.arbed := rfl
@[simp] theorem State.mem_modMine (s : State) (f : Cluster → Cluster) : (s.modMine f).mem = s.mem := rfl
@[simp] theorem State.home_modMine (s : State) (f : Cluster → Cluster) : (s.modMine f).home = s.home := rfl
@[simp] theorem State.performed_modMine (s : State) (f : Cluster → Cluster) : (s.modMine f).performed = s.performed := rfl
@[simp] theorem State.hrt_modMine (s : State) (f : Cluster → Cluster) : (s.modMine f).hrt = s.hrt := rfl
@[simp] theorem State.hba_modMine (s : State) (f : Cluster → Cluster) : (s.modMine f).hba = s.hba := rfl
@[simp] theorem State.hqOwner_modMine (s : State) (f : Cluster → Cluster) : (s.modMine f).hqOwner = s.hqOwner := rfl
@[simp] theorem State.hqWeight_modMine (s : State) (f : Cluster → Cluster) : (s.modMine f).hqWeight = s.hqWeight := rfl
@[simp] theorem State.nextLaunch_modMine (s : State) (f : Cluster → Cluster) : (s.modMine f).nextLaunch = s.nextLaunch := rfl
@[simp] theorem State.nextGroup_modMine (s : State) (f : Cluster → Cluster) : (s.modMine f).nextGroup = s.nextGroup := rfl
@[simp] theorem State.nextEntry_modMine (s : State) (f : Cluster → Cluster) : (s.modMine f).nextEntry = s.nextEntry := rfl
@[simp] theorem State.nextToken_modMine (s : State) (f : Cluster → Cluster) : (s.modMine f).nextToken = s.nextToken := rfl
@[simp] theorem State.nextThread_modMine (s : State) (f : Cluster → Cluster) : (s.modMine f).nextThread = s.nextThread := rfl
@[simp] theorem State.freeCtr_modMine (s : State) (f : Cluster → Cluster) : (s.modMine f).freeCtr = s.freeCtr := rfl
@[simp] theorem State.devId_modMine (s : State) (f : Cluster → Cluster) : (s.modMine f).devId = s.devId := rfl
@[simp] theorem State.ports_modMine (s : State) (f : Cluster → Cluster) : (s.modMine f).ports = s.ports := rfl
@[simp] theorem State.route_modMine (s : State) (f : Cluster → Cluster) : (s.modMine f).route = s.route := rfl
@[simp] theorem State.apertures_modMine (s : State) (f : Cluster → Cluster) : (s.modMine f).apertures = s.apertures := rfl
@[simp] theorem State.access_modMine (s : State) (f : Cluster → Cluster) : (s.modMine f).access = s.access := rfl
@[simp] theorem State.dieLinks_modMine (s : State) (f : Cluster → Cluster) : (s.modMine f).dieLinks = s.dieLinks := rfl
@[simp] theorem State.ecc_modMine (s : State) (f : Cluster → Cluster) : (s.modMine f).ecc = s.ecc := rfl
@[simp] theorem State.stackEcc_modMine (s : State) (f : Cluster → Cluster) : (s.modMine f).stackEcc = s.stackEcc := rfl
@[simp] theorem State.modl_modMine (s : State) (f : Cluster → Cluster) : (s.modMine f).modl = s.modl := rfl
@[simp] theorem State.saves_modMine (s : State) (f : Cluster → Cluster) : (s.modMine f).saves = s.saves := rfl
@[simp] theorem State.outbox_modMine (s : State) (f : Cluster → Cluster) : (s.modMine f).outbox = s.outbox := rfl
@[simp] theorem State.hostWaits_modMine (s : State) (f : Cluster → Cluster) : (s.modMine f).hostWaits = s.hostWaits := rfl
@[simp] theorem State.agenda_modMine (s : State) (f : Cluster → Cluster) : (s.modMine f).agenda = s.agenda := rfl
@[simp] theorem State.due_modMine (s : State) (f : Cluster → Cluster) : (s.modMine f).due = s.due := rfl
@[simp] theorem State.slot_modMine (s : State) (f : Cluster → Cluster) (k : Nat) : (s.modMine f).slot k = s.slot k := rfl
@[simp] theorem State.thread_modMine (s : State) (f : Cluster → Cluster) (k : Nat) : (s.modMine f).thread k = s.thread k := rfl
@[simp] theorem State.core_modMine (s : State) (f : Cluster → Cluster) (k : Nat) : (s.modMine f).core k = s.core k := rfl
@[simp] theorem State.field_modMine (s : State) (f : Cluster → Cluster) (k : Nat) : (s.modMine f).field k = s.field k := rfl
@[simp] theorem State.ctx_modMine (s : State) (f : Cluster → Cluster) (k : Nat) : (s.modMine f).ctx k = s.ctx k := rfl
@[simp] theorem State.homeOf_modMine (s : State) (f : Cluster → Cluster) (k : Nat) : (s.modMine f).homeOf k = s.homeOf k := rfl
@[simp] theorem State.th_modMine (s : State) (f : Cluster → Cluster) : (s.modMine f).th = s.th := rfl
@[simp] theorem State.me_modMine (s : State) (f : Cluster → Cluster) : (s.modMine f).me = s.me := rfl

/-! ### Reading back what an update changed -/

theorem State.slot_modSlot (s : State) (n m : Nat) (f : Slot → Slot) :
    (s.modSlot n f).slot m = if m = n then f (s.slot n) else s.slot m := Tab.get_upd ..
theorem State.core_modCore (s : State) (n m : Nat) (f : Core → Core) :
    (s.modCore n f).core m = if m = n then f (s.core n) else s.core m := Tab.get_upd ..
theorem State.cluster_modCluster (s : State) (n m : Nat) (f : Cluster → Cluster) :
    (s.modCluster n f).cluster m = if m = n then f (s.cluster n) else s.cluster m := Tab.get_upd ..
theorem State.field_modField (s : State) (n m : Nat) (f : Field → Field) :
    (s.modField n f).field m = if m = n then f (s.field n) else s.field m := Tab.get_upd ..
theorem State.ctx_modCtx (s : State) (n m : Nat) (f : Ctx → Ctx) :
    (s.modCtx n f).ctx m = if m = n then f (s.ctx n) else s.ctx m := Tab.get_upd ..
theorem State.homeOf_modHome (s : State) (n m : Nat) (f : HomeLine → HomeLine) :
    (s.modHome n f).homeOf m = if m = n then f (s.homeOf n) else s.homeOf m := Tab.get_upd ..
theorem State.slot_modThread (s : State) (n m : Nat) (f : Thread → Thread) :
    (s.modThread n f).slot m = if m = n then { s.slot n with th := f (s.thread n) } else s.slot m :=
  State.slot_modSlot ..
theorem State.thread_modThread (s : State) (n m : Nat) (f : Thread → Thread) :
    (s.modThread n f).thread m = if m = n then f (s.thread n) else s.thread m := by
  unfold State.thread; rw [State.slot_modThread]; split <;> rfl
@[simp] theorem State.th_modTh (s : State) (f : Thread → Thread) : (s.modTh f).th = f s.th := by
  show (s.modThread s.cur f).thread s.cur = _; rw [State.thread_modThread]; simp; rfl
@[simp] theorem State.me_modMe (s : State) (f : Core → Core) : (s.modMe f).me = f s.me := by
  show (s.modCore (coreOf s.cur) f).core (coreOf s.cur) = _; rw [State.core_modCore]; simp; rfl
@[simp] theorem State.mine_modMine (s : State) (f : Cluster → Cluster) : (s.modMine f).mine = f s.mine := by
  show (s.modCluster (clusterOf s.cur) f).cluster (clusterOf s.cur) = _
  rw [State.cluster_modCluster]; simp; rfl

/-! ### owe -/

@[simp] theorem State.slots_owe (s : State) (j : Job) : (s.owe j).slots = s.slots := by
  unfold State.owe; split <;> rfl
@[simp] theorem State.cores_owe (s : State) (j : Job) : (s.owe j).cores = s.cores := by
  unfold State.owe; split <;> rfl
@[simp] theorem State.clusters_owe (s : State) (j : Job) : (s.owe j).clusters = s.clusters := by
  unfold State.owe; split <;> rfl
@[simp] theorem State.fields_owe (s : State) (j : Job) : (s.owe j).fields = s.fields := by
  unfold State.owe; split <;> rfl
@[simp] theorem State.ctxs_owe (s : State) (j : Job) : (s.owe j).ctxs = s.ctxs := by
  unfold State.owe; split <;> rfl
@[simp] theorem State.groups_owe (s : State) (j : Job) : (s.owe j).groups = s.groups := by
  unfold State.owe; split <;> rfl
@[simp] theorem State.launches_owe (s : State) (j : Job) : (s.owe j).launches = s.launches := by
  unfold State.owe; split <;> rfl
@[simp] theorem State.cur_owe (s : State) (j : Job) : (s.owe j).cur = s.cur := by
  unfold State.owe; split <;> rfl
@[simp] theorem State.cycle_owe (s : State) (j : Job) : (s.owe j).cycle = s.cycle := by
  unfold State.owe; split <;> rfl
@[simp] theorem State.acted_owe (s : State) (j : Job) : (s.owe j).acted = s.acted := by
  unfold State.owe; split <;> rfl
@[simp] theorem State.arbed_owe (s : State) (j : Job) : (s.owe j).arbed = s.arbed := by
  unfold State.owe; split <;> rfl
@[simp] theorem State.mem_owe (s : State) (j : Job) : (s.owe j).mem = s.mem := by
  unfold State.owe; split <;> rfl
@[simp] theorem State.home_owe (s : State) (j : Job) : (s.owe j).home = s.home := by
  unfold State.owe; split <;> rfl
@[simp] theorem State.performed_owe (s : State) (j : Job) : (s.owe j).performed = s.performed := by
  unfold State.owe; split <;> rfl
@[simp] theorem State.hrt_owe (s : State) (j : Job) : (s.owe j).hrt = s.hrt := by
  unfold State.owe; split <;> rfl
@[simp] theorem State.hba_owe (s : State) (j : Job) : (s.owe j).hba = s.hba := by
  unfold State.owe; split <;> rfl
@[simp] theorem State.hqOwner_owe (s : State) (j : Job) : (s.owe j).hqOwner = s.hqOwner := by
  unfold State.owe; split <;> rfl
@[simp] theorem State.hqWeight_owe (s : State) (j : Job) : (s.owe j).hqWeight = s.hqWeight := by
  unfold State.owe; split <;> rfl
@[simp] theorem State.nextLaunch_owe (s : State) (j : Job) : (s.owe j).nextLaunch = s.nextLaunch := by
  unfold State.owe; split <;> rfl
@[simp] theorem State.nextGroup_owe (s : State) (j : Job) : (s.owe j).nextGroup = s.nextGroup := by
  unfold State.owe; split <;> rfl
@[simp] theorem State.nextEntry_owe (s : State) (j : Job) : (s.owe j).nextEntry = s.nextEntry := by
  unfold State.owe; split <;> rfl
@[simp] theorem State.nextToken_owe (s : State) (j : Job) : (s.owe j).nextToken = s.nextToken := by
  unfold State.owe; split <;> rfl
@[simp] theorem State.nextThread_owe (s : State) (j : Job) : (s.owe j).nextThread = s.nextThread := by
  unfold State.owe; split <;> rfl
@[simp] theorem State.freeCtr_owe (s : State) (j : Job) : (s.owe j).freeCtr = s.freeCtr := by
  unfold State.owe; split <;> rfl
@[simp] theorem State.devId_owe (s : State) (j : Job) : (s.owe j).devId = s.devId := by
  unfold State.owe; split <;> rfl
@[simp] theorem State.ports_owe (s : State) (j : Job) : (s.owe j).ports = s.ports := by
  unfold State.owe; split <;> rfl
@[simp] theorem State.route_owe (s : State) (j : Job) : (s.owe j).route = s.route := by
  unfold State.owe; split <;> rfl
@[simp] theorem State.apertures_owe (s : State) (j : Job) : (s.owe j).apertures = s.apertures := by
  unfold State.owe; split <;> rfl
@[simp] theorem State.access_owe (s : State) (j : Job) : (s.owe j).access = s.access := by
  unfold State.owe; split <;> rfl
@[simp] theorem State.dieLinks_owe (s : State) (j : Job) : (s.owe j).dieLinks = s.dieLinks := by
  unfold State.owe; split <;> rfl
@[simp] theorem State.ecc_owe (s : State) (j : Job) : (s.owe j).ecc = s.ecc := by
  unfold State.owe; split <;> rfl
@[simp] theorem State.stackEcc_owe (s : State) (j : Job) : (s.owe j).stackEcc = s.stackEcc := by
  unfold State.owe; split <;> rfl
@[simp] theorem State.modl_owe (s : State) (j : Job) : (s.owe j).modl = s.modl := by
  unfold State.owe; split <;> rfl
@[simp] theorem State.saves_owe (s : State) (j : Job) : (s.owe j).saves = s.saves := by
  unfold State.owe; split <;> rfl
@[simp] theorem State.outbox_owe (s : State) (j : Job) : (s.owe j).outbox = s.outbox := by
  unfold State.owe; split <;> rfl
@[simp] theorem State.hostWaits_owe (s : State) (j : Job) : (s.owe j).hostWaits = s.hostWaits := by
  unfold State.owe; split <;> rfl
@[simp] theorem State.agenda_owe (s : State) (j : Job) : (s.owe j).agenda = s.agenda := by
  unfold State.owe; split <;> rfl
@[simp] theorem State.slot_owe (s : State) (j : Job) (k : Nat) : (s.owe j).slot k = s.slot k := by
  unfold State.owe; split <;> rfl
@[simp] theorem State.thread_owe (s : State) (j : Job) (k : Nat) : (s.owe j).thread k = s.thread k := by
  unfold State.owe; split <;> rfl
@[simp] theorem State.core_owe (s : State) (j : Job) (k : Nat) : (s.owe j).core k = s.core k := by
  unfold State.owe; split <;> rfl
@[simp] theorem State.cluster_owe (s : State) (j : Job) (k : Nat) : (s.owe j).cluster k = s.cluster k := by
  unfold State.owe; split <;> rfl
@[simp] theorem State.field_owe (s : State) (j : Job) (k : Nat) : (s.owe j).field k = s.field k := by
  unfold State.owe; split <;> rfl
@[simp] theorem State.ctx_owe (s : State) (j : Job) (k : Nat) : (s.owe j).ctx k = s.ctx k := by
  unfold State.owe; split <;> rfl
@[simp] theorem State.homeOf_owe (s : State) (j : Job) (k : Nat) : (s.owe j).homeOf k = s.homeOf k := by
  unfold State.owe; split <;> rfl
@[simp] theorem State.th_owe (s : State) (j : Job) : (s.owe j).th = s.th := by
  unfold State.owe; split <;> rfl
@[simp] theorem State.me_owe (s : State) (j : Job) : (s.owe j).me = s.me := by
  unfold State.owe; split <;> rfl
@[simp] theorem State.mine_owe (s : State) (j : Job) : (s.owe j).mine = s.mine := by
  unfold State.owe; split <;> rfl

end Sys2Proof.Machine
end

