-- ==== Sys2Proof/Laws/Memory.lean ====
section
/-! SUPPORT. What the memory operations do: a read after a write, and that every operation keeps the canonical form. -/

namespace Sys2Proof.Machine

theorem Memory.read_insert (m : List Host.Cell) (a : Nat) (b : Byte) (x : Nat) :
    Memory.read (Memory.insert m a b) x = if x = a then b else Memory.read m x := by
  induction m with
  | nil => simp [Memory.insert, Memory.read, eq_comm]
  | cons c r ih =>
    obtain ⟨k, c⟩ := c
    simp only [Memory.insert]
    split
    · by_cases h : x = a
      · simp [Memory.read, h]
      · simp [Memory.read, h, Ne.symm h]
    · split
      · next h => subst h; by_cases h : x = a <;> simp [Memory.read, h, Ne.symm]
      · simp only [Memory.read, ih]
        by_cases h : k = x <;> by_cases h' : x = a <;> simp_all

theorem Memory.read_erase (m : List Host.Cell) (a x : Nat) :
    Memory.read (Memory.erase m a) x = if x = a then Memory.empty else Memory.read m x := by
  induction m with
  | nil => simp [Memory.erase, Memory.read]
  | cons c r ih =>
    obtain ⟨k, c⟩ := c
    simp only [Memory.erase]
    split
    · next h => subst h; rw [ih]; by_cases h : x = k <;> simp [Memory.read, h, Ne.symm]
    · simp only [Memory.read, ih]
      by_cases h : k = x <;> by_cases h' : x = a <;> simp_all

/-- A byte reads as what was written to it last. -/
theorem Memory.read_write (m : List Host.Cell) (a : Nat) (b : Byte) (x : Nat) :
    Memory.read (Memory.write m a b) x = if x = a then b else Memory.read m x := by
  unfold Memory.write
  split
  · next h => rw [Memory.read_erase, h]
  · exact Memory.read_insert m a b x

theorem Memory.wfFrom_mono {lo lo' : Nat} {m : List Host.Cell} (h : Memory.wfFrom lo m = true) (l : lo' ≤ lo) :
    Memory.wfFrom lo' m = true := by
  cases m with
  | nil => rfl
  | cons c r => simp only [Memory.wfFrom, Bool.and_eq_true, decide_eq_true_eq] at h ⊢; exact ⟨⟨by omega, h.1.2⟩, h.2⟩

theorem Memory.wfFrom_insert {lo : Nat} {m : List Host.Cell} {a : Nat} {b : Byte} (h : Memory.wfFrom lo m = true)
    (l : lo ≤ a) (n : b ≠ Memory.empty) : Memory.wfFrom lo (Memory.insert m a b) = true := by
  induction m generalizing lo with
  | nil => simp [Memory.insert, Memory.wfFrom, l, n]
  | cons c r ih =>
    obtain ⟨k, c⟩ := c
    simp only [Memory.wfFrom, Bool.and_eq_true, decide_eq_true_eq, bne_iff_ne] at h
    simp only [Memory.insert]
    split
    · simp only [Memory.wfFrom, Bool.and_eq_true, decide_eq_true_eq, bne_iff_ne]
      exact ⟨⟨l, n⟩, ⟨by omega, h.1.2⟩, h.2⟩
    · split
      · simp only [Memory.wfFrom, Bool.and_eq_true, decide_eq_true_eq, bne_iff_ne]
        exact ⟨⟨l, n⟩, by simp_all⟩
      · simp only [Memory.wfFrom, Bool.and_eq_true, decide_eq_true_eq, bne_iff_ne]
        exact ⟨h.1, ih h.2 (by omega)⟩

theorem Memory.wfFrom_erase {lo : Nat} {m : List Host.Cell} (a : Nat) (h : Memory.wfFrom lo m = true) :
    Memory.wfFrom lo (Memory.erase m a) = true := by
  induction m generalizing lo with
  | nil => rfl
  | cons c r ih =>
    obtain ⟨k, c⟩ := c
    simp only [Memory.wfFrom, Bool.and_eq_true, decide_eq_true_eq, bne_iff_ne] at h
    simp only [Memory.erase]
    split
    · exact ih (Memory.wfFrom_mono h.2 (by omega))
    · simp only [Memory.wfFrom, Bool.and_eq_true, decide_eq_true_eq, bne_iff_ne]
      exact ⟨h.1, ih h.2⟩

/-- A write keeps the canonical form. -/
theorem Memory.wf_write {m : List Host.Cell} (a : Nat) (b : Byte) (h : Memory.wf m = true) :
    Memory.wf (Memory.write m a b) = true := by
  unfold Memory.write
  split
  · exact Memory.wfFrom_erase a h
  · next n => exact Memory.wfFrom_insert h (Nat.zero_le _) n

theorem Memory.wf_writeAll {m : List Host.Cell} (l : List Host.Cell) (h : Memory.wf m = true) :
    Memory.wf (Memory.writeAll m l) = true := by
  induction l generalizing m with
  | nil => exact h
  | cons c r ih => exact ih (Memory.wf_write c.1 c.2 h)

theorem Memory.wf_putNat {m : List Host.Cell} (a n v : Nat) (h : Memory.wf m = true) :
    Memory.wf (Memory.putNat m a n v) = true := Memory.wf_writeAll _ h

theorem Memory.wfFrom_filter {lo : Nat} {m : List Host.Cell} (p : Host.Cell → Bool) (h : Memory.wfFrom lo m = true) :
    Memory.wfFrom lo (m.filter p) = true := by
  induction m generalizing lo with
  | nil => rfl
  | cons c r ih =>
    obtain ⟨k, c⟩ := c
    simp only [Memory.wfFrom, Bool.and_eq_true, decide_eq_true_eq, bne_iff_ne] at h
    rw [List.filter_cons]
    split
    · simp only [Memory.wfFrom, Bool.and_eq_true, decide_eq_true_eq, bne_iff_ne]
      exact ⟨h.1, ih h.2⟩
    · exact ih (Memory.wfFrom_mono h.2 (by omega))

/-- Dropping bytes keeps the canonical form. -/
theorem Memory.wf_filter {m : List Host.Cell} (p : Host.Cell → Bool) (h : Memory.wf m = true) :
    Memory.wf (m.filter p) = true := Memory.wfFrom_filter p h

/-- R227: the bytes of a segment that leaves. -/
theorem wfFrom_segLeave (off : Nat) {lo : Nat} {m : List Host.Cell} (h : Memory.wfFrom lo m = true) :
    Memory.wfFrom (if lo < off then lo else if lo < off + segBytes then off else lo - segBytes) (segLeave off m) = true := by
  induction m generalizing lo with
  | nil => rfl
  | cons c r ih =>
    obtain ⟨k, c⟩ := c
    simp only [Memory.wfFrom, Bool.and_eq_true, decide_eq_true_eq, bne_iff_ne] at h
    have ht := ih h.2
    have hk := h.1.1
    unfold segLeave segBytes at ht ⊢
    by_cases h1 : k < off
    · simp only [List.filter_cons, h1, decide_true, Bool.true_or, if_true, List.map_cons, Memory.wfFrom, Bool.and_eq_true,
        decide_eq_true_eq, bne_iff_ne]
      refine ⟨⟨?_, h.1.2⟩, Memory.wfFrom_mono ht ?_⟩ <;> (repeat' split) <;> omega
    · by_cases h2 : off + 131072 ≤ k
      · simp only [List.filter_cons, h1, h2, decide_true, decide_false, Bool.or_true, if_true, List.map_cons, Memory.wfFrom,
          Bool.and_eq_true, decide_eq_true_eq, bne_iff_ne, if_false]
        refine ⟨⟨?_, h.1.2⟩, Memory.wfFrom_mono ht ?_⟩ <;> (repeat' split) <;> omega
      · simp only [List.filter_cons, h1, h2, decide_false, Bool.or_false, Bool.false_eq_true, if_false]
        refine Memory.wfFrom_mono ht ?_
        (repeat' split) <;> omega

theorem Memory.wf_segLeave (off : Nat) {m : List Host.Cell} (h : Memory.wf m = true) : Memory.wf (segLeave off m) = true :=
  Memory.wfFrom_mono (wfFrom_segLeave off h) (Nat.zero_le _)

/-- R227: the bytes of a segment that joins. -/
theorem wfFrom_segJoin (off : Nat) {lo : Nat} {m : List Host.Cell} (h : Memory.wfFrom lo m = true) :
    Memory.wfFrom (if lo < off then lo else lo + segBytes) (segJoin off m) = true := by
  induction m generalizing lo with
  | nil => rfl
  | cons c r ih =>
    obtain ⟨k, c⟩ := c
    simp only [Memory.wfFrom, Bool.and_eq_true, decide_eq_true_eq, bne_iff_ne] at h
    have ht := ih h.2
    have hk := h.1.1
    unfold segJoin segBytes at ht ⊢
    by_cases h1 : k < off
    · simp only [List.map_cons, h1, if_true, Memory.wfFrom, Bool.and_eq_true, decide_eq_true_eq, bne_iff_ne]
      refine ⟨⟨?_, h.1.2⟩, Memory.wfFrom_mono ht ?_⟩ <;> (repeat' split) <;> omega
    · simp only [List.map_cons, h1, if_false, Memory.wfFrom, Bool.and_eq_true, decide_eq_true_eq, bne_iff_ne]
      refine ⟨⟨?_, h.1.2⟩, Memory.wfFrom_mono ht ?_⟩ <;> (repeat' split) <;> omega

theorem Memory.wf_segJoin (off : Nat) {m : List Host.Cell} (h : Memory.wf m = true) : Memory.wf (segJoin off m) = true :=
  Memory.wfFrom_mono (wfFrom_segJoin off h) (Nat.zero_le _)

/-! ### HBM through the operations of the homes -/

theorem mem_foldl {α : Type} (f : State → α → State) (hf : ∀ s a, (f s a).mem = s.mem) (l : List α) (s : State) :
    (l.foldl f s).mem = s.mem := by
  induction l generalizing s with
  | nil => rfl
  | cons a r ih => exact (ih _).trans (hf s a)

theorem wf_foldl {α : Type} (f : State → α → State) (hf : ∀ s a, Memory.wf s.mem = true → Memory.wf (f s a).mem = true)
    (l : List α) (s : State) (h : Memory.wf s.mem = true) : Memory.wf (l.foldl f s).mem = true := by
  induction l generalizing s with
  | nil => exact h
  | cons a r ih => exact ih _ (hf s a h)

@[simp] theorem State.mem_modBypass (s : State) (cid line : Nat) (f : L1Line → L1Line) :
    (s.modBypass cid line f).mem = s.mem :=
  mem_foldl _ (fun s i => by split <;> simp) _ s

@[simp] theorem State.mem_clearEcc (s : State) (us : List EccAt) : (s.clearEcc us).mem = s.mem := by
  unfold State.clearEcc; split <;> rfl

@[simp] theorem State.mem_trace (s : State) (ev asid cl low : Nat) : (s.trace ev asid cl low).mem = s.mem := rfl

@[simp] theorem State.mem_revoke (s : State) (line : Nat) (keep : Option Nat) : (s.revoke line keep).mem = s.mem := by
  unfold State.revoke
  split
  · rfl
  · split
    · rfl
    · simp

/-- What a performed write does to memory. -/
@[simp] theorem State.mem_performWrite (s : State) (line : Nat) (cells : List Host.Cell) (clock : Nat) (who : Option Nat) :
    (s.performWrite line cells clock who).mem = Memory.writeAll s.mem cells := by
  simp only [State.performWrite]
  split <;> simp

@[simp] theorem State.mem_lookup (s : State) (a line : Nat) : (s.lookup a line).mem = s.mem := by
  simp only [State.lookup]
  split <;> rfl

@[simp] theorem State.mem_refreshBypass (s : State) (cid line : Nat) : (s.refreshBypass cid line).mem = s.mem := by
  simp [State.refreshBypass]

@[simp] theorem State.mem_refreshCopy (s : State) (cid line : Nat) : (s.refreshCopy cid line).mem = s.mem := by
  unfold State.refreshCopy
  extract_lets u
  have h : u.mem = s.mem := by
    simp only [u]; split
    · exact s.mem_refreshBypass cid line
    · rfl
  split
  · exact h
  · exact (State.mem_clearEcc _ _).trans h

@[simp] theorem State.mem_carry (s : State) (line : Nat) (cells : List Host.Cell) (rels : List Rel) :
    (s.carry line cells rels).mem = s.mem := by
  simp only [State.carry]; repeat' split
  all_goals rfl

/-- An unreadable unit of HBM reads as zeros from then on. -/
theorem State.wf_zeroUnit (s : State) (u : EccAt) (h : Memory.wf s.mem = true) : Memory.wf (s.zeroUnit u).mem = true := by
  cases u <;> simp only [State.zeroUnit, State.mem_modCluster, State.mem_modCore] <;>
    first | exact Memory.wf_writeAll _ h | exact h

@[simp] theorem State.mem_corrected (s : State) (u : EccAt) : (s.corrected u).mem = s.mem := by
  cases u <;> simp [State.corrected]

theorem State.wf_readUnit (s : State) (u : EccAt) (a addr : Nat) (eng ma : Bool) (h : Memory.wf s.mem = true) :
    Memory.wf (s.readUnit u a addr eng ma).mem = true := by
  simp only [State.readUnit]
  split
  · exact h
  · split
    · rw [State.mem_owe]; exact State.wf_zeroUnit _ _ h
    · rw [State.mem_corrected]; exact h

/-- A read of a line at its home keeps the canonical form. -/
theorem State.wf_readLine (s : State) (line a addr : Nat) (eng ma : Bool) (h : Memory.wf s.mem = true) :
    Memory.wf (s.readLine line a addr eng ma).mem = true := by
  unfold State.readLine
  split
  · exact h
  · split <;> exact State.wf_readUnit _ _ _ _ _ _ h

/-- A drain of the store-combining buffer writes the entry's bytes. -/
theorem State.wf_drainComb (s : State) (cid line : Nat) (h : Memory.wf s.mem = true) :
    Memory.wf (s.drainComb cid line).mem = true := by
  simp only [State.drainComb]
  split
  · exact h
  · rw [State.mem_refreshCopy]
    split <;> simpa using Memory.wf_writeAll _ h

theorem State.wf_mergeUnits (s : State) (line actx : Nat) (l : List UpdUnit) (h : Memory.wf s.mem = true) :
    Memory.wf (s.mergeUnits line actx l).mem = true := by
  induction l generalizing s with
  | nil => exact h
  | cons u r ih => exact ih _ (by simpa using Memory.wf_writeAll _ (State.wf_readLine _ _ _ _ _ _ h))

/-- A merge of updates keeps the canonical form. -/
theorem State.wf_mergeLine (s : State) (cid line : Nat) (h : Memory.wf s.mem = true) :
    Memory.wf (s.mergeLine cid line).mem = true := by
  simp only [State.mergeLine]
  split
  · exact h
  · rw [State.mem_trace, State.mem_refreshCopy]
    exact State.wf_mergeUnits _ _ _ _ (by simpa using h)

theorem State.wf_mergeAll (s : State) (line : Nat) (h : Memory.wf s.mem = true) :
    Memory.wf (s.mergeAll line).mem = true :=
  wf_foldl _ (fun s p k => s.wf_mergeLine p.1 line k) _ s h

/-- A stream's push writes its elements' bytes. -/
theorem State.wf_performPush (s : State) (a cid : Nat) (d : Push) (h : Memory.wf s.mem = true) :
    Memory.wf (s.performPush a cid d).mem = true := by
  unfold State.performPush
  split
  · exact h
  · simpa using Memory.wf_writeAll _ h

/-- The draining of a thread's stream writes keeps the canonical form. -/
theorem State.wf_performDrains (s : State) (sid : Nat) (h : Memory.wf s.mem = true) :
    Memory.wf (s.performDrains sid).mem = true :=
  wf_foldl _ (fun s d k => s.wf_performPush _ _ d k) _ _ h

/-- The pool of save regions is written as all of HBM. -/
theorem State.wf_poolWrite (s : State) (a : Nat) (b : List Byte) (h : Memory.wf s.mem = true) :
    Memory.wf (s.poolWrite a b).mem = true :=
  wf_foldl _ (fun s i k => by simpa using Memory.wf_writeAll _ k) _ s h

theorem State.wf_streamOut (s : State) (i : Nat) (cells : List Host.Cell) (h : Memory.wf s.mem = true) :
    Memory.wf (s.streamOut i cells).mem = true := by
  unfold State.streamOut
  exact wf_foldl _ (fun s l k => by simpa using Memory.wf_writeAll _ k) _ s h

/-- A window of memory is a memory in canonical form, whatever it is cut from. -/
theorem Memory.wf_window (m : List Host.Cell) (a n : Nat) : Memory.wf (Memory.window m a n) = true :=
  Memory.wf_writeAll _ rfl

/-- The memory after reset is in canonical form. -/
theorem reset_memory_wf : Memory.wf State.reset.mem = true := rfl

end Sys2Proof.Machine
end

