-- ==== Sys2Proof/Laws/Regs.lean ====
section
/-! SUPPORT. Reading and writing registers, and what the shared frame of instructions does when its checks pass. -/

namespace Sys2Proof.Machine

/-! ### Registers -/

theorem reg_idx {r d : BitVec 6} (hc : isC r = isC d) (h : r.toNat % 32 = d.toNat % 32) : r = d := by
  apply BitVec.eq_of_toNat_eq
  simp only [isC, BitVec.getLsbD, Nat.testBit_eq_decide_div_mod_eq] at hc
  have := r.isLt; have := d.isLt
  simp at hc
  omega

@[simp] theorem State.cur_disarm (s : State) (d : BitVec 6) : (s.disarm d).cur = s.cur := by
  unfold State.disarm; split <;> split <;> rfl

theorem State.th_disarm (s : State) (d : BitVec 6) :
    (s.disarm d).th = if isC d then s.th else { s.th with xarm := vwr s.th.xarm d.toNat {} } := by
  unfold State.disarm; split <;> split <;> simp

/-- R165: what disarming a register does to the core. -/
theorem State.me_disarm (s : State) (d : BitVec 6) :
    (s.disarm d).me = { s.me with
      carm := if isC d then vwr s.me.carm d.toNat {} else s.me.carm
      disarmed := if (s.armOf d).st = .unarmed then s.me.disarmed else armNo s.cur d :: s.me.disarmed } := by
  unfold State.disarm
  by_cases h : (s.armOf d).st = .unarmed <;> by_cases hc : isC d = true <;> simp [h, hc]

@[simp] theorem State.cur_setX (s : State) (d : BitVec 6) (v : Word) : (s.setX d v).cur = s.cur := by
  unfold State.setX State.putX; dsimp only; split <;> exact s.cur_disarm d

theorem State.th_setX (s : State) (d : BitVec 6) (v : Word) :
    (s.setX d v).th = if isC d then s.th else { s.th with
      x := vwr s.th.x d.toNat v, xarm := vwr s.th.xarm d.toNat {} } := by
  unfold State.setX State.putX; dsimp only; split <;> simp [State.th_disarm, *]

theorem State.me_setX (s : State) (d : BitVec 6) (v : Word) :
    (s.setX d v).me = if isC d then { (s.disarm d).me with
      c := vwr s.me.c d.toNat v, ctime := vwr s.me.ctime d.toNat s.th.clock,
      wrote := (d.toNat % 32, 16) :: s.me.wrote } else (s.disarm d).me := by
  unfold State.setX State.putX; dsimp only; split <;> simp [State.me_disarm, State.th_disarm, *]

/-- R47, R165: reading a register after a write. -/
theorem State.xr_setX (s : State) (d r : BitVec 6) (v : Word) :
    (s.setX d v).xr r = if r = d then v else s.xr r := by
  unfold State.xr
  rw [State.th_setX, State.me_setX, State.me_disarm]
  by_cases hd : isC d = true <;> by_cases hr : isC r = true
  · simp only [hd, hr, if_true, vrd_vwr]
    by_cases h : r = d
    · simp [h]
    · rw [if_neg h, if_neg (fun e => h (reg_idx (hr.trans hd.symm) e))]
  · have h : r ≠ d := fun e => hr (e ▸ hd)
    simp [hd, hr, h]
  · have h : r ≠ d := fun e => hd (e ▸ hr)
    simp [hd, hr, h]
  · simp only [hd, hr, Bool.false_eq_true, if_false, vrd_vwr]
    by_cases h : r = d
    · simp [h]
    · rw [if_neg h, if_neg (fun e => h (reg_idx (by simp [hd, hr]) e))]

/-- R165: a write leaves the register UNARMED. -/
theorem State.armOf_setX (s : State) (d r : BitVec 6) (v : Word) :
    (s.setX d v).armOf r = if r = d then {} else s.armOf r := by
  unfold State.armOf
  rw [State.th_setX, State.me_setX, State.me_disarm]
  by_cases hd : isC d = true <;> by_cases hr : isC r = true
  · simp only [hd, hr, if_true, vrd_vwr]
    by_cases h : r = d
    · simp [h]
    · rw [if_neg h, if_neg (fun e => h (reg_idx (hr.trans hd.symm) e))]
  · have h : r ≠ d := fun e => hr (e ▸ hd)
    simp [hd, hr, h]
  · have h : r ≠ d := fun e => hd (e ▸ hr)
    simp [hd, hr, h]
  · simp only [hd, hr, Bool.false_eq_true, if_false, vrd_vwr]
    by_cases h : r = d
    · simp [h]
    · rw [if_neg h, if_neg (fun e => h (reg_idx (by simp [hd, hr]) e))]

/-! ### What the parts of the frame leave -/

theorem State.OnlyRegs.refl (s : State) : s.OnlyRegs s [] [] :=
  ⟨rfl, fun _ _ => rfl, fun _ _ => rfl, rfl, rfl, rfl, fun _ _ => rfl, fun _ _ => rfl, fun _ _ _ => rfl, fun _ => rfl⟩

theorem State.OnlyRegs.cur_eq {s t : State} {rs ds} (h : s.OnlyRegs t rs ds) : t.cur = s.cur := by rw [h.device]

theorem State.OnlyRegs.trans {s t u : State} {r₁ d₁ r₂ d₂} (h : s.OnlyRegs t r₁ d₁) (k : t.OnlyRegs u r₂ d₂) :
    s.OnlyRegs u (r₁ ++ r₂) (d₁ ++ d₂) where
  device := by rw [k.device, h.device]
  slots := fun i hi => (k.slots i (by rw [h.cur_eq]; exact hi)).trans (h.slots i hi)
  cores := fun i hi => (k.cores i (by rw [h.cur_eq]; exact hi)).trans (h.cores i hi)
  slot := by
    have a := k.slot; rw [h.cur_eq] at a; rw [a, h.slot]
  thread := k.thread.trans (by rw [h.thread])
  core := k.core.trans (by rw [h.core])
  status := fun i hi => (k.status i hi).trans (h.status i hi)
  regs := fun r hr => by
    simp only [List.mem_append, not_or] at hr
    exact (k.regs r hr.2).trans (h.regs r hr.1)
  arms := fun r hr hd => by
    simp only [List.mem_append, not_or] at hr hd
    exact (k.arms r hr.2 hd.2).trans (h.arms r hr.1 hd.1)
  memory := fun a => (k.memory a).trans (h.memory a)

theorem State.OnlyRegs.mono {s t : State} {r₁ d₁ r₂ d₂} (h : s.OnlyRegs t r₁ d₁) (hr : ∀ r ∈ r₁, r ∈ r₂)
    (hd : ∀ r ∈ d₁, r ∈ d₂) : s.OnlyRegs t r₂ d₂ :=
  { h with
    regs := fun r hn => h.regs r (fun e => hn (hd r e))
    arms := fun r hn hm => h.arms r (fun e => hn (hr r e)) (fun e => hm (hd r e)) }

/-- A change of the issuing thread within its frame. -/
theorem State.onlyRegs_modTh (s : State) (f : Thread → Thread) (rs ds : List (BitVec 6))
    (ht : f s.th = { s.th with
      x := (f s.th).x, xarm := (f s.th).xarm, st := (f s.th).st, pc := (f s.th).pc, rtcCount := (f s.th).rtcCount,
      clock := (f s.th).clock, floor := (f s.th).floor, strongFloor := (f s.th).strongFloor, heavy := (f s.th).heavy,
      prefixLatch := (f s.th).prefixLatch, nrBefore := (f s.th).nrBefore, behind := (f s.th).behind })
    (hs : ∀ k, k ≠ 0 → stBit (f s.th).st k = stBit s.th.st k)
    (hx : ∀ r, r ∉ ds → (s.modTh f).xr r = s.xr r)
    (ha : ∀ r, r ∉ rs → r ∉ ds → (s.modTh f).armOf r = s.armOf r) : s.OnlyRegs (s.modTh f) rs ds where
  device := rfl
  slots := fun i hi => by show (s.modThread s.cur f).slot i = _; rw [State.slot_modThread, if_neg hi]
  cores := fun _ _ => rfl
  slot := by
    show (s.modThread s.cur f).slot s.cur = _
    rw [State.slot_modThread, if_pos rfl, State.th_modTh]; rfl
  thread := by rw [State.th_modTh]; exact ht
  core := by simp
  status := by rw [State.th_modTh]; exact hs
  regs := hx
  arms := ha
  memory := fun _ => rfl

/-- A change of the issuing thread's core within the frame. -/
theorem State.onlyRegs_modMe (s : State) (f : Core → Core) (rs ds : List (BitVec 6))
    (hc : f s.me = { s.me with
      c := (f s.me).c, carm := (f s.me).carm, ctime := (f s.me).ctime, wrote := (f s.me).wrote,
      disarmed := (f s.me).disarmed, da := (f s.me).da, nrAt := (f s.me).nrAt })
    (hx : ∀ r, r ∉ ds → (s.modMe f).xr r = s.xr r)
    (ha : ∀ r, r ∉ rs → r ∉ ds → (s.modMe f).armOf r = s.armOf r) : s.OnlyRegs (s.modMe f) rs ds where
  device := rfl
  slots := fun _ _ => rfl
  cores := fun i hi => by show (s.modCore _ f).core i = _; rw [State.core_modCore, if_neg hi]
  slot := by simp [State.th_modMe]; rfl
  thread := by simp
  core := by rw [State.me_modMe]; exact hc
  status := fun _ _ => by simp
  regs := hx
  arms := ha
  memory := fun _ => rfl

theorem State.xr_of (s t : State) (r : BitVec 6) (hx : t.th.x = s.th.x) (hc : t.me.c = s.me.c) : t.xr r = s.xr r := by
  unfold State.xr; rw [hx, hc]

theorem State.armOf_of (s t : State) (r : BitVec 6) (hx : t.th.xarm = s.th.xarm) (hc : t.me.carm = s.me.carm) :
    t.armOf r = s.armOf r := by
  unfold State.armOf; rw [hx, hc]

theorem State.onlyRegs_settle (s : State) : s.OnlyRegs s.settleDelay [] [] := by
  unfold State.settleDelay
  split
  · exact .refl s
  · exact s.onlyRegs_modMe _ _ _ rfl (fun r _ => State.xr_of _ _ _ (by simp) (by simp))
      (fun r _ _ => State.armOf_of _ _ _ (by simp) (by simp))

theorem armOf_modMe_carm (s : State) (q r : BitVec 6) (a : ArmSt) (hq : isC q = true) (h : r ≠ q) :
    (s.modMe (fun k => { k with carm := vwr k.carm q.toNat a })).armOf r = s.armOf r := by
  unfold State.armOf; simp only [State.me_modMe, State.th_modMe]
  split
  · next hr => rw [vrd_vwr, if_neg (fun e => h (reg_idx (hr.trans hq.symm) e))]
  · rfl

theorem armOf_modTh_xarm (s : State) (q r : BitVec 6) (a : ArmSt) (hq : ¬ isC q = true) (h : r ≠ q) :
    (s.modTh (fun k => { k with xarm := vwr k.xarm q.toNat a })).armOf r = s.armOf r := by
  unfold State.armOf; simp only [State.th_modTh, State.me_modTh]
  split
  · rfl
  · next hr => rw [vrd_vwr, if_neg (fun e => h (reg_idx (by simp at hr hq; rw [hr, hq]) e))]

theorem State.onlyRegs_disarm (s : State) (d : BitVec 6) : s.OnlyRegs (s.disarm d) [] [d] := by
  unfold State.disarm
  extract_lets n s1
  have h1 : s.OnlyRegs s1 [] [] := by
    simp only [s1]; split
    · exact .refl s
    · exact s.onlyRegs_modMe _ _ _ rfl (fun r _ => State.xr_of _ _ _ (by simp) (by simp))
        (fun r _ _ => State.armOf_of _ _ _ (by simp) (by simp))
  clear_value s1
  refine (h1.trans (r₂ := []) (d₂ := [d]) ?_).mono (by simp) (by simp)
  split
  · next hd =>
    exact s1.onlyRegs_modMe _ _ _ rfl (fun r _ => State.xr_of _ _ _ (by simp) (by simp))
      (fun r _ hr => armOf_modMe_carm _ _ _ _ hd (by simpa using hr))
  · next hd =>
    exact s1.onlyRegs_modTh _ _ _ rfl (fun _ _ => rfl) (fun r _ => State.xr_of _ _ _ (by simp) (by simp))
      (fun r _ hr => armOf_modTh_xarm _ _ _ _ hd (by simpa using hr))

theorem State.onlyRegs_setX (s : State) (d : BitVec 6) (v : Word) : s.OnlyRegs (s.setX d v) [] [d] := by
  have hx : ∀ r, r ∉ [d] → (s.setX d v).xr r = (s.disarm d).xr r := fun r hr => by
    rw [State.xr_setX, if_neg (by simpa using hr), (s.onlyRegs_disarm d).regs r hr]
  have ha : ∀ r, r ∉ ([] : List (BitVec 6)) → r ∉ [d] → (s.setX d v).armOf r = (s.disarm d).armOf r := fun r h hr => by
    rw [State.armOf_setX, if_neg (by simpa using hr), (s.onlyRegs_disarm d).arms r h hr]
  have h2 : (s.disarm d).OnlyRegs (s.setX d v) [] [d] := by
    unfold State.setX State.putX at hx ha ⊢
    dsimp only at hx ha ⊢
    split at hx
    · next h => simp only [h, if_true] at hx ha ⊢; exact (s.disarm d).onlyRegs_modMe _ _ _ rfl hx ha
    · next h => simp only [h] at hx ha ⊢; exact (s.disarm d).onlyRegs_modTh _ _ _ rfl (fun _ _ => rfl) hx ha
  exact ((s.onlyRegs_disarm d).trans h2).mono (by simp) (by simp)

theorem State.onlyRegs_strongRead (s : State) (t : Nat) : s.OnlyRegs (s.strongRead t) [] [] :=
  s.onlyRegs_modTh _ _ _ rfl (fun _ _ => rfl) (fun r _ => State.xr_of _ _ _ (by simp) (by simp))
    (fun r _ _ => State.armOf_of _ _ _ (by simp) (by simp))

theorem State.onlyRegs_acquire (s : State) (rels : List Rel) : s.OnlyRegs (s.acquire rels) [] [] := by
  unfold State.acquire
  split
  · exact .refl s
  · dsimp only
    generalize s.acquirable rels s.cur = l
    by_cases hl : l.isEmpty = true
    · have e : ∀ h : Thread, h.acquire l = h := fun h => by unfold Thread.acquire; rw [if_pos hl]
      exact s.onlyRegs_modTh _ _ _ (by rw [e]) (fun _ _ => by rw [e])
        (fun r _ => State.xr_of _ _ _ (by rw [State.th_modTh, e]) (by simp))
        (fun r _ _ => State.armOf_of _ _ _ (by rw [State.th_modTh, e]) (by simp))
    · have e : ∀ h : Thread, h.acquire l = { h with
          floor := max h.floor (maxOf (l.map (·.upto))), behind := uniq (l.flatMap (·.uids) ++ h.behind) } := fun h => by
        unfold Thread.acquire; rw [if_neg hl]
      exact s.onlyRegs_modTh _ _ _ (by rw [e]) (fun _ _ => by rw [e])
        (fun r _ => State.xr_of _ _ _ (by rw [State.th_modTh, e]) (by simp))
        (fun r _ _ => State.armOf_of _ _ _ (by rw [State.th_modTh, e]) (by simp))

/-- R164: reading a register at a ready outcome changes at most its arming state. -/
theorem State.onlyRegs_takeReg (s : State) (q : BitVec 6) : s.OnlyRegs (s.takeReg q) [q] [] := by
  unfold State.takeReg
  extract_lets a s1 a' s2
  have h1 : s.OnlyRegs s1 [] [] := by
    simp only [s1]; split
    · exact s.onlyRegs_strongRead _
    · exact .refl s
  split
  · have h12 : s.OnlyRegs s2 [] [] := (h1.trans (s1.onlyRegs_strongRead _)).trans (State.onlyRegs_acquire _ _)
    split
    · next hq =>
      exact h12.trans (s2.onlyRegs_modMe _ [q] [] rfl (fun r _ => State.xr_of _ _ _ (by simp) (by simp))
        (fun r hr _ => armOf_modMe_carm _ _ _ _ hq (by simpa using hr)))
    · next hq =>
      exact h12.trans (s2.onlyRegs_modTh _ [q] [] rfl (fun _ _ => rfl) (fun r _ => State.xr_of _ _ _ (by simp) (by simp))
        (fun r hr _ => armOf_modTh_xarm _ _ _ _ hq (by simpa using hr)))
  · exact h1.mono (by simp) (by simp)

theorem State.onlyRegs_takeRegs (s : State) (rs : List (BitVec 6)) : s.OnlyRegs (s.takeRegs rs) rs [] := by
  induction rs generalizing s with
  | nil => exact .refl s
  | cons r rs ih =>
    unfold State.takeRegs
    split
    · exact (ih s).mono (by simp +contextual) (by simp)
    · exact ((s.onlyRegs_takeReg r).trans (ih _)).mono (by simp) (by simp)

/-- The start of an instruction's own effect reads registers and nothing else. -/
theorem Use.onlyRegs_start (u : Use) (s : State) : s.OnlyRegs (u.start s) u.reads [] := by
  unfold Use.start
  extract_lets s1 s2
  have h1 : s.OnlyRegs s1 [] [] := s.onlyRegs_settle
  have h2 : s1.OnlyRegs s2 [] [] := by
    simp only [s2]; split
    · exact s1.onlyRegs_modTh _ _ _ rfl (fun _ _ => rfl) (fun r _ => State.xr_of _ _ _ (by simp) (by simp))
        (fun r _ _ => State.armOf_of _ _ _ (by simp) (by simp))
    · exact .refl _
  exact ((h1.trans h2).trans (State.onlyRegs_takeRegs _ _)).mono (by simp) (by simp)

theorem stBit_stSet_ne (st : Word) (j k : Nat) (b : Bool) (h : k ≠ j) : stBit (stSet st j b) k = stBit st k := by
  unfold stBit stSet
  split
  · simp only [BitVec.getLsbD_or, BitVec.getLsbD_shiftLeft, BitVec.getLsbD_one]
    have : ¬ (k - j = 0 ∧ ¬ k < j) := by omega
    by_cases hk : k < j
    · simp [hk]
    · have : k - j ≠ 0 := by omega
      simp [this]
  · simp only [BitVec.getLsbD_and, BitVec.getLsbD_not, BitVec.getLsbD_shiftLeft, BitVec.getLsbD_one]
    by_cases h64 : k < 64
    · by_cases hk : k < j
      · simp [hk, h64]
      · have : k - j ≠ 0 := by omega
        simp [this, h64]
    · simp [BitVec.getLsbD_of_ge _ _ (Nat.le_of_not_lt h64)]

theorem stBit_stSet (st : Word) (j : Nat) (b : Bool) (h : j < 64) : stBit (stSet st j b) j = b := by
  unfold stBit stSet
  cases b <;> simp [h]

theorem State.onlyRegs_advance (s : State) (n : Nat) : s.OnlyRegs (s.advance n) [] [] :=
  s.onlyRegs_modTh _ _ _ rfl (fun k hk => stBit_stSet_ne _ _ _ _ hk)
    (fun r _ => State.xr_of _ _ _ (by simp [Thread.ready]) (by simp))
    (fun r _ _ => State.armOf_of _ _ _ (by simp [Thread.ready]) (by simp))

theorem State.onlyRegs_jump (s : State) (t : Word) : s.OnlyRegs (s.jump t) [] [] :=
  s.onlyRegs_modTh _ _ _ rfl (fun k hk => stBit_stSet_ne _ _ _ _ hk)
    (fun r _ => State.xr_of _ _ _ (by simp [Thread.ready]) (by simp))
    (fun r _ _ => State.armOf_of _ _ _ (by simp [Thread.ready]) (by simp))

theorem State.goesOn_advance (s : State) (n : Nat) : (s.advance n).goesOn (s.th.pc + w64 n) := by
  unfold State.goesOn State.advance
  rw [State.th_modTh]
  exact ⟨rfl, stBit_stSet _ _ _ (by decide)⟩

theorem State.goesOn_jump (s : State) (t : Word) : (s.jump t).goesOn t := by
  unfold State.goesOn State.jump
  rw [State.th_modTh]
  exact ⟨rfl, stBit_stSet _ _ _ (by decide)⟩

/-! ### The pc where it does not move -/

@[simp] theorem State.pc_setX (s : State) (d : BitVec 6) (v : Word) : (s.setX d v).th.pc = s.th.pc := by
  rw [State.th_setX]; split <;> rfl

@[simp] theorem State.pc_settle (s : State) : s.settleDelay.th.pc = s.th.pc := by
  unfold State.settleDelay; split <;> simp

@[simp] theorem State.pc_strongRead (s : State) (t : Nat) : (s.strongRead t).th.pc = s.th.pc := by
  simp [State.strongRead]

@[simp] theorem State.pc_acquire (s : State) (rels : List Rel) : (s.acquire rels).th.pc = s.th.pc := by
  unfold State.acquire Thread.acquire; split
  · rfl
  · simp only [State.th_modTh]; split <;> rfl

@[simp] theorem State.pc_takeReg (s : State) (q : BitVec 6) : (s.takeReg q).th.pc = s.th.pc := by
  unfold State.takeReg
  extract_lets a s1 a' s2
  have h1 : s1.th.pc = s.th.pc := by simp only [s1]; split <;> simp
  have h2 : s2.th.pc = s.th.pc := by simp [s2, h1]
  split
  · split <;> simp [h2]
  · exact h1

@[simp] theorem State.pc_takeRegs (s : State) (rs : List (BitVec 6)) : (s.takeRegs rs).th.pc = s.th.pc := by
  induction rs generalizing s with
  | nil => rfl
  | cons r rs ih => unfold State.takeRegs; split <;> simp [ih]

@[simp] theorem Use.pc_start (u : Use) (s : State) : (u.start s).th.pc = s.th.pc := by
  unfold Use.start; extract_lets s1 s2
  have h2 : s2.th.pc = s.th.pc := by
    simp only [s2]; split <;> simp [s1]
  simp [h2]

/-- Registers read as before at the start of the effect. -/
@[simp] theorem Use.xr_start (u : Use) (s : State) (r : BitVec 6) : (u.start s).xr r = s.xr r :=
  (u.onlyRegs_start s).regs r (by simp)

@[simp] theorem Use.cur_start (u : Use) (s : State) : (u.start s).cur = s.cur := (u.onlyRegs_start s).cur_eq

theorem Use.stBit_start (u : Use) (s : State) (k : Nat) (h : k ≠ 0) : stBit (u.start s).th.st k = stBit s.th.st k :=
  (u.onlyRegs_start s).status k h

/-! ### The checks -/

theorem Use.pending_none {u : Use} {s : State} (h : s.unheld u.names) : u.pending s.th = none := by
  unfold Use.pending
  rw [List.findSome?_eq_none_iff]
  intro r hr
  rw [h.1 r hr]; rfl

theorem Use.awaiting_nil {u : Use} {s : State} (h : s.arrived u.reads) : u.awaiting s = [] := by
  unfold Use.awaiting
  rw [List.filter_eq_nil_iff]
  intro r hr
  simpa using h r hr

/-- R185, R231: where no vector store waits, nothing waits for one. -/
theorem State.afterLate_of {s : State} (h : s.th.lateWaits = false) (r : Res) : s.afterLate r = r := by
  unfold State.afterLate
  cases r <;> simp [h]

theorem Use.ordered_of {u : Use} {s : State} (hn : s.unheld u.names) (hl : u.after = true → s.th.lateWaits = false)
    (body : State → Res) : u.ordered s body = body (u.start s) := by
  simp only [Use.ordered]
  split
  · next h =>
    rw [Bool.or_eq_true] at h
    exact State.afterLate_of (h.elim hl hn.2) _
  · rfl

/-- R328, R132, R75, R185: with every check passed, an instruction is its own effect. -/
theorem Use.run_of (u : Use) (s : State) (body : State → Res)
    (hf : ∀ f, u.feat = some f → s.granted f) (hk : u.kern = true → s.th.kern = true)
    (hn : s.unheld u.names) (hl : u.after = true → s.th.lateWaits = false) (ha : s.arrived u.reads) :
    u.run s body = u.finish s (body (u.start s)) := by
  unfold Use.run
  rw [Use.pending_none hn, Use.awaiting_nil ha, if_neg, if_neg]
  · exact congrArg (u.finish s) (u.ordered_of hn hl body)
  · cases hu : u.kern with
    | false => simp
    | true => simp [hk hu]
  · cases hu : u.feat with
    | none => simp
    | some f => have h := hf f hu; unfold State.granted at h; simp [h]

/-- What an instruction that writes one scalar register does once its checks pass: it completes, the register holds the
value and is UNARMED, the thread goes on, and nothing else has changed. -/
theorem Use.wrote_one (u : Use) (s : State) (d : BitVec 6) (v : Word) :
    (((u.start s).setX d v).advance u.size).xr d = v ∧
    ((((u.start s).setX d v).advance u.size).armOf d).st = .unarmed ∧
    (((u.start s).setX d v).advance u.size).goesOn (s.th.pc + w64 u.size) ∧
    s.OnlyRegs (((u.start s).setX d v).advance u.size) u.reads [d] := by
  have ha := State.onlyRegs_advance ((u.start s).setX d v) u.size
  refine ⟨?_, ?_, ?_, ?_⟩
  · rw [ha.regs d (by simp), State.xr_setX, if_pos rfl]
  · rw [ha.arms d (by simp) (by simp), State.armOf_setX, if_pos rfl]
  · have h := State.goesOn_advance ((u.start s).setX d v) u.size
    rwa [State.pc_setX, Use.pc_start] at h
  · exact (((u.onlyRegs_start s).trans (State.onlyRegs_setX _ d v)).trans ha).mono (by simp) (by simp)

/-- The same for an instruction that writes no register. -/
theorem Use.wrote_none (u : Use) (s : State) :
    ((u.start s).advance u.size).goesOn (s.th.pc + w64 u.size) ∧
    s.OnlyRegs ((u.start s).advance u.size) u.reads [] := by
  refine ⟨?_, ?_⟩
  · have h := State.goesOn_advance (u.start s) u.size
    rwa [Use.pc_start] at h
  · exact ((u.onlyRegs_start s).trans (State.onlyRegs_advance _ _)).mono (by simp) (by simp)

end Sys2Proof.Machine
end

