-- ==== Sys2Proof/Laws/Traps.lean ====
section
/-! SUPPORT. What the shared operations of an instruction's issue do: each way that `Use.run` ends, and what the delivery
of a trap and a not-ready outcome leave. -/

namespace Sys2Proof.Machine

/-- An instruction of a feature that the context lacks. -/
theorem Use.run_feature {u : Use} {s : State} (body : State → Res) {f : Nat} (hf : u.feat = some f)
    (h : s.myCtx.feat.getLsbD f = false) : u.run s body = s.raise tFEATURE (w64 u.word) := by
  simp [Use.run, hf, h]

/-- A kernel instruction in a user thread. -/
theorem Use.run_privilege {u : Use} {s : State} (body : State → Res)
    (hf : ∀ f, u.feat = some f → s.granted f) (hk : u.kern = true) (h : s.th.kern = false) :
    u.run s body = s.raise tPRIVILEGE (w64 u.word) := by
  unfold Use.run
  cases e : u.feat with
  | none => simp [hk, h]
  | some f => have := hf f e; simp only [State.granted] at this; simp [hk, h, this]

/-- A precise trap of an instruction's own. -/
theorem Use.run_trap {u : Use} {s : State} (body : State → Res) {c : Nat} {i : Word}
    (hf : ∀ f, u.feat = some f → s.granted f) (hk : u.kern = true → s.th.kern = true) (hu : s.unheld u.names)
    (hl : u.after = true → s.th.lateWaits = false)
    (ha : s.arrived u.reads) (hb : body (u.start s) = .trap c i) : u.run s body = s.raise c i := by
  rw [Use.run_of u s body hf hk hu hl ha, hb]; rfl

/-- Owed work is on the list. -/
theorem State.mem_due_owe (s : State) (j : Job) : j ∈ (s.owe j).due := by
  unfold State.owe; split
  · next h => simpa using h
  · simp

/-- What the delivery of a trap leaves: memory, the current slot, every other slot. -/
theorem State.deliver_frame (s : State) (sid : Nat) (t : Trap) :
    (s.deliver sid t).mem = s.mem ∧ (s.deliver sid t).cur = s.cur ∧ ∀ k, k ≠ sid → (s.deliver sid t).slot k = s.slot k := by
  simp only [State.deliver]
  split
  · refine ⟨rfl, rfl, fun k h => ?_⟩
    simp only [State.slot, State.modThread, State.modSlot]
    exact Tab.get_upd_ne _ _ _ h
  · refine ⟨by simp, by simp, fun k h => ?_⟩
    simp only [State.slot, State.slots_owe, State.modSlot]
    exact Tab.get_upd_ne _ _ _ h

/-- What the raising of a trap leaves: memory, the current slot, every other slot. -/
theorem State.raise_frame (s : State) (code : Nat) (info : Word) :
    (s.raise code info).mem = s.mem ∧ (s.raise code info).cur = s.cur ∧
      ∀ k, k ≠ s.cur → (s.raise code info).slot k = s.slot k := by
  have hu : ∀ u : State, u = (if code = tFETCH then s.modTh (fun h => h.fetchReported info) else s) →
      u.mem = s.mem ∧ u.cur = s.cur ∧ ∀ k, k ≠ s.cur → u.slot k = s.slot k := by
    rintro u rfl
    split
    · refine ⟨rfl, rfl, fun k h => ?_⟩
      simp only [State.modTh, State.modThread, State.slot, State.modSlot]
      exact Tab.get_upd_ne _ _ _ h
    · exact ⟨rfl, rfl, fun _ _ => rfl⟩
  simp only [State.raise]
  generalize he : (if code = tFETCH then s.modTh (fun h => h.fetchReported info) else s) = u
  obtain ⟨hm, hc, hk⟩ := hu u he.symm
  split
  · refine ⟨hm, hc, fun k h => ?_⟩
    have h' : k ≠ u.cur := hc ▸ h
    simp only [State.skipCounted, State.modTh, State.modThread, State.slot, State.modSlot]
    rw [Tab.get_upd_ne _ _ _ h', Tab.get_upd_ne _ _ _ h']
    exact hk k h
  · obtain ⟨a, b, c⟩ := u.deliver_frame u.cur { code := code, info := info, pc := u.th.pc, st := u.th.stBefore }
    exact ⟨a.trans hm, b.trans hc, fun k h => (c k (hc ▸ h)).trans (hk k h)⟩

end Sys2Proof.Machine
end

