-- ==== Sys2Proof/Tests/Slice0.lean ====
section
/-! SUPPORT. The model's own tests: ill-formed terms that Instr.wf refuses, words written out from the spec's encodings
that decode to the instructions they stand for, a few single steps with values worked out by hand, and for each statement
a state and operands that meet its hypotheses. -/

set_option maxRecDepth 100000
set_option Elab.async false

namespace Sys2Proof.Tests

open Sys2Proof Sys2Proof.Machine Sys2Proof.Claims

/-! ### Ill-formed terms, one for each check of Instr.wf -/

theorem wf_refuses_frame_register : (Instr.enterFp 1 0 28).wf = false ∧ (Instr.enterFp 1 0 31).wf = false := by decide
theorem wf_refuses_rounding_mode : (Instr.fsqrt 5 1 2).wf = false ∧ (Instr.ftoi 6 1 2).wf = false := by decide
theorem wf_refuses_width_code : (Instr.ldMn .rt 0 7 0 1 2).wf = false ∧
    (Instr.ldSp .rt 7 0 1 2).wf = false ∧ (Instr.ldVm .rt 7 0 1 2).wf = false := by
  decide
theorem wf_refuses_run : (Instr.arm 0 7 60).wf = false ∧ (Instr.disarm 0 7 60).wf = false ∧ (Instr.mint 0 7 60 1).wf = false := by
  decide
theorem wf_refuses_empty_rights : (Instr.mint 0 0 1 2).wf = false := by decide
theorem wf_refuses_policy : (Instr.vadd 0 .yd 0 1 2 3).wf = false ∧ (Instr.kget .yd 0 1 2).wf = false := by decide
theorem wf_refuses_lane_width : (Instr.vadd 3 .rt 0 1 2 3).wf = false := by decide
theorem wf_refuses_prefix : (Instr.pfx 0 0 5 0 0).wf = false ∧ (Instr.pfx 0 0 0 0 3).wf = false := by decide
theorem wf_refuses_tile : (Instr.tsh .rt 1 20).wf = false ∧ (Instr.tshr .rt 20 1).wf = false ∧ (Instr.tld .rt 2 1 20).wf = false ∧
    (Instr.tst .rt 2 1 20).wf = false ∧ (Instr.tzero .rt 20).wf = false := by decide
theorem wf_refuses_product : (Instr.mma .rt 1 2 3 0 0).wf = false ∧ (Instr.mma .rt 16 2 0 0 0).wf = false := by decide
theorem wf_refuses_quantisation : (Instr.tqnt .rt 1 3 4).wf = false ∧ (Instr.tqnt .rt 1 16 16).wf = false := by decide
theorem wf_refuses_special_register : (Instr.mfsr 9 1).wf = false ∧ (Instr.mtsr 9 1).wf = false := by decide
theorem wf_refuses_ring_selector : (Instr.copRd 2 1 2).wf = false := by decide
theorem wf_refuses_context_selector : (Instr.ctxRd 18 1 2).wf = false ∧ (Instr.ctxWr .rt 2 1 18).wf = false := by decide
theorem wf_refuses_compact : (Instr.addiN 0 0).wf = false := by decide

/-! ### Words of the spec -/

/-- The words that the spec gives beside scalar instructions (R55, R58, R77, R78, R87, R89). -/
theorem test_decode_scalar :
    decodeTableWord 32 0x0038C283 = some (.add 7 6 5) ∧
    decodeTableWord 32 0xFFF06287 = some (.addi 0xFFF 6 5) ∧
    decodeTableWord 32 0x0179BC13 = some (.oxl 0xBCDE 0) ∧
    decodeTableWord 32 0x02F13413 = some (.oxh 0x789A 0) ∧
    decodeTableWord 32 0x0068AC93 = some (.oxl 0x3456 1) ∧
    decodeTableWord 32 0x02002493 = some (.oxh 0x0012 1) ∧
    decodeTableWord 32 0xE6000003 = some (.land) ∧
    decodeTableWord 32 0xE8201483 = some (.enterFp 4 0 9) ∧
    decodeTableWord 32 0xE8801483 = some (.enterFp 16 0 9) ∧
    decodeTableWord 32 0xEC000403 = some (.kpack 0 8) ∧
    decodeTableWord 32 0xEE012003 = some (.kunpack 0 9) := by decide

/-- The words that the spec gives beside branch instructions (R73). -/
theorem test_decode_branch :
    decodeTableWord 32 0xFFC06297 = some (.beq 0xFFC 6 5) := by decide

/-- The words that the spec gives beside memory instructions (R53, R252). -/
theorem test_decode_memory :
    decodeTableWord 32 0x010462A3 = some (.ldW 16 .fl 6 5) ∧
    decodeTableWord 32 0x2540C2AB = some (.stSp .rt 2 8 6 5) ∧
    decodeTableWord 32 0x1700C3AB = some (.ldVm .rt 3 0 6 7) := by decide

/-- The words that the spec gives beside barrel instructions (R139, R140, R141, R142, R143, R144). -/
theorem test_decode_barrel :
    decodeTableWord 32 0x0000603B = some (.yield 3) ∧
    decodeTableWord 32 0x0207E2BB = some (.sleep 63 5) ∧
    decodeTableWord 32 0x0401203B = some (.wake 9) ∧
    decodeTableWord 32 0x8600003B = some (.hold .yd) ∧
    decodeTableWord 32 0x0800003B = some (.exit) ∧
    decodeTableWord 32 0x0A0002BB = some (.selfid 5) ∧
    decodeTableWord 32 0x0C0022BB = some (.rdskip 1 5) := by decide

/-- The words that the spec gives beside work instructions (R161, R162). -/
theorem test_decode_work :
    decodeTableWord 32 0x060144BF = some (.place 10 9) ∧
    decodeTableWord 32 0x080004BF = some (.placeSelf 9) ∧
    decodeTableWord 32 0x0A0004BF = some (.placeLoad 9) ∧
    decodeTableWord 32 0x8230B43F = some (.cast .yd 6 5 4) ∧
    decodeTableWord 32 0x8405003F = some (.recast .yd 4) := by decide

/-- The words that the spec gives beside fabric instructions (R164, R166, R172, R173, R176, R178). -/
theorem test_decode_fabric :
    decodeTableWord 32 0x004A8037 = some (.arm 1 1 20) ∧
    decodeTableWord 32 0x02828037 = some (.disarm 1 0 20) ∧
    decodeTableWord 32 0x04C284B7 = some (.mint 3 0 20 9) ∧
    decodeTableWord 32 0x06292037 = some (.snd .rt 5 9 0) ∧
    decodeTableWord 32 0x88028AB7 = some (.rcv .yd 20 21) ∧
    decodeTableWord 32 0x0A0022B7 = some (.fabst 1 5) ∧
    decodeTableWord 32 0x90292537 = some (.sndA .yd 0 5 9 10) := by decide

/-- The words that the spec gives beside vector instructions (R186, R187, R192, R193). -/
theorem test_decode_vector :
    decodeTableWord 32 0x0050E653 = some (.scfg 10 7 0) ∧
    decodeTableWord 32 0x0401C653 = some (.srem 2 12) ∧
    decodeTableWord 32 0xCC0060C7 = some (.vbcast .rt 0 6 1) ∧
    decodeTableWord 32 0x08581143 = some (.vfmul .rt 1 12 1 2) ∧
    decodeTableWord 32 0x005A2743 = some (.vfadd .rt 1 13 2 14) := by decide

/-- The words that the spec gives beside sync instructions (R255, R260, R261, R262, R263, R265, R266, R267, R268). -/
theorem test_decode_sync :
    decodeTableWord 32 0x0A20C2AF = some (.amoAdd .rt 1 4 6 5) ∧
    decodeTableWord 32 0x0610C42F = some (.amoCas .rt 1 2 6 4) ∧
    decodeTableWord 32 0x3808C2AF = some (.amoSpAdd .rt 1 6 5) ∧
    decodeTableWord 32 0x00200033 = some (.fenceS .rt 4) ∧
    decodeTableWord 32 0x02000033 = some (.fenceI) ∧
    decodeTableWord 32 0x0620C2B3 = some (.stRelD .rt 4 6 5) ∧
    decodeTableWord 32 0x080144B3 = some (.ldff .rt 10 9) ∧
    decodeTableWord 32 0x8A0144B3 = some (.ldfe .yd 10 9) ∧
    decodeTableWord 32 0x0C0142B3 = some (.stef .rt 10 5) ∧
    decodeTableWord 32 0x0E0142B3 = some (.stff .rt 10 5) ∧
    decodeTableWord 32 0x10014033 = some (.feEmpty 10) ∧
    decodeTableWord 32 0x120144B3 = some (.feTest .rt 10 9) ∧
    decodeTableWord 32 0x145944B3 = some (.ldffPlace .rt 11 10 9) ∧
    decodeTableWord 32 0x172944B3 = some (.ldfePlace .rt 37 10 9) ∧
    decodeTableWord 32 0x192942B3 = some (.stefPlace .rt 37 10 5) ∧
    decodeTableWord 32 0x1B2942B3 = some (.stffPlace .rt 37 10 5) ∧
    decodeTableWord 32 0x1D2944B3 = some (.ldSpDPlace .rt 37 10 9) ∧
    decodeTableWord 32 0x1F2942B3 = some (.stSpDPlace .rt 37 10 5) ∧
    decodeTableWord 32 0x212944B3 = some (.ldVmDPlace .rt 37 10 9) ∧
    decodeTableWord 32 0x232942B3 = some (.stVmDPlace .rt 37 10 5) ∧
    decodeTableWord 32 0x24014033 = some (.park .rt 10) ∧
    decodeTableWord 32 0x260144B3 = some (.pin .rt 10 9) ∧
    decodeTableWord 32 0x28014033 = some (.unpin 10) ∧
    decodeTableWord 32 0x2A000033 = some (.unpinAll) ∧
    decodeTableWord 32 0x2C014033 = some (.pf 10) ∧
    decodeTableWord 32 0x2E0004B3 = some (.hbarArr .rt 0 9) ∧
    decodeTableWord 32 0xB0012533 = some (.hbarWt .yd 0 9 10) := by decide

/-- The words that the spec gives beside barrier instructions (R283). -/
theorem test_decode_barrier :
    decodeTableWord 32 0x0038C06F = some (.cbInit .rt 7 6) ∧
    decodeTableWord 32 0x0200C4EF = some (.cbArr .rt 6 9) ∧
    decodeTableWord 32 0x8448C56F = some (.cbWt .yd 9 6 10) ∧
    decodeTableWord 32 0x0600C06F = some (.cbClr .rt 6) := by decide

/-- The words that the spec gives beside matrix instructions (R293). -/
theorem test_decode_matrix :
    decodeTableWord 32 0x800003E3 = some (.mlease .yd 7) ∧
    decodeTableWord 32 0x02000063 = some (.mrel) ∧
    decodeTableWord 32 0x04012863 = some (.tsh .rt 9 16) ∧
    decodeTableWord 32 0x060064E3 = some (.tshr .rt 3 9) ∧
    decodeTableWord 32 0x08594063 = some (.tld .rt 11 10 0) ∧
    decodeTableWord 32 0x0A594863 = some (.tst .rt 11 10 16) ∧
    decodeTableWord 32 0x0C000863 = some (.tzero .rt 16) ∧
    decodeTableWord 32 0x10420263 = some (.tqnt .rt 8 16 4) ∧
    decodeTableWord 32 0x0E080063 = some (.mma .rt 1 0 0 0 0) := by decide

/-- The words that the spec gives beside copy instructions (R308, R319). -/
theorem test_decode_copy :
    decodeTableWord 32 0x86614067 = some (.cpSm .yd 6 5 0 0 0) ∧
    decodeTableWord 32 0x0281C9E7 = some (.cpMs .rt 8 7 1 0 3) ∧
    decodeTableWord 32 0x12614167 = some (.cpGth .rt 6 5 0 0 2) ∧
    decodeTableWord 32 0x14614167 = some (.cpSct .rt 6 5 0 0 2) ∧
    decodeTableWord 32 0x160120E7 = some (.qfCp .rt 9 1) := by decide

/-- The words that the spec gives beside collective instructions (R319, R321). -/
theorem test_decode_collective :
    decodeTableWord 32 0x8061416B = some (.clAredSum .yd 12 10 2) ∧
    decodeTableWord 32 0x0261416B = some (.clAredMax .rt 12 10 2) ∧
    decodeTableWord 32 0x0461416B = some (.clAredMin .rt 12 10 2) ∧
    decodeTableWord 32 0x0661416B = some (.clBcst .rt 12 10 2) ∧
    decodeTableWord 32 0x0861416B = some (.clGath .rt 12 10 2) ∧
    decodeTableWord 32 0x0A0120EB = some (.qfCl .rt 9 1) := by decide

/-- The words that the spec gives beside system instructions (R331, R332, R333, R334, R336, R341). -/
theorem test_decode_system :
    decodeTableWord 32 0x001004F3 = some (.mfsr 2 9) ∧
    decodeTableWord 32 0x02010073 = some (.mtsr 0 8) ∧
    decodeTableWord 32 0x040144F3 = some (.mfcr 10 9) ∧
    decodeTableWord 32 0x06594073 = some (.mtcr 11 10) ∧
    decodeTableWord 32 0x08000073 = some (.hret) ∧
    decodeTableWord 32 0x0A180073 = some (.trap 3) ∧
    decodeTableWord 32 0x0C180473 = some (.copRd 3 0 8) ∧
    decodeTableWord 32 0x0E012073 = some (.copReplay 9) ∧
    decodeTableWord 32 0x10594073 = some (.fltDone 11 10) := by decide

/-- The words that the spec gives beside translation instructions (R362, R364, R365). -/
theorem test_decode_translation :
    decodeTableWord 32 0x80594077 = some (.tlbInv .yd 11 10) ∧
    decodeTableWord 32 0x82000077 = some (.tlbInva .yd) ∧
    decodeTableWord 32 0x040144F7 = some (.tlbProbe .rt 10 9) ∧
    decodeTableWord 32 0x060004F7 = some (.atpRd 9) ∧
    decodeTableWord 32 0x88014077 = some (.atpWr .yd 10) := by decide

/-- The words that the spec gives beside context instructions (R388). -/
theorem test_decode_context :
    decodeTableWord 32 0x800144FB = some (.ctxNew .yd 10 9) ∧
    decodeTableWord 32 0x0251207B = some (.ctxGrant .rt 10 9) ∧
    decodeTableWord 32 0x0421247B = some (.ctxRd 4 9 8) ∧
    decodeTableWord 32 0x065121FB = some (.ctxWr .rt 10 9 3) ∧
    decodeTableWord 32 0x0801207B = some (.ctxRun .rt 9) ∧
    decodeTableWord 32 0x8A01207B = some (.ctxStop .yd 9) ∧
    decodeTableWord 32 0x0C01207B = some (.ctxKill .rt 9) ∧
    decodeTableWord 32 0x0E01207B = some (.ctxResume .rt 0 9) ∧
    decodeTableWord 32 0x1001207B = some (.ctxIntr 9) := by decide

/-- The words that the spec gives beside prefix instructions (R67). -/
theorem test_decode_prefix :
    decodeTableWord 32 0x00080D5B = some (.pfx 1 0 1 1 2) := by decide
/-- Words written out from the opcode table of the spec, for the instructions of major 0 beside the examples above. -/
theorem test_decode_major0 :
    decodeTableWord 32 0x02694483 = some (.sub 13 10 9) ∧
    decodeTableWord 32 0x04694483 = some (.and 13 10 9) ∧
    decodeTableWord 32 0x06694483 = some (.or 13 10 9) ∧
    decodeTableWord 32 0x08694483 = some (.xor 13 10 9) ∧
    decodeTableWord 32 0x0A694483 = some (.sll 13 10 9) ∧
    decodeTableWord 32 0x0C694483 = some (.srl 13 10 9) ∧
    decodeTableWord 32 0x0E694483 = some (.sra 13 10 9) ∧
    decodeTableWord 32 0x10694483 = some (.slt 13 10 9) ∧
    decodeTableWord 32 0x12694483 = some (.sltu 13 10 9) ∧
    decodeTableWord 32 0x14694483 = some (.min 13 10 9) ∧
    decodeTableWord 32 0x16694483 = some (.max 13 10 9) ∧
    decodeTableWord 32 0x18694483 = some (.minu 13 10 9) ∧
    decodeTableWord 32 0x1A694483 = some (.maxu 13 10 9) ∧
    decodeTableWord 32 0x1C014483 = some (.mv 10 9) ∧
    decodeTableWord 32 0x20694483 = some (.addw 13 10 9) ∧
    decodeTableWord 32 0x22694483 = some (.subw 13 10 9) ∧
    decodeTableWord 32 0x24694483 = some (.sllw 13 10 9) ∧
    decodeTableWord 32 0x26694483 = some (.srlw 13 10 9) ∧
    decodeTableWord 32 0x28694483 = some (.sraw 13 10 9) ∧
    decodeTableWord 32 0x30694483 = some (.sh1add 13 10 9) ∧
    decodeTableWord 32 0x32694483 = some (.sh2add 13 10 9) ∧
    decodeTableWord 32 0x34694483 = some (.sh3add 13 10 9) ∧
    decodeTableWord 32 0x36694483 = some (.sh4add 13 10 9) ∧
    decodeTableWord 32 0x40004483 = some (.lix 2 9) ∧
    decodeTableWord 32 0x42004483 = some (.lixu 2 9) ∧
    decodeTableWord 32 0x44004483 = some (.insh 2 9) ∧
    decodeTableWord 32 0xE0014003 = some (.jr 10) ∧
    decodeTableWord 32 0xE2014003 = some (.callr 10) ∧
    decodeTableWord 32 0xE4000003 = some (.ret) ∧
    decodeTableWord 32 0xE8186003 = some (.enter 3 3) ∧
    decodeTableWord 32 0xEA186003 = some (.leave 3 3) ∧
    decodeTableWord 32 0xEA187483 = some (.leaveFp 3 3 9) := by decide

/-- Words written out from the opcode table of the spec, for the instructions of major 1 beside the examples above. -/
theorem test_decode_major1 :
    decodeTableWord 32 0xFFB31287 = some (.li 4091 17 5) ∧
    decodeTableWord 32 0xFFB46287 = some (.andi 4091 6 5) ∧
    decodeTableWord 32 0xFFB66287 = some (.ori 4091 6 5) ∧
    decodeTableWord 32 0xFFB86287 = some (.xori 4091 6 5) ∧
    decodeTableWord 32 0xFFBA6287 = some (.slti 4091 6 5) ∧
    decodeTableWord 32 0xFFBC6287 = some (.sltiu 4091 6 5) ∧
    decodeTableWord 32 0x003E6287 = some (.slli 3 6 5) ∧
    decodeTableWord 32 0x403E6287 = some (.srli 3 6 5) ∧
    decodeTableWord 32 0x803E6287 = some (.srai 3 6 5) ∧
    decodeTableWord 32 0xC03E6287 = some (.rori 3 6 5) := by decide

/-- Words written out from the opcode table of the spec, for the instructions of major 2 beside the examples above. -/
theorem test_decode_major2 :
    decodeTableWord 32 0x0069448B = some (.mul 13 10 9) ∧
    decodeTableWord 32 0x0269448B = some (.mulh 13 10 9) ∧
    decodeTableWord 32 0x0469448B = some (.mulhu 13 10 9) ∧
    decodeTableWord 32 0x0669448B = some (.mulhsu 13 10 9) ∧
    decodeTableWord 32 0x0869448B = some (.mulw 13 10 9) ∧
    decodeTableWord 32 0x1069448B = some (.div 13 10 9) ∧
    decodeTableWord 32 0x1269448B = some (.divu 13 10 9) ∧
    decodeTableWord 32 0x1469448B = some (.rem 13 10 9) ∧
    decodeTableWord 32 0x1669448B = some (.remu 13 10 9) ∧
    decodeTableWord 32 0x1869448B = some (.divw 13 10 9) ∧
    decodeTableWord 32 0x1A69448B = some (.divuw 13 10 9) ∧
    decodeTableWord 32 0x1C69448B = some (.remw 13 10 9) ∧
    decodeTableWord 32 0x1E69448B = some (.remuw 13 10 9) := by decide

/-- Words written out from the opcode table of the spec, for the instructions of major 3 beside the examples above. -/
theorem test_decode_major3 :
    decodeTableWord 32 0x0001448F = some (.clz 10 9) ∧
    decodeTableWord 32 0x0201448F = some (.ctz 10 9) ∧
    decodeTableWord 32 0x0401448F = some (.cpop 10 9) ∧
    decodeTableWord 32 0x0601448F = some (.rev8 10 9) ∧
    decodeTableWord 32 0x0801448F = some (.brev 10 9) ∧
    decodeTableWord 32 0x0A69448F = some (.andn 13 10 9) ∧
    decodeTableWord 32 0x0C69448F = some (.orn 13 10 9) ∧
    decodeTableWord 32 0x0E69448F = some (.xnor 13 10 9) ∧
    decodeTableWord 32 0x1069448F = some (.rol 13 10 9) ∧
    decodeTableWord 32 0x1269448F = some (.ror 13 10 9) ∧
    decodeTableWord 32 0x1469448F = some (.bset 13 10 9) ∧
    decodeTableWord 32 0x1669448F = some (.bclr 13 10 9) ∧
    decodeTableWord 32 0x1869448F = some (.binv 13 10 9) ∧
    decodeTableWord 32 0x1A69448F = some (.bext 13 10 9) ∧
    decodeTableWord 32 0x1C69448F = some (.ext 13 10 9) ∧
    decodeTableWord 32 0x2001448F = some (.sextb 10 9) ∧
    decodeTableWord 32 0x2201448F = some (.sexth 10 9) ∧
    decodeTableWord 32 0x2401448F = some (.sextw 10 9) ∧
    decodeTableWord 32 0x3001448F = some (.mod31 10 9) ∧
    decodeTableWord 32 0x3201448F = some (.div31 10 9) ∧
    decodeTableWord 32 0x3401448F = some (.bankof 10 9) ∧
    decodeTableWord 32 0x3601448F = some (.rowof 10 9) ∧
    decodeTableWord 32 0x3869448F = some (.spa 13 10 9) ∧
    decodeTableWord 32 0x3A69448F = some (.addm31 13 10 9) := by decide

/-- Words written out from the opcode table of the spec, for the instructions of major 5 beside the examples above. -/
theorem test_decode_major5 :
    decodeTableWord 32 0xFFB27317 = some (.bne 4091 7 6) ∧
    decodeTableWord 32 0xFFB47317 = some (.blt 4091 7 6) ∧
    decodeTableWord 32 0xFFB67317 = some (.bge 4091 7 6) ∧
    decodeTableWord 32 0xFFB87317 = some (.bltu 4091 7 6) ∧
    decodeTableWord 32 0xFFBA7317 = some (.bgeu 4091 7 6) ∧
    decodeTableWord 32 0xFFBC0017 = some (.bnr 4091) ∧
    decodeTableWord 32 0xFFBC0097 = some (.brd 4091) ∧
    decodeTableWord 32 0xFFBE0017 = some (.j 4091) := by decide

/-- Words written out from the opcode table of the spec, for the instructions of major 6 beside the examples above. -/
theorem test_decode_major6 :
    decodeTableWord 32 0xFFFFFE9B = some (.call 33554429) := by decide

/-- Words written out from the opcode table of the spec, for the instructions of major 7 beside the examples above. -/
theorem test_decode_major7 :
    decodeTableWord 32 0x0069449F = some (.fadd 13 10 9) ∧
    decodeTableWord 32 0x0269449F = some (.fsub 13 10 9) ∧
    decodeTableWord 32 0x0469449F = some (.fmul 13 10 9) ∧
    decodeTableWord 32 0x0669449F = some (.fdiv 13 10 9) ∧
    decodeTableWord 32 0x0869449F = some (.fmin 13 10 9) ∧
    decodeTableWord 32 0x0A69449F = some (.fmax 13 10 9) ∧
    decodeTableWord 32 0x0C69449F = some (.fmadd 13 10 9) ∧
    decodeTableWord 32 0x0E69449F = some (.fmsub 13 10 9) ∧
    decodeTableWord 32 0x1019449F = some (.fsqrt 3 10 9) ∧
    decodeTableWord 32 0x1269449F = some (.fsgnj 13 10 9) ∧
    decodeTableWord 32 0x1469449F = some (.fsgnjn 13 10 9) ∧
    decodeTableWord 32 0x1669449F = some (.fsgnjx 13 10 9) ∧
    decodeTableWord 32 0x1869449F = some (.feq 13 10 9) ∧
    decodeTableWord 32 0x1A69449F = some (.flt 13 10 9) ∧
    decodeTableWord 32 0x1C69449F = some (.fle 13 10 9) ∧
    decodeTableWord 32 0x1E01449F = some (.fclass 10 9) ∧
    decodeTableWord 32 0x2019449F = some (.ftoi 3 10 9) ∧
    decodeTableWord 32 0x2219449F = some (.ftou 3 10 9) ∧
    decodeTableWord 32 0x2419449F = some (.ftol 3 10 9) ∧
    decodeTableWord 32 0x2619449F = some (.ftoul 3 10 9) ∧
    decodeTableWord 32 0x2819449F = some (.itof 3 10 9) ∧
    decodeTableWord 32 0x2A19449F = some (.utof 3 10 9) ∧
    decodeTableWord 32 0x2C19449F = some (.ltof 3 10 9) ∧
    decodeTableWord 32 0x2E19449F = some (.ultof 3 10 9) ∧
    decodeTableWord 32 0x3019449F = some (.ftobf 3 10 9) ∧
    decodeTableWord 32 0x3201449F = some (.bftof 10 9) := by decide

/-- Words written out from the opcode table of the spec, for the instructions of major 8 beside the examples above. -/
theorem test_decode_major8 :
    decodeTableWord 32 0xFFBA72A3 = some (.ldD 4091 .yd 7 5) := by decide

/-- Words written out from the opcode table of the spec, for the instructions of major 9 beside the examples above. -/
theorem test_decode_major9 :
    decodeTableWord 32 0xFFB872A7 = some (.stW 4091 .yd 7 5) ∧
    decodeTableWord 32 0xFFBA72A7 = some (.stD 4091 .yd 7 5) := by decide

/-- Words written out from the opcode table of the spec, for the instructions of major 10 beside the examples above. -/
theorem test_decode_major10 :
    decodeTableWord 32 0x968944AB = some (.ldMn .yd 1 3 17 10 9) ∧
    decodeTableWord 32 0xB48944AB = some (.stMn .yd 1 2 17 10 9) ∧
    decodeTableWord 32 0x878944AB = some (.ldSp .yd 3 17 10 9) ∧
    decodeTableWord 32 0xB58944AB = some (.stVm .yd 2 17 10 9) := by decide

/-- Words written out from the opcode table of the spec, for the instructions of major 11 beside the examples above. -/
theorem test_decode_major11 :
    decodeTableWord 32 0x822144AF = some (.amoSwap .yd 1 4 10 9) ∧
    decodeTableWord 32 0x8E2144AF = some (.amoAnd .yd 1 4 10 9) ∧
    decodeTableWord 32 0x922144AF = some (.amoOr .yd 1 4 10 9) ∧
    decodeTableWord 32 0x962144AF = some (.amoXor .yd 1 4 10 9) ∧
    decodeTableWord 32 0x9A2144AF = some (.amoMin .yd 1 4 10 9) ∧
    decodeTableWord 32 0x9E2144AF = some (.amoMax .yd 1 4 10 9) ∧
    decodeTableWord 32 0xA22144AF = some (.amoMinu .yd 1 4 10 9) ∧
    decodeTableWord 32 0xA62144AF = some (.amoMaxu .yd 1 4 10 9) ∧
    decodeTableWord 32 0xAA0144AF = some (.updAdd .yd 1 10 9) ∧
    decodeTableWord 32 0xAE0144AF = some (.updMin .yd 1 10 9) ∧
    decodeTableWord 32 0xB20144AF = some (.updMax .yd 1 10 9) ∧
    decodeTableWord 32 0xB42144AF = some (.amoSpSwap .yd 4 10 9) ∧
    decodeTableWord 32 0xB621452F = some (.amoSpCas .yd 4 10 5) ∧
    decodeTableWord 32 0xBA2144AF = some (.amoVmSwap .yd 4 10 9) ∧
    decodeTableWord 32 0xBC21452F = some (.amoVmCas .yd 4 10 5) ∧
    decodeTableWord 32 0xBE2144AF = some (.amoVmAdd .yd 4 10 9) := by decide

/-- Words written out from the opcode table of the spec, for the instructions of major 12 beside the examples above. -/
theorem test_decode_major12 :
    decodeTableWord 32 0x842144B3 = some (.stRelW .yd 4 10 9) := by decide

/-- Words written out from the opcode table of the spec, for the instructions of major 14 beside the examples above. -/
theorem test_decode_major14 :
    decodeTableWord 32 0x3C6944BB = some (.hint .rt 2 13 10 9) := by decide

/-- Words written out from the opcode table of the spec, for the instructions of major 15 beside the examples above. -/
theorem test_decode_major15 :
    decodeTableWord 32 0x8069403F = some (.launch .yd 13 10) := by decide

/-- Words written out from the opcode table of the spec, for the instructions of major 16 beside the examples above. -/
theorem test_decode_major16 :
    decodeTableWord 32 0x048E62C3 = some (.vfsub .rt 2 7 6 5) ∧
    decodeTableWord 32 0x0C8E62C3 = some (.vfmin .rt 2 7 6 5) ∧
    decodeTableWord 32 0x108E62C3 = some (.vfmax .rt 2 7 6 5) ∧
    decodeTableWord 32 0x148062C3 = some (.vfabs .rt 2 6 5) ∧
    decodeTableWord 32 0x188062C3 = some (.vfneg .rt 2 6 5) ∧
    decodeTableWord 32 0x208E62C3 = some (.vfma .rt 2 7 6 5) ∧
    decodeTableWord 32 0x248E62C3 = some (.vfms .rt 2 7 6 5) ∧
    decodeTableWord 32 0x288E62C3 = some (.vfma4 .rt 2 7 6 5) ∧
    decodeTableWord 32 0x408E61C3 = some (.vfeq .rt 2 7 6 3) ∧
    decodeTableWord 32 0x448E61C3 = some (.vflt .rt 2 7 6 3) ∧
    decodeTableWord 32 0x488E61C3 = some (.vfle .rt 2 7 6 3) := by decide

/-- Words written out from the opcode table of the spec, for the instructions of major 17 beside the examples above. -/
theorem test_decode_major17 :
    decodeTableWord 32 0x808E62C7 = some (.vadd 2 .rt 2 7 6 5) ∧
    decodeTableWord 32 0x848E62C7 = some (.vsub 2 .rt 2 7 6 5) ∧
    decodeTableWord 32 0x888E62C7 = some (.vmul 2 .rt 2 7 6 5) ∧
    decodeTableWord 32 0x8C8E62C7 = some (.vsll 2 .rt 2 7 6 5) ∧
    decodeTableWord 32 0x908E62C7 = some (.vsrl 2 .rt 2 7 6 5) ∧
    decodeTableWord 32 0x948E62C7 = some (.vsra 2 .rt 2 7 6 5) ∧
    decodeTableWord 32 0x988E62C7 = some (.vmin 2 .rt 2 7 6 5) ∧
    decodeTableWord 32 0x9C8E62C7 = some (.vmax 2 .rt 2 7 6 5) ∧
    decodeTableWord 32 0xA08E62C7 = some (.vminu 2 .rt 2 7 6 5) ∧
    decodeTableWord 32 0xA48E62C7 = some (.vmaxu 2 .rt 2 7 6 5) ∧
    decodeTableWord 32 0x288E62C7 = some (.vand .rt 2 7 6 5) ∧
    decodeTableWord 32 0x2C8E62C7 = some (.vor .rt 2 7 6 5) ∧
    decodeTableWord 32 0x308E62C7 = some (.vxor .rt 2 7 6 5) ∧
    decodeTableWord 32 0x348E62C7 = some (.vandn .rt 2 7 6 5) ∧
    decodeTableWord 32 0xC08E61C7 = some (.vieq .rt 2 7 6 3) ∧
    decodeTableWord 32 0xC48E61C7 = some (.vilt .rt 2 7 6 3) ∧
    decodeTableWord 32 0xC88E61C7 = some (.viltu .rt 2 7 6 3) ∧
    decodeTableWord 32 0xD08032C7 = some (.kget .rt 2 3 5) ∧
    decodeTableWord 32 0xD48061C7 = some (.kset .rt 2 6 3) := by decide

/-- Words written out from the opcode table of the spec, for the instructions of major 18 beside the examples above. -/
theorem test_decode_major18 :
    decodeTableWord 32 0x008E62CB = some (.vperm .rt 2 7 6 5) ∧
    decodeTableWord 32 0x048E62CB = some (.vperm2 .rt 2 7 6 5) ∧
    decodeTableWord 32 0x088662CB = some (.vrot .rt 2 3 6 5) ∧
    decodeTableWord 32 0x0C8662CB = some (.vins .rt 2 3 6 5) ∧
    decodeTableWord 32 0x108662CB = some (.vext .rt 2 3 6 5) ∧
    decodeTableWord 32 0x148062CB = some (.vsumF .rt 2 6 5) ∧
    decodeTableWord 32 0x188062CB = some (.vmaxF .rt 2 6 5) ∧
    decodeTableWord 32 0x1C8062CB = some (.vminF .rt 2 6 5) ∧
    decodeTableWord 32 0x208062CB = some (.vsumI32 .rt 2 6 5) ∧
    decodeTableWord 32 0x248062CB = some (.vmaxI32 .rt 2 6 5) ∧
    decodeTableWord 32 0x288062CB = some (.vminI32 .rt 2 6 5) ∧
    decodeTableWord 32 0x2C8062CB = some (.vsumI16 .rt 2 6 5) ∧
    decodeTableWord 32 0x308062CB = some (.vsumI8 .rt 2 6 5) ∧
    decodeTableWord 32 0x348062CB = some (.vsumBf .rt 2 6 5) := by decide

/-- Words written out from the opcode table of the spec, for the instructions of major 19 beside the examples above. -/
theorem test_decode_major19 :
    decodeTableWord 32 0x00A262CF = some (.vld .rt 2 17 6 5) ∧
    decodeTableWord 32 0x04A262CF = some (.vldWk .rt 2 17 6 5) ∧
    decodeTableWord 32 0x08A262CF = some (.vst .rt 2 17 6 5) ∧
    decodeTableWord 32 0x0CA262CF = some (.vstWk .rt 2 17 6 5) ∧
    decodeTableWord 32 0x10A262CF = some (.vldSp .rt 2 17 6 5) ∧
    decodeTableWord 32 0x14A262CF = some (.vstSp .rt 2 17 6 5) ∧
    decodeTableWord 32 0x18A262CF = some (.vldWin .rt 2 17 6 5) ∧
    decodeTableWord 32 0x1CA262CF = some (.vstWin .rt 2 17 6 5) := by decide

/-- Words written out from the opcode table of the spec, for the instructions of major 20 beside the examples above. -/
theorem test_decode_major20 :
    decodeTableWord 32 0x02000753 = some (.sclr 2) := by decide

/-- Words written out from the opcode table of the spec, for the instructions of major 21 beside the examples above. -/
theorem test_decode_major21 :
    decodeTableWord 32 0x008062D7 = some (.vrcpA .rt 2 6 5) ∧
    decodeTableWord 32 0x048062D7 = some (.vrsqA .rt 2 6 5) ∧
    decodeTableWord 32 0x088E62D7 = some (.vrcpS .rt 2 7 6 5) ∧
    decodeTableWord 32 0x0C8E62D7 = some (.vrsqS .rt 2 7 6 5) ∧
    decodeTableWord 32 0x108062D7 = some (.vexp2A .rt 2 6 5) ∧
    decodeTableWord 32 0x148062D7 = some (.vlog2A .rt 2 6 5) := by decide

/-- Words written out from the opcode table of the spec, for the instructions of major 23 beside the examples above. -/
theorem test_decode_major23 :
    decodeTableWord 32 0x008062DF = some (.vcvtFI .rt 2 6 5) ∧
    decodeTableWord 32 0x048062DF = some (.vcvtIF .rt 2 6 5) ∧
    decodeTableWord 32 0x088E62DF = some (.vcvtBfF .rt 2 7 6 5) ∧
    decodeTableWord 32 0x0C8262DF = some (.vcvtFBf .rt 2 1 6 5) ∧
    decodeTableWord 32 0x108462DF = some (.vcvtFMk8 .rt 2 2 6 5) ∧
    decodeTableWord 32 0x148E62DF = some (.vpackI16 .rt 2 7 6 5) ∧
    decodeTableWord 32 0x188262DF = some (.vunpkI16 .rt 2 1 6 5) ∧
    decodeTableWord 32 0x1C8462DF = some (.vunpkI8 .rt 2 2 6 5) ∧
    decodeTableWord 32 0x20A262DF = some (.vquant .rt 2 17 3 5) := by decide

/-- Words written out from the opcode table of the spec, for the instructions of major 25 beside the examples above. -/
theorem test_decode_major25 :
    decodeTableWord 32 0x80718DE7 = some (.cpMm .yd 7 6 1 1 3) ∧
    decodeTableWord 32 0x84718DE7 = some (.cpMv .yd 7 6 1 1 3) ∧
    decodeTableWord 32 0x88718DE7 = some (.cpSs .yd 7 6 1 1 3) ∧
    decodeTableWord 32 0x8A718DE7 = some (.cpSv .yd 7 6 1 1 3) ∧
    decodeTableWord 32 0x8C718DE7 = some (.cpVm .yd 7 6 1 1 3) ∧
    decodeTableWord 32 0x8E718DE7 = some (.cpVs .yd 7 6 1 1 3) ∧
    decodeTableWord 32 0x90718DE7 = some (.cpVv .yd 7 6 1 1 3) := by decide

/-- Words written out from the opcode table of the spec, for the instructions of the compact forms beside the examples above. -/
theorem test_decode_compact :
    decodeTableWord 16 0x29C4 = some (.addN 5 7) ∧
    decodeTableWord 16 0x29C8 = some (.subN 5 7) ∧
    decodeTableWord 16 0x29CC = some (.andN 5 7) ∧
    decodeTableWord 16 0x29D0 = some (.orN 5 7) ∧
    decodeTableWord 16 0x29D4 = some (.xorN 5 7) ∧
    decodeTableWord 16 0x29D8 = some (.sllN 5 7) ∧
    decodeTableWord 16 0x29DC = some (.srlN 5 7) ∧
    decodeTableWord 16 0x29E0 = some (.sraN 5 7) ∧
    decodeTableWord 16 0x29E4 = some (.mulN 5 7) ∧
    decodeTableWord 16 0x01E8 = some (.jrN 7) ∧
    decodeTableWord 16 0x01EC = some (.callrN 7) ∧
    decodeTableWord 16 0x0030 = some (.retN) ∧
    decodeTableWord 16 0x2861 = some (.addiN 5 3) ∧
    decodeTableWord 16 0x2865 = some (.liN 5 3) ∧
    decodeTableWord 16 0x2869 = some (.slliN 5 3) ∧
    decodeTableWord 16 0x286D = some (.srliN 5 3) ∧
    decodeTableWord 16 0x2871 = some (.sraiN 5 3) ∧
    decodeTableWord 16 0x2875 = some (.andiN 5 3) ∧
    decodeTableWord 16 0xF879 = some (.addiNSp 3) ∧
    decodeTableWord 16 0x0001 = some (.nopN) ∧
    decodeTableWord 16 0xB9C2 = some (.ldDN 5 6 3 .yd) ∧
    decodeTableWord 16 0x79C6 = some (.stDN 3 6 3 .yd) ∧
    decodeTableWord 16 0xB9CA = some (.ldWN 5 6 3 .yd) ∧
    decodeTableWord 16 0x79CE = some (.stWN 3 6 3 .yd) ∧
    decodeTableWord 16 0xA1D2 = some (.ldDNSp 5 3 .yd) ∧
    decodeTableWord 16 0x61D6 = some (.stDNSp 3 3 .yd) ∧
    decodeTableWord 16 0xFFBA = some (.jN 2045) := by decide
/-! ### States for the witnesses -/

/-- A translation of the page of `fetchBase` to itself, with every permission. -/
def page : TlbEntry :=
  { asid := 0, vpn := 0x400, pages := 1, spn := 0x400, r := true, w := true, x := true, dset := true, stamps := [(0, 0#32)] }

/-- A context with every feature, that runs. -/
def ctx0 : Ctx := { feat := 0x1FF#9, act := true, phase := .running, depth := 1, qslots := [0], slots := 64, frames := 8,
                    children := 8 }

/-- Slot 0 runs a kernel thread of that context; core 0 has the translation of one page. -/
def base : State :=
  { State.reset with
    ctxs := [(0, ctx0)]
    slots := [(0, { st := .run, th := { kern := true, pm1 := 3, pc := 0x400000#64, place := 1 } })]
    cores := [(0, { tlb := [page] })] }

/-- The base state with values in private registers. -/
def withX (l : List (Nat × Word)) : State :=
  base.modTh (fun h => { h with x := l.foldl (fun x p => x.setIfInBounds p.1 p.2) h.x })

/-! ### Witnesses: states and operands that meet the hypotheses of the statements -/

theorem unheld_of {s : State} {ns : List RegN} (h : ns.all (fun r => (s.th.pendingAt r).isNone) = true)
    (hl : s.th.lateWaits = false := by decide) : s.unheld ns :=
  ⟨fun r hr => by simpa using List.all_eq_true.mp h r hr, fun _ => hl⟩

theorem arrived_of {s : State} {rs : List (BitVec 6)} (h : rs.all (fun r => (s.armOf r).st != .awaiting) = true) :
    s.arrived rs := fun r hr => by simpa using List.all_eq_true.mp h r hr

theorem canRun_of {s : State} {ns rs : List (BitVec 6)}
    (h : (ns.all (fun r => (s.th.pendingAt (.x r)).isNone) && rs.all (fun r => (s.armOf r).st != .awaiting)) = true)
    (hl : s.th.lateWaits = false := by decide) : canRun s ns rs := by
  rw [Bool.and_eq_true] at h
  exact ⟨unheld_of (by rw [List.all_map]; exact h.1) hl, arrived_of h.2⟩

theorem canAct_of {s : State} {ns rs : List (BitVec 6)}
    (h : (ns.all (fun r => (s.th.pendingAt (.x r)).isNone) && rs.all (fun r => (s.armOf r).st != .awaiting)) = true)
    (hl : s.th.lateWaits = false := by decide) : canAct s ns rs := ⟨canRun_of h hl, hl⟩

theorem witness_AluComplete : ∃ p, aluSpec (.add 2 1 3) = some p ∧ (Instr.add 2 1 3).wf = true ∧ base.unheld p.names ∧
    base.arrived p.reads ∧ p.ok base :=
  ⟨_, rfl, by decide, unheld_of (by decide), arrived_of (by decide), trivial⟩

theorem witness_DivComplete : ∃ p, divSpec (.rem 2 1 3) = some p ∧ (Instr.rem 2 1 3).wf = true ∧ base.unheld p.names ∧
    base.arrived p.reads ∧ p.ok base :=
  ⟨_, rfl, by decide, unheld_of (by decide), arrived_of (by decide), fun h => absurd h.2 (by decide)⟩

theorem witness_DivComplete_traps :
    let s := base.modTh (fun h => { h with st := 0x200#64, x := h.x.set 2 0x100000000#64 })
    canRun s [1, 2, 3] [1, 2] ∧ canRun s [1, 4, 3] [1, 4] ∧ stBit s.th.st 9 = true ∧ s.xr 4 = 0#64 ∧ lo32 (s.xr 2) = 0#32 :=
  ⟨canRun_of (by decide), canRun_of (by decide), by decide, by decide, by decide⟩

theorem witness_ImmComplete :
    (∃ p, immSpec (.kpack 7 3) = some p ∧ (Instr.kpack 7 3).wf = true ∧ base.unheld p.names ∧ base.arrived p.reads ∧ p.ok base) ∧
    ∃ p, compactSpec (.addN 3 4) = some p ∧ (Instr.addN 3 4).wf = true ∧ base.unheld p.names ∧ base.arrived p.reads ∧
      p.ok base :=
  ⟨⟨_, rfl, by decide, unheld_of (by decide), arrived_of (by decide), trivial⟩,
   ⟨_, rfl, by decide, unheld_of (by decide), arrived_of (by decide), trivial⟩⟩

theorem witness_FpComplete : ∃ p, fpSpec (.fadd 2 1 3) = some p ∧ (Instr.fadd 2 1 3).wf = true ∧ base.unheld p.names ∧
    base.arrived p.reads ∧ p.ok base :=
  ⟨_, rfl, by decide, unheld_of (by decide), arrived_of (by decide), by
    show (fpLane fp32 (fpEnv base.th.st 7) .add [(base.xr 1).toNat % 2 ^ 32, (base.xr 2).toNat % 2 ^ 32]).stop = none
    decide +kernel⟩

/-- The stack pointer at 64, the limit at 0, and a frame of 4 granules. -/
def atLimit : State := (withX [(31, 64#64)]).modTh (fun h => { h with stklim := 16#64 })

theorem witness_FrameComplete : ∃ p, frameSpec (.enter 3 0) = some p ∧ (Instr.enter 3 0).wf = true ∧
    atLimit.unheld p.names ∧ atLimit.arrived p.reads ∧ p.ok atLimit :=
  ⟨_, rfl, by decide, unheld_of (by decide), arrived_of (by decide), .inr (by decide)⟩

theorem witness_BranchComplete_not_taken : ∃ p, branchSpec (.bne 8 1 1) = some p ∧
    base.unheld ((p.reads ++ p.links).map .x) ∧ base.arrived p.reads ∧ p.taken base = false :=
  ⟨_, rfl, unheld_of (by decide), arrived_of (by decide), by decide⟩

theorem witness_BranchComplete_taken : ∃ p, branchSpec (.call 2) = some p ∧
    base.unheld ((p.reads ++ p.links).map .x) ∧ base.arrived p.reads ∧ p.taken base = true ∧
    (begun base p.reads p.links).checkTarget p.kind (p.target base) = .ok :=
  ⟨_, rfl, unheld_of (by decide), arrived_of (by decide), by decide, by decide +kernel⟩

theorem witness_ExtAndMaskComplete : base.unheld (.x 3 :: ([0, 1, 2, 3, 4, 5, 6, 7] : List (BitVec 3)).map .k) ∧
    base.arrived [3] := ⟨unheld_of (by decide), arrived_of (by decide)⟩

theorem witness_ExtAndMaskComplete_minor : (0x04000013#32).extractLsb' 0 7 = 0x13#7 ∧
    2#7 ≤ (0x04000013#32).extractLsb' 25 7 := by decide

/-- Slot 0's address register 1 at the last aligned doubleword of a line, and a copy of the line in the L1, exclusively
owned. -/
def lined : State :=
  (withX [(1, 0x400138#64)]).modCore 0 (fun c => { c with
    l1 := [(0x10004, { data := 0x11#512, wt := 0, leaseEnd := 0, granted := 0, asOf := 0, excl := true })] })

/-- The same with a grant to write. -/
def granted : State := lined.modCore 0 (fun c => { c with grants := [(0, 0x10004, 1)] })

theorem witness_LoadComplete_strong : ∃ p e s2 m c, accessSpec (.ldD 0 .rt 1 2) = some p ∧ (Instr.ldD 0 .rt 1 2).wf = true ∧
    p.store = false ∧ p.ready lined ∧
    (begun lined [p.base] [p.reg]).resolve (p.addr lined) p.width (Kind.ofCode 0) = .ok e s2 ∧
    s2.machineOf (e.sys (p.addr lined).toNat) = some m ∧ s2.ownUpdate (m / 64) = false ∧
    (lineReady s2 (m / 64)).copyFor (coreOf lined.cur) (lined.cur % 16) (m / 64) lined.th.pc = some c ∧
    (lineReady s2 (m / 64)).usable c p.strong = true :=
  ⟨_, _, _, _, _, rfl, by decide, rfl, ⟨unheld_of (by decide), arrived_of (by decide), by decide⟩, rfl, rfl, by decide, rfl,
    by decide⟩

theorem witness_LoadComplete_weak : ∃ p e s2 m c, accessSpec (.ldMn .fl 1 0 7 1 2) = some p ∧
    (Instr.ldMn .fl 1 0 7 1 2).wf = true ∧ p.store = false ∧ p.ready lined ∧
    (begun lined [p.base] [p.reg]).resolve (p.addr lined) p.width (Kind.ofCode 0) = .ok e s2 ∧
    s2.machineOf (e.sys (p.addr lined).toNat) = some m ∧ s2.ownUpdate (m / 64) = false ∧
    (lineReady s2 (m / 64)).copyFor (coreOf lined.cur) (lined.cur % 16) (m / 64) lined.th.pc = some c ∧
    (lineReady s2 (m / 64)).usable c p.strong = true :=
  ⟨_, _, _, _, _, rfl, by decide, rfl, ⟨unheld_of (by decide), arrived_of (by decide), by decide⟩, rfl, rfl, by decide, rfl,
    by decide⟩

theorem witness_WeakStoreComplete : ∃ p e s2 m, accessSpec (.stMn .rt 1 3 0 1 2) = some p ∧
    (Instr.stMn .rt 1 3 0 1 2).wf = true ∧ p.store = true ∧ p.strong = false ∧ p.ready lined ∧
    (begun lined [p.base, p.reg] []).resolve (p.addr lined) p.width (Kind.ofCode 1) = .ok e s2 ∧
    s2.machineOf (e.sys (p.addr lined).toNat) = some m ∧ s2.ownUpdate (m / 64) = false ∧ m % 64 + p.width ≤ 64 ∧
    ((∃ x ∈ (combReady s2 (m / 64)).me.comb, x.line = m / 64) ∨ (combReady s2 (m / 64)).me.comb.length < 16) :=
  ⟨_, _, _, _, rfl, by decide, rfl, rfl, ⟨unheld_of (by decide), arrived_of (by decide), by decide⟩, rfl, rfl, by decide, by decide,
    .inr (by decide)⟩

theorem witness_StrongStoreComplete : ∃ p e s2 m, accessSpec (.stMn .rt 0 3 0 1 2) = some p ∧
    (Instr.stMn .rt 0 3 0 1 2).wf = true ∧ p.store = true ∧ p.strong = true ∧ p.ready granted ∧
    (begun granted [p.base, p.reg] []).resolve (p.addr granted) p.width (Kind.ofCode 1) = .ok e s2 ∧
    s2.machineOf (e.sys (p.addr granted).toNat) = some m ∧ s2.ownUpdate (m / 64) = false ∧
    (∃ g ∈ (lineReady s2 (m / 64)).me.grants, g.1 = granted.cur % 16 ∧ g.2.1 = m / 64) :=
  ⟨_, _, _, _, rfl, by decide, rfl, rfl, ⟨unheld_of (by decide), arrived_of (by decide), by decide⟩, rfl, rfl, by decide,
    ⟨(0, 0x10004, 1), by decide, rfl, by decide⟩⟩

/-- The last doubleword of the scratchpad, and of the vault memory of a cluster of one vault segment. -/
def banked : State :=
  (withX [(1, 819192#64)]).modCluster 0 (fun c => { c with vseg := 2#64 })

theorem witness_BankAccessComplete_scratchpad :
    (∃ p, spSpec (.stSp .rt 3 0 1 2) = some p ∧ (Instr.stSp .rt 3 0 1 2).wf = true ∧ p.ready banked ∧
      (p.addr banked).toNat + p.width ≤ 819200 ∧ (p.addr banked).toNat % p.width = 0 ∧ p.store = true) ∧
    ∃ p, spSpec (.ldSp .rt 3 0 1 2) = some p ∧ (Instr.ldSp .rt 3 0 1 2).wf = true ∧ p.ready banked ∧
      (p.addr banked).toNat + p.width ≤ 819200 ∧ (p.addr banked).toNat % p.width = 0 ∧ p.store = false :=
  ⟨⟨_, rfl, by decide, ⟨unheld_of (by decide), arrived_of (by decide), by decide⟩, by decide, by decide, rfl⟩,
   ⟨_, rfl, by decide, ⟨unheld_of (by decide), arrived_of (by decide), by decide⟩, by decide, by decide, rfl⟩⟩

/-- A byte access that ends at the end of the vault memory. -/
def vaulted : State := banked.modTh (fun h => { h with x := h.x.set 0 (w64 (banked.mine.vmSize - 32)) })

theorem witness_BankAccessComplete_vault :
    (∃ p, vmSpec (.stVm .rt 0 31 0 2) = some p ∧ (Instr.stVm .rt 0 31 0 2).wf = true ∧
      p.ready vaulted ∧ vaulted.mine.vsegTo = none ∧
      (p.addr vaulted).toNat + p.width ≤ vaulted.mine.vmSize ∧ (p.addr vaulted).toNat % p.width = 0 ∧ p.store = true) ∧
    ∃ p, vmSpec (.ldVm .rt 0 31 0 2) = some p ∧ (Instr.ldVm .rt 0 31 0 2).wf = true ∧
      p.ready vaulted ∧ vaulted.mine.vsegTo = none ∧
      (p.addr vaulted).toNat + p.width ≤ vaulted.mine.vmSize ∧ (p.addr vaulted).toNat % p.width = 0 ∧ p.store = false :=
  ⟨⟨_, rfl, by decide, ⟨unheld_of (by decide), arrived_of (by decide), by decide⟩, by decide, by decide, by decide, rfl⟩,
   ⟨_, rfl, by decide, ⟨unheld_of (by decide), arrived_of (by decide), by decide⟩, by decide, by decide, by decide, rfl⟩⟩

/-- The page does not permit reads; a fault of it is pending; its service has failed; nothing translates. -/
def noRead : State := base.modCore 0 (fun c => { c with tlb := [{ page with r := false }] })
def faulted : State := base.modField 0 (fun f => { f with batch := [{
  owner := 0, stage := 1, level := 1, page := 0x400, r := true, w := false, x := false, eng := false, who := base.issuer,
  cl := 0, waits := [(0, 0x400)] }] })
def failedOne : State := base.modTh (fun h => { h with failed := [0x400] })
def noTlb : State := base.modCore 0 (fun c => { c with tlb := [] })

theorem witness_AddressChecks :
    canonical 0x0100000000000000#64 = false ∧ (canonical 0x400001#64 = true ∧ 0x400001 % 8 ≠ 0) ∧
    (canonical 0x400000#64 = true ∧ 0x400000 % 8 = 0 ∧
      (∃ e, noRead.xlate (coreOf noRead.cur) noRead.th.ctx 0x400000 (Kind.ofCode 0) = some e ∧
        e.grants (Kind.ofCode 0) = false) ∧
      0x400 ∈ failedOne.th.failed ∧ (0x400 ∉ faulted.th.failed ∧ faulted.pending 0x400 = true) ∧
      (0x400 ∉ noTlb.th.failed ∧ noTlb.pending 0x400 = false ∧ noTlb.heldOn 0x400 = false ∧
        noTlb.xlate (coreOf noTlb.cur) noTlb.th.ctx 0x400000 (Kind.ofCode 0) = none) ∧
      0x400 ∉ base.th.failed ∧ base.pending 0x400 = false ∧ base.heldOn 0x400 = false ∧
      ∃ e, base.xlate (coreOf base.cur) base.th.ctx 0x400000 (Kind.ofCode 0) = some e ∧ e.grants (Kind.ofCode 0) = true) :=
  ⟨by decide, by decide, by decide, by decide, ⟨_, rfl, by decide⟩, by decide, by decide,
   ⟨by decide, by decide, by decide, rfl⟩, by decide, by decide, by decide, _, rfl, rfl⟩

/-- A compare and swap of scope 2 on the line that the core owns. -/
theorem witness_AmoComplete : ∃ p s2 s3 s4 e m c, amoSpec (.amoCas .rt 1 2 1 1) = some p ∧ canAct lined p.regs p.regs ∧
    (begun lined p.regs []).scopeCheck p.scope = some s2 ∧
    s2.resolve (lined.xr p.a) p.bytes (Kind.ofCode 3) = .ok e s3 ∧ s3.releaseFence p.scope = .ok () s4 ∧
    s4.machineOf (e.sys (lined.xr p.a).toNat) = some m ∧ s4.ownUpdate (m / 64) = false ∧ p.scope ≤ 2 ∧
    (lineReady s4 (m / 64)).copyFor (coreOf lined.cur) (lined.cur % 16) (m / 64) lined.th.pc = some c ∧ c.excl = true ∧
    lined.th.lost ≠ some lined.th.pc :=
  ⟨_, _, _, _, _, _, _, rfl, canAct_of (by decide), rfl, rfl, rfl, rfl, by decide, by decide, rfl, rfl, by decide⟩

/-- The reply of the request at the pc has come. -/
def answered : State := lined.modTh (fun h => { h with rl := { st := .done, tag := h.pc, value := 5#64 } })

theorem witness_AmoComplete_reply : ∃ p s2 s3 s4 e, amoSpec (.amoAdd .rt 0 4 1 2) = some p ∧ canAct answered p.regs p.regs ∧
    (begun answered p.regs []).scopeCheck p.scope = some s2 ∧
    s2.resolve (answered.xr p.a) p.bytes (Kind.ofCode 3) = .ok e s3 ∧ s3.releaseFence p.scope = .ok () s4 ∧
    (2 < p.scope ∧ ∃ m, s4.machineOf (e.sys (answered.xr p.a).toNat) = some m ∧ s4.ownUpdate (m / 64) = false) ∧
    answered.th.rl.st = .done ∧ answered.th.rl.tag = answered.th.pc ∧ answered.th.rl.code = 0 :=
  ⟨_, _, _, _, _, rfl, canAct_of (by decide), rfl, rfl, rfl, ⟨by decide, _, rfl, by decide⟩, rfl, by decide, rfl⟩

/-- The page is at another device. -/
def elsewhere : State := answered.modCore 0 (fun c => { c with tlb := [{ page with spn := 3 * 2 ^ 33 }] })

theorem witness_AmoComplete_elsewhere : ∃ p s2 s3 s4 e, amoSpec (.amoAdd .rt 0 0 1 2) = some p ∧
    canAct elsewhere p.regs p.regs ∧ (begun elsewhere p.regs []).scopeCheck p.scope = some s2 ∧
    s2.resolve (elsewhere.xr p.a) p.bytes (Kind.ofCode 3) = .ok e s3 ∧ s3.releaseFence p.scope = .ok () s4 ∧
    s4.machineOf (e.sys (elsewhere.xr p.a).toNat) = none ∧
    elsewhere.th.rl.st = .done ∧ elsewhere.th.rl.tag = elsewhere.th.pc ∧ elsewhere.th.rl.code = 0 :=
  ⟨_, _, _, _, _, rfl, canAct_of (by decide), rfl, rfl, rfl, rfl, rfl, by decide, rfl⟩

theorem witness_AmoComplete_bank :
    (∃ p s2 s3, bankSpec (.amoSpCas .rt 1 1 1) = some (false, p) ∧ canAct banked p.regs p.regs ∧
      (begun banked p.regs []).scopeCheck p.scope = some s2 ∧ s2.releaseFence p.scope = .ok () s3 ∧
      (banked.xr p.a).toNat % 8 = 0 ∧ (banked.xr p.a).toNat + 8 ≤ 819200) ∧
    ∃ p s2 s3, bankSpec (.amoVmAdd .rt 0 2 3) = some (true, p) ∧ canAct banked p.regs p.regs ∧
      (begun banked p.regs []).scopeCheck p.scope = some s2 ∧ s2.releaseFence p.scope = .ok () s3 ∧
      (banked.xr p.a).toNat % 8 = 0 ∧ (banked.xr p.a).toNat + 8 ≤ banked.mine.vmSize ∧ banked.mine.vsegTo = none :=
  ⟨⟨_, _, _, rfl, canAct_of (by decide), rfl, rfl, by decide, by decide⟩,
   ⟨_, _, _, rfl, canAct_of (by decide), rfl, rfl, by decide, by decide, rfl⟩⟩

/-- The line is update-only in the core; and the combining buffer and the ways of the line's set, pinned, leave no way. -/
def updating : State := lined.modCore 0 (fun c => { c with
  l1 := [], upd := [{ line := 0x10004, writers := [0], units := [{ idx := 7, kind := 2, wide := true, val := 1#64 }] }] })
def noWay : State := lined.modCore 0 (fun c => { c with
  l1 := (upTo 8).map (fun i => (0x10004 + 64 * (i + 1),
    { data := 0#512, wt := 0, leaseEnd := 0, granted := 0, asOf := 0, pins := [1] })) })

theorem witness_UpdComplete_unit : ∃ e s2 m l, updSpec (.updMax .rt 1 1 2) = some (2, 1, 1, 2) ∧
    canAct updating [1, 2] [1, 2] ∧
    (begun updating [1, 2] []).resolve (updating.xr 1) (wbytes 1) (Kind.ofCode 3) = .ok e s2 ∧
    s2.machineOf (e.sys (updating.xr 1).toNat) = some m ∧
    (lineReady s2 (m / 64)).me.upd.find? (fun l => l.line == m / 64) = some l ∧
    ∀ u, l.units.find? (fun u => u.idx == m % 64 / 8) = some u → u.kind = 2 ∧ u.wide = ((1#1) == 1#1) :=
  ⟨_, _, _, _, rfl, canAct_of (by decide), rfl, rfl, rfl, fun u h => by
    rw [← Option.some.inj (h : some _ = _)]; decide⟩

theorem witness_UpdComplete_line : ∃ e s2 m r, updSpec (.updMax .rt 1 1 2) = some (2, 1, 1, 2) ∧ canAct lined [1, 2] [1, 2] ∧
    (begun lined [1, 2] []).resolve (lined.xr 1) (wbytes 1) (Kind.ofCode 3) = .ok e s2 ∧
    s2.machineOf (e.sys (lined.xr 1).toNat) = some m ∧
    (lineReady s2 (m / 64)).me.upd.find? (fun l => l.line == m / 64) = none ∧
    (lineReady s2 (m / 64)).updRoom (m / 64) = some r :=
  ⟨_, _, _, _, rfl, canAct_of (by decide), rfl, rfl, by decide, rfl⟩

theorem witness_UpdComplete_merge : ∃ e s2 m, updSpec (.updMax .rt 1 1 2) = some (2, 1, 1, 2) ∧ canAct noWay [1, 2] [1, 2] ∧
    (begun noWay [1, 2] []).resolve (noWay.xr 1) (wbytes 1) (Kind.ofCode 3) = .ok e s2 ∧
    s2.machineOf (e.sys (noWay.xr 1).toNat) = some m ∧
    (lineReady s2 (m / 64)).me.upd.find? (fun l => l.line == m / 64) = none ∧
    (lineReady s2 (m / 64)).updRoom (m / 64) = none ∧ (lineReady s2 (m / 64)).me.comb.length < 16 :=
  ⟨_, _, _, rfl, canAct_of (by decide), rfl, rfl, by decide, by decide, by decide⟩

theorem witness_UpdComplete_away : (∃ e s2, canAct elsewhere [1, 2] [1, 2] ∧
      (begun elsewhere [1, 2] []).resolve (elsewhere.xr 1) (wbytes 1) (Kind.ofCode 3) = .ok e s2 ∧
      s2.machineOf (e.sys (elsewhere.xr 1).toNat) = none ∧ s2.me.remote.length < Config.requestRoom) ∧
    let s : State := faulted.modTh (fun h => { h with x := h.x.set 1 0x400138#64 })
    canAct s [1, 2] [1, 2] ∧ canonical (s.xr 1) = true ∧ (s.xr 1).toNat % wbytes 1 = 0 ∧
      (begun s [1, 2] []).denied (s.xr 1).toNat (Kind.ofCode 3) = false ∧
      (begun s [1, 2] []).pending ((s.xr 1).toNat / 4096) = true ∧ s.mine.replay.length < Config.replayRoom :=
  ⟨⟨_, _, canAct_of (by decide), rfl, rfl, by decide⟩,
   canAct_of (by decide), by decide, by decide, by decide, by decide, by decide⟩

theorem witness_FenceComplete :
    (∃ s2 s3, (begun base [] []).scopeCheck 5 = some s2 ∧ s2.fence 5 = .ok () s3) ∧
    (5 ≠ 0 ∧ base.holding = false ∧ base.unordered 5 = false) ∧
    (∃ s : State, s.holding = true) ∧
    ∃ s : State, s.holding = false ∧ s.unordered 1 = true :=
  ⟨⟨_, _, rfl, rfl⟩, ⟨by decide, by decide, by decide⟩,
   ⟨base.modCluster 0 (fun c => { c with replay := [{ who := base.issuer, page := 0, va := 0, bytes := [] }] }), by decide⟩,
   ⟨base.modTh (fun h => { h with drains := [{ reg := 24, cells := [(0, 1#8)] }] }), by decide, by decide⟩⟩

theorem witness_ReleaseComplete : ∃ s2 s3 s4 e m, relSpec (.stRelD .rt 1 1 2) = some (8, 1, 1, 2) ∧
    canAct granted [1, 2] [1, 2] ∧ (begun granted [1, 2] []).scopeCheck 1 = some s2 ∧
    s2.resolve (granted.xr 1) 8 (Kind.ofCode 1) = .ok e s3 ∧ s3.releaseFence 1 = .ok () s4 ∧
    s4.machineOf (e.sys (granted.xr 1).toNat) = some m ∧ s4.ownUpdate (m / 64) = false ∧
    (∃ g ∈ (lineReady s4 (m / 64)).me.grants, g.1 = granted.cur % 16 ∧ g.2.1 = m / 64) :=
  ⟨_, _, _, _, _, rfl, canAct_of (by decide), rfl, rfl, rfl, rfl, by decide, ⟨(0, 0x10004, 1), by decide, rfl, by decide⟩⟩

/-- The address of the last granule in register 1, the granule empty; and full. -/
def grain : State := withX [(1, 819184#64)]
def grainFull : State := grain.modCluster 0 (fun c => { c with fe := [51199] })

/-- A thread of frame 3 and then a remote load wait on that granule. -/
def grainWaited : State := grain.modCluster 0 (fun c => { c with park := [
  { kind := 1, gran := 51199, sid := 5, gen := 0#8, reg := 0#6, seqNo := 0#8, frame := 3 },
  { kind := 0, gran := 51199, sid := 6, gen := 0#8, reg := 9#6, seqNo := 1#8, uid := 7 }] })

theorem witness_FullEmptyComplete :
    ((grain.xr 1).toNat < 819200 ∧ (grain.xr 1).toNat % 16 = 0 ∧ canAct grain [1, 2] [1] ∧ canAct grain [1, 2] [1, 2] ∧
      canAct grain [1] [1] ∧ fullBit grain ((grain.xr 1).toNat / 16) = false) ∧
    ((grainFull.xr 1).toNat < 819200 ∧ (grainFull.xr 1).toNat % 16 = 0 ∧ canAct grainFull [1, 2] [1] ∧
      fullBit grainFull ((grainFull.xr 1).toNat / 16) = true) ∧
    ((grainWaited.xr 1).toNat < 819200 ∧ (grainWaited.xr 1).toNat % 16 = 0 ∧ canAct grainWaited [1, 2] [1, 2] ∧
      fullBit grainWaited 51199 = false ∧
      ∃ e, (grainWaited.mine.park.filter (fun e => e.gran == 51199)).find? (fun e => e.kind != 1) = some e) :=
  ⟨⟨by decide, by decide, canAct_of (by decide), canAct_of (by decide), canAct_of (by decide), by decide⟩,
   ⟨by decide, by decide, canAct_of (by decide), by decide⟩,
   by decide, by decide, canAct_of (by decide), by decide, _, rfl⟩

/-- The place 3 of four, its reply there, and the offset of its last granule. -/
def placed : State := (withX [(1, 819184#64)]).modTh (fun h => { h with rl := { st := .done, tag := h.pc } })

theorem witness_PlaceFormComplete :
    (∃ p, placeSpec (.stffPlace .rt (32 + 3) 1 2) = some p ∧
      canAct placed (p.reads ++ (if p.store then [] else [p.d])) p.reads ∧ p.place placed ≤ placed.th.pm1 ∧
      (placed.xr p.a).toNat % p.align = 0 ∧ (placed.xr p.a).toNat + p.align ≤ p.limit) ∧
    (∃ p, placeSpec (.ldVmDPlace .rt 0 1 2) = some p ∧
      canAct placed (p.reads ++ (if p.store then [] else [p.d])) p.reads ∧ p.place placed ≤ placed.th.pm1 ∧
      (placed.xr p.a).toNat % p.align = 0 ∧ (placed.xr p.a).toNat + p.align ≤ p.limit) ∧
    placed.th.rl.st = .done ∧ placed.th.rl.tag = placed.th.pc ∧ placed.th.rl.code = 0 :=
  ⟨⟨_, rfl, canAct_of (by decide), by decide, by decide, by decide⟩,
   ⟨_, rfl, canAct_of (by decide), by decide, by decide, by decide⟩, rfl, by decide, rfl⟩

theorem witness_ParkComplete_full : canAct grainFull [1] [1] ∧ (grainFull.xr 1).toNat < 819200 ∧ (grainFull.xr 1).toNat % 16 = 0 ∧
    grainFull.th.pendingAny = false ∧ grainFull.th.rl.st ≠ .busy ∧ grainFull.th.ll.st ≠ .busy ∧
    grainFull.th.sl.st ≠ .busy ∧ fullBit grainFull ((grainFull.xr 1).toNat / 16) = true :=
  ⟨canAct_of (by decide), by decide, by decide, by decide, by decide, by decide, by decide, by decide⟩

theorem witness_ParkComplete_empty : canAct grain [1] [1] ∧ (grain.xr 1).toNat < 819200 ∧ (grain.xr 1).toNat % 16 = 0 ∧
    grain.th.pendingAny = false ∧ grain.th.rl.st ≠ .busy ∧ grain.th.ll.st ≠ .busy ∧
    grain.th.sl.st ≠ .busy ∧ fullBit grain ((grain.xr 1).toNat / 16) = false ∧
    (begunHeavy grain [1] []).parkAdmits (clusterOf grain.cur) (begunHeavy grain [1] []).issuer = true ∧
    (begunHeavy grain [1] []).myCtx.freeFrame = some 0 ∧
    let s1 := ((((begunHeavy grain [1] []).flushPort (coreOf grain.cur)).flushSends grain.cur).settle grain.cur).releaseLines
      grain.cur
    let h : Thread := { s1.th.ready with pc := s1.th.pc + 4#64 }
    ∃ s2, s1.ctxWrite s1.th.ctx ((s1.ctx s1.th.ctx).frameAddr 0) (h.slotFrame ++ h.extension (s1.slot grain.cur).qo) =
      some s2 :=
  ⟨canAct_of (by decide), by decide, by decide, by decide, by decide, by decide, by decide, by decide, by decide, by decide,
   Option.isSome_iff_exists.mp (by decide +kernel)⟩

/-- The line is in no way of the L1, and only in the bypass line of this access. -/
def byBypass : State := (lined.modCore 0 (fun c => { c with l1 := [] })).modSlot 0 (fun sl => { sl with bypass := some {
  line := 0x10004, pc := 0x400000#64, copy := { data := 0x11#512, wt := 0, leaseEnd := 0, granted := 0, asOf := 0 } } })
/-- The same of a line of another device. -/
def byBypassFar : State := (byBypass.modCore 0 (fun c => { c with tlb := [{ page with spn := 3 * 2 ^ 33 }] })).modSlot 0
  (fun sl => { sl with bypass := sl.bypass.map (fun b => { b with line := 3 * 2 ^ 39 + 4 }) })

theorem witness_PinComplete : canAct lined [1, 2] [1] ∧ (∃ e s2 m c,
      (begun lined [1] [2]).resolve (lined.xr 1) 1 (Kind.ofCode 0) = .ok e s2 ∧
      s2.machineOf (e.sys (lined.xr 1).toNat) = some m ∧ s2.ownUpdate (m / 64) = false ∧
      s2.me.l1.find? (m / 64) = some c) ∧ canAct lined [1] [1] :=
  ⟨canAct_of (by decide), ⟨_, _, _, _, rfl, rfl, by decide, rfl⟩, canAct_of (by decide)⟩

theorem witness_PinComplete_bypass : canAct byBypass [1, 2] [1] ∧ ∃ e s2 m c,
      (begun byBypass [1] [2]).resolve (byBypass.xr 1) 1 (Kind.ofCode 0) = .ok e s2 ∧
      s2.machineOf (e.sys (byBypass.xr 1).toNat) = some m ∧ s2.ownUpdate (m / 64) = false ∧
      s2.me.l1.find? (m / 64) = none ∧
      s2.copyFor (coreOf byBypass.cur) (byBypass.cur % 16) (m / 64) byBypass.th.pc = some c :=
  ⟨canAct_of (by decide), _, _, _, _, rfl, rfl, by decide, by decide, rfl⟩

theorem witness_PinComplete_far : canAct byBypassFar [1, 2] [1] ∧ ∃ e s2 c,
      (begun byBypassFar [1] [2]).resolve (byBypassFar.xr 1) 1 (Kind.ofCode 0) = .ok e s2 ∧
      s2.machineOf (e.sys (byBypassFar.xr 1).toNat) = none ∧
      s2.copyFor (coreOf byBypassFar.cur) (byBypassFar.cur % 16) (e.sys (byBypassFar.xr 1).toNat / 64) byBypassFar.th.pc =
        some c :=
  ⟨canAct_of (by decide), _, _, _, rfl, rfl, rfl⟩

/-- Instance 3 of the horizontal barrier enabled for 1 arrival, in phase 0; register 1 holds another phase. -/
def barred : State :=
  (withX [(1, 255#64)]).modCluster 0 (fun c => { c with hbc := c.hbc.set 3 (1#64 ||| (1#64 <<< 40)) })

theorem witness_HbarComplete : barred.granted fHbar ∧ barred.hbarOk 3 = true ∧
    (canAct barred [2] [] ∧ (∃ s2, (begun barred [] [2]).fence 4 = .ok () s2) ∧
      hbArr (vrd barred.mine.hbc 3) ≠ hbCnt (vrd barred.mine.hbc 3)) ∧
    canAct barred [1, 2] [1] ∧ hbPhase (vrd barred.mine.hbc 3) ≠ (barred.xr 1).toNat % 256 :=
  ⟨by unfold State.granted; decide, by decide, ⟨canAct_of (by decide), ⟨_, rfl⟩, by decide⟩, canAct_of (by decide), by decide⟩

/-- Registers 20 to 27, the first of them armed. -/
def armed : State := base.modTh (fun h => { h with xarm := (h.xarm.set 20 { st := .awaiting }).set 21 { st := .full } })

theorem witness_ArmingComplete : armed.granted fFabric ∧ runFits 20 7 = true ∧ runFits 20 1 = true ∧
    canAct armed ((List.range 8).map (fun i => (20#6) + BitVec.ofNat 6 i)) [] ∧
    canAct armed (((List.range 2).map (fun i => (20#6) + BitVec.ofNat 6 i)) ++ [2]) [] ∧
    ∀ q ∈ (List.range 2).map (fun i => (20#6) + BitVec.ofNat 6 i), (armed.armOf q).st ≠ .unarmed :=
  ⟨by unfold State.granted; decide, by decide, by decide, canAct_of (by decide), canAct_of (by decide), by decide⟩

/-- A capability of a run of 8 in register 1, a send whose answer has come, and a full register 20. -/
def sender : State :=
  (withX [(1, 7#64 <<< 28)]).modTh (fun h => { h with
    sl := { st := .done, tag := h.pc, code := 11 }, xarm := h.xarm.set 20 { st := .full, re := true } })

theorem witness_FabricComplete : sender.granted fFabric ∧
    (canAct sender [1, 2] [1, 2] ∧ (7#3).toNat ≤ capBits (sender.xr 1) 28 3 ∧ sender.holding = false ∧
      sender.sendRoom = true) ∧
    (canAct sender [1, 2, 3] [1, 2] ∧ sender.th.sl.st = .done ∧ sender.th.sl.tag = sender.th.pc) ∧
    (canAct sender [20, 2] [20] ∧ (20 : BitVec 6) ≠ 2 ∧ (sender.armOf 20).st = .full) ∧ canAct sender [2] [] :=
  ⟨by unfold State.granted; decide, ⟨canAct_of (by decide), by decide, by decide, by decide⟩,
   ⟨canAct_of (by decide), rfl, by decide⟩, ⟨canAct_of (by decide), by decide, by decide⟩, canAct_of (by decide)⟩

/-- A thread that was woken, beside one that sleeps. -/
def woken : State :=
  { (base.modTh (fun h => { h with wakeLatch := true })) with
    slots := [(0, { st := .run, th := { kern := true, wakeLatch := true } }), (1, { st := .sleep (.sleep 2) 5 })] }

theorem witness_ThreadControlComplete : (canAct base [2] [] ∧ base.th.wakeLatch = false) ∧
    (canAct woken [2] [] ∧ woken.th.wakeLatch = true) ∧ canAct (woken.modTh (fun h => { h with x := h.x.set 1 1#64 })) [1] [1] ∧
    (16 * coreOf 0 + 1 % 16 = 1 ∧ (woken.slot 1).occupied = true ∧ (woken.slot 1).st = .sleep (.sleep 2) 5) ∧
    base.th.pendingAny = false :=
  ⟨⟨canAct_of (by decide), by decide⟩, ⟨canAct_of (by decide), by decide⟩, canAct_of (by decide),
   ⟨by decide, by decide, rfl⟩, by decide⟩

/-- A launch of one thread at 0x400004 whose reply has come, a role in channel 5, and `land` at its entry. -/
def worker : State :=
  (((withX [(1, 0x400004#64)]).modTh (fun h => { h with
      ox := (h.ox.set 0 0x00010001#32).set 1 1#32, ll := { st := .done, tag := h.pc } })).modCtx 0 (fun c => { c with
    vcls := [{ vcl := 0, phys := 0, mask := 255 }] })).modCore 0 (fun c => { c with
    c := (c.c.set 10 0x400004#64).set 11 7#64, l1i := [(0x10000, 0xE600000300000000#512)] })

theorem witness_WorkComplete : worker.granted fLaunch ∧
    (canAct worker [1, 2] [1, 2] ∧
      worker.launchFault worker.th.ctx (worker.xr 1) (worker.oxr 0) (worker.oxr 1) (worker.oxr 2) = none ∧
      worker.th.ll.st = .done ∧ worker.th.ll.tag = worker.th.pc) ∧
    (canAct worker [1, 2, chanReg 15, chanReg 15 + 1#6] [1, 2, chanReg 15] ∧ worker.xr 1 ≠ 0#64 ∧
      (worker.xr 1).getLsbD 0 = false ∧ worker.xr (chanReg 15) = 0#64) ∧
    (canAct worker [chanReg 5, chanReg 5 + 1#6] [chanReg 5, chanReg 5 + 1#6] ∧ worker.th.pendingAny = false ∧
      worker.th.ll.st ≠ .busy ∧ worker.xr (chanReg 5) ≠ 0#64 ∧
      (begun worker [chanReg 5, chanReg 5 + 1#6] []).checkTarget .indirect (worker.xr (chanReg 5)) = .ok) ∧
    (canAct worker [2, 3] [2] ∧ (worker.xr 2).toNat ≤ worker.th.pm1) ∧ canAct worker [3] [] :=
  ⟨by unfold State.granted; decide, ⟨canAct_of (by decide), by decide +kernel, rfl, by decide⟩,
   ⟨canAct_of (by decide), by decide, by decide, by decide⟩,
   ⟨canAct_of (by decide), by decide, by decide, by decide, by decide +kernel⟩, ⟨canAct_of (by decide), by decide⟩,
   canAct_of (by decide)⟩

theorem vecReady_of {s : State} {ns : List RegN} {x : Option (BitVec 5)} (f : s.myCtx.feat.getLsbD fVector = true)
    (h : ns.all (fun r => (s.th.pendingAt r).isNone) = true)
    (g : (x.toList.map xreg).all (fun r => (s.armOf r).st != .awaiting) = true) (c : s.th.cap = none)
    (v : ns.all (fun n => match n with | .v r => (s.th.streamOf r).isNone | _ => true) = true)
    (l : (s.th.ring.filter (fun e => !e.retired)).length < 16) (w : s.th.lateWaits = false := by decide) :
    vecReady s ns x :=
  ⟨f, unheld_of h w, arrived_of g, c, fun r hr => by simpa using List.all_eq_true.mp v _ hr, l⟩

/-- A prefix that masks with k1. -/
def masked : State :=
  base.modTh (fun h => { h with
    prefixLatch := some { z := false, op4 := 3, rm := 0, me := true, maskReg := 1 }, k := h.k.set 1 0x8001#16 })

theorem witness_VectorComplete_int :
    (∃ p, vecIntSpec masked (.vadd 2 .rt 3 1 2 3) = some p ∧ (Instr.vadd 2 .rt 3 1 2 3).wf = true ∧
      vecReady masked (p.names masked) p.x ∧ p.ok) ∧
    ∃ p, vecPermSpec masked (.vsumF .rt 0 1 3) = some p ∧ (Instr.vsumF .rt 0 1 3).wf = true ∧
      vecReady masked (p.names masked) p.x ∧ p.ok :=
  ⟨⟨_, rfl, by decide, vecReady_of (by decide) (by decide) (by decide) rfl (by decide) (by decide), trivial⟩,
   ⟨_, rfl, by decide, vecReady_of (by decide) (by decide) (by decide) rfl (by decide) (by decide), by
     show (reduceFp fp32 32 4 .add 0
       { src := [masked.vr 1], en := enabledBy masked, x := 0#64, env := vecEnv masked, old := 0#512 }).fault = none
     decide +kernel⟩⟩

theorem witness_VectorComplete_fp : ∃ p, vecFpSpec masked (.vfadd .rt 1 1 2 3) = some p ∧
    (Instr.vfadd .rt 1 1 2 3).wf = true ∧ vecReady masked (p.names masked) p.x ∧ p.ok :=
  ⟨_, rfl, by decide, vecReady_of (by decide) (by decide) (by decide) rfl (by decide) (by decide), by
    show ∀ j < 512 / 32, (enabledBy masked).getLsbD (j * 32 / 32) = true →
      (fpLane fp32 (vecEnv masked) .add ([1, 2].map (fun r : BitVec 5 => (la masked 32 r j).toNat))).stop = none
    decide +kernel⟩

/-- The line's first byte in register 1; and with a grant. -/
def vlined : State := lined.modTh (fun h => { h with x := h.x.set 1 0x400100#64 })
def vgranted : State := granted.modTh (fun h => { h with x := h.x.set 1 0x400100#64 })
/-- The same with a mask that enables nothing. -/
def vnone : State := vgranted.modTh (fun h => { h with
  prefixLatch := some { z := false, op4 := 0, rm := 0, me := true, maskReg := 2 } })

theorem witness_VecMemComplete_load : ∃ e s2 m, ∃ c : L1Line, c.data = 0x11#512 ∧
    (begunHeavy vlined [xreg 1] []).resolve (vecAddrOf vlined 0 1) 64 (Kind.ofCode 0) = .ok e s2 ∧
    s2.machineOf (e.sys (vecAddrOf vlined 0 1).toNat) = some m ∧ s2.ownUpdate (m / 64) = false ∧
    (let v : VecSpec := { hold := 0, req := 0, x := some 1, dst := .v 3,
                          elem := fun j => c.data.toNat / 2 ^ (8 * (m % 64) + 32 * j) }
     vecReady vlined (v.names vlined) v.x) ∧ vlined.th.lateWaits = false ∧
    ∀ strong : Bool,
      (lineReady s2 (m / 64)).copyFor (coreOf vlined.cur) (vlined.cur % 16) (m / 64) vlined.th.pc = some c ∧
      (lineReady s2 (m / 64)).usable c strong = true :=
  ⟨_, _, _, { data := 0x11#512, wt := 0, leaseEnd := 0, granted := 0, asOf := 0, excl := true }, rfl, rfl, rfl, by decide,
    vecReady_of (by decide) (by decide) (by decide) rfl (by decide) (by decide), by decide, by decide⟩

theorem witness_VecMemComplete_store : ∃ e s2 m,
    (begunHeavy vgranted [xreg 1] []).resolve (vecAddrOf vgranted 0 1) 64 (Kind.ofCode 1) = .ok e s2 ∧
    s2.machineOf (e.sys (vecAddrOf vgranted 0 1).toNat) = some m ∧ s2.ownUpdate (m / 64) = false ∧
    storeReady vgranted 1 3 ∧ enabledBy vgranted ≠ 0#16 ∧
    (∃ g ∈ (lineReady s2 (m / 64)).me.grants, g.1 = vgranted.cur % 16 ∧ g.2.1 = m / 64) ∧ m % 64 = 0 ∧
    (combReady s2 (m / 64)).me.comb.length < 16 :=
  ⟨_, _, _, rfl, rfl, by decide,
    ⟨vecReady_of (by decide) (by decide) (by decide) rfl (by decide) (by decide), by decide⟩, by decide,
    ⟨(0, 0x10004, 1), by decide, rfl, by decide⟩, by decide, by decide⟩

theorem witness_VecMemComplete_masked : ∃ e s2 m,
    (begunHeavy vnone [xreg 1] []).resolve (vecAddrOf vnone 0 1) 64 (Kind.ofCode 1) = .ok e s2 ∧
    s2.machineOf (e.sys (vecAddrOf vnone 0 1).toNat) = some m ∧ s2.ownUpdate (m / 64) = false ∧
    storeReady vnone 1 3 ∧ enabledBy vnone = 0#16 :=
  ⟨_, _, _, rfl, rfl, by decide,
    ⟨vecReady_of (by decide) (by decide) (by decide) rfl (by decide) (by decide), by decide⟩, by decide⟩

/-- The last 64 bytes of the scratchpad. -/
def spLast : State := withX [(1, 819136#64)]

theorem witness_VecScratchpadComplete : ∃ n, n = winBytes (spLast.winAt (vecAddrOf spLast 0 1)).1 ∧
    vecReady spLast (({ hold := 0, req := 0, x := some 1, dst := .v 3 } : VecSpec).names spLast) (some 1) ∧
    spLast.th.lateWaits = false ∧ (vecAddrOf spLast 0 1).toNat + 64 ≤ 819200 ∧ (vecAddrOf spLast 0 1).toNat % 16 = 0 ∧
    (vecAddrOf spLast 0 1).toNat + n ≤ 819200 ∧ (vecAddrOf spLast 0 1).toNat % n = 0 ∧ storeReady spLast 1 3 ∧
    ∀ j < 16, (enabledBy spLast).getLsbD j = true →
      (winCode (vecEnv spLast) (spLast.winAt (vecAddrOf spLast 0 1)).1
        ((begunHeavy spLast [xreg 1] []).readScale (spLast.winAt (vecAddrOf spLast 0 1)).2 (vecAddrOf spLast 0 1).toNat).1 (la spLast 32 3 j).toNat).stop = none :=
  ⟨_, rfl, vecReady_of (by decide) (by decide) (by decide) rfl (by decide) (by decide), by decide, by decide, by decide,
   by decide +kernel,
   by decide +kernel, ⟨vecReady_of (by decide) (by decide) (by decide) rfl (by decide) (by decide), by decide⟩, by decide +kernel⟩

/-- A legal stream of 16-bit elements at an even base. -/
def streamer : State :=
  (withX [(1, 0xFFFFFFFFFFFFFFFE#64), (2, 0x00000001FFFE0001#64)]).modTh (fun h => { h with
    ox := ((h.ox.set 0 0xFFFF0001#32).set 1 2#32).set 2 0xFFFFFFFE#32 })

theorem witness_StreamComplete : streamer.granted fVector ∧
    streamer.unheld [.x 1, .x 2, .x 3, .v (streamReg 3)] ∧ streamer.arrived [1, 2] ∧
    (streamer.xr 2).extractLsb' 0 4 = 1 ∧ (streamer.xr 2).extractLsb' 32 32 ≠ 0 ∧ (streamer.oxr 0).extractLsb' 0 16 ≠ 0 ∧
    (streamer.oxr 0).extractLsb' 16 16 ≠ 0 ∧ (streamer.xr 2).extractLsb' 6 10 = 0 ∧
    ((streamer.xr 2).extractLsb' 0 4).toNat ≤ 6 ∧ ((streamer.xr 1).toNat : Int) % 2 = 0 ∧
    ((streamer.xr 2).extractLsb' 16 16).toInt % 2 = 0 ∧ (streamer.oxr 1).toInt % 2 = 0 ∧ (streamer.oxr 2).toInt % 2 = 0 :=
  ⟨by unfold State.granted; decide, unheld_of (by decide), arrived_of (by decide), by decide, by decide, by decide, by decide,
   by decide, by decide, by decide, by decide, by decide, by decide⟩

/-- The granule of `grain`, its phase at 0, and 65,535 in register 2. -/
def counter : State := grain.modTh (fun h => { h with x := h.x.set 2 65535#64 })

theorem witness_CompletionBarrierComplete : (grain.xr 1).toNat < 819200 ∧ (grain.xr 1).toNat % 16 = 0 ∧
    (canAct counter [1, 2] [1, 2] ∧ 1 ≤ (counter.xr 2).toNat ∧ (counter.xr 2).toNat ≤ 65535) ∧
    (canAct grain [1, 3] [1] ∧ grain.holding = false ∧ grain.unordered 4 = false) ∧
    ((counter.xr 1).toNat < 819200 ∧ (counter.xr 1).toNat % 16 = 0 ∧ canAct counter [1, 2, 3] [1, 2] ∧
      cbLow counter 51199 / 2 ^ 32 % 2 ^ 7 ≠ (counter.xr 2).toNat % 128) ∧
    canAct grain [1] [1] :=
  ⟨by decide, by decide, ⟨canAct_of (by decide), by decide, by decide⟩, ⟨canAct_of (by decide), by decide, by decide⟩,
   ⟨by decide, by decide, canAct_of (by decide), by decide +kernel⟩, canAct_of (by decide)⟩

/-- The core holds the lease; offset 0 and pitch 16 in registers 1 and 2, an accumulator shape in register 3. -/
def leased : State :=
  (withX [(1, 819184#64), (2, 16#64), (3, 0x00054040#64), (4, 255#64)]).modCluster 0 (fun c => { c with
    lease := { holder := some 0 } })

theorem witness_TileComplete_lease : leased.granted fMatrix ∧ canAct leased [5] [] ∧
    leased.mine.lease.holder = some (coreOf leased.cur % 8) ∧ leased.mine.lease.released = false ∧
    leased.mine.tileq = [] ∧
    base.mine.lease.holder ≠ some (coreOf base.cur % 8) :=
  ⟨by unfold State.granted; decide, canAct_of (by decide), by decide, by decide, rfl, by decide⟩

theorem witness_TileComplete : (∃ p, tileSpec leased (.tld .rt 2 1 15) = some p ∧ (Instr.tld .rt 2 1 15).wf = true ∧
      canAct leased p.reads p.reads ∧ p.ok ∧ (p.bar = true → barBad (leased.oxr 3) = false)) ∧
    (∃ p, tileSpec leased (.tsh .rt 3 19) = some p ∧ (Instr.tsh .rt 3 19).wf = true ∧
      canAct leased p.reads p.reads ∧ p.ok ∧ p.bar = false) ∧
    (∃ p, tileSpec leased (.tqnt .rt 4 16 15) = some p ∧ (Instr.tqnt .rt 4 16 15).wf = true ∧
      canAct leased p.reads p.reads ∧ p.ok) ∧
    leased.granted fMatrix ∧ leased.mine.lease.holder = some (coreOf leased.cur % 8) ∧ leased.mine.lease.released = false ∧
    admitted leased (.tile (clusterOf leased.cur)) :=
  ⟨⟨_, rfl, by decide, canAct_of (by decide), by show movable _ _; unfold movable; decide, fun _ => by decide⟩,
   ⟨_, rfl, by decide, canAct_of (by decide), by show shapeOk _ _; unfold shapeOk; decide, rfl⟩,
   ⟨_, rfl, by decide, canAct_of (by decide), by show (leased.xr 4).toNat < 256; decide⟩,
   by unfold State.granted; decide, by decide, by decide, by unfold admitted; decide⟩

/-- A legal copy of one 32-bit element in one row, within the first bytes of the scratchpad. -/
def copier : State :=
  (withX [(1, 15#64)]).modTh (fun h => { h with ox := (h.ox.set 0 0x00010001#32).set 1 1#32 })

theorem witness_CopyAndCollectiveComplete_copy :
    (∃ p, copySpec (.cpSm .rt 2 3 0 0 7) = some p ∧ (Instr.cpSm .rt 2 3 0 0 7).wf = true ∧ copier.granted fCopy ∧
      canAct copier p.reads p.reads ∧ (p.entry copier).fault 0 = none ∧
      admitted copier (.copy (clusterOf copier.cur) p.q.toNat)) ∧
    canAct leased [4] [4] ∧ (leased.xr 4).toNat < 256 ∧ admitted leased (.copy (clusterOf leased.cur) 7) :=
  ⟨⟨_, rfl, by decide, by unfold State.granted; decide, canAct_of (by decide), by decide +kernel, by unfold admitted; decide⟩,
   canAct_of (by decide), by decide, by unfold admitted; decide⟩

/-- A legal collective of this device alone on one element: destination and source in registers 1 and 2. -/
def gatherer : State :=
  (withX [(1, 0x400000#64), (2, 0x400040#64), (3, 15#64)]).modTh (fun h => { h with
    ox := (h.ox.set 0 1#32).set 1 0x00200000#32 })

theorem witness_CopyAndCollectiveComplete_collective :
    (∃ b a q, collSpec (.clAredSum .rt 2 1 3) = some (0, b, a, q) ∧ (Instr.clAredSum .rt 2 1 3).wf = true ∧
      gatherer.granted fCollective ∧ canAct gatherer [a, b] [a, b] ∧ gatherer.holdsQueue q.toNat = true ∧
      CollEntry.fault {
        who := gatherer.issuer, num := gatherer.nextEntry, cl := clusterOf gatherer.cur, form := 0, dst := gatherer.xr a,
        src := gatherer.xr b, ox0 := gatherer.oxr 0, ox1 := gatherer.oxr 1, ox2 := gatherer.oxr 2, bar := gatherer.oxr 3 }
        gatherer.devId = none ∧
      admitted gatherer (.coll gatherer.myField q.toNat)) ∧
    canAct gatherer [3] [3] ∧ (gatherer.xr 3).toNat < 16 ∧
    ∀ j < 4, (gatherer.xr 3).getLsbD j = true → gatherer.holdsQueue j = true :=
  ⟨⟨_, _, _, rfl, by decide, by unfold State.granted; decide, canAct_of (by decide), by decide, by decide +kernel,
    by unfold admitted; decide⟩, canAct_of (by decide), by decide, by decide⟩

/-- An outstanding range of the context, with one access waiting. -/
def ranged : State :=
  (withX [(1, 7#64), (2, 1#64)]).modField 0 (fun f => { f with
    ranges := [{ fid := 7#32, owner := 0, stage := 0, level := 1, page := 0x400, npg := 1, nrec := 1, r := true, w := false,
                 x := false, eng := false, who := ⟨16, 0#8, 0, 0⟩, waits := [(0, 0, 0x400)] }] })

theorem witness_FaultDoneComplete : ∃ s2 r, canAct ranged [1, 2] [1, 2] ∧ ranged.th.kern = true ∧
    (ranged.xr 1).toNat < 2 ^ 32 ∧ ranged.rangeOf ((ranged.xr 1).setWidth 32) = some r ∧ r.owner = ranged.th.ctx ∧
    (begun ranged [1, 2] []).fence 4 = .ok () s2 ∧ ranged.xr 2 ≠ 0#64 ∧ (base.xr 2 = 0#64) :=
  ⟨_, _, canAct_of (by decide), by decide, by decide, rfl, by decide, rfl, by decide, by decide⟩

theorem witness_RegisterMovesComplete : (8#6).toNat < 9 ∧ canAct base [3] [] ∧ canAct base [3] [3] ∧ base.th.kern = true ∧
    canAct (withX [(1, 0x503#64)]) [1, 3] [1] ∧ canAct (withX [(1, 0x107#64)]) [1, 2] [1, 2] ∧
    (∃ v, crOf (withX [(1, 0x503#64)]) ((withX [(1, 0x503#64)]).xr 1).toNat = some v) ∧
    ∃ v, crOf (withX [(1, 0x107#64)]) ((withX [(1, 0x107#64)]).xr 1).toNat = some v :=
  ⟨by decide, canAct_of (by decide), canAct_of (by decide), by decide, canAct_of (by decide), canAct_of (by decide),
   ⟨_, rfl⟩, ⟨_, rfl⟩⟩

/-- A thread in its user handler, with a held entry. -/
def handler : State := base.modTh (fun h => { h with st := 0x80#64, epc := 0x400004#64, uha := 0x400008#64 })
def holder : State := base.modTh (fun h => { h with
  ring := [{ seq := 5#8, word := 0#32, pfx := none, addr := 0x400000#64, left := 2, writes := [.v 3 1#512] }] })

theorem witness_TrapReturnComplete : base.th.inFlight = false ∧ holder.th.inFlight = true ∧ stBit base.th.st 7 = false ∧
    stBit handler.th.st 7 = true ∧ (begun handler [] []).checkTarget .ret handler.th.epc = .ok :=
  ⟨by decide, by decide, by decide, by decide, by decide +kernel⟩

/-- A thread with an entry in its replay list. -/
def replayer : State := (withX [(1, 5#64)]).modTh (fun h => { h with
  replay := [{ seq := 5#8, word := 0#32, pfx := none, addr := 0x400000#64 }] })

theorem witness_RingComplete : canAct replayer [1, 2] [1] ∧ canAct replayer [2] [] ∧ canAct replayer [1] [1] ∧
    ∃ e ∈ replayer.th.replay, e.seq = (replayer.xr 1).setWidth 8 :=
  ⟨canAct_of (by decide), canAct_of (by decide), canAct_of (by decide), by decide⟩

/-- 2^20 pages from page 0x400, the reply there; and before anything is sent, or with the word of a walk. -/
def invalidator : State := (withX [(1, 0x400000#64), (2, 0x100000#64), (3, 10#64 <<< 60)]).modTh (fun h => { h with
  rl := { st := .done, tag := h.pc } })
def invalidates : State := invalidator.modTh (fun h => { h with rl := {} })
def prober : State := invalidates.modTh (fun h => { h with probed := some (h.pc, 0x400000#64, 5#64) })

theorem witness_TranslationComplete : kernel invalidator fTranslation ∧ invalidator.th.lateWaits = false ∧
    canAct invalidator [1, 2] [1, 2] ∧
    canonical (invalidator.xr 1) = true ∧ 1 ≤ (invalidator.xr 2).toNat ∧ (invalidator.xr 2).toNat ≤ 2 ^ 20 ∧
    (invalidator.xr 1).toNat / 4096 + (invalidator.xr 2).toNat ≤ 2 ^ 52 ∧ invalidator.holding = false ∧
    invalidator.unordered 4 = false ∧ replied invalidator ∧
    (canAct invalidator [3] [3] ∧ (invalidator.xr 3).extractLsb' 44 16 = 0#16 ∧
      (invalidator.xr 3).extractLsb' 60 4 = 10#4) ∧
    canAct invalidator [1, 4] [1] ∧ canAct invalidator [4] [] :=
  ⟨⟨by unfold State.granted; decide, by decide⟩, by decide, canAct_of (by decide), by decide, by decide, by decide, by decide,
   by decide, by decide, ⟨rfl, by decide, rfl⟩, ⟨canAct_of (by decide), by decide, by decide⟩, canAct_of (by decide),
   canAct_of (by decide)⟩

theorem witness_TranslationComplete_sends : kernel invalidates fTranslation ∧ canAct invalidates [1, 2] [1, 2] ∧
    canAct invalidates [3] [3] ∧ invalidates.holding = false ∧ invalidates.unordered 4 = false ∧
    invalidates.th.rl.st = .idle ∧ (canAct invalidates [1, 4] [1] ∧ invalidates.th.probed = none) ∧
    kernel prober fTranslation ∧ canAct prober [1, 4] [1] ∧ canonical (prober.xr 1) = true ∧
    prober.th.probed = some (prober.th.pc, prober.xr 1, 5#64) :=
  ⟨⟨by unfold State.granted; decide, by decide⟩, canAct_of (by decide), canAct_of (by decide), by decide, by decide, by decide,
   ⟨canAct_of (by decide), by decide⟩, ⟨by unfold State.granted; decide, by decide⟩, canAct_of (by decide), by decide,
   by decide⟩

/-- R364: a page with a fault pending; one that the root's stage, Bare, maps; one that no entry of a table maps. -/
def barePage : State := { base with ctxs := [(0, { ctx0 with depth := 0 })] }
def noPage : State := { base with ctxs := [(0, { ctx0 with depth := 0, atp := 0xA000000000000400#64 })] }

theorem witness_TranslationComplete_probe : faulted.faultPending 0 0 0x400 = true ∧
    (barePage.faultPending 0 0 0x400 = false ∧
      ∃ w u, barePage.translateFor 0 false 0 0x400000 (Kind.ofCode 0) = .ok w u) ∧
    noPage.faultPending 0 0 0x400 = false ∧
    ∃ c l p k u, noPage.translateFor 0 false 0 0x400000 (Kind.ofCode 0) = .fault c l p k u ∧
      (noPage.pendingLevel 0 c p).isSome = false ∧ (noPage.ctx c).depth < 16 ∧ l < 16 :=
  ⟨by decide, ⟨by decide, _, _, rfl⟩, by decide, _, _, _, _, _, rfl, by decide, by decide, by decide⟩

/-- A context with one child, 3, under handle 0, and a frame held for it: a descriptor address in register 1, the handle in
register 2, itself in register 3, a token in register 4. -/
def parent : State :=
  ((withX [(1, 0x400040#64), (2, 0#64), (3, 255#64), (4, 9#64)]).modCtx 0 (fun c => { c with
    handles := [(0, 3)], usedChildren := 1 })).modCtx 3 (fun c => { c with parent := some (0, 0), depth := 2, framesIn :=
      [{ num := 0, sid := 7, why := 2, token := 9#64, handler := 0, qo := 0xFF#8, th := {} }] })

theorem witness_ContextComplete : kernel parent fContext ∧ parent.th.ctx < 2048 ∧
    (canAct parent [1, 5] [1] ∧ canonical (parent.xr 1) = true ∧ (parent.xr 1).toNat % 64 = 0 ∧ engineOpen parent ∧
      parent.myCtx.usedChildren < parent.myCtx.children ∧ parent.myCtx.handles.find? 1 = none ∧
      ∀ k < 1, (parent.myCtx.handles.find? k).isSome = true) ∧
    (canAct parent [2, 1] [2, 1] ∧ handled parent (parent.xr 2) true ∧ (parent.xr 1).toNat % 32 = 0) ∧
    (canAct parent [3, 5] [3] ∧ handled parent (parent.xr 3) true ∧ (parent.xr 3).toNat = 255) ∧
    (canAct parent [2] [2] ∧ handled parent (parent.xr 2) false ∧ (parent.xr 2).toNat ≠ 255) ∧
    (canAct parent [4] [4] ∧ (parent.heldBy parent.th.ctx (parent.xr 4)).isSome = true ∧ (parent.xr 4).toNat < 64) ∧
    (11#6).toNat ∈ [3, 10, 11, 13, 14, 17] ∧ (1#6).toNat ∈ [1, 3, 6, 7, 8, 10, 14, 17] ∧
    (parent.modCtx 0 (fun c => { c with act := false })).myCtx.act = false :=
  ⟨⟨by unfold State.granted; decide, by decide⟩, by decide,
   ⟨canAct_of (by decide), by decide, by decide, by unfold engineOpen; decide, by decide, by decide, by decide⟩,
   ⟨canAct_of (by decide), by unfold handled; decide, by decide⟩,
   ⟨canAct_of (by decide), by unfold handled; decide, by decide⟩,
   ⟨canAct_of (by decide), by unfold handled; decide, by decide⟩,
   ⟨canAct_of (by decide), by decide, by decide⟩, by decide, by decide, by decide⟩

/-- Slot 0 in a state of a slot. -/
def slotted (st : SlotSt) : State := base.modSlot 0 (fun sl => { sl with st := st })

theorem witness_SlotWakeEvents :
    ((slotted (.sleep (.policy [.held]) 0)).slot 0).st = .sleep (.policy [.held]) 0 ∧
    (((slotted (.sleep (.policy [.held]) 64)).slot 0).st = .sleep (.policy [.held]) 64 ∧
      [Cause.held].all ({ slotted (.sleep (.policy [.held]) 64) with cur := 0 } : State).clear = true ∧
      (slotted (.sleep (.policy [.held]) 64)).opens (coreOf 0) = true ∧
      ((slotted (.sleep (.policy [.held]) 64)).core (coreOf 0)).halted = false) ∧
    ((slotted (.sleep (.policy [.barrierHeld 0]) 64)).slot 0).st = .sleep (.policy [.barrierHeld 0]) 64 ∧
    ((slotted (.sleep .yield 0)).slot 0).st = .sleep .yield 0 ∧ ((slotted (.skip 0)).slot 0).st = .skip 0 ∧
    ((slotted (.sleep (.sleep 9) 0)).slot 0).st = .sleep (.sleep 9) 0 ∧
    ((base.modSlot 0 (fun sl => { sl with dying := true })).slot 0).dying = true ∧
    (base.modSlot 0 (fun sl => { sl with dying := true })).opens (coreOf 0) = true :=
  ⟨rfl, ⟨rfl, by decide, by decide, by decide⟩, rfl, rfl, rfl, rfl, rfl, by decide⟩

/-- A trap of the user class and one that goes by reflection, and threads that wait with them. -/
def userTrap : Trap := { code := tDIVZERO, info := 1#64, pc := 0x400000#64, st := 0#64 }
def sysTrap : Trap := { code := tTRAP, info := 1#64, pc := 0x400000#64, st := 0#64 }
def trapper (t : Trap) : State := base.modTh (fun h => { h with uha := 0x400008#64, trapWait := some t })
def lateEntry : RingEntry :=
  { seq := 5#8, word := 0#32, pfx := none, addr := 0x400000#64, fault := some (tDIVZERO, 1#64) }
def latecomer (uha : Word) : State := base.modTh (fun h => { h with uha := uha, ring := [lateEntry] })
def overwritten (ring : List RingEntry) : State :=
  base.modTh (fun h => { h with uha := 0x400008#64, pendOv := some (3, 1), ring := ring })
/-- A send that has waited since cycle 0, and a core with a deferred reply and n entries in its inbox. -/
def sending (now : Nat) : State := { (base.modTh (fun h => { h with sl := { st := .busy } })) with cycle := now }
def anEntry : InboxEntry := { kind := 0, slot := 0, gen := 0#8 }
def deferring (n : Nat) : State :=
  base.modCore 0 (fun c => { c with deferred := [anEntry], inbox := List.replicate n anEntry })

theorem witness_TrapEvents :
    (((trapper userTrap).thread 0).trapWait = some userTrap ∧ ((trapper userTrap).thread 0).inFlight = false ∧
      ((trapper userTrap).thread 0).takesTrap userTrap.code = true) ∧
    (((trapper sysTrap).thread 0).trapWait = some sysTrap ∧ ((trapper sysTrap).thread 0).inFlight = false ∧
      ((trapper sysTrap).thread 0).takesTrap sysTrap.code = false) ∧
    (((latecomer 8#64).thread 0).lateFault = some lateEntry ∧ lateEntry.fault = some (tDIVZERO, 1#64) ∧
      ((latecomer 8#64).thread 0).takesTrap tDIVZERO = true) ∧
    (((latecomer 0#64).thread 0).lateFault = some lateEntry ∧ ((latecomer 0#64).thread 0).takesTrap tDIVZERO = false) ∧
    (((overwritten []).thread 0).pendOv = some (3, 1) ∧ stBit ((overwritten []).thread 0).st 7 = false ∧
      ((overwritten []).thread 0).inFlight = false ∧ ((overwritten []).thread 0).takesTrap tOVERWRITE = true) ∧
    (((overwritten [lateEntry]).thread 0).pendOv = some (3, 1) ∧ ((overwritten [lateEntry]).thread 0).inFlight = true) ∧
    (let s := slotted (.sleep (.reflect sysTrap) 0)
     (s.slot 0).st = .sleep (.reflect sysTrap) 0 ∧ (s.thread 0).inFlight = false ∧
      (s.ctx (s.handlerOf (s.thread 0) sysTrap)).tqRoom = true ∧ (s.ctx (s.thread 0).ctx).freeFrame = some 0) :=
  ⟨by decide, by decide, by decide, by decide, by decide, by decide, by decide⟩

/-- A weak vector store that waits for nothing any more. -/
def laterOn : State :=
  let d : LateStore := { dest := .weak, va := 0x400100, at_ := 0x400100, bytes := [some 7#8] }
  base.modTh (fun h => { h with
    ring := [{ seq := 5#8, word := 0#32, pfx := none, addr := 0x400000#64, store := some d }] })

theorem witness_RingEvents :
    (∃ e, (holder.thread 0).ring.find? (fun o => !o.retired) = some e ∧ e.fault = none ∧
      ({ holder with cur := 0 } : State).arrivedAt e = false) ∧
    (∃ e d, (laterOn.thread 0).ring.find? (fun o => !o.retired) = some e ∧ e.fault = none ∧
      ({ laterOn with cur := 0 } : State).arrivedAt e = false ∧ e.store = some d ∧ d.dest = .weak ∧
      (laterOn.core (coreOf 0)).comb.length < 16) ∧
    (((sending 65536).thread 0).sl.st = .busy ∧ ((sending 65536).thread 0).sl.since + 65536 ≤ (sending 65536).cycle) ∧
    ¬ (((sending 65535).thread 0).sl.st = .busy ∧ ((sending 65535).thread 0).sl.since + 65536 ≤ (sending 65535).cycle) ∧
    (((deferring 47).core 0).deferred = [anEntry] ∧ ((deferring 47).core 0).inbox.length < 48) ∧
    ((deferring 48).core 0).deferred = [anEntry] ∧ 48 ≤ ((deferring 48).core 0).inbox.length :=
  ⟨⟨_, rfl, rfl, by decide⟩, ⟨_, _, rfl, rfl, by decide, rfl, rfl, by decide⟩, by decide, by decide, by decide, by decide,
   by decide⟩

/-- An entry of the combining buffer of the line, 4,096 cycles old; and a copy of a line 8,193 cycles after its grant. -/
def combed : State := lined.modCore 0 (fun c => { c with
  cycle := 4096, comb := [{ line := 0x10004, bytes := [(0x400100, 7#8)], since := 0, writers := [0] }] })
def aged : State := lined.modCore 0 (fun c => { c with cycle := 8193 })

theorem witness_LineEvents :
    (∃ e, (combed.core 0).comb.find? (fun e => e.line == 0x10004) = some e) ∧ combed.combDue 0 (combed.core 0).cycle = [0x10004] ∧
    lined.ownedElsewhere 0 0x10004 = false ∧ ((lined.core 0).l1.find? 0x10004).isSome = true ∧
    ∃ c, (aged.core 0).l1.find? 0x10004 = some c ∧ c.fresh (aged.core 0).cycle = false ∧ c.kept (aged.core 0).cycle = false :=
  ⟨⟨_, rfl⟩, by decide, by decide, by decide, ⟨_, rfl, by decide, by decide⟩⟩

/-- The instruction line at the pc: `land`; and the compact `nop.n`. -/
def fetched (line : BitVec 512) : State := base.modCore 0 (fun c => { c with l1i := [(0x10000, line)] })
/-- A stream of scratchpad elements, and a forwarded load that has waited for 2^20 cycles. -/
def asker (now : Nat) : State := (base.modTh (fun h => { h with streams := h.streams.set 0 (some
    { base := 0#64, ctl := 0x0000000100000030#64, ox0 := 0x00010001#32, s1 := 4#32, s2 := 0#32 }) })).modCore 0
  (fun c => { c with cycle := now, remote := [{ kind := 0, slot := 0, gen := 0#8, sys := 3 * 2 ^ 45, since := 0 }] })

set_option exponentiation.threshold 600 in
theorem witness_RemoteEvents :
    (0x400040#64 ∈ (fetched 0xE6000003#512).prefetches 0 ((fetched 0xE6000003#512).thread 0).pc ∧
      ∃ j, (fetched 0xE6000003#512).fetchParcel 0 0x400040#64 = .wait (some j)) ∧
    (((fetched 0xE6000003#512).slot 0).st = .run ∧ ((fetched 0xE6000003#512).slot 0).occupied = true ∧
      ∃ w, (fetched 0xE6000003#512).fetchAt 0 ((fetched 0xE6000003#512).thread 0).pc = .two w) ∧
    (∃ p, (fetched 1#512).fetchAt 0 ((fetched 1#512).thread 0).pc = .one p) ∧
    (∃ st, vrd ((asker 0).thread 0).streams 0 = some st ∧ (st.inSp = true ∨ st.isWrite = true)) ∧
    (∃ r, ((asker 0).core 0).remote[0]? = some r ∧ r.kind = 0 ∧
      ((asker 0).thread (16 * 0 + r.slot)).uid = r.uid ∧ ((asker 0).core 0).cycle < r.since + 2 ^ 20) ∧
    (asker 0).travels 0 0 = false ∧ { asker 0 with outbox := [{ num := 0, bytes := [] }] }.travels 0 0 = true ∧
    (∃ r, ((asker (2 ^ 20)).core 0).remote[0]? = some r ∧ r.since + 2 ^ 20 ≤ ((asker (2 ^ 20)).core 0).cycle) ∧
    (2 ^ 45 + 0x400100 < 2 ^ 56 ∧ sysReserved (2 ^ 45 + 0x400100) = false ∧
      base.machineOf (2 ^ 45 + 0x400100) = some 0x400100 ∧
      base.cores.all (fun p => p.2.upd.all (fun u => u.line != 0x400100 / 64)) = true) :=
  ⟨⟨by decide, _, rfl⟩, ⟨rfl, by decide, _, rfl⟩, ⟨_, rfl⟩, ⟨_, rfl, by decide⟩, ⟨_, rfl, rfl, rfl, by decide⟩, by decide,
   by decide, ⟨_, rfl, by decide⟩,
   by decide⟩

/-- A message from core 0, a waiting launch, and a state that owes the job. -/
def aMsg (ack delivery : Bool) : Msg :=
  { cap := 3#64 <<< 44, idx := 0, value := 1#64, clock := 0, ack := ack, ctx := 0, from_ := 0, fromGen := 0#8, since := 0,
    delivery := delivery }
def aWork : Work := { id := 0, who := ⟨0, 0#8, 0, 0⟩, ctx := 0, queue := 0, entry := 2#64, arg := 0#64, ox0 := 0#32, ox1 := 0#32,
                      ox2 := 0#32, clock := 0 }
def aReq (op : ReqOp) : Req := { who := ⟨0, 0#8, 0, 0⟩, op := op, clock := 0 }
def owing (j : Job) : State := { base with due := [j] }

theorem witness_OwedEvents :
    (∀ j ∈ [Job.launch aWork, .launchReply ⟨0, 0#8, 0, 0⟩ 3 1 0, .arrive 0 (aMsg false false), .arrive 0 (aMsg false true),
      .reply (aMsg true false) 9 0, .fetch 0 1 [], .walk 0 0 0x400000 0 ⟨0, 0#8, 0, 0⟩ false,
      .probe ⟨0, 0#8, 0, 0⟩ 0x400000#64 0#64, .trigger 1 2 3, .request (aReq (.inval 0 0 1))],
      (owing j).due[(owing j).firstOfWay 0]? = some j) ∧ (aMsg false false).delivery = false ∧
    (aMsg false true).delivery = true ∧ (aReq (.inval 0 0 1)).op = .inval 0 0 1 ∧
    firstIdx (owing (.request (aReq (.inval 0 0 1)))).due (fun j => match j with | .request r => r.who.sid == 0 | _ => false)
      = some 0 :=
  ⟨by decide, by decide, by decide, by decide, by decide⟩

/-- A light thread in transit to slot 5; a launch that waits for room; a message that waits to leave. -/
def mover : State :=
  ((base.modCtx 0 (fun c => { c with framesIn :=
      [{ num := 65536 + 5, sid := 0, why := 3, qo := 0xFF#8, th := {} }] })).modCluster 0 (fun c => { c with
    waiters := [aWork], work := List.replicate 15 aWork })).modCore 0 (fun c => { c with sendq := [aMsg true false] })

/-- Core 0 is full, with a light thread in slot 0, at a boundary. -/
def lightly : State :=
  { base with
    ctxs := [(0, { ctx0 with vcls := [{ vcl := 0, phys := 0, mask := 255 }] })]
    cycle := 16
    slots := (upTo 16).map (fun i => (i, { st := .run, th := { mig := true } })) }

theorem witness_MoveEvents :
    (let s : State := { base with cycle := 16 }
     s.atBoundary = true ∧ s.arbed < s.cycle ∧ (∀ p ∈ s.ctxs, p.2.framesIn = []) ∧ ∀ p ∈ s.clusters, p.2.work = []) ∧
    (lightly.cluster 0).lightAt ≤ lightly.cycle ∧
    (((upTo 128).map (fun i => 128 * 0 + i)).find? (lightly.mayMove 0) = some 0 ∧
      (lightly.lightDest (lightly.thread 0).ctx 0).bind (fun d => (lightly.freeSlots d).head?) = some 16) ∧
    ((mover.cluster 0).waiters = [aWork] ∧ (mover.cluster 0).work.length < 16) ∧
    (∃ f, mover.ctxs.findSome? (fun p => (p.2.framesIn.find? (fun f => f.num == 65536 + 5)).map (fun f => (p.1, f)))
      = some (0, f)) ∧
    ((mover.core 0).sendq = [aMsg true false] ∧ capBits (aMsg true false).cap 54 10 = mover.devId) ∧
    (∃ dst, (mover.modCtx 0 (fun c => { c with depth := 0 })).physOf 0 (capBits (aMsg true false).cap 44 10) = some dst ∧
      (mover.modCtx 0 (fun c => { c with depth := 0 })).permits 0 dst = true) ∧
    ((mover.modCluster 0 (fun c => { c with ptcAll := false })).permits 0 3 = false ∧ (aMsg true false).ack = true) :=
  ⟨by decide, by decide, by decide +kernel, by decide, ⟨_, rfl⟩, by decide, ⟨_, rfl, by decide⟩, by decide⟩

/-- The root context in the place of the first, with translation off. -/
def rooted : State := base.modCtx 0 (fun _ => rootCtx)
/-- No context runs. -/
def still : State := base.modCtx 0 (fun c => { c with phase := .built, act := false })

theorem witness_RegisterWriteEvents_blocks :
    (winEn (1#64 <<< 31) ∧ winRows (1#64 <<< 31) = 0) ∧ 31 < 32 ∧
    hbArr (vrd ((barred.modCluster 0 (fun c => { c with hbc := c.hbc.set 3 (0x1000000#64) })).cluster 0).hbc 3) ≠ 0 ∧
    (hbEn ((1#64 <<< 40) ||| 129#64) = true ∧ hbCnt ((1#64 <<< 40) ||| 129#64) > 128) ∧
    (hbArr (vrd (barred.cluster 0).hbc 3) = 0 ∧ hbEn ((1#64 <<< 40) ||| 128#64) = true ∧
      0 < hbCnt ((1#64 <<< 40) ||| 128#64) ∧ hbCnt ((1#64 <<< 40) ||| 128#64) ≤ 128) ∧
    (lnOk (ringLn 6#64) = true ∧ (base.ctx 0).fqh = (base.ctx 0).fqt) :=
  ⟨by decide, by decide, by decide, by decide, by decide, by decide⟩

theorem witness_RegisterWriteEvents_control :
    ((parent.ctx 3).parent = some (0, 0) ∧ (511#64).toNat < 512 ∧ (511#64).setWidth 9 &&& ~~~(parent.ctx 0).feat = 0#9) ∧
    (1023 < 1024 ∧ base.inFlightPackets = false) ∧
    (∀ p ∈ base.clusters, dieOf p.1 = 3 → hbEn (vrd p.2.hbc 3) = false) ∧ vrd (base.field 7).collq 3 = [] ∧
    still.ctxs.all (fun p => p.2.phase != .running) = true :=
  ⟨by decide, by decide, by decide, by decide, by decide⟩

/-- A fence at the head of queue 1 of the copy engine, an enabled barrier that its arrivals complete, and one past its
time. -/
def aFence : CopyEntry := { who := ⟨0, 0#8, 0, 0⟩, fence := some 255, dst := .mem, src := .mem, num := 3 }
def queued : State := base.modCluster 0 (fun c => { c with copyq := c.copyq.set 1 [aFence] })
def arrivedAll : State := base.modCluster 0 (fun c => { c with hbc := c.hbc.set 3 (0x1000001#64 ||| (1#64 <<< 40)) })
def pastTime : State :=
  { (base.modCluster 0 (fun c => { c with
      hbc := c.hbc.set 3 (0x1010001#64 ||| (1#64 <<< 40)), hbSince := c.hbSince.set 3 (some 0) })) with cycle := 256 }
def aCollFence : CollEntry := { who := ⟨0, 0#8, 0, 0⟩, cl := 0, fence := some 15, num := 3 }
def collQueued : State := base.modField 0 (fun f => { f with collq := f.collq.set 1 [aCollFence] })

theorem witness_QueueEvents :
    (arrivedAll.hbarMembers 0 3 = [0] ∧
      ∀ cl ∈ arrivedAll.hbarMembers 0 3, hbArr (vrd (arrivedAll.cluster cl).hbc 3) = hbCnt (vrd (arrivedAll.cluster cl).hbc 3)) ∧
    pastTime.hbarExpired 0 3 = true ∧ (∀ r ∈ (base.cluster 0).parkResv, base.cycle < r.2.2) ∧
    (queued.copyHead 0 1 = some aFence ∧ aFence.fence = some 255 ∧
      ∀ j < 8, bitAt 255 j = true → j ≠ 1 → ∀ o ∈ vrd (queued.cluster 0).copyq j, aFence.num ≤ o.num) ∧
    (collQueued.collHead 0 1 = some aCollFence ∧ aCollFence.fence = some 15 ∧
      ∀ j < 4, bitAt 15 j = true → j ≠ 1 → ∀ o ∈ vrd (collQueued.field 0).collq j, aCollFence.num ≤ o.num) :=
  ⟨by decide, by decide, by decide, by decide, by decide⟩

/-- A copy of one element of the scratchpad at its head, before and after its start. -/
def aCopy (wins : Option (List Word)) : CopyEntry :=
  { who := ⟨0, 0#8, 0, 0⟩, dst := .sp, src := .sp, dbase := 819199#64, ox0 := 0x00010001#32, ox1 := 1#32, wins := wins }
def copying (wins : Option (List Word)) : State := base.modCluster 0 (fun c => { c with copyq := c.copyq.set 7 [aCopy wins] })
/-- A collective over two devices, and one of this device alone that goes into the last step. -/
def aColl (cnt : Nat) : CollEntry :=
  { who := ⟨0, 0#8, 0, 0⟩, cl := 0, dst := 0x400000#64, src := 0x400040#64, ox0 := 1#32, ox1 := BitVec.ofNat 32 (cnt * 2 ^ 21) }
/-- The entry of device 1 that matches it, with its source. -/
def aPartner (src : List Nat) : Partner :=
  { dev := 1, ctx := 0, field := 0, queue := 0, form := 0, ox0 := 1#32, ox1 := BitVec.ofNat 32 (2 * 2 ^ 21), ox2 := 0#32,
    src := src }
def gathering (cnt : Nat) : State := rooted.modField 0 (fun f => { f with collq := f.collq.set 0 [aColl cnt] })

theorem witness_EngineEvents :
    ((copying none).copyHead 0 7 = some (aCopy none) ∧ (aCopy none).fence = none ∧ (aCopy none).wins = none ∧
      ∀ r < (aCopy none).rows, (aCopy none).rowBreaks (((copying none).cluster 0).winsAt (copying none).cycle).toList
        ((aCopy none).rowAddrs r 0).1 ((aCopy none).rowAddrs r 0).2 = none) ∧
    (let wins : List Word := []
     let e := aCopy (some wins)
     let s := copying (some wins)
     s.copyHead 0 7 = some e ∧ e.wins = some wins ∧ e.idxd = 0 ∧ e.fer = false ∧
     (let a := e.rowAddrs e.row (sval 32 (Memory.nat (s.cluster 0).scratch (e.itg * 16 + 4 * (e.row % e.n1)) 4))
      let sf := endFmt e.src e.sfmt wins a.1
      let df := endFmt e.dst e.dfmt wins a.2
      let sz := endSizes sf.1 df.1
      s.endAddress 0 e.src a.1 (e.elems * sz.1) = none ∧ s.endAddress 0 e.dst a.2 (e.elems * sz.2) = none ∧
      a.1.toNat % sz.1 = 0 ∧ a.2.toNat % sz.2 = 0 ∧ (s.cluster 0).vsegTo = none ∧
      s.engErr 0 e.who.ctx e.failedPage (endPieces e.src a.1 (e.elems * sz.1)) (endPieces e.dst a.2 (e.elems * sz.2)) = none ∧
      ∃ sp dp u v p p', s.endMap 0 e e.src a.1 (e.elems * sz.1) ⟨true, false, false⟩ = (.ok (some sp), u, p) ∧
        u.endMap 0 e e.dst a.2 (e.elems * sz.2) ⟨false, true, false⟩ = (.ok (some dp), v, p'))) ∧
    ((gathering 2).collHead 0 0 = some (aColl 2) ∧ (aColl 2).fence = none ∧ 2 ≤ (aColl 2).cnt ∧ (aColl 2).parts = none ∧
      (gathering 2).collPermits (aColl 2) = true ∧
      ((aColl 2).partners (gathering 2).devId 0 0 [aPartner [7]]).length + 1 = (aColl 2).cnt ∧
      (∀ p ∈ (aColl 2).partners (gathering 2).devId 0 0 [aPartner [7]], (aColl 2).agrees p = true) ∧
      ((aColl 2).partners (gathering 2).devId 0 0 [aPartner []]).length + 1 = (aColl 2).cnt ∧
      ∃ p ∈ (aColl 2).partners (gathering 2).devId 0 0 [aPartner []], (aColl 2).agrees p = false) ∧
    (let e := aColl 1
     let s := gathering 1
     s.collHead 0 0 = some e ∧ e.cnt = 1 ∧ s.endAddress e.cl .mem e.src e.srcBytes = none ∧
      s.endAddress e.cl .mem e.dst e.dstBytes = none ∧ e.src.toNat % e.size = 0 ∧ e.dst.toNat % e.size = 0 ∧
      s.engErr e.cl e.who.ctx e.failedPage (pagePieces e.src.toNat e.srcBytes) (pagePieces e.dst.toNat e.dstBytes) = none ∧
      ∃ sl dl u v, s.engMap e.cl e.who ⟨true, false, false⟩ (pagePieces e.src.toNat e.srcBytes) = .ok sl u ∧
        u.engMap e.cl e.who ⟨false, true, false⟩ (pagePieces e.dst.toNat e.dstBytes) = .ok dl v) :=
  ⟨⟨by decide, rfl, rfl, by decide +kernel⟩,
   ⟨by decide, rfl, rfl, by decide +kernel, by decide +kernel, by decide +kernel, by decide +kernel, by decide +kernel, rfl,
     by decide +kernel, _, _, _, _, _, _, rfl, rfl⟩,
   ⟨by decide, rfl, by decide, rfl, by decide +kernel, by decide, by decide, by decide, by decide⟩,
   ⟨by decide, by decide, by decide +kernel, by decide +kernel, by decide, by decide, by decide +kernel, _, _, _, _, rfl, rfl⟩⟩

/-- A tile command at the head of the queue of cluster 0, its core holding the lease. -/
def tiled (c : TileCmd) (sh : Option (Nat × Nat × Nat)) (n : Nat := 1) : State := base.modCluster 0 (fun k => { k with
  lease := { holder := some 0 }, tileq := [{ who := ⟨0, 0#8, 0, 0⟩, cmd := c, shapes := sh, nstep := n }] })
/-- Shape words of one row: an operand of format 2 and of format 1, and an accumulator of format 5. -/
def sh2 : Nat := 0x20101
def sh1 : Nat := 0x10101
def sh5 : Nat := 0x50101

theorem witness_TileEvents_lease :
    (let s := base.modCluster 0 (fun k => { k with lease := { reqs := [3] } })
     s.cycle % 16 = 0 ∧ (s.cluster 0).lease.holder = none ∧ (s.cluster 0).lease.next = some 3) ∧
    (let s := base.modCluster 0 (fun k => { k with lease := { holder := some 0, released := true } })
     (s.cluster 0).lease.holder.isSome = true ∧ (s.cluster 0).lease.released = true ∧ (s.cluster 0).tileq = []) ∧
    (let s : State := { (base.modCluster 0 (fun k => { k with lease := { holder := some 0, reqs := [3] } })) with cycle := 8192 }
     (s.cluster 0).lease.holder.isSome = true ∧ (s.cluster 0).lease.since + 8192 ≤ s.cycle ∧
      ∃ c ∈ (s.cluster 0).lease.reqs, some c ≠ (s.cluster 0).lease.holder) ∧
    (let s : State := { ((tiled (.tzero 16) none).modLease 0 (fun l => { l with reqs := [3] })) with cycle := 8192 }
     (s.cluster 0).lease.holder = some 0 ∧ (∃ d ∈ (s.cluster 0).lease.reqs, d ≠ 0) ∧ (s.cluster 0).tileq ≠ []) ∧
    (let s : State := { (base.modCluster 0 (fun k => { k with lease := { holder := some 0, reqs := [0] } })) with cycle := 8192 }
     ∀ c ∈ (s.cluster 0).lease.reqs, some c = (s.cluster 0).lease.holder) :=
  ⟨by decide, by decide, by decide, by decide, by decide⟩

theorem witness_TileEvents :
    (∃ e, (tiled (.tsh 19 0#64) none).tileHead 0 = some e ∧ e.cmd = .tsh 19 0#64) ∧
    (∃ e, (tiled (.tzero 19) none).tileHead 0 = some e ∧ e.cmd = .tzero 19) ∧
    (∃ e w sz, (tiled (.tld 3 0#64 16#64) (some (sh2, 0, 0))).tileHead 0 = some e ∧ e.shapes = some (sh2, 0, 0) ∧
      e.cmd = .tld 3 0#64 16#64 ∧ tshFmt (w64 sh2) ≠ 0 ∧ tshFmt (w64 sh2) ≠ 6 ∧
      rowCheck loadSize (((tiled (.tld 3 0#64 16#64) (some (sh2, 0, 0))).cluster 0).winsAt 0).toList (tshFmt (w64 sh2))
        (tshCols (w64 sh2)) (rowOffset 0#64 16#64 e.step) = .ok (w, sz)) ∧
    (∃ e sz, (tiled (.tst 3 0#64 16#64) (some (sh2, 0, 0)) 2).tileHead 0 = some e ∧ e.shapes = some (sh2, 0, 0) ∧
      e.cmd = .tst 3 0#64 16#64 ∧ tshFmt (w64 sh2) ≠ 0 ∧ e.step + 1 < e.nstep ∧
      (∀ c ∈ ((tiled (.tst 3 0#64 16#64) (some (sh2, 0, 0)) 2).cluster 0).lease.reqs, some c = some 0) ∧
      rowCheck storeSize (((tiled (.tst 3 0#64 16#64) (some (sh2, 0, 0)) 2).cluster 0).winsAt 0).toList (tshFmt (w64 sh2))
        (tshCols (w64 sh2)) (rowOffset 0#64 16#64 e.step) = .ok (none, sz)) ∧
    (∃ e, (tiled (.mma 0 false 16 0 1) (some (sh1, sh1, sh5))).tileHead 0 = some e ∧ e.cmd = .mma 0 false 16 0 1 ∧
      e.shapes = some (sh1, sh1, sh5) ∧ mmaShapesOk 0 (w64 sh1) (w64 sh1) (w64 sh5) = true) ∧
    (∃ e, (tiled (.tqnt 4 16 127) (some (sh5, sh1, 0))).tileHead 0 = some e ∧ e.cmd = .tqnt 4 16 127 ∧
      e.shapes = some (sh5, sh1, 0) ∧ tshFmt (w64 sh5) = 5 ∧ tshFmt (w64 sh1) = 1 ∧
      tshRows (w64 sh5) = tshRows (w64 sh1) ∧ tshCols (w64 sh5) = tshCols (w64 sh1)) :=
  ⟨⟨_, rfl, rfl⟩, ⟨_, rfl, rfl⟩, ⟨_, _, _, rfl, rfl, rfl, by decide, by decide, rfl⟩,
   ⟨_, _, rfl, rfl, rfl, by decide, by decide, by decide, rfl⟩, ⟨_, rfl, rfl, rfl, by decide⟩,
   ⟨_, rfl, rfl, rfl, by decide, by decide, by decide, by decide⟩⟩

/-- A fault record in the batch of field 0, as old as a batch may be; a page without a window; a held store whose fault
has ended. -/
def aRec : FaultRec := { owner := 0, stage := 0, level := 1, page := 0x400, r := true, w := false, x := false, eng := false,
                         who := ⟨0, 0#8, 0, 0⟩, cl := 0, waits := [(0, 0x400)] }
def batched (now : Nat) : State := { (base.modField 0 (fun f => { f with batch := [aRec] })) with cycle := now }
def replaying (fid : Option (BitVec 32)) : State := base.modCluster 0 (fun c => { c with
  replay := [{ who := ⟨0, 0#8, 0, 0⟩, page := 0x400, va := 0x400000, bytes := [], released := fid }] })
/-- The same with a fault queue of 64 entries for the owner. -/
def queuedFaults (now : Nat) : State := (batched now).modCtx 0 (fun c => { c with fqb := 6#64 })

/-- The root's own stage is Sv57, and its table is empty. -/
def unmapped : State := rooted.modCtx 0 (fun c => { c with atp := (10#64 <<< 60) ||| 1#64 })

theorem witness_FaultEvents :
    (let s := base.modCluster 0 (fun c => { c with vseg := 2#64, vsegTo := some 4#64 })
     (s.cluster 0).vsegTo = some 4#64 ∧
      (upTo 16).find? (fun i => (s.cluster 0).vseg.getLsbD i != (4#64).getLsbD i) = some 1) ∧
    (unmapped.faultPending 0 (unmapped.thread 0).ctx (0x400000 / 4096) = false ∧ ∃ c l p k u,
      unmapped.translate true (unmapped.thread 0).ctx 0x400000 (Kind.ofCode 0) = .fault c l p k u ∧
      (∀ f ∈ u.fields, ∀ r ∈ f.2.ranges, r.holds c (u.ctx c).depth p = false) ∧
      ∀ r ∈ (u.field 0).closed ++ (u.field 0).batch, r.sameAs 0 c (u.ctx c).depth p = false) ∧
    (((batched 4095).field 0).closed = [] ∧ ∃ r l, ((batched 4095).field 0).batch = r :: l ∧ l.length < 63 ∧
      (batched 4095).cycle < r.since + 4096) ∧
    (((queuedFaults 4096).field 0).closed = [] ∧ ∃ r l, ((queuedFaults 4096).field 0).batch = r :: l ∧
      r.since + 4096 ≤ (queuedFaults 4096).cycle) ∧
    (let v := (queuedFaults 4096).sealBatch 0
     let ms := batchRanges (v.field 0).closed
     let posts (i : Nat) : Bool := i == 0
     let given (i a : Nat) : Nat := ((ms.take i).zipIdx.filter (fun p => posts p.2 && (p.1.owner == a))).length
     (v.field 0).closed ≠ [] ∧ ms.length = 1 ∧
      (∀ m, ms[0]? = some m → posts 0 = v.fqUsable m.owner ((v.ctx m.owner).fqt.toNat + given 0 m.owner)) ∧
      ∀ m, ms[0]? = some m → (v.field 0).ranges.length + ((upTo 0).filter posts).length < 256 ∧
        given 0 m.owner < (v.ctx m.owner).fqRoom) ∧
    (∀ h ∈ ((replaying none).cluster 0).replay, h.released = none) ∧
    ((replaying (some 7)).cluster 0).replay.findSome? (·.released) = some 7 :=
  ⟨by decide, ⟨by decide, _, _, _, _, _, rfl, by decide, by decide⟩, ⟨rfl, _, _, rfl, by decide⟩, ⟨rfl, _, _, rfl, by decide⟩,
   by decide +kernel, by decide, by decide⟩

/-- A fault queue without room for the batch. -/
theorem witness_FaultEvents_full :
    let s := (queuedFaults 4096).modCtx 0 (fun c => { c with act := true, atp := 0#64, fqt := 64#32 })
    let v := s.sealBatch 0
    let ms := batchRanges (v.field 0).closed
    (v.field 0).closed ≠ [] ∧ ∃ m, ms[0]? = some m ∧ v.fqUsable m.owner (v.ctx m.owner).fqt.toNat = true ∧
      (v.ctx m.owner).fqRoom = 0 := by decide +kernel

/-- Context 0 with an operation at the head of its queue, and children in a phase. -/
def operating (op : CtxOp) (step : Nat := 0) (ph : Phase := .built) (act : Bool := false) (data : List Nat := []) : State :=
  (parent.modCtx 0 (fun c => { c with
    engine := [{ who := ⟨0, 0#8, 0, 0⟩, op := op, bar := 0#32, xa := 0#64, step := step, data := data }] })).modCtx 3
    (fun c => { c with phase := ph, act := act })

theorem witness_EngineStepEvents : (((operating (.run 0)).ctx 0).act = true ∧ (operating (.run 0)).frozenQueues 0 = false) ∧
    (∃ e r, ((operating (.new 1 0x400040)).ctx 0).engine = e :: r ∧ e.op = .new 1 0x400040) ∧
    (∀ k ∈ [1, 2, 3, 4, 5, 6], (operating (.grant 0 0x400040) 1 .built false [k]).grantKind 0 = some k) ∧
    (operating (.grant 0 0x400040)).ofHandle 0 0 = some 3 ∧ (operating (.wr 0 1 5#64)).ofHandle 0 0 = some 3 ∧
    (∃ e r, ((operating (.stop 0)).ctx 0).engine = e :: r ∧ e.step = 0 ∧ ((operating (.stop 0)).ctx 3).phase ≠ .running) ∧
    ((operating (.stop 0) 0 .running).ctx 3).phase = .running ∧
    ((operating (.freeze 3) 0 .running true).ctx 3).act = true ∧
    (((operating (.thaw 3) 0 .running).ctx 3).act = false ∧ ((operating (.thaw 3) 0 .running).ctx 3).phase = .running ∧
      ((operating (.thaw 3) 0 .running).modCtx 0 (fun c => { c with cen := true })).mayRun 3 = true) :=
  ⟨by decide, ⟨_, _, rfl, rfl⟩, by decide +kernel, by decide, by decide, ⟨_, _, rfl, rfl, by decide⟩, by decide, by decide, by decide⟩

/-- A child, 4096, that context 0 has begun to make under handle 1. -/
def newing (step : Nat) (data : List Nat) : State :=
  ({ operating (.new 1 0x400040) step .built false data with mem := [(0x400050, 6#8)] }.modCtx 0 (fun c => { c with
    handles := [(0, 3), (1, 4096)] })).modCtx 4096 (fun c => { c with parent := some (0, 1), depth := 2 })

theorem witness_EngineStepEvents_new :
    (((newing 0 []).ctx 0).act = true ∧ (newing 0 []).frozenQueues 0 = false ∧
      ((newing 0 []).ctx 0).handles.find? 1 = some 4096 ∧ ∃ e, ((newing 0 []).ctx 0).engine = [e] ∧ e.op = .new 1 0x400040) ∧
    (let s := newing 0 []
     let who : Issuer := ⟨0, 0#8, 0, 0⟩
     (s.ctx 0).depth < 7 ∧ s.engErr 0 0 none (pagePieces 0x400040 64) [] = none ∧
      ∃ l u, s.engMap 0 who (Kind.ofCode 0) (pagePieces 0x400040 64) = .ok l u ∧
        newBad (leNat (u.engRead 0 0x400040 l).1) (s.ctx 0).feat = false ∧
        newBudget (leNat (u.engRead 0 0x400040 l).1) = (0, 0, 0)) ∧
    (newBad 0 ((newing 0 []).ctx 0).feat = true ∧ newBad (6 * 2 ^ 128 + 65 * 2 ^ 352) ((newing 0 []).ctx 0).feat = false ∧
      newBudget (6 * 2 ^ 128 + 65 * 2 ^ 352) = (65, 0, 0) ∧ ((newing 0 []).ctx 0).freeBudget.1 < 65) ∧
    7 ≤ (((newing 0 []).modCtx 0 (fun c => { c with depth := 7 })).ctx 0).depth ∧
    ((newing 1 [0]).freeAsid = some 1 ∧ (newing 1 [0]).childTnum 0 = some 0) :=
  ⟨⟨by decide, by decide, by decide, _, rfl, rfl⟩,
   ⟨by decide +kernel, by decide +kernel, _, _, rfl, by decide +kernel, by decide +kernel⟩,
   by decide +kernel, by decide, by decide +kernel⟩

/-- A grant to context 3 whose descriptor, of the words given, has been read; the parent has a virtual cluster. -/
def granting (w0 w1 w2 w3 : Nat) : State :=
  ((operating (.grant 0 0x400040) 1 .built false [w0 + w1 * 2 ^ 64 + w2 * 2 ^ 128 + w3 * 2 ^ 192]).modCtx 0 (fun c => { c with
    vcls := [{ vcl := 0, phys := 5, mask := 255 }] }))

theorem witness_EngineStepEvents_grant :
    (∀ w ∈ [1, 2, 3, 4, 5], let s := granting w 0 0 0
      (s.ctx 0).act = true ∧ s.frozenQueues 0 = false ∧ s.ofHandle 0 0 = some 3 ∧ s.grantKind 0 = some w) ∧
    (let s := granting 1 (2 ^ 10 + 2 ^ 31) 0 0
     (s.vcluster 0 0 = some { vcl := 0, phys := 5, mask := 255 } ∧ 255 &&& 1 = 1 ∧ (s.ctx 0).depth ≠ 0 ∧
      (s.ctx 3).vcls = [] ∧ (s.ctx 3).act = false ∧ (s.ctx 3).depth ≠ 1)) ∧
    (0 ∈ ((granting 3 0 0 0).ctx 0).qslots ∧ 7 ∉ ((granting 3 7 0 0).ctx 0).qslots) ∧
    (((granting 4 64 0 0).ctx 0).freeBudget.1 < 65 ∧ 8 ≤ ((granting 4 8 0 0).ctx 0).freeBudget.1) ∧
    (let s := { granting 5 3 0 0 with mem := [(0x4000C6, 1#8), (0x4000D8, 6#8)] }.modCtx 3 (fun c => { c with
       qslots := [0], qdb := 0x400000#64, windows := [(0, { base := 0, size := 2 ^ 32, r := true, w := true, x := true })] })
     0 ∈ (s.ctx 3).qslots ∧ s.hqOwner.find? 0 = none ∧ ∃ q u,
      (s.readDesc 3 3).bind (fun p => (p.2.switchOut 3 3).readDesc 3 3) = some (q, u)) :=
  ⟨by decide +kernel, by decide +kernel, by decide, by decide +kernel, by decide, by decide, _, _, rfl⟩

/-- A kill of context 3, which has a child 9 or none. -/
def killing (step : Nat) (child : Bool) : State :=
  let s := operating (.kill 0) step
  if child then s.modCtx 9 (fun c => { c with parent := some (3, 0), depth := 3 }) else s

theorem witness_EngineStepEvents_kill :
    (∀ b ∈ [true, false], ((killing 1 b).ctx 0).act = true ∧ (killing 1 b).frozenQueues 0 = false ∧
      (killing 1 b).ofHandle 0 0 = some 3 ∧ (killing 1 b).within 0 3 = false ∧ ((killing 1 b).ctx 3).vcls.length + 1 = 1) ∧
    ((killing 2 true).deepest 3 = some 9 ∧ ((killing 2 true).ctx 9).parent = some (3, 0)) ∧
    ((killing 2 false).deepest 3 = none ∧ ((killing 2 false).ctx 3).parent = some (0, 0)) := by decide +kernel

/-- A frame of context 3 that the handler 0 holds, with its trap; the thread has a user handler. -/
def held (tr : Option Trap) (h : Thread) : State := parent.modCtx 3 (fun c => { c with framesIn :=
  [{ num := 0, sid := 7, why := 2, token := 9#64, handler := 0, trap := tr, qo := 0xFF#8, th := h }] })

theorem witness_TokenEvents_frames :
    (∃ f, (held none {}).heldBy 0 9#64 = some (3, f) ∧ f.trap = none ∧
      ((held none {}).frameThread 3 f).1.uha = 0#64) ∧
    (∃ f, (held (some userTrap) { uha := 8#64 }).heldBy 0 9#64 = some (3, f) ∧ f.trap = some userTrap ∧
      (let h := ((held (some userTrap) { uha := 8#64 }).frameThread 3 f).1
       stBit h.st 7 = false ∧ h.uha ≠ 0#64 ∧ h.uha.getLsbD 0 = false) ∧
      (let s := held (some userTrap) { uha := 8#64 }
       let above := ((s.lineage 3).dropWhile (fun x => x != 0)).drop 1
       let anc := if above.isEmpty then 0 else s.firstQueue above
       (s.ctx anc).tqRoom = true)) :=
  ⟨⟨_, rfl, rfl, by decide +kernel⟩, ⟨_, rfl, rfl, by decide +kernel, by decide +kernel⟩⟩

/-- A virtual cluster of context 3, live or saved; a queue 63 that is mapped; a free slot of another core. -/
def clustered (saved : Bool) : State := parent.modCtx 3 (fun c => { c with
  depth := 1, vcls := [{ vcl := 2, phys := 5, mask := 255, region := if saved then some (3, 2) else none }] })
def mapped : State := rooted.modCtx 0 (fun c => { c with
  queues := [(63, { hqs := 0, rln := 6 })], kpb := 0x400000#64 })

theorem witness_TokenEvents :
    (∃ e, (((clustered false).ctx 3).vcls.find? (fun e => e.vcl == 2 && !e.saved) = some e ∧
      (clustered false).saves.length < Config.saveRegions ∧ (clustered false).inTransit 3 e.phys = false ∧
      ((clustered false).saves.filter (fun g => g.phys == e.phys)).length < 64 ∧
      (let u := (upTo 8).foldl (fun (u : State) i => u.unkeep (8 * e.phys + i)) (clustered false)
       ∀ sid ∈ u.slotsOf 3 e.phys, (u.slot sid).reflecting = false))) ∧
    (∃ e u, ((clustered true).ctx 3).vcls.find? (fun e => e.vcl == 2 && e.saved) = some e ∧
      (clustered true).restorePlace 3 e = some 5 ∧ (clustered true).vaultFits 3 2 5 = true ∧
      (clustered true).restoreCluster 3 2 5 = some u) ∧
    rooted.mayMigrate 0 17 = true ∧ mapped.mappedTo 0 63 = some 0 ∧ base.isLive 0 63 = false ∧
    (mapped.isLive 0 63 = true ∧ ∃ w u,
      mapped.ctxNat 0 ((mapped.ctx 0).kpb.toNat / 4096 * 4096 + 8 * 63) 8 = some (w, u) ∧
      (let v := u.modCtx 0 (fun c => { c with pend := c.pend &&& ~~~(1#64 <<< 63) })
       (BitVec.ofNat 32 w - (v.queue 0 63).head).toNat ≤ 2 ^ (v.queue 0 63).rln)) ∧
    (base.ctxs.find? 0).isSome = true :=
  ⟨⟨_, rfl, Nat.succ_pos _, by decide, by decide, by decide +kernel⟩, ⟨_, _, rfl, by decide +kernel, by decide +kernel, rfl⟩, by decide +kernel,
   by decide, by decide, ⟨by decide +kernel, _, _, rfl, by decide +kernel⟩, by decide⟩

/-- Port 17 as given, with a retry entry or a held packet. -/
def aPacket : Packet := { num := 7, bytes := [1#8] }
def ported (p : Port) : State := { base with ports := [(17, p)] }
/-- An aperture of the root of one page, readable and writable. -/
def apertured : State := { rooted with apertures := [(16 * 1021 + 15, { hi := 0x400000#64, lo := (7#64 <<< 61) ||| 1#64 })] }

theorem witness_LinkEvents :
    (7 < 8 ∧ 8 ≤ 8 ∧ ∃ cl m, (owing (.arrive 0 (aMsg false false))).due[0]? = some (.arrive cl m)) ∧
    (let s := ported { replay := [(4, 8, aPacket)] }
     (s.ports.get {} 17).replay.find? (fun e => e.1 == 4) = some (4, 8, aPacket) ∧ ∀ q ∈ s.hostWaits, q.pkts = []) ∧
    ((owing (.reply (aMsg true false) 9 0)).crossesDies 0 = false ∧
      (owing (.reply (aMsg true false) 9 1023)).crossesDies 0 = true) ∧
    (let s := ported { retraining := true, since := 0, attempts := 3 }
     (s.ports.get {} 17).retraining = true ∧ (s.ports.get {} 17).down = false ∧ 3 ≤ (s.ports.get {} 17).attempts) ∧
    (ported {}).ports.get {} 17 = ({} : Port) ∧
    bitAt (base.aperture 1021 15).lo.toNat 63 = false ∧
    (bitAt (apertured.aperture 1021 15).lo.toNat 63 = true ∧ bitAt (apertured.aperture 1021 15).lo.toNat 62 = true ∧
      bitAt (apertured.aperture 1021 15).lo.toNat 61 = true ∧
      (apertured.ctxs.find? (bitsAt (apertured.aperture 1021 15).lo.toNat 50 11)).isSome = true ∧
      4095 + 1 ≤ bitsAt (apertured.aperture 1021 15).lo.toNat 0 40 * 4096 ∧
      ∃ l u, apertured.engMap 0 ⟨hostSid, 0#8, bitsAt (apertured.aperture 1021 15).lo.toNat 50 11, 0⟩ (Kind.ofCode 0)
        (pagePieces ((bitsAt (apertured.aperture 1021 15).hi.toNat 12 52 * 4096 + 4095) % 2 ^ 64) 1) = .ok l u) ∧
    (base.breakpointAt = none ∧ ∃ w,
      (base.modCluster 0 (fun c => { c with bp := c.bp.set 0 { lo := 0x400000#64, hi := 0x400000#64, ctl := 1#64 <<< 31 } })).breakpointAt
        = some w) :=
  ⟨⟨by decide, by decide, _, _, rfl⟩, by decide, by decide, by decide, by decide, by decide,
   ⟨by decide, by decide, by decide, by decide, by decide, _, _, rfl⟩, ⟨by decide, _, rfl⟩⟩

/-- The module in a power mode. -/
def powered (m : PMode) : State := { base with modl := { mode := m } }

theorem witness_PlatformEvents :
    ((powered .normal).modl.mode = .normal ∧ 4599 < 4600) ∧ ((powered .slow).modl.mode = .slow ∧ 4800 ≤ 6000 ∧ 3999 < 4000) ∧
    ((powered .save).modl.disconnected = false ∧ (powered .save).modl.mode ≠ .off ∧ 6600 ≤ 6600 ∧
      (powered .held).modl.disconnected = false ∧ 6000 < 6001) ∧
    ((powered .held).modl.mode = .held ∧ 4800 ≤ 5800) ∧ (powered .off).modl.mode = .off ∧
    ((powered .save).modl.mode = .save ∧ (let s := (powered .save).modCtx 0 (fun c => { c with depth := 0 }); s.saved = true)) ∧
    ((powered .save).saved = false ∧ (powered .off).modl.waiting = []) ∧ (40 < 41 ∧ 6 < 7) ∧
    ((let s : State := { rooted with modl := { testStep := 4 } }
      s.modl.testStep ≠ 0 ∧ ∀ p ∈ s.ctxs, p.2.depth = 1 → 4096 ≤ p.1)) ∧
    ((powered .normal).modl.bootKind < 4 ∧ (powered .normal).modl.recovery = false ∧
      (powered .normal).modl.accepts 1 [] = false) :=
  ⟨by decide, by decide, by decide, by decide, by decide, by decide, by decide, by decide, by decide, by decide⟩

/-- A thread at its 4,095th and at its 4,096th not-ready outcome at one pc, with progress checked. -/
def retried (n : Nat) : State := base.modTh (fun h => { h with st := 4#64, rtcCount := n, rtcTag := h.pc })

theorem witness_NotReadyOutcomes :
    (stBit (retried 4095).th.st 2 = true ∧ (retried 4095).th.countRetry.rtcCount = 4096) ∧
    (stBit (retried 4094).th.st 2 = true ∧ (retried 4094).th.countRetry.rtcCount ≠ 4096) ∧
    stBit base.th.st 2 = false ∧ base.checkTarget .indirect (worker.modTh (fun h => { h with nrt := 0x400004#64 })).th.nrt ≠ .ok ∧
    worker.checkTarget .indirect (worker.modTh (fun h => { h with nrt := 0x400004#64 })).th.nrt = .ok ∧
    (canAct grain [1, 2] [1, 2] ∧ (grain.xr 1).toNat < spLimit ∧ (grain.xr 1).toNat % 16 = 0 ∧
      grain.feFull (clusterOf grain.cur) ((grain.xr 1).toNat / 16) = false) ∧
    (canAct grainFull [1, 2] [1, 2] ∧ grainFull.feFull (clusterOf grainFull.cur) ((grainFull.xr 1).toNat / 16) = true) :=
  ⟨by decide, by decide, by decide, by decide +kernel, by decide +kernel,
   ⟨canAct_of (by decide), by decide, by decide, by decide⟩, canAct_of (by decide), by decide⟩

theorem witness_TrapTaking :
    (let s := base.modTh (fun h => { h with uha := 8#64 })
     s.th.inFlight = false ∧ userClass tDIVZERO = true ∧ stBit s.th.st 7 = false ∧ s.th.uha ≠ 0#64 ∧
      s.th.uha.getLsbD 0 = false) ∧
    (base.th.inFlight = false ∧ base.th.takesTrap tTRAP = false) ∧
    (handler.th.takesTrap tDIVZERO = false ∧ stBit handler.th.st 7 = true) ∧ holder.th.inFlight = true :=
  ⟨by decide, by decide, by decide, by decide⟩

/-- A held instruction is to write register 2. -/
def heldX : State := base.modTh (fun h => { h with
  ring := [{ seq := 5#8, word := 0#32, pfx := none, addr := 0x400000#64, left := 2, writes := [.x 2 1#64] }] })

/-- An instruction is well-formed and of a feature. -/
abbrev featured (i : Instr) (f : Nat) : Prop :=
  i.wf = true ∧ encode i = .word (BitVec.ofNat 32 (encodeNat i)) ∧ Claims.featureOf (BitVec.ofNat 32 (encodeNat i)) = some f

theorem witness_PreciseTraps_issue :
    (let s := base.modCtx 0 (fun c => { c with feat := 0#9 })
     ∀ f ∈ [fHbar, fFabric, fLaunch, fMatrix, fCopy, fCollective, fTranslation, fContext], s.myCtx.feat.getLsbD f = false) ∧
    (featured (.hbarArr .rt 0 3) fHbar ∧ featured (.snd .rt 2 1 0) fFabric ∧ featured (.launch .rt 2 1) fLaunch ∧
      featured (.qfCp .rt 1 0) fCopy ∧ featured (.mlease .rt 3) fMatrix ∧ featured (.qfCl .rt 1 0) fCollective ∧
      featured (.atpRd 3) fTranslation ∧ featured (.ctxKill .rt 1) fContext) ∧
    (let s := base.modTh (fun h => { h with kern := false })
     kernelOnly (.atpRd 3) = true ∧ s.th.kern = false ∧ s.myCtx.feat.getLsbD fTranslation = true ∧ s.myCtx.feat.getLsbD fContext = true) ∧
    (encode (.mul 2 1 3) = .word (BitVec.ofNat 32 (encodeNat (.mul 2 1 3))) ∧
        Claims.featureOf (BitVec.ofNat 32 (encodeNat (.mul 2 1 3))) = none ∧ kernelOnly (.mul 2 1 3) = false ∧ heldX.th.cap = none ∧ (heldX.th.pendingAt (.x 2)).isSome = true) ∧
    (∃ e, ([RegN.x 3, .x 2, .x 1].findSome? (fun r => (heldX.th.pendingAt r).map (fun e => (r, e)))) = some (.x 2, e)) ∧
    stBit heldX.th.st 1 = false ∧ stBit (heldX.modTh (fun h => { h with st := 2#64 })).th.st 1 = true ∧
    (armed.unheld [.x 2, .x 20, .x 1] ∧ (armed.armOf 20).st = .awaiting) :=
  ⟨by decide, by decide +kernel, by decide, by decide +kernel,
   ⟨_, rfl⟩, by decide, by decide, unheld_of (by decide), by decide⟩

theorem witness_PreciseTraps_own :
    (canRun atLimit [rSP] [rSP] ∧ atLimit.th.stklim ≠ 0#64 ∧
      (atLimit.xr rSP).toNat - (frameSize 4 0).toNat < atLimit.th.stklim.toNat) ∧
    stBit base.th.st 7 = false ∧
    (let s := withX [(1, 4#64)]
     canRun s [1, 3] [1] ∧ s.th.pm1 < (s.xr 1).toNat) ∧
    (base.granted fLaunch ∧ canRun base [1, 2, chanReg 3, chanReg 3 + 1#6] [1, 2, chanReg 3] ∧ base.xr 1 = 0#64) ∧
    (base.granted fFabric ∧ canRun base [1, 2] [1, 2] ∧ capBits (base.xr 1) 28 3 < (1#3).toNat) ∧
    (canRun base [1, 3] [] ∧ (base.armOf 1).st = .unarmed) ∧
    (base.granted fHbar ∧ canRun base [3] [] ∧ base.hbarOk 0 = false) ∧
    (let s := withX [(1, 819200#64)]
     canRun s [1, 3] [1, 3] ∧ spLimit ≤ (s.xr 1).toNat) ∧
    (let s := withX [(1, 819199#64)]
     canRun s [1, 3] [1, 3] ∧ (s.xr 1).toNat < spLimit ∧ (s.xr 1).toNat % 16 ≠ 0) :=
  ⟨⟨canRun_of (by decide), by decide, by decide⟩, by decide,
   ⟨canRun_of (by decide), by decide⟩, ⟨by unfold State.granted; decide, canRun_of (by decide), by decide⟩,
   ⟨by unfold State.granted; decide, canRun_of (by decide), by decide⟩, ⟨canRun_of (by decide), by decide⟩,
   ⟨by unfold State.granted; decide, canRun_of (by decide), by decide⟩, ⟨canRun_of (by decide), by decide⟩,
   ⟨canRun_of (by decide), by decide, by decide⟩⟩

/-- A word, a parcel, or a pair placed at the pc of the first slot. -/
def ready (nbits w : Nat) : State := State.reset.withFetchWord nbits w
/-- The state in which a step of it executes. -/
def opened (nbits w : Nat) : State := (ready nbits w).openCycle 0

/-- What StepRunsDecoded asks of the state. -/
def stepsAt (nbits w : Nat) : Bool :=
  let s := ready nbits w
  let o := s.openCycle 0
  s.nextCore == some 0 && s.agenda.isEmpty && s.due.isEmpty && s.powered && !s.atBoundary && !o.me.stopped && o.mayIssue

theorem witness_StepRunsDecoded :
    (stepsAt 32 0x0038C283 = true ∧ unencumbered (opened 32 0x0038C283) ∧
      (opened 32 0x0038C283).fetchAt (opened 32 0x0038C283).cur (opened 32 0x0038C283).th.pc = .two 0x0038C283#32 ∧
      (majorOf 0x0038C283#32).toNat ≠ 22 ∧ decodeBytes true [0x83#8, 0xC2#8, 0x38#8, 0x00#8] = .ok (.add 7 6 5, [])) ∧
    (stepsAt 16 1 = true ∧ unencumbered (opened 16 1) ∧
      (opened 16 1).fetchAt (opened 16 1).cur (opened 16 1).th.pc = .one 1#16 ∧
      decodeBytes true [0x01#8, 0x00#8] = .ok (.nopN, [])) ∧
    (stepsAt 64 0x005A274300080D5B = true ∧ unencumbered (opened 64 0x005A274300080D5B) ∧
      (opened 64 0x005A274300080D5B).fetchAt 0 (opened 64 0x005A274300080D5B).th.pc = .two 0x00080D5B#32 ∧
      (majorOf 0x00080D5B#32).toNat = 22 ∧
      (opened 64 0x005A274300080D5B).fetchAt 0 ((opened 64 0x005A274300080D5B).th.pc + 4#64) = .two 0x005A2743#32 ∧
      (pairOf 0x00080D5B#32 0x005A2743#32).isSome = true) ∧
    (stepsAt 32 0xFFFFFFFF = true ∧
      (opened 32 0xFFFFFFFF).fetchAt 0 (opened 32 0xFFFFFFFF).th.pc = .two 0xFFFFFFFF#32 ∧
      decodeWord 0xFFFFFFFF#32 = none) := by
  unfold unencumbered
  exact ⟨by decide +kernel, by decide +kernel, by decide +kernel, by decide +kernel⟩

theorem witness_EncodeDecode : (Instr.add 7 6 5).wf = true ∧ encode (.add 7 6 5) ≠ .event ∧
    (Instr.add 7 6 5).wfIn false = true ∧ encode (.add 7 6 5) = .word 0x0038C283#32 ∧
    decodeBytes false [0x01#8, 0x00#8, 7#8] = .ok (.nopN, [7#8]) := by decide

theorem witness_MemoryInvariant : Memory.wf [(3, 1#8)] = true ∧ memoriesWf base ∧
    ∀ a, Memory.read [(3, 1#8)] a = Memory.read [(3, 1#8)] a :=
  ⟨by decide, ⟨by decide, fun cl => ⟨by rw [show (base.cluster cl).scratch = [] from rfl]; decide,
    by rw [show (base.cluster cl).vault = [] from rfl]; decide⟩⟩, fun _ => rfl⟩

/-! ### One step each, with values worked out by hand from the rules -/

/-- The state after an outcome. -/
def after : Host.Outcome State Fault Refusal → State
  | .next t => t
  | _ => State.reset

/-- R77: addition wraps. -/
theorem test_add_wraps : (after (exec (.add 2 1 3) (withX [(1, 0xFFFFFFFFFFFFFFFF#64), (2, 2#64)]))).xr 3 = 1#64 := by
  decide +kernel
/-- R77: the destination is a source. -/
theorem test_sub_same : (after (exec (.sub 1 1 1) (withX [(1, 7#64)]))).xr 1 = 0#64 := by decide +kernel
/-- R80: the high half of signed by unsigned. -/
theorem test_mulhsu : (after (exec (.mulhsu 2 1 3) (withX [(1, -1#64), (2, 2#64)]))).xr 3 = -1#64 := by decide +kernel
/-- R81: the most negative number by minus one. -/
theorem test_div_overflow :
    (after (exec (.div 2 1 3) (withX [(1, 0x8000000000000000#64), (2, -1#64)]))).xr 3 = 0x8000000000000000#64 := by decide +kernel
/-- R81: division by zero with DZE clear. -/
theorem test_rem_zero : (after (exec (.rem 2 1 3) (withX [(1, 9#64)]))).xr 3 = 9#64 := by decide +kernel
/-- R81, R17: division by zero with DZE set goes to the user handler, with the dividend in `einfo`. -/
theorem test_div_trap :
    let t := after (exec (.div 2 1 3) ((withX [(1, 9#64)]).modTh (fun h => { h with st := 0x200#64, uha := 0x400100#64 })))
    t.th.pc = 0x400100#64 ∧ t.th.epc = 0x400000#64 ∧ t.th.ecause = 8#64 ∧ t.th.einfo = 9#64 ∧ t.th.estat = 0x200#64 ∧
      t.th.st = 0x280#64 := by decide +kernel
/-- R336: `hret` takes the status that `estat` holds, with UH clear, and goes to `epc`. -/
theorem test_hret :
    let t := after (exec .hret (base.modTh (fun h => { h with st := 0x280#64, epc := 0x400004#64, estat := 0x201#64 })))
    t.th.pc = 0x400004#64 ∧ t.th.st = 0x201#64 := by decide +kernel
/-- R91: 1 + 1 = 2 in FP32. -/
theorem test_fadd : (after (exec (.fadd 2 1 3) (withX [(1, 0x3F800000#64), (2, 0x3F800000#64)]))).xr 3 = 0x40000000#64 := by
  decide +kernel
/-- R87: a frame of three granules. -/
theorem test_enter : (after (exec (.enter 3 0) (withX [(31, 64#64)]))).xr 31 = 16#64 := by decide +kernel
/-- R85: a call links the address behind it and goes to twice its offset. -/
theorem test_call :
    let t := after (exec (.call 6) base)
    t.xr 30 = 0x400004#64 ∧ t.th.pc = 0x40000C#64 := by decide +kernel
/-- R252, R11: a 32-bit store of the scratchpad, read back as its second byte. -/
theorem test_scratchpad :
    (after (exec (.ldSp .rt 4 1 1 3) ((after (exec (.stSp .rt 2 0 1 2) (withX [(2, 0xA1B2C3D4#64)])))))).xr 3 = 0xC3#64 := by
  decide +kernel
/-- R262: `ldfe` empties the granule that `stff` filled. -/
theorem test_full_empty :
    let t := after (exec (.stff .rt 1 2) (withX [(1, 16#64), (2, 5#64)]))
    let u := after (exec (.ldfe .rt 1 3) t)
    t.mine.fe = [1] ∧ u.xr 3 = 5#64 ∧ u.mine.fe = [] := by decide +kernel
/-- R96: a strong load of a line that the core holds. -/
theorem test_load : (after (exec (.ldD 0 .rt 1 2) (lined.modTh (fun h => { h with x := h.x.set 1 0x400100#64 })))).xr 2 = 0x11#64 := by
  decide +kernel
/-- R193: lanes of 16 bits do not carry into one another. -/
theorem test_vadd :
    ((after (exec (.vadd 1 .rt 0 1 1 3) (base.modTh (fun h => { h with v := h.v.set 1 0x00018000#512 })))).vr 3) = 0x00020000#512 := by
  decide +kernel
/-- R149, R150: `selfid` of slot 0 of core 0 of cluster 0. -/
theorem test_selfid : (after (exec (.selfid 5) (base.modTh (fun h => { h with x := h.x.set 5 7#64 })))).xr 5 = 0#64 := by
  decide +kernel
/-- R83: the example of byte offset 0x1170. -/
theorem test_banks :
    let s := withX [(1, 0x1170#64), (2, 9#64)]
    (after (exec (.bankof 1 3) s)).xr 3 = 0#64 ∧ (after (exec (.rowof 1 3) s)).xr 3 = 9#64 ∧
      (after (exec (.spa 2 0 3) s)).xr 3 = 0x1170#64 := by decide +kernel
/-- R45: a step after reset runs the word at the pc: `addi x5, x6, -1`. -/
theorem test_step_runs : ((after (step (State.reset.withFetchWord 32 0xFFF06287))).th.x[5]) = -1#64 := by decide +kernel
/-- R217, R346: an uncorrectable granule reads as zeros. -/
theorem test_ecc_zeros :
    let s : State := { (withX [(2, 0xA1B2C3D4#64)]) with ecc := [(.sp 0 0, true)] }
    (after (exec (.ldSp .rt 6 0 1 3) s)).xr 3 = 0#64 ∧
      (after (exec (.ldSp .rt 6 0 1 3) { (after (exec (.stSp .rt 2 0 1 2) s)) with ecc := [] })).xr 3 = 0xA1B2C3D4#64 := by
  decide +kernel
/-- R306: the second mismatch of a step counts in MCK. -/
theorem test_mck :
    let s := (tiled (.mma 0 false 16 0 1) (some (sh1, sh1, sh5))).modCluster 0 (fun c => { c with arrayBad := 2 })
    ((after (exec (.mmaStep 0) s)).ctx 0).mck = 1#64 := by decide +kernel

end Sys2Proof.Tests
end

section
/-! SUPPORT. What the raising of a trap does: it is delivered to the thread's own handler, it waits for its reflection, or it
waits for the thread's instructions in flight (R17 to R19, R329, R375). -/

namespace Sys2Proof.Machine

/-! ### The slot of the current thread -/

@[simp] theorem State.slot_modTh_cur (s : State) (f : Thread → Thread) :
    (s.modTh f).slot s.cur = { s.slot s.cur with th := f s.th } := by
  show (s.modThread s.cur f).slot s.cur = _
  rw [State.slot_modThread, if_pos rfl]; rfl

/-! ### The delivery of a trap -/

/-- R19: what the entry of the user handler leaves the thread with. -/
theorem Thread.inHandler_enterHandler (h : Thread) (t : Trap) : Claims.inHandler h (h.enterHandler t) t :=
  ⟨rfl, rfl, rfl, rfl, rfl,
    (stBit_stSet_ne _ _ _ _ (by decide)).trans (stBit_stSet _ _ _ (by decide)), stBit_stSet _ _ _ (by decide), rfl, rfl, rfl⟩

theorem Thread.takesTrap_iff (h : Thread) (code : Nat) :
    h.takesTrap code = true ↔
      userClass code = true ∧ stBit h.st 7 = false ∧ h.uha ≠ 0#64 ∧ h.uha.getLsbD 0 = false := by
  simp [Thread.takesTrap, and_assoc]

/-- The slot of a thread that takes a trap itself. -/
theorem State.slot_deliver_taken (s : State) {sid : Nat} {t : Trap} (h : (s.thread sid).takesTrap t.code = true) :
    (s.deliver sid t).slot sid =
      { s.slot sid with th := { (s.thread sid).enterHandler t with heavy := true, trapWait := none } } := by
  simp only [State.deliver, if_pos h]
  rw [State.slot_modThread, if_pos rfl]

/-- The slot of a thread whose trap is reflected: the trap is recorded where no handler runs. -/
theorem State.slot_deliver_reflected (s : State) {sid : Nat} {t : Trap} (h : (s.thread sid).takesTrap t.code = false) :
    (s.deliver sid t).slot sid = { s.slot sid with
      st := .sleep (.reflect t) 0
      th := { (if stBit (s.thread sid).st 7 then s.thread sid else (s.thread sid).record t) with
        heavy := true, trapWait := none, prefixLatch := none, cap := none } } := by
  simp only [State.deliver, h, Bool.false_eq_true, if_false]
  rw [State.slot_owe, State.slot_modSlot, if_pos rfl]; rfl

/-- R375: a trap that the thread does not take leaves its reflection owed. -/
theorem State.reflect_mem_due_deliver (s : State) {sid : Nat} {t : Trap} (h : (s.thread sid).takesTrap t.code = false) :
    .reflect sid ∈ (s.deliver sid t).due := by
  simp only [State.deliver, h, Bool.false_eq_true, if_false]
  exact State.mem_due_owe _ _

/-! ### The raising of a trap -/

/-- The trap that an instruction raises at its pc (R17). -/
def State.trapAt (s : State) (code : Nat) (info : Word) : Trap :=
  { code := code, info := info, pc := s.th.pc, st := s.th.stBefore }

/-- R17, R329: a trap is raised in the state as it stands, but for the pages whose failed fetch it reports (R343). -/
theorem State.raise_eq (s : State) (code : Nat) (info : Word) :
    ∃ u : State, u.cur = s.cur ∧ u.th = { s.th with failed := u.th.failed } ∧
      u.slot s.cur = { s.slot s.cur with th := u.th } ∧
      s.raise code info = if s.th.inFlight then
          (u.modTh (fun h => { h with
            trapWait := some (s.trapAt code info), heavy := true, prefixLatch := none })).skipCounted
        else u.deliver s.cur (s.trapAt code info) := by
  by_cases hc : code = tFETCH
  · refine ⟨s.modTh (fun h => h.fetchReported info), rfl, by rw [State.th_modTh]; rfl, ?_, ?_⟩
    · rw [State.slot_modTh_cur, State.th_modTh]
    · simp only [State.raise, if_pos hc, State.th_modTh, State.cur_modTh]; rfl
  · refine ⟨s, rfl, rfl, rfl, ?_⟩
    simp only [State.raise, if_neg hc]; rfl

/-- The state in which a thread with instructions in flight waits for its trap. -/
theorem State.raise_inFlight (s : State) (code : Nat) (info : Word) (h : s.th.inFlight = true) :
    (s.raise code info).th = { s.th with
      failed := (s.raise code info).th.failed, trapWait := some (s.trapAt code info), heavy := true, prefixLatch := none,
      skipCtr := s.th.skipCtr + 1#64 } := by
  obtain ⟨u, _, hth, _, hr⟩ := s.raise_eq code info
  rw [hr, if_pos h]
  unfold State.skipCounted
  rw [State.th_modTh, State.th_modTh, hth]

/-- Without instructions in flight a trap is delivered to the thread as it stands, but for the failed pages. -/
theorem State.raise_idle (s : State) (code : Nat) (info : Word) (hf : s.th.inFlight = false) :
    ∃ u : State, u.thread s.cur = { s.th with failed := (u.thread s.cur).failed } ∧
      u.slot s.cur = { s.slot s.cur with th := u.thread s.cur } ∧
      s.raise code info = u.deliver s.cur (s.trapAt code info) := by
  obtain ⟨u, hcur, hth, hslot, hr⟩ := s.raise_eq code info
  have hu : u.th = u.thread s.cur := by rw [State.th, hcur]
  rw [hu] at hth hslot
  exact ⟨u, hth, hslot, by rw [hr, hf]; rfl⟩

theorem State.th_raise (s : State) (code : Nat) (info : Word) :
    (s.raise code info).th = ((s.raise code info).slot s.cur).th := by
  obtain ⟨_, hcur, _⟩ := s.raise_frame code info
  rw [State.th, hcur, State.thread]

/-- Without instructions in flight a trap that the thread takes puts it into its handler, and its slot stays. -/
theorem State.raise_taken (s : State) (code : Nat) (info : Word) (hf : s.th.inFlight = false)
    (ht : s.th.takesTrap code = true) :
    Claims.inHandler s.th (s.raise code info).th (s.trapAt code info) ∧
      ((s.raise code info).slot s.cur).st = (s.slot s.cur).st := by
  obtain ⟨u, hth, hslot, hr⟩ := s.raise_idle code info hf
  have hu : (u.thread s.cur).takesTrap (s.trapAt code info).code = true := by rw [hth]; exact ht
  rw [State.th_raise, hr, u.slot_deliver_taken hu, hslot, hth]
  exact ⟨s.th.inHandler_enterHandler (s.trapAt code info), rfl⟩

/-- Without instructions in flight a trap that the thread does not take puts its slot to sleep until the reflection; the
record is written where no handler runs. -/
theorem State.raise_reflected (s : State) (code : Nat) (info : Word) (hf : s.th.inFlight = false)
    (ht : s.th.takesTrap code = false) :
    ((s.raise code info).slot s.cur).st = .sleep (.reflect (s.trapAt code info)) 0 ∧
    .reflect s.cur ∈ (s.raise code info).due ∧
    (s.raise code info).th =
      { (if stBit s.th.st 7 then s.th else s.th.record (s.trapAt code info)) with
        failed := (s.raise code info).th.failed, heavy := true, trapWait := none, prefixLatch := none, cap := none } := by
  obtain ⟨u, hth, hslot, hr⟩ := s.raise_idle code info hf
  have hu : (u.thread s.cur).takesTrap (s.trapAt code info).code = false := by rw [hth]; exact ht
  rw [State.th_raise, hr, u.slot_deliver_reflected hu, hslot, hth]
  refine ⟨rfl, u.reflect_mem_due_deliver hu, ?_⟩
  dsimp only
  split <;> rfl

end Sys2Proof.Machine

open Sys2Proof Sys2Proof.Machine Sys2Proof.Claims

/-- Settles O54: the raised trap is delivered, reflected or waits by `State.raise_taken`, `State.raise_reflected` and
`State.raise_inFlight`. -/
theorem trapTaking : Obligations.TrapTaking := by
  unfold Obligations.TrapTaking
  intro s code info tr t
  obtain ⟨hmem, hcur, hslots⟩ := s.raise_frame code info
  refine ⟨fun x => by unfold State.byte; rw [hmem], hcur, hslots, ?taken, ?reflected, ?waits⟩
  case taken =>
    intro hf hclass huh huha hbit
    exact s.raise_taken code info hf ((s.th.takesTrap_iff code).2 ⟨hclass, huh, huha, hbit⟩)
  case reflected =>
    intro hf ht
    obtain ⟨hst, hdue, hth⟩ := s.raise_reflected code info hf ht
    have hrec : ∀ b, stBit s.th.st 7 = b → t.th = { (if b then s.th else s.th.record tr) with
        failed := t.th.failed, heavy := true, trapWait := none, prefixLatch := none, cap := none } := by
      rintro _ rfl; exact hth
    refine ⟨hst, ?_, ?_, hdue, fun h => ?_, fun h => ?_⟩
    · rw [hth]; split <;> rfl
    · rw [hth]; split <;> rfl
    · rw [hrec _ h]; exact ⟨rfl, rfl, rfl, rfl⟩
    · rw [hrec _ h]; exact ⟨rfl, rfl⟩
  case waits =>
    intro hf
    rw [show t.th = _ from s.raise_inFlight code info hf]
    exact ⟨rfl, rfl, rfl, rfl⟩
end

section
/-! SUPPORT. How a slot's rest ends (R13, R131, R139, R140) and how an exited thread leaves its slot (R142). -/

namespace Sys2Proof.Machine

/-- A slot goes back to issuing. -/
def State.runAgain (s : State) (sid : Nat) : State := s.modSlot sid (fun sl => { sl with st := .run })

/-- An event that sends a slot back to issuing does so and nothing else. -/
theorem awakes_of_runAgain {i : Instr} {s : State} {sid : Nat} (h : exec i s = .next (s.runAgain sid)) :
    Claims.awakes i s sid :=
  ⟨_, h, by rw [State.runAgain, State.slot_modSlot, if_pos rfl],
    fun k hk => by rw [State.runAgain, State.slot_modSlot, if_neg hk], rfl⟩

theorem State.endSleep_policy {s : State} {sid n : Nat} {cs : List Cause}
    (h : (s.slot sid).st = .sleep (.policy cs) n) : s.endSleep sid = s.runAgain sid := by
  unfold State.endSleep; rw [h]; rfl

theorem State.endSleep_yield {s : State} {sid n : Nat} (h : (s.slot sid).st = .sleep .yield n) :
    s.endSleep sid = s.runAgain sid := by
  unfold State.endSleep; rw [h]; rfl

theorem State.byte_setX (s : State) (d : BitVec 6) (v : Word) (a : Nat) : (s.setX d v).byte a = s.byte a :=
  (s.onlyRegs_setX d v).memory a

/-- R140: what the end of a sleep leaves: the register tells whether the thread was woken, and no other register, no
memory and not the issuing slot change. -/
theorem State.endSleep_sleep {s : State} {sid n : Nat} {d : BitVec 6} (h : (s.slot sid).st = .sleep (.sleep d) n) :
    ((s.endSleep sid).slot sid).st = .run ∧ ((s.endSleep sid).thread sid).wakeLatch = false ∧
    (∀ r, ({ s.endSleep sid with cur := sid } : State).xr r =
      if r = d then w64 (b2n (s.thread sid).wakeLatch) else ({ s with cur := sid } : State).xr r) ∧
    (s.endSleep sid).cur = s.cur ∧ ∀ a, (s.endSleep sid).byte a = s.byte a := by
  have hend : s.endSleep sid =
      ({ ({ s with cur := sid } : State).setX d (w64 (b2n (s.thread sid).wakeLatch)) with cur := s.cur } : State).modSlot
        sid (fun sl => { sl with st := .run, th := { sl.th with wakeLatch := false } }) := by
    unfold State.endSleep; rw [h]
  generalize hs1 : ({ s with cur := sid } : State).setX d (w64 (b2n (s.thread sid).wakeLatch)) = s1 at hend
  have hcur : s1.cur = sid := by rw [← hs1, State.cur_setX]
  have hslot : (s.endSleep sid).slot sid =
      { s1.slot sid with st := .run, th := { s1.thread sid with wakeLatch := false } } := by
    rw [hend, State.slot_modSlot, if_pos rfl]; rfl
  refine ⟨by rw [hslot], by rw [State.thread, hslot], fun r => ?_, by rw [hend, State.cur_modSlot], fun a => ?_⟩
  · have hx : ({ s.endSleep sid with cur := sid } : State).th.x = s1.th.x := by
      show ((s.endSleep sid).slot sid).th.x = (s1.thread s1.cur).x
      rw [hslot, hcur]
    have hc : ({ s.endSleep sid with cur := sid } : State).me.c = s1.me.c := by
      show ((s.endSleep sid).core (coreOf sid)).c = (s1.core (coreOf s1.cur)).c
      rw [hend, hcur]; rfl
    rw [State.xr_of _ _ _ hx hc, ← hs1, State.xr_setX]
  · rw [hend]
    show s1.byte a = _
    rw [← hs1]; exact State.byte_setX _ _ _ _

/-- R13: a policy sleep whose causes have cleared ends, in a core that is not halted. -/
theorem State.ydWake_of_clear {s : State} {sid n : Nat} {cs : List Cause} (h : (s.slot sid).st = .sleep (.policy cs) n)
    (hh : (s.core (coreOf sid)).halted = false) (hc : cs.all ({ s with cur := sid } : State).clear = true) :
    s.ydWake sid = s.runAgain sid := by
  simp only [State.ydWake, h, hh, hc, Bool.not_false, Bool.and_self, if_true]
  exact State.endSleep_policy h

/-- R13: and else it goes on. -/
theorem State.ydWake_of_not_clear {s : State} {sid n : Nat} {cs : List Cause} (h : (s.slot sid).st = .sleep (.policy cs) n)
    (hn : (s.core (coreOf sid)).halted = true ∨ cs.all ({ s with cur := sid } : State).clear = false) :
    s.ydWake sid = s := by
  simp only [State.ydWake, h]
  rcases hn with hh | hc
  · simp only [hh, Bool.not_true, Bool.false_and, Bool.false_eq_true, if_false]
  · simp only [hc, Bool.and_false, Bool.false_eq_true, if_false]

/-- R142, R372: what a slot that an exiting thread leaves is, and its context's count of slots. -/
theorem State.freeSlot_of_dying {s : State} {sid : Nat} (h : (s.slot sid).dying = true) :
    (s.freeSlot sid).slot sid = { gen := (s.slot sid).gen } ∧ (∀ k, k ≠ sid → (s.freeSlot sid).slot k = s.slot k) ∧
    ((s.freeSlot sid).ctx (s.thread sid).ctx).usedSlots =
      (s.ctx (s.thread sid).ctx).usedSlots - (if (s.slot sid).left then 0 else 1) ∧
    (s.freeSlot sid).mem = s.mem := by
  unfold State.freeSlot
  rw [if_pos h]
  cases hl : (s.slot sid).left
  · refine ⟨?_, fun k hk => ?_, ?_, rfl⟩
    · simp [State.slot_modSlot]
    · simp [State.slot_modSlot, hk]
    · simp [State.ctx_modCtx]
  · refine ⟨?_, fun k hk => ?_, rfl, rfl⟩
    · simp [State.slot_modSlot]
    · simp [State.slot_modSlot, hk]

/-! ### The events -/

theorem exec_ydSleepTimeout {s : State} {sid : Nat} {cs : List Cause} (h : (s.slot sid).st = .sleep (.policy cs) 0) :
    exec (.ydSleepTimeout sid) s = .next (s.runAgain sid) := by
  show execYdSleepTimeout sid s = _
  simp only [execYdSleepTimeout, h, State.endSleep_policy h, done]

theorem exec_yieldEnd {s : State} {sid : Nat} (h : (s.slot sid).st = .sleep .yield 0) :
    exec (.yieldEnd sid) s = .next (s.runAgain sid) := by
  show execYieldEnd sid s = _
  simp only [execYieldEnd, h, State.endSleep_yield h, done]

theorem exec_holdSkipEnd {s : State} {sid : Nat} (h : (s.slot sid).st = .skip 0) :
    exec (.holdSkipEnd sid) s = .next (s.runAgain sid) := by
  show execHoldSkipEnd sid s = _
  simp only [execHoldSkipEnd, h, done]; rfl

theorem exec_sleepTimeout {s : State} {sid : Nat} {d : BitVec 6} (h : (s.slot sid).st = .sleep (.sleep d) 0) :
    exec (.sleepTimeout sid) s = .next (s.endSleep sid) := by
  show execSleepTimeout sid s = _
  simp only [execSleepTimeout, h, done]

/-- R13: a policy sleep ends early at a rotation boundary alone. -/
theorem exec_ydSleepWake (s : State) (sid : Nat) :
    exec (.ydSleepWake sid) s = .next (if s.opens (coreOf sid) then s.ydWake sid else s) := rfl

/-- R142: an exited thread's slot is freed at a rotation boundary alone. -/
theorem exec_threadExitComplete (s : State) (sid : Nat) :
    exec (.threadExitComplete sid) s = .next (if s.opens (coreOf sid) then s.freeSlot sid else s) := rfl

end Sys2Proof.Machine

open Sys2Proof Sys2Proof.Machine Sys2Proof.Claims

/-- Settles O37: each event by its equation `exec_…` and by what the operation that it names leaves. -/
theorem slotWakeEvents : Obligations.SlotWakeEvents := by
  unfold Obligations.SlotWakeEvents
  intro sid s
  refine ⟨fun cs h => awakes_of_runAgain (exec_ydSleepTimeout h), fun cs n h => ⟨fun ho hh hc => ?wakes, fun hn => ?rests⟩,
    fun h => awakes_of_runAgain (exec_yieldEnd h), fun h => awakes_of_runAgain (exec_holdSkipEnd h),
    fun d h => ?sleeps, fun hd ho => ?exits⟩
  case wakes =>
    refine awakes_of_runAgain ?_
    rw [exec_ydSleepWake, if_pos ho, State.ydWake_of_clear h hh hc]
  case rests =>
    rw [exec_ydSleepWake]
    rcases hn with ho | hn
    · rw [ho]; rfl
    · rw [State.ydWake_of_not_clear h hn, ite_self]
  case sleeps =>
    obtain ⟨hst, hlatch, hx, hcur, hmem⟩ := State.endSleep_sleep h
    exact ⟨_, exec_sleepTimeout h, hst, hlatch, by rw [hx, if_pos rfl], fun r hr => by rw [hx, if_neg hr], hcur, hmem⟩
  case exits =>
    obtain ⟨hslot, hothers, hcount, hmem⟩ := State.freeSlot_of_dying hd
    refine ⟨s.freeSlot sid, by rw [exec_threadExitComplete, if_pos ho], hslot, hothers, hcount, fun a => ?_⟩
    unfold State.byte; rw [hmem]
end

section
/-! SUPPORT. Not-ready outcomes (R12 to R14): what an outcome leaves of the registers, and what each policy does. -/

namespace Sys2Proof.Machine

/-! ### What an instruction leaves of the registers -/

/-- The part of `State.KeepsRegs` that speaks of the thread alone. -/
structure Thread.KeepsRegs (h h' : Thread) : Prop where
  x : h'.x = h.x
  v : h'.v = h.v
  k : h'.k = h.k
  ox : h'.ox = h.ox
  status : ∀ n, n ≠ 0 → stBit h'.st n = stBit h.st n
  nrt : h'.nrt = h.nrt
  stklim : h'.stklim = h.stklim
  uha : h'.uha = h.uha
  trapRecord : h'.epc = h.epc ∧ h'.ecause = h.ecause ∧ h'.einfo = h.einfo ∧ h'.estat = h.estat

theorem Thread.KeepsRegs.refl (h : Thread) : h.KeepsRegs h :=
  ⟨rfl, rfl, rfl, rfl, fun _ _ => rfl, rfl, rfl, rfl, rfl, rfl, rfl, rfl⟩

theorem State.vr_of {s t : State} (hv : t.th.v = s.th.v) (hw : t.me.w = s.me.w) (r : BitVec 5) : t.vr r = s.vr r := by
  unfold State.vr; rw [hv, hw]

/-- Registers are kept where the thread keeps its own and the core keeps the shared ones. -/
theorem State.keepsRegs_of_thread {s t : State} (hcur : t.cur = s.cur) (hth : s.th.KeepsRegs t.th)
    (hc : t.me.c = s.me.c) (hw : t.me.w = s.me.w) : s.KeepsRegs t [] where
  cur := hcur
  regs := fun r _ => State.xr_of s t r hth.x hc
  vecs := State.vr_of hth.v hw
  masks := fun r => by unfold State.kr; rw [hth.k]
  exts := fun n => by unfold State.oxr; rw [hth.ox]
  status := hth.status
  nrt := hth.nrt
  stklim := hth.stklim
  uha := hth.uha
  trapRecord := hth.trapRecord

theorem State.keepsRegs_modTh (s : State) {f : Thread → Thread} (hf : s.th.KeepsRegs (f s.th)) :
    s.KeepsRegs (s.modTh f) [] :=
  State.keepsRegs_of_thread rfl (by rw [State.th_modTh]; exact hf) (by rw [State.me_modTh]) (by rw [State.me_modTh])

theorem State.keepsRegs_modMe (s : State) {f : Core → Core} (hc : (f s.me).c = s.me.c) (hw : (f s.me).w = s.me.w) :
    s.KeepsRegs (s.modMe f) [] :=
  State.keepsRegs_of_thread rfl (.refl s.th) (by rw [State.me_modMe]; exact hc) (by rw [State.me_modMe]; exact hw)

theorem State.KeepsRegs.trans {s t u : State} {d₁ d₂ : List (BitVec 6)} (h : s.KeepsRegs t d₁) (k : t.KeepsRegs u d₂) :
    s.KeepsRegs u (d₁ ++ d₂) where
  cur := k.cur.trans h.cur
  regs := fun r hr => by
    simp only [List.mem_append, not_or] at hr
    exact (k.regs r hr.2).trans (h.regs r hr.1)
  vecs := fun r => (k.vecs r).trans (h.vecs r)
  masks := fun r => (k.masks r).trans (h.masks r)
  exts := fun n => (k.exts n).trans (h.exts n)
  status := fun n hn => (k.status n hn).trans (h.status n hn)
  nrt := k.nrt.trans h.nrt
  stklim := k.stklim.trans h.stklim
  uha := k.uha.trans h.uha
  trapRecord := by
    obtain ⟨hpc, hcause, hinfo, hstat⟩ := h.trapRecord
    obtain ⟨kpc, kcause, kinfo, kstat⟩ := k.trapRecord
    exact ⟨kpc.trans hpc, kcause.trans hcause, kinfo.trans hinfo, kstat.trans hstat⟩

/-- What touches only registers keeps all that it does not write. -/
theorem State.OnlyRegs.keepsRegs {s t : State} {rs ds : List (BitVec 6)} (h : s.OnlyRegs t rs ds) :
    s.KeepsRegs t ds where
  cur := h.cur_eq
  regs := h.regs
  vecs := State.vr_of (by rw [h.thread]) (by rw [h.core])
  masks := fun r => by unfold State.kr; rw [h.thread]
  exts := fun n => by unfold State.oxr; rw [h.thread]
  status := h.status
  nrt := by rw [h.thread]
  stklim := by rw [h.thread]
  uha := by rw [h.thread]
  trapRecord := by rw [h.thread]; exact ⟨rfl, rfl, rfl, rfl⟩

theorem State.OnlyRegs.mine_eq {s t : State} {rs ds : List (BitVec 6)} (h : s.OnlyRegs t rs ds) : t.mine = s.mine := by
  rw [h.device]; rfl

theorem State.OnlyRegs.cluster_eq {s t : State} {rs ds : List (BitVec 6)} (h : s.OnlyRegs t rs ds) (cl : Nat) :
    t.cluster cl = s.cluster cl := by
  rw [h.device]; rfl

/-! ### The retry counter and the flag -/

/-- R14: the retry counter is for the pc from then on. -/
theorem Thread.countRetry_eq (h : Thread) : h.countRetry =
    { h with rtcTag := h.pc, rtcCount := if h.rtcTag = h.pc then min (h.rtcCount + 1) 8191 else 1 } := by
  unfold Thread.countRetry
  by_cases hp : h.rtcTag = h.pc
  · simp only [if_pos hp]; rw [← hp]
  · simp only [if_neg hp]

/-- R14: the thread after a not-ready outcome, before its policy acts. -/
def Thread.notReady (h : Thread) : Thread := { h.noteNr.countRetry with st := stSet h.st 0 true }

theorem Thread.notReady_eq (h : Thread) : h.notReady = { h with
    nrBefore := h.noteNr.nrBefore, st := stSet h.st 0 true, rtcTag := h.pc,
    rtcCount := if h.rtcTag = h.pc then min (h.rtcCount + 1) 8191 else 1 } := by
  unfold Thread.notReady
  rw [Thread.countRetry_eq]; rfl

theorem Thread.rtcCount_notReady (h : Thread) : h.notReady.rtcCount = h.countRetry.rtcCount := by
  rw [Thread.notReady_eq, Thread.countRetry_eq]

theorem Thread.keepsRegs_notReady (h : Thread) : h.KeepsRegs h.notReady := by
  rw [Thread.notReady_eq]
  exact ⟨rfl, rfl, rfl, rfl, fun _ hn => stBit_stSet_ne _ _ _ _ hn, rfl, rfl, rfl, rfl, rfl, rfl, rfl⟩

/-- R14: the state after a not-ready outcome, before its policy acts. -/
def State.noted (s : State) (causes : List Cause) : State := (s.noteDelay (causes.headD .reply)).modTh Thread.notReady

@[simp] theorem State.cur_noted (s : State) (causes : List Cause) : (s.noted causes).cur = s.cur := rfl
@[simp] theorem State.mem_noted (s : State) (causes : List Cause) : (s.noted causes).mem = s.mem := rfl
@[simp] theorem State.th_noted (s : State) (causes : List Cause) : (s.noted causes).th = s.th.notReady := by
  unfold State.noted State.noteDelay
  rw [State.th_modTh, State.th_modMe]

theorem State.slot_noted (s : State) (causes : List Cause) :
    (s.noted causes).slot s.cur = { s.slot s.cur with th := s.th.notReady } := by
  have h := (s.noteDelay (causes.headD .reply)).slot_modTh_cur Thread.notReady
  unfold State.noteDelay at h
  rw [State.cur_modMe, State.slot_modMe, State.th_modMe] at h
  exact h

theorem State.keepsRegs_noteDelay (s : State) (c : Cause) : s.KeepsRegs (s.noteDelay c) [] := by
  unfold State.noteDelay
  exact s.keepsRegs_modMe rfl rfl

theorem State.keepsRegs_noted (s : State) (causes : List Cause) : s.KeepsRegs (s.noted causes) [] :=
  (s.keepsRegs_noteDelay _).trans (State.keepsRegs_modTh _ (Thread.keepsRegs_notReady _))

/-! ### The target of `.br` (R14, R70) -/

/-- R213: what a fetch of a parcel depends on. -/
theorem State.fetchParcel_congr {s t : State} {sid : Nat} (hfetched : (t.thread sid).fetched = (s.thread sid).fetched)
    (hfailed : (t.thread sid).failed = (s.thread sid).failed) (hctx : (t.thread sid).ctx = (s.thread sid).ctx)
    (hgen : (t.thread sid).gen = (s.thread sid).gen) (huid : (t.thread sid).uid = (s.thread sid).uid)
    (htlb : (t.core (coreOf sid)).tlb = (s.core (coreOf sid)).tlb)
    (hl1i : (t.core (coreOf sid)).l1i = (s.core (coreOf sid)).l1i)
    (hrest : t = { s with slots := t.slots, cores := t.cores }) (va : Word) :
    t.fetchParcel sid va = s.fetchParcel sid va := by
  have hxlate : t.xlate (coreOf sid) (s.thread sid).ctx va.toNat (Kind.ofCode 2) =
      s.xlate (coreOf sid) (s.thread sid).ctx va.toNat (Kind.ofCode 2) := by
    have hfind : ∀ l a v k, t.tlbFind l a v k = s.tlbFind l a v k := by rw [hrest]; exact fun _ _ _ _ => rfl
    have hcl : t.cluster (coreOf sid / 8) = s.cluster (coreOf sid / 8) := by rw [hrest]; rfl
    simp only [State.xlate, hfind, htlb, hcl]
  have hmach : ∀ x, t.machineOf x = s.machineOf x := by rw [hrest]; exact fun _ => rfl
  simp only [State.fetchParcel, hfetched, hfailed, hctx, hgen, huid, hl1i, hxlate, hmach]

/-- R14: the check of the target of `.br` reads nothing that the outcome has changed. -/
theorem State.checkTarget_noted (s : State) (causes : List Cause) (t : Word) :
    (s.noted causes).checkTarget .indirect t = s.checkTarget .indirect t := by
  have hth : (s.noted causes).thread s.cur = s.th.notReady := s.th_noted causes
  have hcore : (s.noted causes).core (coreOf s.cur) = { s.me with nrAt := ((s.noted causes).core (coreOf s.cur)).nrAt } := by
    have hme : (s.noteDelay (causes.headD .reply)).me = { s.me with nrAt := (s.noteDelay (causes.headD .reply)).me.nrAt } := by
      unfold State.noteDelay; rw [State.me_modMe]
    exact hme
  have hf : ∀ va, (s.noted causes).fetchParcel s.cur va = s.fetchParcel s.cur va := by
    refine State.fetchParcel_congr ?_ ?_ ?_ ?_ ?_ (by rw [hcore]; rfl) (by rw [hcore]; rfl) rfl <;>
      (rw [hth, Thread.notReady_eq]; rfl)
  simp only [State.checkTarget, State.cur_noted, hf]

/-! ### The policies (R14) -/

/-- R14: the progress trap is due at this not-ready outcome. -/
def State.progressDue (s : State) : Prop := stBit s.th.st 2 = true ∧ s.th.countRetry.rtcCount = 4096

theorem State.progressDue_iff (s : State) (causes : List Cause) :
    s.progressDue ↔ (stBit s.th.st 2 && (s.noted causes).th.rtcCount == 4096) = true := by
  rw [State.th_noted, Bool.and_eq_true, beq_iff_eq, Thread.rtcCount_notReady]; rfl

theorem State.notReady_progress {s : State} (h : s.progressDue) (causes : List Cause) (code size : Nat) (p : Policy) :
    s.notReady causes code p size =
      ((s.noted causes).modTh (fun h => { h with st := s.th.st })).raise tPROGRESS (w64 code) :=
  if_pos ((s.progressDue_iff causes).1 h)

/-- R14, R70: what `.br` does by the check of its target. -/
def State.branchNr (s : State) (causes : List Cause) : Target → State
  | .ok => (s.noted causes).modTh (fun h => { h with pc := h.nrt, prefixLatch := none, nrBefore := none })
  | .trap c => ((s.noted causes).modTh (fun h => { h with st := s.th.st })).raise c (s.noted causes).th.nrt
  | .wait j => s.oweOpt j

section
variable {s : State} (h : ¬ s.progressDue) (causes : List Cause) (code size : Nat)
include h

theorem State.notReady_rt : s.notReady causes code .rt size = s.noted causes :=
  if_neg (mt (s.progressDue_iff causes).2 h)

theorem State.notReady_fl : s.notReady causes code .fl size =
    (s.noted causes).modTh (fun h => { h with pc := h.pc + w64 size, nrBefore := none }) :=
  if_neg (mt (s.progressDue_iff causes).2 h)

theorem State.notReady_yd : s.notReady causes code .yd size =
    (s.noted causes).modSlot s.cur (fun sl => { sl with st := .sleep (.policy causes) 64 }) :=
  if_neg (mt (s.progressDue_iff causes).2 h)

theorem State.notReady_br : s.notReady causes code .br size = s.branchNr causes (s.checkTarget .indirect s.th.nrt) := by
  have hnrt : (s.noted causes).th.nrt = s.th.nrt := by rw [State.th_noted, Thread.notReady_eq]
  have hbr : s.notReady causes code .br size =
      s.branchNr causes ((s.noted causes).checkTarget .indirect (s.noted causes).th.nrt) :=
    if_neg (mt (s.progressDue_iff causes).2 h)
  rw [hbr, hnrt, State.checkTarget_noted]

end

@[simp] theorem State.cur_oweOpt (s : State) (j : Option Job) : (s.oweOpt j).cur = s.cur := by
  unfold State.oweOpt
  split
  · rfl
  · rw [State.cur_owe]; split <;> rfl

/-- Whatever a not-ready outcome does, the issuing slot stays. -/
theorem State.cur_notReady (s : State) (causes : List Cause) (code size : Nat) (p : Policy) :
    (s.notReady causes code p size).cur = s.cur := by
  by_cases h : s.progressDue
  · rw [State.notReady_progress h]
    exact (State.raise_frame _ _ _).2.1
  · cases p with
    | rt => rw [State.notReady_rt h]; rfl
    | fl => rw [State.notReady_fl h]; rfl
    | yd => rw [State.notReady_yd h]; rfl
    | br =>
      rw [State.notReady_br h]
      cases s.checkTarget .indirect s.th.nrt with
      | ok => rfl
      | trap c => exact (State.raise_frame _ _ _).2.1
      | wait j => exact s.cur_oweOpt j

/-- A change of the pc, of the record of NR's old value and of the latch of `pfx` keeps the registers. -/
theorem State.keepsRegs_moved (s : State) (causes : List Cause) (f : Thread → Thread)
    (hf : ∀ h, f h = { h with pc := (f h).pc, nrBefore := (f h).nrBefore, prefixLatch := (f h).prefixLatch }) :
    s.KeepsRegs ((s.noted causes).modTh f) [] := by
  refine (s.keepsRegs_noted causes).trans (State.keepsRegs_modTh _ ?_)
  rw [hf]
  exact ⟨rfl, rfl, rfl, rfl, fun _ _ => rfl, rfl, rfl, rfl, rfl, rfl, rfl, rfl⟩

theorem Thread.stBit_notReady (h : Thread) : stBit h.notReady.st 0 = true := stBit_stSet _ _ _ (by decide)

/-- R14: the retry counter after an outcome is that of the thread as it was noted. -/
theorem Thread.counted_notReady (h : Thread) :
    h.notReady.rtcTag = h.pc ∧ h.notReady.rtcCount = if h.rtcTag = h.pc then min (h.rtcCount + 1) 8191 else 1 := by
  rw [Thread.notReady_eq]; exact ⟨rfl, rfl⟩

/-- A change of a slot's state leaves the threads. -/
theorem State.th_modSlot_st (s : State) (sid : Nat) (w : SlotSt) :
    (s.modSlot sid (fun sl => { sl with st := w })).th = s.th := by
  show ((s.modSlot sid _).slot s.cur).th = (s.slot s.cur).th
  rw [State.slot_modSlot]
  split
  · next h => rw [h]
  · rfl

theorem State.keepsRegs_modSlot_st (s : State) (sid : Nat) (w : SlotSt) :
    s.KeepsRegs (s.modSlot sid (fun sl => { sl with st := w })) [] :=
  State.keepsRegs_of_thread rfl (by rw [State.th_modSlot_st]; exact .refl _) rfl rfl

/-- R14: where the policy acts, the retry counter has counted the outcome. -/
theorem State.counted_notReady {s : State} (h : ¬ s.progressDue) (causes : List Cause) (code size : Nat) {p : Policy}
    (hp : p ≠ .br ∨ s.checkTarget .indirect s.th.nrt = .ok) :
    (s.notReady causes code p size).th.rtcTag = s.th.pc ∧ (s.notReady causes code p size).th.rtcCount =
      if s.th.rtcTag = s.th.pc then min (s.th.rtcCount + 1) 8191 else 1 := by
  have hcount := s.th.counted_notReady
  cases p with
  | rt => rw [State.notReady_rt h, State.th_noted]; exact hcount
  | fl => rw [State.notReady_fl h, State.th_modTh, State.th_noted]; exact hcount
  | yd =>
    rw [State.notReady_yd h, State.th_modSlot_st, State.th_noted]; exact hcount
  | br =>
    rw [State.notReady_br h, hp.resolve_left (fun hne => hne rfl)]
    show ((s.noted causes).modTh _).th.rtcTag = _ ∧ ((s.noted causes).modTh _).th.rtcCount = _
    rw [State.th_modTh, State.th_noted]; exact hcount

/-- R14: the raised progress trap finds `st`, the pc and memory as they were. -/
theorem State.notReady_progress_frame {s : State} (h : s.progressDue) (causes : List Cause) (code size : Nat) (p : Policy) :
    ∃ t : State, s.notReady causes code p size = t.raise tPROGRESS (w64 code) ∧
      t.th.st = s.th.st ∧ t.th.pc = s.th.pc ∧ t.cur = s.cur ∧ t.mem = s.mem := by
  refine ⟨_, State.notReady_progress h causes code size p, ?_, ?_, rfl, rfl⟩
  · rw [State.th_modTh]
  · rw [State.th_modTh, State.th_noted, Thread.notReady_eq]

/-- R12 to R16: what each policy does. -/
theorem notReady_policies : Claims.policies := by
  intro s causes code size p
  have hpc : s.th.notReady.pc = s.th.pc := by rw [Thread.notReady_eq]
  have hnrt : s.th.notReady.nrt = s.th.nrt := by rw [Thread.notReady_eq]
  have hnr := s.th.stBit_notReady
  refine ⟨fun hpck hcount => State.notReady_progress_frame ⟨hpck, hcount⟩ causes code size p, fun hno => ?_⟩
  have h : ¬ s.progressDue := fun ⟨hpck, hcount⟩ => hno.elim (fun hf => by simp [hf] at hpck) (fun hn => hn hcount)
  refine ⟨s.cur_notReady causes code size p, State.counted_notReady h causes code size, ?rt, ?fl, ?yd, ?br⟩
  case rt =>
    rintro rfl
    rw [State.notReady_rt h, State.th_noted]
    exact ⟨hpc, hnr, by rw [State.slot_noted], rfl, s.keepsRegs_noted causes⟩
  case fl =>
    rintro rfl
    rw [State.notReady_fl h, State.th_modTh, State.th_noted]
    exact ⟨congrArg (· + w64 size) hpc, hnr, rfl, s.keepsRegs_moved causes _ (fun _ => rfl)⟩
  case yd =>
    rintro rfl
    rw [State.notReady_yd h, State.th_modSlot_st, State.th_noted]
    exact ⟨hpc, hnr, by rw [State.slot_modSlot, if_pos rfl], rfl,
      (s.keepsRegs_noted causes).trans (State.keepsRegs_modSlot_st _ _ _)⟩
  case br =>
    rintro rfl hok
    rw [State.notReady_br h, hok]
    refine ⟨?_, ?_, rfl, s.keepsRegs_moved causes _ (fun _ => rfl)⟩ <;>
      (unfold State.branchNr; rw [State.th_modTh, State.th_noted])
    · exact hnrt
    · exact hnr

/-! ### Instructions whose own effect is not ready -/

/-- R12: an outcome that is not ready has read nothing: what stands as before. -/
theorem State.unread_frame (s s0 : State) : (s.unread s0).th.pc = s.th.pc ∧ s.KeepsRegs (s.unread s0) [] ∧
    (s.unread s0).mem = s.mem ∧ (s.unread s0).mine = s.mine := by
  unfold State.unread
  refine ⟨?_, ?_, rfl, rfl⟩
  · rw [State.th_modMe, State.th_modTh]
  · exact (s.keepsRegs_modTh ⟨rfl, rfl, rfl, rfl, fun _ _ => rfl, rfl, rfl, rfl, rfl, rfl, rfl, rfl⟩).trans
      (State.keepsRegs_modMe _ rfl rfl)

/-- What the start of an instruction leaves where its outcome is not ready. -/
theorem Use.unread_start_frame (u : Use) (s : State) : ((u.start s).unread s).th.pc = s.th.pc ∧
    s.KeepsRegs ((u.start s).unread s) [] ∧ (∀ x, ((u.start s).unread s).byte x = s.byte x) ∧
    ((u.start s).unread s).mine.scratch = s.mine.scratch := by
  have hstart := u.onlyRegs_start s
  obtain ⟨hpc, hregs, hmem, hmine⟩ := (u.start s).unread_frame s
  refine ⟨by rw [hpc, Use.pc_start], hstart.keepsRegs.trans hregs, fun x => ?_, by rw [hmine, hstart.mine_eq]⟩
  exact (congrArg (Memory.read · x) hmem).trans (hstart.memory x)

/-- An instruction that is not ready in its own effect, having changed nothing, has its policy's outcome. -/
theorem Use.run_notReady {u : Use} {s : State} {body : State → Res} {cs : List Cause} {code : Nat} {p : Policy}
    (hp : u.pol = some p) (hf : ∀ f, u.feat = some f → s.granted f) (hk : u.kern = true → s.th.kern = true)
    (hn : s.unheld u.names) (hl : u.after = true → s.th.lateWaits = false) (ha : s.arrived u.reads)
    (hb : body (u.start s) = .nr cs code (u.start s)) :
    u.run s body = ((u.start s).unread s).notReady cs code p u.size := by
  rw [Use.run_of u s body hf hk hn hl ha, hb]
  show State.notReady _ cs code (u.pol.getD .rt) u.size = _
  rw [hp]; rfl

/-- R262: the checks of a full-empty access pass for a granule of the scratchpad. -/
theorem feCheck_of {o : Word} (hlim : o.toNat < spLimit) (hal : o.toNat % 16 = 0) (f : Unit → Res) : feCheck o f = f () := by
  unfold feCheck
  rw [if_neg (Nat.not_le.2 hlim), if_neg (not_not.2 hal)]

@[simp] theorem Use.feFull_start (u : Use) (s : State) (cl g : Nat) : (u.start s).feFull cl g = s.feFull cl g := by
  unfold State.feFull; rw [(u.onlyRegs_start s).cluster_eq]

section
variable {p : Policy} {a d : BitVec 6} {s : State} (hact : Claims.canAct s [a, d] [a, d])
  (hlim : (s.xr a).toNat < spLimit) (hal : (s.xr a).toNat % 16 = 0)
include hact hlim hal

/-- R262: `ldff` and `ldfe` of an empty granule are not ready. -/
theorem exec_feLoad_empty (hempty : s.feFull (clusterOf s.cur) ((s.xr a).toNat / 16) = false) {i : Instr}
    (hi : i ∈ [Instr.ldff p a d, .ldfe p a d]) :
    exec i s = .next ((((memUse p [a] [d]).start s).unread s).notReady [.empty ((s.xr a).toNat / 16)] 13 p 4) := by
  obtain ⟨⟨hheld, harr⟩, hlate⟩ := hact
  have hrun : ∀ body : State → Res,
      body ((memUse p [a] [d]).start s) = .nr [.empty ((s.xr a).toNat / 16)] 13 ((memUse p [a] [d]).start s) →
      (memUse p [a] [d]).run s body =
        (((memUse p [a] [d]).start s).unread s).notReady [.empty ((s.xr a).toNat / 16)] 13 p 4 := fun body hb =>
    Use.run_notReady (u := memUse p [a] [d]) rfl nofun nofun hheld (fun _ => hlate)
      (fun r hr => harr r (List.mem_append_left [d] hr)) hb
  simp only [List.mem_cons, List.not_mem_nil, or_false] at hi
  rcases hi with rfl | rfl
  · refine congrArg Host.Outcome.next (hrun _ ?_)
    simp [feCheck_of, hlim, hal, hempty]
  · refine congrArg Host.Outcome.next (hrun _ ?_)
    simp [feCheck_of, hlim, hal, hempty]

/-- R262: `stef` of a full granule is not ready. -/
theorem exec_stef_full (hfull : s.feFull (clusterOf s.cur) ((s.xr a).toNat / 16) = true) :
    exec (.stef p a d) s = .next (((((memUse p [a, d] []).carries a [d]).start s).unread s).notReady
      [.granuleFull ((s.xr a).toNat / 16)] 14 p 4) := by
  obtain ⟨⟨hheld, harr⟩, hlate⟩ := hact
  refine congrArg Host.Outcome.next (Use.run_notReady (u := (memUse p [a, d] []).carries a [d]) rfl nofun nofun hheld
    (fun _ => hlate) harr ?_)
  simp [feCheck_of, hlim, hal, hfull]

end

/-- R262, R14: a full-empty access that waits has its policy's outcome and no other effect. -/
theorem feAccess_waits : Claims.fullEmptyWaits := by
  intro p a d s hact hlim hal g full
  refine ⟨fun hempty i hi => ?_, fun hfull => ?_⟩
  · exact ⟨_, exec_feLoad_empty hact hlim hal hempty hi, Use.unread_start_frame _ s⟩
  · exact ⟨_, exec_stef_full hact hlim hal hfull, Use.unread_start_frame _ s⟩

end Sys2Proof.Machine

open Sys2Proof Sys2Proof.Machine Sys2Proof.Claims

/-- Settles O53: the outcome by policy is `notReady_policies`, the full-empty accesses that have it `feAccess_waits`. -/
theorem notReadyOutcomes : Obligations.NotReadyOutcomes := by
  unfold Obligations.NotReadyOutcomes
  exact ⟨notReady_policies, feAccess_waits⟩
end

section
/-! SUPPORT. The canonical form of the byte memories: that it determines a memory, and that every operation that writes one
keeps it (R11, R227, R235, R262). -/

namespace Sys2Proof.Machine

/-! ### A canonical memory is determined by what it reads -/

theorem Memory.wfFrom_cons {lo k : Nat} {b : Byte} {r : List Host.Cell} :
    Memory.wfFrom lo ((k, b) :: r) = true ↔ lo ≤ k ∧ b ≠ Memory.empty ∧ Memory.wfFrom (k + 1) r = true := by
  simp [Memory.wfFrom, and_assoc]

/-- Below its first address a canonical memory reads as unwritten. -/
theorem Memory.read_of_lt {lo a : Nat} {m : List Host.Cell} (h : Memory.wfFrom lo m = true) (ha : a < lo) :
    Memory.read m a = Memory.empty := by
  induction m generalizing lo with
  | nil => rfl
  | cons c r ih =>
    obtain ⟨k, b⟩ := c
    obtain ⟨hk, -, hr⟩ := Memory.wfFrom_cons.1 h
    rw [Memory.read, if_neg (by omega)]
    exact ih hr (by omega)

theorem Memory.read_cons_self (k : Nat) (b : Byte) (r : List Host.Cell) : Memory.read ((k, b) :: r) k = b := by
  rw [Memory.read, if_pos rfl]

/-- Two canonical memories that read alike list the same first address. -/
theorem Memory.not_lt_of_read_eq {lo k j : Nat} {b c : Byte} {r q : List Host.Cell}
    (hm : Memory.wfFrom lo ((k, b) :: r) = true) (hl : Memory.wfFrom lo ((j, c) :: q) = true)
    (h : ∀ a, Memory.read ((k, b) :: r) a = Memory.read ((j, c) :: q) a) : ¬ k < j := by
  intro hlt
  obtain ⟨-, hb, -⟩ := Memory.wfFrom_cons.1 hm
  obtain ⟨-, hc, hq⟩ := Memory.wfFrom_cons.1 hl
  have hj : Memory.wfFrom j ((j, c) :: q) = true := Memory.wfFrom_cons.2 ⟨le_rfl, hc, hq⟩
  exact hb (by rw [← Memory.read_cons_self k b r, h k, Memory.read_of_lt hj hlt])

theorem Memory.eq_of_read_eq {lo : Nat} {m l : List Host.Cell} (hm : Memory.wfFrom lo m = true)
    (hl : Memory.wfFrom lo l = true) (h : ∀ a, Memory.read m a = Memory.read l a) : m = l := by
  induction m generalizing lo l with
  | nil =>
    cases l with
    | nil => rfl
    | cons c q =>
      obtain ⟨j, c⟩ := c
      obtain ⟨-, hc, -⟩ := Memory.wfFrom_cons.1 hl
      exact absurd ((h j).trans (Memory.read_cons_self j c q)).symm hc
  | cons b r ih =>
    obtain ⟨k, b⟩ := b
    cases l with
    | nil =>
      obtain ⟨-, hb, -⟩ := Memory.wfFrom_cons.1 hm
      exact absurd ((Memory.read_cons_self k b r).symm.trans (h k)) hb
    | cons c q =>
      obtain ⟨j, c⟩ := c
      have hkj : k = j := Nat.le_antisymm (Nat.not_lt.1 (Memory.not_lt_of_read_eq hl hm fun a => (h a).symm))
        (Nat.not_lt.1 (Memory.not_lt_of_read_eq hm hl h))
      subst hkj
      have hbc : b = c := by rw [← Memory.read_cons_self k b r, h k, Memory.read_cons_self]
      obtain ⟨-, -, hr⟩ := Memory.wfFrom_cons.1 hm
      obtain ⟨-, -, hq⟩ := Memory.wfFrom_cons.1 hl
      have hrq : ∀ a, Memory.read r a = Memory.read q a := fun a => by
        by_cases ha : k = a
        · subst ha; rw [Memory.read_of_lt hr (by omega), Memory.read_of_lt hq (by omega)]
        · have := h a; rwa [Memory.read, if_neg ha, Memory.read, if_neg ha] at this
      rw [hbc, ih hr hq hrq]

/-! ### The scratchpads and vault memories -/

/-- The memories of the clusters of a table are in canonical form. -/
def banksWf (t : Tab Cluster) : Prop :=
  ∀ cl, Memory.wf (t.get {} cl).scratch = true ∧ Memory.wf (t.get {} cl).vault = true

theorem memoriesWf_iff (s : State) : Claims.memoriesWf s ↔ Memory.wf s.mem = true ∧ banksWf s.clusters := Iff.rfl

/-- A change of a cluster that keeps the form of its memories. -/
theorem banksWf_modCluster {s : State} {cl : Nat} {f : Cluster → Cluster} (hs : banksWf s.clusters)
    (hscratch : ∀ c, Memory.wf c.scratch = true → Memory.wf (f c).scratch = true)
    (hvault : ∀ c, Memory.wf c.vault = true → Memory.wf (f c).vault = true) : banksWf (s.modCluster cl f).clusters := by
  intro k
  show Memory.wf ((s.modCluster cl f).cluster k).scratch = true ∧ Memory.wf ((s.modCluster cl f).cluster k).vault = true
  rw [State.cluster_modCluster]
  split
  · obtain ⟨hsc, hva⟩ := hs cl
    exact ⟨hscratch _ hsc, hvault _ hva⟩
  · exact hs k

theorem banksWf_foldl {α : Type} {f : State → α → State} (hf : ∀ s a, banksWf s.clusters → banksWf (f s a).clusters)
    (l : List α) (s : State) (hs : banksWf s.clusters) : banksWf (l.foldl f s).clusters := by
  induction l generalizing s with
  | nil => exact hs
  | cons a r ih => exact ih _ (hf s a hs)

theorem clusters_foldl {α : Type} {f : State → α → State} (hf : ∀ s a, (f s a).clusters = s.clusters) (l : List α)
    (s : State) : (l.foldl f s).clusters = s.clusters := by
  induction l generalizing s with
  | nil => rfl
  | cons a r ih => exact (ih _).trans (hf s a)

/-! ### Operations that leave the clusters -/

@[simp] theorem State.clusters_clearEcc (s : State) (us : List EccAt) : (s.clearEcc us).clusters = s.clusters := by
  unfold State.clearEcc; split <;> rfl

@[simp] theorem State.clusters_trace (s : State) (ev asid cl low : Nat) : (s.trace ev asid cl low).clusters = s.clusters :=
  rfl

@[simp] theorem State.clusters_modBypass (s : State) (cid line : Nat) (f : L1Line → L1Line) :
    (s.modBypass cid line f).clusters = s.clusters :=
  clusters_foldl (fun s i => by split <;> simp) _ s

@[simp] theorem State.clusters_revoke (s : State) (line : Nat) (keep : Option Nat) :
    (s.revoke line keep).clusters = s.clusters := by
  unfold State.revoke
  split
  · rfl
  · split
    · rfl
    · simp

@[simp] theorem State.clusters_performWrite (s : State) (line : Nat) (cells : List Host.Cell) (clock : Nat)
    (who : Option Nat) : (s.performWrite line cells clock who).clusters = s.clusters := by
  simp only [State.performWrite]
  split <;> simp

@[simp] theorem State.clusters_carry (s : State) (line : Nat) (cells : List Host.Cell) (rels : List Rel) :
    (s.carry line cells rels).clusters = s.clusters := by
  unfold State.carry; split <;> simp

@[simp] theorem State.clusters_refreshBypass (s : State) (cid line : Nat) :
    (s.refreshBypass cid line).clusters = s.clusters := by
  simp [State.refreshBypass]

@[simp] theorem State.clusters_refreshCopy (s : State) (cid line : Nat) :
    (s.refreshCopy cid line).clusters = s.clusters := by
  unfold State.refreshCopy
  extract_lets u
  have hu : u.clusters = s.clusters := by
    simp only [u]; split
    · exact s.clusters_refreshBypass cid line
    · rfl
  split
  · exact hu
  · rw [State.clusters_modCore, State.clusters_clearEcc, State.clusters_modHome]; exact hu

@[simp] theorem State.clusters_emit (s : State) (dst : Nat) (bs : List Byte) (ck : Bool) :
    (s.emit dst bs ck).clusters = s.clusters := by
  simp only [State.emit]
  repeat' split
  all_goals rfl

@[simp] theorem State.mem_emit (s : State) (dst : Nat) (bs : List Byte) (ck : Bool) : (s.emit dst bs ck).mem = s.mem := by
  simp only [State.emit]
  repeat' split
  all_goals rfl

@[simp] theorem State.clusters_moveUnits (s : State) (cl : Nat) (f : Nat → Option Nat) :
    (s.moveUnits cl f).clusters = s.clusters := by
  unfold State.moveUnits; split <;> rfl

@[simp] theorem State.mem_moveUnits (s : State) (cl : Nat) (f : Nat → Option Nat) : (s.moveUnits cl f).mem = s.mem := by
  unfold State.moveUnits; split <;> rfl

/-! ### Operations on the way of a read or a write -/

theorem Cluster.scratch_l2Touch (c : Cluster) (now tn line : Nat) : (c.l2Touch now tn line).scratch = c.scratch := by
  simp only [Cluster.l2Touch]
  repeat' split
  all_goals rfl

theorem Cluster.vault_l2Touch (c : Cluster) (now tn line : Nat) : (c.l2Touch now tn line).vault = c.vault := by
  simp only [Cluster.l2Touch]
  repeat' split
  all_goals rfl

theorem banksWf_lookup {s : State} (hs : banksWf s.clusters) (a line : Nat) : banksWf (s.lookup a line).clusters := by
  unfold State.lookup
  extract_lets tn now home sure s1 s2 set
  have h1 : banksWf s1.clusters :=
    banksWf_modCluster hs (fun c h => by rw [Cluster.scratch_l2Touch]; exact h)
      (fun c h => by rw [Cluster.vault_l2Touch]; exact h)
  have h2 : banksWf s2.clusters := h1
  clear_value s2
  split
  · exact h2
  · exact banksWf_modCluster h2 (fun _ h => h) (fun _ h => h)

theorem banksWf_zeroUnit {s : State} (hs : banksWf s.clusters) (u : EccAt) : banksWf (s.zeroUnit u).clusters := by
  cases u with
  | vm cl n => exact banksWf_modCluster hs (fun _ h => h) (fun _ h => by dsimp only; exact Memory.wf_writeAll _ h)
  | sp cl g => exact banksWf_modCluster hs (fun _ h => by dsimp only; exact Memory.wf_writeAll _ h) (fun _ h => h)
  | tile cl n r => exact banksWf_modCluster hs (fun _ h => h) (fun _ h => h)
  | _ => simp only [State.zeroUnit]; exact hs

theorem banksWf_corrected {s : State} (hs : banksWf s.clusters) (u : EccAt) : banksWf (s.corrected u).clusters := by
  cases u with
  | hbm line => exact hs
  | _ => exact banksWf_modCluster hs (fun _ h => h) (fun _ h => h)

theorem banksWf_readUnit {s : State} (hs : banksWf s.clusters) (u : EccAt) (a addr : Nat) (eng ma : Bool) :
    banksWf (s.readUnit u a addr eng ma).clusters := by
  simp only [State.readUnit]
  split
  · exact hs
  · split
    · rw [State.clusters_owe]
      refine banksWf_zeroUnit ?_ u
      exact hs
    · refine banksWf_corrected ?_ u
      exact hs

theorem banksWf_readLine {s : State} (hs : banksWf s.clusters) (line a addr : Nat) (eng ma : Bool) :
    banksWf (s.readLine line a addr eng ma).clusters := by
  unfold State.readLine
  split
  · exact hs
  · split
    · exact banksWf_readUnit hs _ _ _ _ _
    · exact banksWf_readUnit hs _ _ _ _ _

/-! ### Operations of the homes -/

theorem banksWf_mergeUnits {s : State} (hs : banksWf s.clusters) (line actx : Nat) (l : List UpdUnit) :
    banksWf (s.mergeUnits line actx l).clusters := by
  induction l generalizing s with
  | nil => exact hs
  | cons u r ih =>
    refine ih ?_
    rw [State.clusters_carry, State.clusters_performWrite]
    exact banksWf_readLine hs _ _ _ _ _

theorem banksWf_mergeLine {s : State} (hs : banksWf s.clusters) (cid line : Nat) :
    banksWf (s.mergeLine cid line).clusters := by
  simp only [State.mergeLine]
  split
  · exact hs
  · rw [State.clusters_trace, State.clusters_refreshCopy]
    refine banksWf_mergeUnits (banksWf_lookup ?_ _ _) _ _ _
    exact hs

theorem banksWf_mergeAll {s : State} (hs : banksWf s.clusters) (line : Nat) : banksWf (s.mergeAll line).clusters :=
  banksWf_foldl (fun _ p h => banksWf_mergeLine h p.1 line) _ s hs

theorem banksWf_drainComb {s : State} (hs : banksWf s.clusters) (cid line : Nat) :
    banksWf (s.drainComb cid line).clusters := by
  simp only [State.drainComb]
  split
  · exact hs
  · next e _ =>
    rw [State.clusters_refreshCopy]
    have hlooked : banksWf ((s.modCore cid (fun k => { k with comb := k.comb.filter (fun e => e.line != line) })).lookup
        (s.thread (e.writers.headD 0)).ctx line).clusters := by
      refine banksWf_lookup ?_ _ _
      exact hs
    split
    · rw [State.clusters_performWrite]; exact hlooked
    · rw [State.clusters_modHome, State.clusters_performWrite]; exact hlooked

theorem banksWf_performPush {s : State} (hs : banksWf s.clusters) (a cid : Nat) (d : Push) :
    banksWf (s.performPush a cid d).clusters := by
  unfold State.performPush
  split
  · exact hs
  · rw [State.clusters_refreshCopy, State.clusters_carry, State.clusters_performWrite]
    exact banksWf_lookup hs _ _

theorem banksWf_performDrains {s : State} (hs : banksWf s.clusters) (sid : Nat) :
    banksWf (s.performDrains sid).clusters :=
  banksWf_foldl (fun _ d h => banksWf_performPush h _ _ d) _ _ hs

/-! ### Operations of the engines and of the base dies -/

theorem memoriesWf_foldl {α : Type} {f : State → α → State} (hf : ∀ s a, Claims.memoriesWf s → Claims.memoriesWf (f s a))
    (l : List α) (s : State) (hs : Claims.memoriesWf s) : Claims.memoriesWf (l.foldl f s) := by
  induction l generalizing s with
  | nil => exact hs
  | cons a r ih => exact ih _ (hf s a hs)

theorem memoriesWf_performWrite {s : State} (hs : Claims.memoriesWf s) (line : Nat) (cells : List Host.Cell) (clock : Nat)
    (who : Option Nat) : Claims.memoriesWf (s.performWrite line cells clock who) := by
  obtain ⟨hmem, hbanks⟩ := hs
  rw [memoriesWf_iff, State.mem_performWrite, State.clusters_performWrite]
  exact ⟨Memory.wf_writeAll _ hmem, hbanks⟩

theorem memoriesWf_lookup {s : State} (hs : Claims.memoriesWf s) (a line : Nat) : Claims.memoriesWf (s.lookup a line) := by
  obtain ⟨hmem, hbanks⟩ := hs
  exact ⟨by rw [State.mem_lookup]; exact hmem, banksWf_lookup hbanks a line⟩

theorem memoriesWf_poolWrite {s : State} (hs : Claims.memoriesWf s) (a : Nat) (b : List Byte) :
    Claims.memoriesWf (s.poolWrite a b) :=
  memoriesWf_foldl (fun _ _ hu => memoriesWf_performWrite hu _ _ _ _) _ s hs

theorem memoriesWf_streamOut {s : State} (hs : Claims.memoriesWf s) (i : Nat) (cells : List Host.Cell) :
    Claims.memoriesWf (s.streamOut i cells) :=
  memoriesWf_foldl (fun _ _ hu => memoriesWf_performWrite hu _ _ _ _) _ s hs

/-- What an engine writes of a piece of memory, here or at its owner. -/
theorem memoriesWf_engWrite {s : State} (hs : Claims.memoriesWf s) (a : Nat) (l : List (Nat × Nat)) (bs : List Byte) :
    Claims.memoriesWf (s.engWrite a l bs) := by
  induction l generalizing s bs with
  | nil => exact hs
  | cons p r ih =>
    obtain ⟨sys, n⟩ := p
    unfold State.engWrite
    refine ih ?_ _
    split
    · refine memoriesWf_foldl (fun u line hu => ?_) _ s hs
      dsimp only
      split
      · exact hu
      · exact memoriesWf_performWrite (memoriesWf_lookup hu a line) _ _ _ _
    · rw [memoriesWf_iff, State.mem_emit, State.clusters_emit]; exact hs

/-- R427: bytes that become 0 leave the list. -/
theorem memoriesWf_zeroRange {s : State} (hs : Claims.memoriesWf s) (lo n : Nat) : Claims.memoriesWf (s.zeroRange lo n) := by
  have hfold : ∀ (l : List (Nat × HomeLine)) (p : Nat → Bool), Claims.memoriesWf
      (l.foldl (fun (s : State) q => if p q.1 then s.performWrite q.1 [] 0 none else s) s) := fun l p => by
    refine memoriesWf_foldl (fun u q hu => ?_) l s hs
    split
    · exact memoriesWf_performWrite hu _ _ _ _
    · exact hu
  obtain ⟨hmem, hbanks⟩ := hfold s.home (fun line => decide (lo / 64 ≤ line) && decide (line < (lo + n) / 64))
  exact ⟨Memory.wf_filter _ hmem, hbanks⟩

/-! ### Operations of the scratchpads and of the vault memories -/

theorem memoriesWf_modCluster {s : State} (hs : Claims.memoriesWf s) (cl : Nat) {f : Cluster → Cluster}
    (hscratch : ∀ c, Memory.wf c.scratch = true → Memory.wf (f c).scratch = true)
    (hvault : ∀ c, Memory.wf c.vault = true → Memory.wf (f c).vault = true) : Claims.memoriesWf (s.modCluster cl f) := by
  obtain ⟨hmem, hbanks⟩ := hs
  exact ⟨hmem, banksWf_modCluster hbanks hscratch hvault⟩

theorem memoriesWf_clearEcc {s : State} (hs : Claims.memoriesWf s) (us : List EccAt) : Claims.memoriesWf (s.clearEcc us) := by
  rw [memoriesWf_iff, State.mem_clearEcc, State.clusters_clearEcc]; exact hs

theorem memoriesWf_spStore {s : State} (hs : Claims.memoriesWf s) (cl o n : Nat) (cells : List Host.Cell) :
    Claims.memoriesWf (s.spStore cl o n cells) := by
  unfold State.spStore State.spPut State.wroteBank
  rw [memoriesWf_iff, State.mem_modTh, State.clusters_modTh, ← memoriesWf_iff]
  exact memoriesWf_modCluster (memoriesWf_clearEcc hs _) cl (fun _ h => Memory.wf_writeAll _ h) (fun _ h => h)

theorem memoriesWf_engSpWrite {s : State} (hs : Claims.memoriesWf s) (cl o : Nat) (bs : List Byte) (rels : List Rel) :
    Claims.memoriesWf (s.engSpWrite cl o bs rels) := by
  unfold State.engSpWrite
  split
  · exact hs
  · exact memoriesWf_modCluster (memoriesWf_clearEcc hs _) cl (fun _ h => Memory.wf_writeAll _ h) (fun _ h => h)

theorem memoriesWf_putGranule {s : State} (hs : Claims.memoriesWf s) (cl g lo hi clock : Nat) (rels : List Rel) :
    Claims.memoriesWf (s.putGranule cl g lo hi clock rels) :=
  memoriesWf_modCluster (memoriesWf_clearEcc hs _) cl
    (fun _ h => Memory.wf_putNat _ _ _ (Memory.wf_putNat _ _ _ h)) (fun _ h => h)

theorem Memory.wf_foldl_writeAll {α : Type} (cells : α → List Host.Cell) (l : List α) {m : List Host.Cell}
    (h : Memory.wf m = true) : Memory.wf (l.foldl (fun m p => Memory.writeAll m (cells p)) m) = true := by
  induction l generalizing m with
  | nil => exact h
  | cons p r ih => exact ih (Memory.wf_writeAll _ h)

theorem memoriesWf_writeTail {s : State} (hs : Claims.memoriesWf s) (cid : Nat) (parts : List (Nat × List Byte)) :
    Claims.memoriesWf (s.writeTail cid parts) :=
  memoriesWf_modCluster hs _ (fun _ h => Memory.wf_foldl_writeAll _ parts h) (fun _ h => h)

/-- R227: a step of a change of roles moves bytes of the vault memory and keeps their order. -/
theorem memoriesWf_vsegStep {s : State} (hs : Claims.memoriesWf s) (cl : Nat) : Claims.memoriesWf (s.vsegStep cl) := by
  unfold State.vsegStep
  split
  · exact hs
  · split
    · obtain ⟨hmem, hbanks⟩ := hs
      exact ⟨hmem, banksWf_modCluster hbanks (fun _ h => h) (fun _ h => h)⟩
    · extract_lets off s1 bit s2
      have h1 : Claims.memoriesWf s1 := by
        simp only [s1]
        split <;> (rw [memoriesWf_iff, State.mem_moveUnits, State.clusters_moveUnits]; exact hs)
      have h2 : Claims.memoriesWf s2 := by
        clear_value s1
        obtain ⟨hmem, hbanks⟩ := h1
        refine ⟨hmem, banksWf_modCluster hbanks (fun c h => ?_) (fun c h => ?_)⟩
        · dsimp only
          split
          · exact h
          · exact h
        · dsimp only
          split
          · exact Memory.wf_segLeave off h
          · exact Memory.wf_segJoin off h
      clear_value s2
      split
      · rw [memoriesWf_iff, State.mem_owe, State.clusters_owe]; exact h2
      · exact h2

/-! ### The state a program starts in -/

theorem memoriesWf_withFetchWord {s : State} (hs : Claims.memoriesWf s) (n w : Nat) :
    Claims.memoriesWf (s.withFetchWord n w) := by
  obtain ⟨hmem, hbanks⟩ := hs
  exact ⟨Memory.wf_putNat fetchBase 8 (w % 2 ^ n) hmem, hbanks⟩

end Sys2Proof.Machine

open Sys2Proof Sys2Proof.Machine Sys2Proof.Claims

/-- Settles O59: a read after a write is `Memory.read_write`, a canonical memory is determined by `Memory.eq_of_read_eq`,
and each operation keeps the canonical form of HBM and of the banks by its own lemma. -/
theorem memoryInvariant : Obligations.MemoryInvariant := by
  unfold Obligations.MemoryInvariant
  refine ⟨fun m a b h => ⟨Memory.wf_write a b h, Memory.read_write m a b⟩,
    fun m l hm hl h => Memory.eq_of_read_eq hm hl h, fun s hs => ?_⟩
  obtain ⟨hmem, hbanks⟩ := id hs
  exact ⟨memoriesWf_performWrite hs,
    fun cid line => ⟨s.wf_mergeLine cid line hmem, banksWf_mergeLine hbanks cid line⟩,
    fun line => ⟨s.wf_mergeAll line hmem, banksWf_mergeAll hbanks line⟩,
    fun cid line => ⟨s.wf_drainComb cid line hmem, banksWf_drainComb hbanks cid line⟩,
    fun sid => ⟨s.wf_performDrains sid hmem, banksWf_performDrains hbanks sid⟩,
    memoriesWf_engWrite hs, memoriesWf_zeroRange hs, memoriesWf_spStore hs, memoriesWf_engSpWrite hs,
    memoriesWf_putGranule hs, fun u => ⟨s.wf_zeroUnit u hmem, banksWf_zeroUnit hbanks u⟩, memoriesWf_writeTail hs,
    memoriesWf_vsegStep hs,
    fun line a addr eng ma => ⟨s.wf_readLine line a addr eng ma hmem, banksWf_readLine hbanks line a addr eng ma⟩,
    memoriesWf_poolWrite hs, memoriesWf_streamOut hs, memoriesWf_withFetchWord hs⟩
end

section
/-! SUPPORT. Decoding and encoding agree (R44 to R48, R61): what the decoder reads, and that it
reads what `encode` writes. -/

namespace Sys2Proof.Laws.RoundTrip

/-- The round trip of every constructor, in the order of `Instr`: by its own lemma. -/
theorem statement_all (i : Instr) : Statement i :=
  i.rec
  add sub and or xor sll srl sra slt sltu min max minu maxu mv addw subw sllw srlw sraw sh1add sh2add sh3add sh4add
    lix lixu insh jr callr ret land enter enterFp leave leaveFp kpack kunpack addi li andi ori xori slti sltiu slli
    srli srai rori mul mulh mulhu mulhsu mulw div divu rem remu divw divuw remw remuw clz ctz cpop rev8 brev andn orn
    xnor rol ror bset bclr binv bext ext sextb sexth sextw mod31 div31 bankof rowof spa addm31 oxl oxh beq bne blt
    bge bltu bgeu bnr brd j call fadd fsub fmul fdiv fmin fmax fmadd fmsub fsqrt fsgnj fsgnjn fsgnjx feq flt fle
    fclass ftoi ftou ftol ftoul itof utof ltof ultof ftobf bftof ldW ldD stW stD ldMn stMn ldSp stSp ldVm stVm
    amoSwap amoCas amoAdd amoAnd amoOr amoXor amoMin amoMax amoMinu amoMaxu updAdd updMin updMax amoSpSwap amoSpCas
    amoSpAdd amoVmSwap amoVmCas amoVmAdd fenceS fenceI stRelW stRelD ldff ldfe stef stff feEmpty feTest ldffPlace
    ldfePlace stefPlace stffPlace ldSpDPlace stSpDPlace ldVmDPlace stVmDPlace park pin unpin unpinAll pf hbarArr
    hbarWt arm disarm mint snd rcv fabst sndA yield sleep wake hold exit selfid rdskip hint launch cast recast place
    placeSelf placeLoad vfadd vfsub vfmul vfmin vfmax vfabs vfneg vfma vfms vfma4 vfeq vflt vfle vadd vsub vmul vsll
    vsrl vsra vmin vmax vminu vmaxu vand vor vxor vandn vieq vilt viltu vbcast kget kset vperm vperm2 vrot vins vext
    vsumF vmaxF vminF vsumI32 vmaxI32 vminI32 vsumI16 vsumI8 vsumBf vld vldWk vst vstWk vldSp vstSp vldWin vstWin
    scfg sclr srem vrcpA vrsqA vrcpS vrsqS vexp2A vlog2A pfx vcvtFI vcvtIF vcvtBfF vcvtFBf vcvtFMk8 vpackI16 vunpkI16
    vunpkI8 vquant mlease mrel tsh tshr tld tst tzero mma tqnt cpMm cpMs cpMv cpSm cpSs cpSv cpVm cpVs cpVv cpGth
    cpSct qfCp clAredSum clAredMax clAredMin clBcst clGath qfCl cbInit cbArr cbWt cbClr mfsr mtsr mfcr mtcr hret trap
    copRd copReplay fltDone tlbInv tlbInva tlbProbe atpRd atpWr ctxNew ctxGrant ctxRd ctxWr ctxRun ctxStop ctxKill
    ctxResume ctxIntr addN subN andN orN xorN sllN srlN sraN mulN jrN callrN retN addiN liN slliN srliN sraiN andiN
    addiNSp nopN ldDN stDN ldWN stWN ldDNSp stDNSp jN ydSleepWake ydSleepTimeout preciseTrapDelivery
    lateFaultDelivery overwriteTrap trapReflection coreReset holdSkipEnd heldResultWrite l1LineFill arrivalHoldExpiry
    yieldEnd sleepTimeout threadExitComplete slotArbitration launchRequest launchReply launchAdmit lightThreadMove
    lightThreadArrival messageDeparture fabricMessageArrival inboxDeferredReply sendReply sendLatchTimeout
    streamWriteDrain l1iFill fetchPrefetch demandFetch combineDrain combineAgeExpiry leaseAgeExpiry leaseRenewal
    writeGrant ownershipGrant updateMerge remoteReply forwardedAccess remoteTimeout vsegWrite vsegSegmentStep
    winWrite scopeEntryWrite hbcWrite fqbWrite fqhWrite erbWrite ercWrite heldStoreReplay requestReply placeRequest
    parkedValueDelivery parkReservationExpiry queueReservationExpiry hbarAdvance hbarTimeout queueFencePerform
    copyEntryStart copyRow leaseGrant leaseHoldEnd leaseCycleLimit tshPerform tldRow tstRow tzeroPerform mmaStep
    tqntRow collectiveMatch collectiveStep faultRecord sorterBatchClose scrivenerWalk tlbFillHoldExpiry
    invalidationComplete kick ctxNewStep cores window qslot budget map recallMapped ctxWrStep cenWrite featWrite
    rekey ctxRunStep ctxStopStep ctxKillStep ctxFreezeStep ctxThawStep tokenResume tokenDown tokenUp tokenKill
    corePreempt clusterSave clusterRestore liveMigration queueSwitchOut clusterReset dieLinkFlitRetry linkFlitRetry
    portRetrain portRetrainComplete portDown portCounterClear hostWrite hostRead permissionMapWrite allotmentWrite
    quotaWrite umonClear counterSnapshot counterPublish halt debugResume crossTrigger breakpointHit pwrsWrite
    slowEntry normalReturn saveEntry overvoltageDisconnect saveComplete heldRestore holdupSpent transportEvent
    extendedSelfTest powerUp imageLoad attestationRequest streamElementArrival flitAcknowledgement
    deviceIdentifierAssignment

end Sys2Proof.Laws.RoundTrip

namespace Sys2Proof

open Sys2Proof.Claims

/-! ### What the decoder answers -/

/-- R61: what is kept is what was read, and it is well formed. -/
theorem keepWf_eq_some_iff {o : Bool} {x : Option Instr} {i : Instr} :
    keepWf o x = some i ↔ x = some i ∧ i.wfIn o = true := by
  cases x with
  | none => exact ⟨nofun, fun h => nomatch h.1⟩
  | some j =>
    by_cases hj : j.wfIn o = true
    · rw [show keepWf o (some j) = some j from if_pos hj]
      exact ⟨fun h => ⟨h, Option.some.inj h ▸ hj⟩, And.left⟩
    · rw [show keepWf o (some j) = none from if_neg hj]
      exact ⟨nofun, fun ⟨h, hi⟩ => absurd (Option.some.inj h ▸ hi) hj⟩

theorem decodeWordIn_eq_some_iff {o : Bool} {w : BitVec 32} {i : Instr} :
    decodeWordIn o w = some i ↔ w.extractLsb' 0 2 = 3#2 ∧ decodeMajor w = some i ∧ i.wfIn o = true := by
  unfold decodeWordIn
  by_cases hq : w.extractLsb' 0 2 = 3#2
  · simp [hq, keepWf_eq_some_iff]
  · simp [hq]

theorem decodeParcel_eq_some_iff {p : BitVec 16} {i : Instr} :
    decodeParcel p = some i ↔ decodeQuadrant p = some i ∧ i.wfIn false = true := keepWf_eq_some_iff

theorem decodeQuadrant_three {p : BitVec 16} (h : p.extractLsb' 0 2 = 3#2) : decodeQuadrant p = none := by
  unfold decodeQuadrant; rw [h]; rfl

/-- R44: a parcel that holds an instruction is not the first of a word. -/
theorem low_ne_three_of_decodeParcel {p : BitVec 16} {i : Instr} (h : decodeParcel p = some i) :
    p.extractLsb' 0 2 ≠ 3#2 := fun hq => by
  obtain ⟨hd, -⟩ := decodeParcel_eq_some_iff.1 h
  rw [decodeQuadrant_three hq] at hd
  exact nomatch hd

/-- The low bits of a word are those of its first parcel. -/
theorem low_wordAt (bs : List (BitVec 8)) : (wordAt bs).extractLsb' 0 2 = (parcelAt bs).extractLsb' 0 2 :=
  ex_lo _ _ _ _ (by decide)

/-- R45: bytes hold an instruction where their first four are the bytes of a word that decodes to it, or their first two
those of a parcel that does. -/
theorem decodeBytes_eq_ok_iff {al : Bool} {bs r : List (BitVec 8)} {i : Instr} :
    decodeBytes al bs = .ok (i, r) ↔
      (al = true ∧ 4 ≤ bs.length ∧ decodeWord (wordAt bs) = some i ∧ r = bs.drop 4) ∨
      (2 ≤ bs.length ∧ decodeParcel (parcelAt bs) = some i ∧ r = bs.drop 2) := by
  match bs with
  | [] | [_] => simp [decodeBytes]
  | b0 :: b1 :: rest =>
    by_cases hq : (b1 ++ b0).extractLsb' 0 2 = 3#2
    · have hparcel : decodeParcel (parcelAt (b0 :: b1 :: rest)) ≠ some i := fun h => low_ne_three_of_decodeParcel h hq
      match rest with
      | [] | [_] => cases al <;> simp [decodeBytes, hq, hparcel]
      | b2 :: b3 :: rest =>
        have hword : wordAt (b0 :: b1 :: b2 :: b3 :: rest) = b3 ++ b2 ++ (b1 ++ b0) := rfl
        cases al
        · simp [decodeBytes, hq, hparcel]
        · cases hd : decodeWord (b3 ++ b2 ++ (b1 ++ b0)) <;>
            simp [decodeBytes, hq, hparcel, hword, hd, eq_comm (a := r)]
    · have hword : decodeWord (wordAt (b0 :: b1 :: rest)) ≠ some i := fun h => by
        obtain ⟨hlow, -⟩ := decodeWordIn_eq_some_iff.1 h
        rw [low_wordAt] at hlow
        exact hq hlow
      have hparcel : parcelAt (b0 :: b1 :: rest) = b1 ++ b0 := rfl
      cases hd : decodeParcel (b1 ++ b0) <;> simp [decodeBytes, hq, hparcel, hword, hd, eq_comm (a := r)]

/-! ### The bytes of a word and of a parcel -/

/-- R11: the byte of a number at an offset. -/
theorem getD_bytesOf_append (m k j : Nat) (h : j < k) (rest : List (BitVec 8)) :
    (bytesOf m k ++ rest).getD j 0#8 = BitVec.ofNat 8 (m / 2 ^ (8 * j)) := by
  induction k generalizing m j with
  | zero => omega
  | succ k ih =>
    cases j with
    | zero => simp [bytesOf]
    | succ j =>
      rw [bytesOf, List.cons_append, List.getD_cons_succ, ih _ _ (by omega), Nat.div_div_eq_div_mul, Nat.mul_succ,
        Nat.pow_add']

theorem getD_bytesOf_toNat {n : Nat} (w : BitVec n) (k j : Nat) (h : j < k) (rest : List (BitVec 8)) :
    (bytesOf w.toNat k ++ rest).getD j 0#8 = w.extractLsb' (8 * j) 8 := by
  rw [getD_bytesOf_append _ _ _ h, ← Nat.shiftRight_eq_div_pow]; rfl

theorem length_bytesOf (n k : Nat) : (bytesOf n k).length = k := by
  induction k generalizing n with
  | zero => rfl
  | succ k ih => rw [bytesOf, List.length_cons, ih]

theorem parcelAt_bytesOf (p : BitVec 16) (rest : List (BitVec 8)) : parcelAt (bytesOf p.toNat 2 ++ rest) = p := by
  unfold parcelAt
  rw [getD_bytesOf_toNat _ _ _ (by decide), getD_bytesOf_toNat _ _ _ (by decide),
    BitVec.extractLsb'_append_extractLsb'_eq_extractLsb' (by rfl)]
  exact ex_all p

/-- R11: four bytes, least significant first, are the word. -/
theorem wordAt_bytesOf (w : BitVec 32) (rest : List (BitVec 8)) : wordAt (bytesOf w.toNat 4 ++ rest) = w := by
  unfold wordAt parcelAt
  iterate 4 rw [getD_bytesOf_toNat _ _ _ (by decide)]
  iterate 3 rw [BitVec.extractLsb'_append_extractLsb'_eq_extractLsb' (by rfl)]
  exact ex_all w

/-! ### Round trips -/

/-- A word of a well-formed instruction decodes to it, alone or after a `pfx`. -/
theorem decodeWordIn_encode {i : Instr} {o : Bool} {w : BitVec 32} (hwf : i.wfIn o = true) (he : encode i = .word w) :
    decodeWordIn o w = some i := by
  have h := Laws.RoundTrip.statement_all i o hwf
  rwa [he] at h

theorem decodeParcel_encode {i : Instr} {p : BitVec 16} (hwf : i.wf = true) (he : encode i = .parcel p) :
    decodeParcel p = some i := by
  have h := Laws.RoundTrip.statement_all i false hwf
  rwa [he] at h

/-- R45: the bytes of a well-formed instruction decode to it and leave the bytes after it. -/
theorem decodeBytes_encodeBytes {i : Instr} (hwf : i.wf = true) (he : encode i ≠ .event) (rest : List (BitVec 8)) :
    decodeBytes true (encodeBytes i ++ rest) = .ok (i, rest) := by
  rw [decodeBytes_eq_ok_iff]
  unfold encodeBytes
  cases hi : encode i with
  | word w =>
    refine .inl ⟨rfl, ?_, ?_, ?_⟩
    · rw [List.length_append, length_bytesOf]; omega
    · rw [wordAt_bytesOf]; exact decodeWordIn_encode hwf hi
    · exact (List.drop_left' (length_bytesOf _ _)).symm
  | parcel p =>
    refine .inr ⟨?_, ?_, ?_⟩
    · rw [List.length_append, length_bytesOf]; omega
    · rw [parcelAt_bytesOf]; exact decodeParcel_encode hwf hi
    · exact (List.drop_left' (length_bytesOf _ _)).symm
  | event => exact absurd hi he

/-- R61: decoding gives well-formed instructions only. -/
theorem wf_of_decodeBytes {al : Bool} {bs r : List (BitVec 8)} {i : Instr} (h : decodeBytes al bs = .ok (i, r)) :
    i.wf = true := by
  obtain ⟨-, -, hword, -⟩ | ⟨-, hparcel, -⟩ := decodeBytes_eq_ok_iff.1 h
  · obtain ⟨-, -, hwf⟩ := decodeWordIn_eq_some_iff.1 hword
    exact hwf
  · obtain ⟨-, hwf⟩ := decodeParcel_eq_some_iff.1 hparcel
    exact hwf

end Sys2Proof

open Sys2Proof

/-- Settles O58: every encoding of a well-formed instruction is read back by `decodeBytes_encodeBytes` and
`decodeWordIn_encode`, and what is read is well formed by `wf_of_decodeBytes`. -/
theorem encodeDecode : Obligations.EncodeDecode := by
  unfold Obligations.EncodeDecode
  exact ⟨fun _ rest hwf he => decodeBytes_encodeBytes hwf he rest, fun _ _ _ hwf he => decodeWordIn_encode hwf he,
    fun _ _ _ _ h => wf_of_decodeBytes h⟩

/-- Settles O57: the decoder evaluates on each of the words. -/
theorem decodeWords : Obligations.DecodeWords := by
  unfold Obligations.DecodeWords
  decide
end

section
/-! SUPPORT. The step of a core whose slot issues (R45, R66, R122, R329): what the step does about the issue, and what
is issued for the parcels that the fetch finds. -/

namespace Sys2Proof.Machine

open Sys2Proof.Claims

/-! ### From the step to the issue -/

/-- R122: with nothing scheduled, owed or at a boundary, a step is the next core's cycle. -/
theorem step_offerCore {s : State} {cid : Nat} (hnext : s.nextCore = some cid) (hagenda : s.agenda = [])
    (hdue : s.due = []) (hpow : s.powered = true) (hbound : s.atBoundary = false) : step s = s.offerCore cid := by
  unfold step
  simp only [hagenda, hdue, hpow, hbound, hnext]
  rfl

theorem State.offerCore_eq_closed (s : State) (cid : Nat) :
    s.offerCore cid = closed cid (s.openCycle cid).slotCycle := by
  unfold State.offerCore closed
  cases (s.openCycle cid).slotCycle <;> rfl

/-- R329: a slot that has nothing before its instruction issues it. -/
theorem State.slotCycle_of_unencumbered {s : State} (hstop : s.me.stopped = false) (hmay : s.mayIssue = true)
    (h : unencumbered s) : s.slotCycle = s.issueAt := by
  obtain ⟨hrun, hhalt, hlate, hwait, hov, hcap, hbreak, hfresh⟩ := h
  have hissue : s.issue = s.issueAt := by
    unfold State.issue
    simp only [hcap, hbreak, hfresh]
    rfl
  have hslot : s.runSlot = s.issue := by
    have hpend : (s.th.pendOv.isSome && !stBit s.th.st 7) = false := by
      rcases hov with hov | hov <;> simp [hov]
    unfold State.runSlot
    simp only [hlate, hwait, hpend]
    rfl
  have hoffer : s.offerSlot = s.runSlot := by
    unfold State.offerSlot
    simp only [hrun]
  unfold State.slotCycle
  rw [hstop, hmay, hhalt, ← hissue, ← hslot, ← hoffer]
  rfl

/-- R45, R122: a step in which a slot that has nothing before its instruction has its core's cycle. -/
theorem step_eq_closed_issueAt {s : State} {cid : Nat} (hnext : s.nextCore = some cid) (hagenda : s.agenda = [])
    (hdue : s.due = []) (hpow : s.powered = true) (hbound : s.atBoundary = false)
    (hstop : (s.openCycle cid).me.stopped = false) (hmay : (s.openCycle cid).mayIssue = true)
    (h : unencumbered (s.openCycle cid)) : step s = closed cid (s.openCycle cid).issueAt := by
  rw [step_offerCore hnext hagenda hdue hpow hbound, State.offerCore_eq_closed,
    State.slotCycle_of_unencumbered hstop hmay h]

/-! ### What is issued -/

section
variable {s : State} {p : BitVec 16} {w b : BitVec 32} {i j : Instr}

theorem State.issueAt_parcel (hf : s.fetchAt s.cur s.th.pc = .one p) (hd : decodeParcel p = some i) :
    s.issueAt = exec i s := by
  unfold State.issueAt State.itemAt
  simp only [hf, hd]

theorem State.issueAt_word (hf : s.fetchAt s.cur s.th.pc = .two w) (hm : (majorOf w).toNat ≠ 22)
    (hd : decodeWord w = some i) : s.issueAt = exec i s := by
  unfold State.issueAt State.itemAt
  simp only [hf, if_neg hm, hd]

/-- R61: a word that decodes to nothing raises the illegal-instruction trap. -/
theorem State.issueAt_illegal (hf : s.fetchAt s.cur s.th.pc = .two w) (hm : (majorOf w).toNat ≠ 22)
    (hd : decodeWord w = none) : s.issueAt = .next (s.raise tILLEGAL (w.setWidth 64)) := by
  unfold State.issueAt State.itemAt
  simp only [hf, if_neg hm, hd]

/-- R66: a `pfx` and the base word after it are issued together. -/
theorem State.issueAt_pair (hf : s.fetchAt s.cur s.th.pc = .two w) (hm : (majorOf w).toNat = 22)
    (hb : s.fetchAt s.cur (s.th.pc + 4#64) = .two b) (hd : pairOf w b = some (j, i)) :
    s.issueAt = execPair j i s := by
  unfold State.issueAt State.itemAt
  simp only [hf, if_pos hm, hb, hd]

end

/-! ### What the fetched bytes decode to -/

/-- Of bytes that begin a word, decoding answers the word's instruction. -/
theorem decodeWord_of_decodeBytes {al : Bool} {bs : List Byte} {i : Instr} (hlen : 4 ≤ bs.length)
    (h : decodeBytes al bs = .ok (i, bs.drop 4)) : decodeWord (wordAt bs) = some i := by
  obtain ⟨-, -, hd, -⟩ | ⟨-, -, hdrop⟩ := decodeBytes_eq_ok_iff.1 h
  · exact hd
  · have := congrArg List.length hdrop
    simp only [List.length_drop] at this
    omega

/-- Of bytes that begin with a parcel, decoding answers the parcel's instruction. -/
theorem decodeParcel_of_decodeBytes {al : Bool} {bs : List Byte} {i : Instr}
    (hlow : (parcelAt bs).extractLsb' 0 2 ≠ 3#2) (h : decodeBytes al bs = .ok (i, bs.drop 2)) :
    decodeParcel (parcelAt bs) = some i := by
  obtain ⟨-, -, hd, -⟩ | ⟨-, hd, -⟩ := decodeBytes_eq_ok_iff.1 h
  · obtain ⟨hq, -⟩ := decodeWordIn_eq_some_iff.1 hd
    exact absurd ((low_wordAt bs).symm.trans hq) hlow
  · exact hd

end Sys2Proof.Machine

open Sys2Proof Sys2Proof.Machine Sys2Proof.Claims

/-- Settles O56: the step is the issue at the pc by `step_eq_closed_issueAt`, and the issue is that of the word, the
parcel, the pair or the illegal word by the lemma of each. -/
theorem stepRunsDecoded : Obligations.StepRunsDecoded := by
  unfold Obligations.StepRunsDecoded
  intro s bs cid hnext o hagenda hdue hpow hbound hstop hmay hfree
  rw [step_eq_closed_issueAt hnext hagenda hdue hpow hbound hstop hmay hfree]
  refine ⟨fun i hf hm hlen hd => ?word, fun i hf hlow _ hd => ?parcel, fun w i p hf hm hb hd => ?pair,
    fun hf hm hd => ?illegal⟩
  case word => rw [State.issueAt_word hf hm (decodeWord_of_decodeBytes hlen hd)]
  case parcel => rw [State.issueAt_parcel hf (decodeParcel_of_decodeBytes hlow hd)]
  case pair => rw [State.issueAt_pair hf hm hb hd]
  case illegal => rw [State.issueAt_illegal hf hm hd]; rfl
end

section
/-! SUPPORT. Instructions that write registers of the thread beside the scalar ones (R9, R58, R89): operand extensions
and masks. -/

namespace Sys2Proof.Machine

/-! ### Changes of the issuing thread one after another -/

theorem Tab.put_put {α : Type} (t : Tab α) (n : Nat) (v w : α) : (t.put n v).put n w = t.put n w := by
  induction t with
  | nil => simp [Tab.put]
  | cons p r ih =>
    obtain ⟨k, u⟩ := p
    by_cases hk : k = n
    · simp [Tab.put, hk]
    · by_cases hn : n < k
      · simp [Tab.put, hk, hn]
      · simp [Tab.put, hk, hn, ih]

theorem State.modSlot_modSlot (s : State) (sid : Nat) (f g : Slot → Slot) :
    (s.modSlot sid f).modSlot sid g = s.modSlot sid (fun sl => g (f sl)) := by
  simp [State.modSlot, Tab.upd, Tab.put_put, Tab.get_put]

/-- Two changes of the issuing thread are one. -/
theorem State.modTh_modTh (s : State) (f g : Thread → Thread) : (s.modTh f).modTh g = s.modTh (fun h => g (f h)) :=
  s.modSlot_modSlot s.cur _ _

/-- A change of the issuing thread is what it does to that thread. -/
theorem State.modTh_congr {s : State} {f g : Thread → Thread} (h : f s.th = g s.th) : s.modTh f = s.modTh g := by
  have hslot : ({ s.slot s.cur with th := f s.th } : Slot) = { s.slot s.cur with th := g s.th } := by rw [h]
  exact congrArg (fun sl : Slot => ({ s with slots := s.slots.put s.cur sl } : State)) hslot

/-- R14: what a ready outcome does to the thread. -/
def Thread.advanced (h : Thread) (n : Nat) : Thread := { h.ready with pc := h.pc + w64 n }

theorem State.advance_eq (s : State) (n : Nat) : s.advance n = s.modTh (·.advanced n) := rfl

/-- A change that commutes with a ready outcome may be made before it. -/
theorem State.modTh_advance (s : State) {n : Nat} {g : Thread → Thread}
    (hg : ∀ h : Thread, g (h.advanced n) = (g h).advanced n) : (s.advance n).modTh g = (s.modTh g).advance n := by
  simp only [State.advance_eq, State.modTh_modTh, hg]

/-- A change that leaves the thread as it is does not show after a ready outcome. -/
theorem State.advance_modTh_of_eq {s : State} (n : Nat) {f : Thread → Thread} (hf : f s.th = s.th) :
    (s.modTh f).advance n = s.advance n := by
  simp only [State.advance_eq, State.modTh_modTh]
  exact State.modTh_congr (by rw [hf])

/-! ### Operand extensions -/

@[simp] theorem State.oxr_advance (s : State) (n i : Nat) : (s.advance n).oxr i = s.oxr i :=
  (s.onlyRegs_advance n).keepsRegs.exts i

@[simp] theorem Use.oxr_start (u : Use) (s : State) (i : Nat) : (u.start s).oxr i = s.oxr i :=
  (u.onlyRegs_start s).keepsRegs.exts i

/-- R9: the write of an operand-extension register. -/
def State.setOx (s : State) (n : Nat) (v : BitVec 32) : State := s.modTh (fun h => { h with ox := vwr h.ox n v })

theorem State.oxr_setOx (s : State) (n i : Nat) (v : BitVec 32) :
    (s.setOx n v).oxr i = if i % 4 = n % 4 then v else s.oxr i := by
  unfold State.oxr State.setOx
  rw [State.th_modTh, vrd_vwr]

/-- R58: an instruction that writes one operand-extension register. -/
theorem wrote_setOx (s : State) (n : BitVec 2) (v : BitVec 32) :
    let t := (((scalarUse [] []).start s).setOx n.toNat v).advance 4
    t.goesOn (s.th.pc + 4#64) ∧ t.oxr n.toNat = v ∧ (∀ m : BitVec 2, m ≠ n → t.oxr m.toNat = s.oxr m.toNat) ∧
      s.OnlyRegs (t.modTh (fun h => { h with ox := s.th.ox })) [] [] := by
  intro t
  have hstart := (scalarUse [] []).onlyRegs_start s
  refine ⟨?_, ?_, fun m hm => ?_, ?_⟩
  · have h := State.goesOn_advance (((scalarUse [] []).start s).setOx n.toNat v) 4
    rwa [State.setOx, State.th_modTh, Use.pc_start] at h
  · rw [State.oxr_advance, State.oxr_setOx, if_pos rfl]
  · rw [State.oxr_advance, State.oxr_setOx, if_neg, Use.oxr_start]
    intro h
    exact hm (BitVec.eq_of_toNat_eq (by omega))
  · have hback : t.modTh (fun h => { h with ox := s.th.ox }) = ((scalarUse [] []).start s).advance 4 := by
      rw [State.modTh_advance _ (fun _ => rfl), State.setOx, State.modTh_modTh, State.advance_modTh_of_eq]
      rw [hstart.thread]
    obtain ⟨-, honly⟩ := (scalarUse [] []).wrote_none s
    exact hback ▸ honly

/-- R328: an instruction that names no register and needs no feature has no check to pass. -/
theorem run_scalarUse_nil (s : State) (body : State → Res) :
    (scalarUse [] []).run s body = (scalarUse [] []).finish s (body ((scalarUse [] []).start s)) :=
  Use.run_of _ s body nofun nofun ⟨nofun, nofun⟩ nofun nofun

/-- R58: an instruction whose effect is the write of an operand-extension register, by its old value. -/
theorem run_setOx (s : State) (n : Nat) (f : BitVec 32 → BitVec 32) :
    (scalarUse [] []).run s (fun s => .next (s.modTh (fun h => { h with ox := vwr h.ox n (f (vrd h.ox n)) }))) =
      (((scalarUse [] []).start s).setOx n (f (s.oxr n))).advance 4 := by
  rw [run_scalarUse_nil, ← Use.oxr_start (scalarUse [] [])]
  exact congrArg (State.advance · 4) (State.modTh_congr rfl)

theorem exec_oxl (v : BitVec 16) (n : BitVec 2) (s : State) : exec (.oxl v n) s =
    .next ((((scalarUse [] []).start s).setOx n.toNat ((s.oxr n.toNat).extractLsb' 16 16 ++ v)).advance 4) :=
  congrArg Host.Outcome.next (run_setOx s n.toNat (fun x => x.extractLsb' 16 16 ++ v))

theorem exec_oxh (v : BitVec 16) (n : BitVec 2) (s : State) : exec (.oxh v n) s =
    .next ((((scalarUse [] []).start s).setOx n.toNat (v ++ (s.oxr n.toNat).extractLsb' 0 16)).advance 4) :=
  congrArg Host.Outcome.next (run_setOx s n.toNat (fun x => v ++ x.extractLsb' 0 16))

/-! ### Masks -/

theorem State.kr_setK (s : State) (r q : BitVec 3) (v : BitVec 16) :
    (s.setK r v).kr q = if q = r then v else s.kr q := by
  have hmod : q.toNat % 8 = r.toNat % 8 ↔ q = r := by rw [← BitVec.toNat_inj]; omega
  unfold State.kr State.setK
  rw [State.th_modTh, vrd_vwr]
  simp only [hmod]

/-- R89: the masks up to a number, each changed by a function of its own. -/
def State.mapMasks (s : State) (g : Nat → BitVec 16 → BitVec 16) (n : Nat) : State :=
  (List.range n).foldl (fun t i => t.setK (BitVec.ofNat 3 i) (g i (t.kr (BitVec.ofNat 3 i)))) s

theorem State.mapMasks_succ (s : State) (g : Nat → BitVec 16 → BitVec 16) (n : Nat) : s.mapMasks g (n + 1) =
    (s.mapMasks g n).setK (BitVec.ofNat 3 n) (g n ((s.mapMasks g n).kr (BitVec.ofNat 3 n))) := by
  unfold State.mapMasks
  rw [List.range_succ, List.foldl_append]; rfl

theorem State.kr_mapMasks (s : State) (g : Nat → BitVec 16 → BitVec 16) {n : Nat} (hn : n ≤ 8) (q : BitVec 3) :
    (s.mapMasks g n).kr q = if q.toNat < n then g q.toNat (s.kr q) else s.kr q := by
  induction n generalizing q with
  | zero => rfl
  | succ n ih =>
    have hnat : (BitVec.ofNat 3 n).toNat = n := by rw [BitVec.toNat_ofNat, Nat.mod_eq_of_lt (by omega)]
    rw [State.mapMasks_succ, State.kr_setK, ih (by omega), ih (by omega)]
    by_cases hq : q = BitVec.ofNat 3 n
    · subst hq; simp [hnat]
    · have hne : q.toNat ≠ n := fun h => hq (BitVec.eq_of_toNat_eq (h.trans hnat.symm))
      have hlt : q.toNat < n + 1 ↔ q.toNat < n := by omega
      simp only [if_neg hq, hlt]

/-- Writes of masks change nothing but the masks. -/
theorem State.mapMasks_restored (s : State) (g : Nat → BitVec 16 → BitVec 16) (n : Nat) (k : Vector (BitVec 16) 8) :
    (s.mapMasks g n).modTh (fun h => { h with k := k }) = s.modTh (fun h => { h with k := k }) := by
  induction n with
  | zero => rfl
  | succ n ih => rw [State.mapMasks_succ, State.setK, State.modTh_modTh]; exact ih

/-- R89: the new bit 0 of a mask, with the others as they were. -/
def withBit0 (k : BitVec 16) (b : Bool) : BitVec 16 := (k &&& 0xFFFE#16) ||| (if b then 1#16 else 0#16)

theorem withBit0_getLsbD (k : BitVec 16) (x : Word) (j : Nat) :
    withBit0 k (x.getLsbD j) = k.extractLsb' 1 15 ++ x.extractLsb' j 1 := by
  apply BitVec.eq_of_getLsbD_eq
  intro i hi
  rw [BitVec.getLsbD_append]
  cases i with
  | zero => cases h : x.getLsbD j <;> simp [withBit0, h]
  | succ i =>
    have hmask : ∀ i < 15, (0xFFFE#16).getLsbD (i + 1) = true := by decide
    have hi' : i < 15 := by omega
    cases x.getLsbD j <;> simp [withBit0, hmask i hi', hi', Nat.add_comm 1 i]

/-- R132: the registers that `kunpack` names. -/
def kunpackUse (a : BitVec 6) : Use := { scalarUse [a] [] with names := .x a :: allMasks }

/-- R89: `kunpack` with its checks passed. -/
theorem exec_kunpack {n : BitVec 3} {a : BitVec 6} {s : State} (hn : s.unheld (.x a :: allMasks)) (ha : s.arrived [a]) :
    exec (.kunpack n a) s = .next ((((kunpackUse a).start s).mapMasks
      (fun i k => withBit0 k ((s.xr a).getLsbD (8 * n.toNat + i))) 8).advance 4) := by
  rw [← Use.xr_start (kunpackUse a)]
  exact congrArg Host.Outcome.next (Use.run_of (kunpackUse a) s _ nofun nofun hn nofun ha)

@[simp] theorem State.kr_advance (s : State) (n : Nat) (q : BitVec 3) : (s.advance n).kr q = s.kr q :=
  (s.onlyRegs_advance n).keepsRegs.masks q

@[simp] theorem Use.kr_start (u : Use) (s : State) (q : BitVec 3) : (u.start s).kr q = s.kr q :=
  (u.onlyRegs_start s).keepsRegs.masks q

/-- What an instruction leaves whose effect is a change of every mask. -/
theorem wrote_mapMasks (u : Use) (s : State) (g : Nat → BitVec 16 → BitVec 16) :
    let t := ((u.start s).mapMasks g 8).advance u.size
    t.goesOn (s.th.pc + w64 u.size) ∧ (∀ i : BitVec 3, t.kr i = g i.toNat (s.kr i)) ∧
      s.OnlyRegs (t.modTh (fun h => { h with k := s.th.k })) u.reads [] := by
  intro t
  have hback : t.modTh (fun h => { h with k := s.th.k }) = (u.start s).advance u.size := by
    rw [State.modTh_advance _ (fun _ => rfl), State.mapMasks_restored, State.advance_modTh_of_eq]
    rw [(u.onlyRegs_start s).thread]
  obtain ⟨⟨hpc, hnr⟩, honly⟩ := u.wrote_none s
  rw [← hback] at hpc hnr honly
  rw [State.th_modTh] at hpc hnr
  refine ⟨⟨hpc, hnr⟩, fun i => ?_, honly⟩
  rw [State.kr_advance, State.kr_mapMasks _ _ (Nat.le_refl 8), if_pos i.isLt, Use.kr_start]

/-! ### Major 4 -/

/-- R58: the minors of major 4 beyond `oxl` and `oxh` are unassigned. -/
theorem decodeMajor4_of_minor {w : BitVec 32} (h : 2#7 ≤ XFmt.minor7 w) : decodeMajor4 w = none := by
  have hm : 2 ≤ (XFmt.minor7 w).toNat := h
  unfold decodeMajor4
  split
  · omega
  · omega
  · rfl

theorem decodeWord_major4 {w : BitVec 32} (h : w.extractLsb' 0 7 = 0x13#7) (hm : 2#7 ≤ w.extractLsb' 25 7) :
    decodeWord w = none := by
  have hmajor : majorOf w = 4#5 := by
    rw [majorOf, ← BitVec.extractLsb'_extractLsb'_of_le (len' := 7) (by decide), h]
    decide
  rw [Option.eq_none_iff_forall_ne_some]
  intro i hi
  obtain ⟨-, hd, -⟩ := decodeWordIn_eq_some_iff.1 hi
  rw [decodeMajor_4 hmajor, decodeMajor4_of_minor hm] at hd
  exact nomatch hd

end Sys2Proof.Machine

open Sys2Proof Sys2Proof.Machine

/-- Settles O5: `oxl` and `oxh` by `wrote_setOx`, `kunpack` by `wrote_mapMasks`, the unassigned minors by
`decodeWord_major4`. -/
theorem extAndMaskComplete : Obligations.ExtAndMaskComplete := by
  unfold Obligations.ExtAndMaskComplete
  refine ⟨fun v n s => ⟨_, exec_oxl v n s, wrote_setOx s n _⟩, fun v n s => ⟨_, exec_oxh v n s, wrote_setOx s n _⟩,
    fun n a s hn ha => ?_, fun w h hm => decodeWord_major4 h hm⟩
  obtain ⟨hgoes, hmasks, honly⟩ := wrote_mapMasks (kunpackUse a) s
    (fun i k => withBit0 k ((s.xr a).getLsbD (8 * n.toNat + i)))
  refine ⟨_, exec_kunpack hn ha, hgoes, fun i => (hmasks i).trans (withBit0_getLsbD _ _ _), honly⟩
end

section
/-! SUPPORT. Streams and the latch of `pfx` (R66, R186, R191): beginning, ending and measuring a stream, and what such
an instruction leaves. -/

namespace Sys2Proof.Machine

open Sys2Proof.Claims

/-! ### Vector registers -/

theorem vreg_idx {r q : BitVec 5} (hw : r.getLsbD 4 = q.getLsbD 4) (h : r.toNat % 16 = q.toNat % 16) : r = q := by
  apply BitVec.eq_of_toNat_eq
  simp only [BitVec.getLsbD, Nat.testBit_eq_decide_div_mod_eq] at hw
  have := r.isLt; have := q.isLt
  simp at hw
  omega

/-- R129: reading a vector register after a write. -/
theorem State.vr_setV (s : State) (r q : BitVec 5) (v : VWord) :
    (s.setV r v).vr q = if q = r then v else s.vr q := by
  have hidx : q.getLsbD 4 = r.getLsbD 4 → (q.toNat % 16 = r.toNat % 16 ↔ q = r) := fun hw =>
    ⟨vreg_idx hw, fun h => h ▸ rfl⟩
  have hne : q.getLsbD 4 ≠ r.getLsbD 4 → q ≠ r := fun hw h => hw (h ▸ rfl)
  unfold State.vr State.setV State.putV
  cases hr : r.getLsbD 4 <;> cases hq : q.getLsbD 4
  · simp only [Bool.false_eq_true, if_false, State.th_modTh, vrd_vwr, hidx (hq.trans hr.symm)]
  · simp only [Bool.false_eq_true, if_false, if_true, State.me_modTh, if_neg (hne (by rw [hr, hq]; decide))]
  · simp only [Bool.false_eq_true, if_false, if_true, State.th_modMe, if_neg (hne (by rw [hr, hq]; decide))]
  · simp only [if_true, State.me_modMe, vrd_vwr, hidx (hq.trans hr.symm)]

theorem State.KeepsRegs.symm {s t : State} (h : s.KeepsRegs t []) : t.KeepsRegs s [] where
  cur := h.cur.symm
  regs := fun r hr => (h.regs r hr).symm
  vecs := fun r => (h.vecs r).symm
  masks := fun r => (h.masks r).symm
  exts := fun n => (h.exts n).symm
  status := fun n hn => (h.status n hn).symm
  nrt := h.nrt.symm
  stklim := h.stklim.symm
  uha := h.uha.symm
  trapRecord := by
    obtain ⟨hpc, hcause, hinfo, hstat⟩ := h.trapRecord
    exact ⟨hpc.symm, hcause.symm, hinfo.symm, hstat.symm⟩

/-- What keeps every register and the streams is within any vector frame. -/
theorem State.KeepsRegs.vecFrame {s t : State} (h : s.KeepsRegs t []) (hs : t.th.streams = s.th.streams)
    (d : Option RegN) : VecFrame s t d where
  regs := fun r _ => h.regs r (List.not_mem_nil)
  vecs := fun r _ => h.vecs r
  masks := fun r _ => h.masks r
  exts := h.exts
  streams := hs
  status := h.status
  special := ⟨h.nrt, h.stklim, h.uha⟩
  trapRecord := h.trapRecord

theorem vecFrame_trans {s t u : State} {d : Option RegN} (h : VecFrame s t d) (k : VecFrame t u d) :
    VecFrame s u d where
  regs := fun r hr => (k.regs r hr).trans (h.regs r hr)
  vecs := fun r hr => (k.vecs r hr).trans (h.vecs r hr)
  masks := fun r hr => (k.masks r hr).trans (h.masks r hr)
  exts := fun n => (k.exts n).trans (h.exts n)
  streams := k.streams.trans h.streams
  status := fun n hn => (k.status n hn).trans (h.status n hn)
  special := by
    obtain ⟨hnrt, hlim, huha⟩ := h.special
    obtain ⟨knrt, klim, kuha⟩ := k.special
    exact ⟨knrt.trans hnrt, klim.trans hlim, kuha.trans huha⟩
  trapRecord := by
    obtain ⟨hpc, hcause, hinfo, hstat⟩ := h.trapRecord
    obtain ⟨kpc, kcause, kinfo, kstat⟩ := k.trapRecord
    exact ⟨kpc.trans hpc, kcause.trans hcause, kinfo.trans hinfo, kstat.trans hstat⟩

theorem State.th_setV (s : State) (r : BitVec 5) (v : VWord) :
    (s.setV r v).th = if r.getLsbD 4 then s.th else { s.th with v := vwr s.th.v r.toNat v } := by
  unfold State.setV State.putV; split <;> simp

theorem State.pc_setV (s : State) (r : BitVec 5) (v : VWord) : (s.setV r v).th.pc = s.th.pc := by
  rw [State.th_setV]; split <;> rfl

theorem State.byte_setV (s : State) (r : BitVec 5) (v : VWord) (x : Nat) : (s.setV r v).byte x = s.byte x := by
  unfold State.setV State.putV; split <;> rfl

/-- The write of a vector register changes no other. -/
theorem vecFrame_setV (s : State) (r : BitVec 5) (v : VWord) : VecFrame s (s.setV r v) (some (.v r)) where
  regs := fun q _ => by
    refine State.xr_of _ _ _ ?_ ?_
    · rw [State.th_setV]; split <;> rfl
    · unfold State.setV State.putV; split <;> simp
  vecs := fun q hq => by rw [State.vr_setV, if_neg (fun h : q = r => hq (h ▸ rfl))]
  masks := fun q _ => by unfold State.kr; rw [State.th_setV]; split <;> rfl
  exts := fun n => by unfold State.oxr; rw [State.th_setV]; split <;> rfl
  streams := by rw [State.th_setV]; split <;> rfl
  status := fun n _ => by rw [State.th_setV]; split <;> rfl
  special := by rw [State.th_setV]; split <;> exact ⟨rfl, rfl, rfl⟩
  trapRecord := by rw [State.th_setV]; split <;> exact ⟨rfl, rfl, rfl, rfl⟩

/-! ### Streams of a thread -/

theorem toNat_streamReg (n : BitVec 2) : (streamReg n).toNat = 12 + n.toNat := by revert n; decide

theorem Thread.streamOf_setStream (h : Thread) (n : BitVec 2) (q : Option Stream) (r : BitVec 5) :
    (h.setStream n q).streamOf r = if r = streamReg n then q else h.streamOf r := by
  have hn := n.isLt
  unfold Thread.streamOf Thread.setStream
  by_cases hr : r = streamReg n
  · rw [if_pos hr, hr, toNat_streamReg, if_pos (by omega), vrd_vwr, if_pos (by omega)]
  · have hne : r.toNat ≠ 12 + n.toNat := fun h => hr (BitVec.eq_of_toNat_eq (h.trans (toNat_streamReg n).symm))
    rw [if_neg hr]
    split
    · rw [vrd_vwr, if_neg (by omega)]
    · rfl

theorem State.keepsRegs_setStream (s : State) (n : BitVec 2) (q : Option Stream) :
    s.KeepsRegs (s.modTh (fun h => h.setStream n q)) [] :=
  s.keepsRegs_modTh ⟨rfl, rfl, rfl, rfl, fun _ _ => rfl, rfl, rfl, rfl, rfl, rfl, rfl, rfl⟩

theorem State.OnlyRegs.streams_eq {s t : State} {rs ds : List (BitVec 6)} (h : s.OnlyRegs t rs ds) :
    t.th.streams = s.th.streams := by rw [h.thread]

theorem State.OnlyRegs.streamOf_eq {s t : State} {rs ds : List (BitVec 6)} (h : s.OnlyRegs t rs ds) (r : BitVec 5) :
    t.th.streamOf r = s.th.streamOf r := by
  unfold Thread.streamOf; rw [h.streams_eq]

/-- R191: the elements that remain of the stream of a register. -/
def Thread.streamLeft (h : Thread) (r : BitVec 5) : Nat :=
  match h.streamOf r with | some q => q.len - q.p | none => 0

theorem State.OnlyRegs.streamLeft_eq {s t : State} {rs ds : List (BitVec 6)} (h : s.OnlyRegs t rs ds) (r : BitVec 5) :
    t.th.streamLeft r = s.th.streamLeft r := by
  unfold Thread.streamLeft; rw [h.streamOf_eq]

/-! ### Good descriptors -/

theorem bitsAt_toNat {n : Nat} (x : BitVec n) (lo len : Nat) :
    bitsAt x.toNat lo len = (x.extractLsb' lo len).toNat := by
  rw [BitVec.extractLsb'_toNat, Nat.shiftRight_eq_div_pow]; rfl

theorem bitsAt_eq_zero_iff {n : Nat} (x : BitVec n) (lo len : Nat) :
    bitsAt x.toNat lo len = 0 ↔ x.extractLsb' lo len = 0 := by
  rw [bitsAt_toNat, ← BitVec.toNat_inj]; rfl

theorem sval_toNat (x : BitVec 16) : sval 16 x.toNat = x.toInt := by
  have hlt := x.isLt
  rw [BitVec.toInt_eq_toNat_cond]
  simp only [sval, bitAt, Nat.mod_eq_of_lt hlt, beq_iff_eq]
  split <;> split <;> omega

/-- R188: the element size of a format code. -/
def elemSize (c : BitVec 4) : Int := if c = 0 then 4 else if c = 3 ∨ c = 4 ∨ c = 6 then 1 else 2

theorem ecSize_toNat : ∀ c : BitVec 4, (ecSize c.toNat : Int) = elemSize c := by decide

/-- R191: a descriptor with extents, without reserved bits, of an assigned code and aligned throughout is good. -/
theorem Stream.bad_eq_false {t : Stream} {code : BitVec 4} (hcode : t.ctl.extractLsb' 0 4 = code)
    (hn0 : t.ctl.extractLsb' 32 32 ≠ 0) (hn1 : t.ox0.extractLsb' 0 16 ≠ 0) (hn2 : t.ox0.extractLsb' 16 16 ≠ 0)
    (hz : t.ctl.extractLsb' 6 10 = 0) (hec : code.toNat ≤ 6) (hbase : (t.base.toNat : Int) % elemSize code = 0)
    (hs0 : (t.ctl.extractLsb' 16 16).toInt % elemSize code = 0) (hs1 : t.s1.toInt % elemSize code = 0)
    (hs2 : t.s2.toInt % elemSize code = 0) : t.bad = false := by
  have hstep : t.s0 = (t.ctl.extractLsb' 16 16).toInt := by rw [Stream.s0, bitsAt_toNat, sval_toNat]
  have hcode : t.ec = code.toNat := by rw [Stream.ec, bitsAt_toNat, hcode]
  rw [← hstep] at hs0
  rw [← bitsAt_eq_zero_iff] at hz
  rw [ne_eq, ← bitsAt_eq_zero_iff] at hn0 hn1 hn2
  simp [Stream.bad, Stream.n0, Stream.n1, Stream.n2, hcode, ecSize_toNat, hn0, hn1, hn2, hz, hec, hbase, hs0, hs1, hs2]

/-! ### The instructions -/

section
variable {n : BitVec 2} {a b d : BitVec 6} {s : State}

/-- R191: the stream that `scfg` begins. -/
def scfgStream (s : State) (a b : BitVec 6) : Stream :=
  { base := s.xr a, ctl := s.xr b, ox0 := s.oxr 0, s1 := s.oxr 1, s2 := s.oxr 2 }

/-- The frames of `scfg`, `sclr` and `srem`. -/
def scfgUse (b a : BitVec 6) (n : BitVec 2) : Use :=
  strUse (rw 0 b a (0#1 ++ streamReg n) 20) [.x a, .x b, .v (streamReg n)] [a, b]
def sclrUse (n : BitVec 2) : Use := strUse (rw 1 0#6 0#6 (0#1 ++ streamReg n) 20) [.v (streamReg n)] []
def sremUse (n : BitVec 2) (d : BitVec 6) : Use :=
  strUse (rw 2 0#6 (0#1 ++ streamReg n) d 20) [.v (streamReg n), .x d] []

theorem State.arrived_nil (s : State) : s.arrived [] := fun _ h => absurd h List.not_mem_nil

/-- R132: what is true of the registers that an instruction names holds of fewer. -/
theorem State.unheld_mono {s : State} {ns ms : List RegN} (h : s.unheld ns) (hs : ∀ r ∈ ms, r ∈ ns) :
    s.unheld ms := by
  obtain ⟨hpend, hshared⟩ := h
  refine ⟨fun r hr => hpend r (hs r hr), fun hany => hshared ?_⟩
  obtain ⟨r, hr, hsh⟩ := List.any_eq_true.1 hany
  exact List.any_eq_true.2 ⟨r, hs r hr, hsh⟩

/-- R328: a stream instruction whose checks pass is its own effect. -/
theorem strUse_run {word : Nat} {names : List RegN} {reads : List (BitVec 6)} (hf : s.granted fVector)
    (hn : s.unheld names) (ha : s.arrived reads) (body : State → Res) :
    (strUse word names reads).run s body =
      (strUse word names reads).finish s (body ((strUse word names reads).start s)) :=
  Use.run_of _ s body (by rintro f ⟨⟩; exact hf) nofun hn nofun ha

theorem exec_scfg (hf : s.granted fVector) (hn : s.unheld [.x a, .x b, .v (streamReg n)]) (ha : s.arrived [a, b])
    (hgood : (scfgStream s a b).bad = false) :
    exec (.scfg b a n) s = .next
      ((((scfgUse b a n).start s).modTh (fun h => h.setStream n (some (scfgStream s a b)))).advance 4) := by
  have hstream : scfgStream ((scfgUse b a n).start s) a b = scfgStream s a b := by
    simp only [scfgStream, Use.xr_start, Use.oxr_start]
  refine congrArg Host.Outcome.next ((strUse_run hf hn ha _).trans ?_)
  show (scfgUse b a n).finish s (if (scfgStream ((scfgUse b a n).start s) a b).bad then _ else
    .next (((scfgUse b a n).start s).modTh
      (fun h => h.setStream n (some (scfgStream ((scfgUse b a n).start s) a b))))) = _
  rw [hstream, hgood]; rfl

theorem exec_sclr (hf : s.granted fVector) (hn : s.unheld [.v (streamReg n)]) :
    exec (.sclr n) s = .next
      (((((sclrUse n).start s).modTh (fun h => h.setStream n none)).setV (streamReg n) 0#512).advance 4) :=
  congrArg Host.Outcome.next (strUse_run hf hn s.arrived_nil _)

theorem exec_srem (hf : s.granted fVector) (hn : s.unheld [.v (streamReg n), .x d]) :
    exec (.srem n d) s = .next ((((sremUse n d).start s).setX d (w64 (s.th.streamLeft (streamReg n)))).advance 4) := by
  rw [← ((sremUse n d).onlyRegs_start s).streamLeft_eq]
  exact congrArg Host.Outcome.next (strUse_run hf hn s.arrived_nil _)

end

/-! ### What they leave -/

/-- The start of an instruction and a change of one stream, before the pc moves. -/
theorem startStream_frame (u : Use) (s : State) (n : BitVec 2) (q : Option Stream) :
    let t := (u.start s).modTh (fun h => h.setStream n q)
    t.th.pc = s.th.pc ∧ s.KeepsRegs t [] ∧ (∀ x, t.byte x = s.byte x) ∧
      ∀ r, t.th.streamOf r = if r = streamReg n then q else s.th.streamOf r := by
  intro t
  have hstart := u.onlyRegs_start s
  refine ⟨?_, hstart.keepsRegs.trans (State.keepsRegs_setStream _ n q), hstart.memory, fun r => ?_⟩
  · rw [State.th_modTh]; exact u.pc_start s
  · rw [State.th_modTh, Thread.streamOf_setStream, hstart.streamOf_eq]

/-- R191: what the beginning of a stream leaves. -/
theorem wrote_stream (u : Use) (s : State) (n : BitVec 2) (q : Option Stream) :
    let t := ((u.start s).modTh (fun h => h.setStream n q)).advance u.size
    t.goesOn (s.th.pc + w64 u.size) ∧ s.KeepsRegs t [] ∧ (∀ x, t.byte x = s.byte x) ∧
      t.th.streamOf (streamReg n) = q ∧ ∀ r, r ≠ streamReg n → t.th.streamOf r = s.th.streamOf r := by
  intro t
  obtain ⟨hpc, hkeeps, hmem, hstream⟩ := startStream_frame u s n q
  have hadv := State.onlyRegs_advance ((u.start s).modTh (fun h => h.setStream n q)) u.size
  refine ⟨?_, hkeeps.trans hadv.keepsRegs, fun x => (hadv.memory x).trans (hmem x), ?_, fun r hr => ?_⟩
  · rw [← hpc]; exact State.goesOn_advance _ _
  · rw [hadv.streamOf_eq, hstream, if_pos rfl]
  · rw [hadv.streamOf_eq, hstream, if_neg hr]

/-- R129: what the write of a vector register leaves, with the pc moved. -/
theorem wrote_setV (s : State) (r : BitVec 5) (v : VWord) (n : Nat) :
    let t := (s.setV r v).advance n
    t.goesOn (s.th.pc + w64 n) ∧ VecFrame s t (some (.v r)) ∧ t.vr r = v ∧ ∀ x, t.byte x = s.byte x := by
  intro t
  have hadv := State.onlyRegs_advance (s.setV r v) n
  refine ⟨?_, vecFrame_trans (vecFrame_setV s r v) (hadv.keepsRegs.vecFrame hadv.streams_eq _), ?_, fun x => ?_⟩
  · rw [← State.pc_setV s r v]; exact State.goesOn_advance _ n
  · rw [hadv.keepsRegs.vecs, State.vr_setV, if_pos rfl]
  · exact (hadv.memory x).trans (s.byte_setV r v x)

/-- R191: what the end of a stream leaves: its register is 0. -/
theorem wrote_sclr (n : BitVec 2) (s : State) :
    let t := ((((sclrUse n).start s).modTh (fun h => h.setStream n none)).setV (streamReg n) 0#512).advance 4
    t.goesOn (s.th.pc + 4#64) ∧
      VecFrame (s.modTh (fun h => { h with streams := t.th.streams })) t (some (.v (streamReg n))) ∧
      t.vr (streamReg n) = 0#512 ∧ t.th.streamOf (streamReg n) = none ∧
      (∀ r, r ≠ streamReg n → t.th.streamOf r = s.th.streamOf r) ∧ ∀ x, t.byte x = s.byte x := by
  intro t
  obtain ⟨hpc, hkeeps, hmem, hstream⟩ := startStream_frame (sclrUse n) s n none
  obtain ⟨hgoes, hframe, hreg, hbyte⟩ :=
    wrote_setV (((sclrUse n).start s).modTh (fun h => h.setStream n none)) (streamReg n) 0#512 4
  have hof : ∀ r, t.th.streamOf r = if r = streamReg n then none else s.th.streamOf r := fun r => by
    rw [← hstream]; unfold Thread.streamOf; rw [← hframe.streams]
  have hbefore : s.KeepsRegs (s.modTh (fun h => { h with streams := t.th.streams })) [] :=
    s.keepsRegs_modTh ⟨rfl, rfl, rfl, rfl, fun _ _ => rfl, rfl, rfl, rfl, rfl, rfl, rfl, rfl⟩
  have hstreams : (s.modTh (fun h => { h with streams := t.th.streams })).th.streams = t.th.streams := by
    rw [State.th_modTh]
  refine ⟨hpc ▸ hgoes, ?_, hreg, ?_, fun r hr => ?_, fun x => (hbyte x).trans (hmem x)⟩
  · exact vecFrame_trans ((hbefore.symm.trans hkeeps).vecFrame (hframe.streams.symm.trans hstreams.symm) _) hframe
  · rw [hof, if_pos rfl]
  · rw [hof, if_neg hr]

end Sys2Proof.Machine

open Sys2Proof Sys2Proof.Machine Sys2Proof.Claims

/-- Settles O27: `pfx` is a change of the latch, and `scfg`, `sclr` and `srem` complete by `wrote_stream`, `wrote_sclr`
and `Use.wrote_one`. -/
theorem streamComplete : Obligations.StreamComplete := by
  unfold Obligations.StreamComplete
  refine ⟨fun z o r e k s => ?pfx, fun a b d n s hf hn =>
    ⟨fun ha hn0 hn1 hn2 hz hec hbase hs0 hs1 hs2 => ?scfg, ?sclr, ?srem⟩⟩
  case pfx =>
    refine ⟨_, rfl, s.keepsRegs_modTh ⟨rfl, rfl, rfl, rfl, fun _ _ => rfl, rfl, rfl, rfl, rfl, rfl, rfl, rfl⟩, ?_,
      fun _ => rfl, ?_⟩
    · rw [State.th_modTh]
    · rw [State.th_modTh]
  case scfg =>
    have hgood : (scfgStream s a b).bad = false := Stream.bad_eq_false rfl hn0 hn1 hn2 hz hec hbase hs0 hs1 hs2
    exact ⟨_, exec_scfg hf (State.unheld_mono hn (by simp)) ha hgood, wrote_stream _ s n _⟩
  case sclr => exact ⟨_, exec_sclr hf (State.unheld_mono hn (by simp)), wrote_sclr n s⟩
  case srem =>
    obtain ⟨hx, -, hgoes, honly⟩ := (sremUse n d).wrote_one s d (w64 (s.th.streamLeft (streamReg n)))
    exact ⟨_, exec_srem hf (State.unheld_mono hn (by simp)), hgoes, honly, hx⟩
end

section
/-! SUPPORT. What the functions of the scalar instructions are on words (R74, R77, R80 to R83, R87, R89, R92). -/

namespace Sys2Proof.Machine

open Sys2Proof.Claims

/-! ### Comparisons, extensions and shifts -/

theorem w64_b2n (b : Bool) : w64 (b2n b) = one b := by cases b <;> rfl

/-- R77: of equal words either is the smaller and either the larger. -/
theorem ite_slt {x y u v : Word} (h : x = y → v = u) :
    (if x.slt y then u else v) = if x.toInt ≤ y.toInt then u else v := by
  have hinj : x.toInt = y.toInt → v = u := fun he => h (BitVec.eq_of_toInt_eq he)
  simp only [BitVec.slt_iff_toInt_lt]
  split <;> split
  · rfl
  · omega
  · exact hinj (by omega)
  · rfl

theorem ite_ult {x y u v : Word} (h : x = y → v = u) :
    (if x.ult y then u else v) = if x.toNat ≤ y.toNat then u else v := by
  have hinj : x.toNat = y.toNat → v = u := fun he => h (BitVec.eq_of_toNat_eq he)
  simp only [BitVec.ult_iff_toNat_lt]
  split <;> split
  · rfl
  · omega
  · exact hinj (by omega)
  · rfl

theorem sext32_add (x y : Word) : sext32 (x + y) = (lo32 x + lo32 y).signExtend 64 := by
  unfold sext32 lo32
  rw [BitVec.setWidth_add _ _ (by decide)]

theorem sext32_sub (x y : Word) : sext32 (x - y) = (lo32 x - lo32 y).signExtend 64 := by
  have h : (x - y).setWidth 32 = x.setWidth 32 - y.setWidth 32 := by
    apply BitVec.eq_of_toNat_eq
    simp only [BitVec.toNat_setWidth, BitVec.toNat_sub]
    omega
  unfold sext32 lo32
  rw [h]

theorem sext32_mul (x y : Word) : sext32 (x * y) = (lo32 x * lo32 y).signExtend 64 := by
  unfold sext32 lo32
  rw [BitVec.setWidth_mul _ _ (by decide)]

theorem sext32_shiftLeft (x : Word) (n : Nat) : sext32 (x <<< n) = (lo32 x <<< n).signExtend 64 := by
  unfold sext32 lo32
  rw [BitVec.setWidth_shiftLeft_of_le (by decide)]

theorem sext32_setWidth (x : BitVec 32) : sext32 (x.setWidth 64) = x.signExtend 64 := by
  unfold sext32
  rw [BitVec.setWidth_setWidth_of_le _ (by decide), BitVec.setWidth_eq]

/-- R65, R84: an immediate in units of a power of two. -/
theorem signExtend_shiftLeft {n : Nat} (i : BitVec n) (k : Nat) :
    i.signExtend 64 <<< k = BitVec.ofInt 64 (2 ^ k * i.toInt) := by
  have hpow : BitVec.ofInt 64 (2 ^ k) = BitVec.twoPow 64 k := by
    apply BitVec.eq_of_toNat_eq
    rw [BitVec.toNat_twoPow, BitVec.toNat_ofInt]
    norm_cast
  rw [BitVec.shiftLeft_eq_mul_twoPow, BitVec.signExtend, mul_comm, BitVec.ofInt_mul, hpow]

/-! ### Products and quotients (R80, R81) -/

theorem mulHigh_unsigned (x y : Word) :
    mulHigh false false x y = BitVec.ofNat 64 (x.toNat * y.toNat / 2 ^ 64) := by
  show BitVec.ofInt 64 (((x.toNat : Int) * y.toNat) / 2 ^ 64) = _
  rw [← BitVec.ofInt_natCast]
  push_cast
  rfl

theorem divS_eq_quot (x y : Word) :
    divS x y = quot (y == 0#64) (-1#64) (BitVec.ofInt 64 (x.toInt.tdiv y.toInt)) := by
  unfold divS quot
  simp only [beq_iff_eq, BitVec.neg_one_eq_allOnes]

theorem divU_eq_quot (x y : Word) : divU x y = quot (y == 0#64) (-1#64) (w64 (x.toNat / y.toNat)) := by
  unfold divU quot
  simp only [beq_iff_eq, BitVec.neg_one_eq_allOnes]

theorem remS_eq_quot (x y : Word) : remS x y = quot (y == 0#64) x (BitVec.ofInt 64 (x.toInt.tmod y.toInt)) := by
  unfold remS quot
  simp only [beq_iff_eq]

theorem remU_eq_quot (x y : Word) : remU x y = quot (y == 0#64) x (w64 (x.toNat % y.toNat)) := by
  unfold remU quot
  simp only [beq_iff_eq]

/-- R81: a result on 32 bits is sign-extended, the all-ones quotient of a zero divisor too. -/
theorem signExtend_allOnes32 : (BitVec.allOnes 32).signExtend 64 = -1#64 := by decide

theorem signExtend_divS32 (x y : BitVec 32) : (divS32 x y).signExtend 64 =
    quot (y == 0#32) (-1#64) ((BitVec.ofInt 32 (x.toInt.tdiv y.toInt)).signExtend 64) := by
  unfold divS32 quot
  simp only [beq_iff_eq, apply_ite (BitVec.signExtend 64), signExtend_allOnes32]

theorem signExtend_divU32 (x y : BitVec 32) : (divU32 x y).signExtend 64 =
    quot (y == 0#32) (-1#64) ((BitVec.ofNat 32 (x.toNat / y.toNat)).signExtend 64) := by
  unfold divU32 quot
  simp only [beq_iff_eq, apply_ite (BitVec.signExtend 64), signExtend_allOnes32]

theorem signExtend_remS32 (x y : BitVec 32) : (remS32 x y).signExtend 64 =
    quot (y == 0#32) (x.signExtend 64) ((BitVec.ofInt 32 (x.toInt.tmod y.toInt)).signExtend 64) := by
  unfold remS32 quot
  simp only [beq_iff_eq, apply_ite (BitVec.signExtend 64)]

theorem signExtend_remU32 (x y : BitVec 32) : (remU32 x y).signExtend 64 =
    quot (y == 0#32) (x.signExtend 64) ((BitVec.ofNat 32 (x.toNat % y.toNat)).signExtend 64) := by
  unfold remU32 quot
  simp only [beq_iff_eq, apply_ite (BitVec.signExtend 64)]

/-! ### Bits and fields (R82, R87, R89, R92) -/

theorem sub_bitLen (x : Word) : 64 - bitLen x = if x = 0#64 then 64 else 63 - x.toNat.log2 := by
  unfold bitLen
  split <;> omega

theorem sub_bitLen_reverse (x : Word) :
    64 - bitLen x.reverse = if x = 0#64 then 64 else 63 - x.reverse.toNat.log2 := by
  simp only [sub_bitLen, BitVec.reverse_eq_zero_iff]

theorem foldl_b2n (p : Nat → Bool) (l : List Nat) (t : Nat) :
    l.foldl (fun t i => t + b2n (p i)) t = t + (l.filter p).length := by
  induction l generalizing t with
  | nil => rfl
  | cons i l ih =>
    rw [List.foldl_cons, ih, List.filter_cons]
    cases p i <;> simp [b2n]
    omega

theorem popCount_eq (x : Word) : popCount x = ((List.range 64).filter (fun i => x.getLsbD i)).length := by
  unfold popCount
  rw [foldl_b2n, Nat.zero_add]

theorem toNat_append_eq {n m : Nat} (x : BitVec n) (y : BitVec m) :
    (x ++ y).toNat = x.toNat * 2 ^ m + y.toNat := by
  rw [BitVec.toNat_append, Nat.shiftLeft_eq, mul_comm, Nat.two_pow_add_eq_or_of_lt y.isLt]

theorem revBytes_eq (x : Word) : revBytes x = (x.extractLsb' 0 8 ++ x.extractLsb' 8 8 ++ x.extractLsb' 16 8 ++
    x.extractLsb' 24 8 ++ x.extractLsb' 32 8 ++ x.extractLsb' 40 8 ++ x.extractLsb' 48 8 ++
    x.extractLsb' 56 8 : BitVec 64) := by
  apply BitVec.eq_of_toNat_eq
  have hlt := BitVec.isLt (x.extractLsb' 0 8 ++ x.extractLsb' 8 8 ++ x.extractLsb' 16 8 ++ x.extractLsb' 24 8 ++
    x.extractLsb' 32 8 ++ x.extractLsb' 40 8 ++ x.extractLsb' 48 8 ++ x.extractLsb' 56 8 : BitVec 64)
  simp only [toNat_append_eq] at hlt ⊢
  unfold revBytes w64
  rw [BitVec.toNat_ofNat, ← Nat.mod_eq_of_lt hlt]
  simp only [show List.range 8 = [0, 1, 2, 3, 4, 5, 6, 7] from rfl, List.foldl, bitsAt_toNat, Nat.reducePow,
    Nat.reduceMul, Nat.zero_mul, Nat.zero_add]

theorem extField_eq (x y : Word) : extField x y =
    w64 (x.toNat / 2 ^ (y.toNat % 64) % 2 ^ min (y.toNat / 2 ^ 8 % 2 ^ 7) (64 - y.toNat % 64)) := by
  simp [extField, bitsAt]

/-- R87: the bytes of a frame. -/
theorem toNat_frameSize (l h : BitVec 6) : (frameSize l h).toNat = frameBytes l h := by
  have hl := l.isLt
  have hh := h.isLt
  unfold frameSize frameBytes
  rw [BitVec.toNat_shiftLeft, BitVec.toNat_setWidth, toNat_append_eq, Nat.shiftLeft_eq]
  omega

theorem frameSize_eq (l h : BitVec 6) : frameSize l h = w64 (frameBytes l h) := by
  rw [← toNat_frameSize, w64, BitVec.ofNat_toNat, BitVec.setWidth_eq]

/-- R92: an FP32 operand with another sign. -/
theorem withSign (v : Word) (b : BitVec 1) :
    w64 (v.toNat % 2 ^ 32 % 2 ^ 31 + if b.getLsbD 0 then 2 ^ 31 else 0) =
      (b ++ v.extractLsb' 0 31 : BitVec 32).setWidth 64 := by
  have hb : (if b.getLsbD 0 then 2 ^ 31 else 0) = b.toNat * 2 ^ 31 := by revert b; decide
  apply BitVec.eq_of_toNat_eq
  rw [BitVec.toNat_setWidth, toNat_append_eq, BitVec.extractLsb'_toNat, hb, w64, BitVec.toNat_ofNat]
  omega

/-- R92: the sign of an FP32 operand. -/
theorem bitAt_sign (v : Word) : bitAt (v.toNat % 2 ^ 32) 31 = (v.extractLsb' 31 1).getLsbD 0 := by
  have hdiv : v.toNat % 2 ^ 32 / 2 ^ 31 % 2 = v.toNat / 2 ^ 31 % 2 := by omega
  rw [BitVec.getLsbD_extractLsb', BitVec.getLsbD, Nat.testBit_eq_decide_div_mod_eq, bitAt, hdiv]
  rfl

/-- R89: the number of which bit i is the i-th of n truth values. -/
def bitsNat (f : Nat → Bool) (n : Nat) : Nat := (List.range n).foldl (fun t i => t + b2n (f i) * 2 ^ i) 0

theorem bitsNat_succ (f : Nat → Bool) (n : Nat) : bitsNat f (n + 1) = 2 ^ n * b2n (f n) + bitsNat f n := by
  unfold bitsNat
  rw [List.range_succ, List.foldl_append, List.foldl_cons, List.foldl_nil]
  ring

theorem bitsNat_lt (f : Nat → Bool) (n : Nat) : bitsNat f n < 2 ^ n := by
  induction n with
  | zero => exact Nat.one_pos
  | succ n ih =>
    have hb : b2n (f n) ≤ 1 := by cases f n <;> decide
    have hmul : 2 ^ n * b2n (f n) ≤ 2 ^ n := mul_le_of_le_one_right (Nat.zero_le _) hb
    rw [bitsNat_succ, Nat.pow_succ]
    omega

theorem testBit_bitsNat (f : Nat → Bool) (n j : Nat) : (bitsNat f n).testBit j = (decide (j < n) && f j) := by
  induction n with
  | zero => simp [bitsNat]
  | succ n ih =>
    rw [bitsNat_succ, Nat.testBit_two_pow_mul_add _ (bitsNat_lt f n), ih]
    rcases lt_trichotomy j n with h | rfl | h
    · simp [h, Nat.lt_succ_of_lt h]
    · cases f j <;> simp [b2n]
    · have hsub : Nat.testBit 1 (j - n) = false := by
        rw [← Bool.not_eq_true, Nat.testBit_one_eq_true_iff_self_eq_zero]
        omega
      have hge : ¬ j < n + 1 := by omega
      cases f n <;> simp [h.not_gt, hge, b2n, hsub]

/-- R89: a word with byte n made of eight truth values. -/
theorem packByte (x : Word) (f : Nat → Bool) (n : BitVec 3) :
    (x &&& ~~~(0xFF#64 <<< (8 * n.toNat))) ||| (w64 (bitsNat f 8) <<< (8 * n.toNat)) =
      BitVec.ofFnLE (fun j : Fin 64 => if j.val / 8 = n.toNat then f (j.val % 8) else x.getLsbD j.val) := by
  apply BitVec.eq_of_getLsbD_eq
  intro j hj
  have hn := n.isLt
  have hbyte : (0xFF#64).getLsbD (j - 8 * n.toNat) = decide (j - 8 * n.toNat < 8) := by
    have : ∀ k : Fin 64, (0xFF#64).getLsbD k = decide (k.val < 8) := by decide
    exact this ⟨j - 8 * n.toNat, by omega⟩
  rw [BitVec.getLsbD_or, BitVec.getLsbD_and, BitVec.getLsbD_not, BitVec.getLsbD_shiftLeft, BitVec.getLsbD_shiftLeft,
    hbyte, w64, BitVec.getLsbD_ofNat, testBit_bitsNat]
  rw [BitVec.getLsbD_ofFnLE]
  by_cases h : j / 8 = n.toNat
  · have h1 : ¬ j < 8 * n.toNat := by omega
    have h2 : j - 8 * n.toNat < 8 := by omega
    have h3 : j % 8 = j - 8 * n.toNat := by omega
    have h4 : j - 8 * n.toNat < 64 := by omega
    simp [hj, h, h1, h2, h3, h4]
  · have h1 : j < 8 * n.toNat ∨ ¬ j - 8 * n.toNat < 8 := by omega
    rcases h1 with h1 | h1 <;> simp [hj, h, h1]

end Sys2Proof.Machine
end

section
/-! SUPPORT. Instructions that touch only registers, row by row of their tables (R73 to R94): a row is run by an
instruction where its own effect is the writes of the row. -/

namespace Sys2Proof.Machine

open Sys2Proof.Claims

/-! ### What the start of an instruction leaves of its thread -/

/-- What the reading of registers changes of a thread (R130, R158, R164, R173). -/
def Thread.ReadsOnly (h h' : Thread) : Prop :=
  h' = { h with
    xarm := h'.xarm, clock := h'.clock, floor := h'.floor, strongFloor := h'.strongFloor, heavy := h'.heavy,
    behind := h'.behind }

theorem Thread.ReadsOnly.trans {h h' h'' : Thread} (a : h.ReadsOnly h') (b : h'.ReadsOnly h'') : h.ReadsOnly h'' :=
  Eq.trans b (by rw [a])

theorem State.readsOnly_strongRead (s : State) (t : Nat) : s.th.ReadsOnly (s.strongRead t).th := by
  unfold State.strongRead
  rw [State.th_modTh]
  rfl

theorem Thread.readsOnly_acquire (h : Thread) (rels : List Rel) : h.ReadsOnly (h.acquire rels) := by
  unfold Thread.acquire
  split <;> rfl

theorem State.readsOnly_acquire (s : State) (rels : List Rel) : s.th.ReadsOnly (s.acquire rels).th := by
  unfold State.acquire
  split
  · rfl
  · dsimp only
    rw [State.th_modTh]
    exact s.th.readsOnly_acquire _

theorem State.readsOnly_takeReg (s : State) (q : BitVec 6) : s.th.ReadsOnly (s.takeReg q).th := by
  unfold State.takeReg
  extract_lets a s1 a' s2
  have h1 : s.th.ReadsOnly s1.th := by
    simp only [s1]
    split
    · exact s.readsOnly_strongRead _
    · rfl
  split
  · have h2 : s.th.ReadsOnly s2.th := (h1.trans (s1.readsOnly_strongRead _)).trans (State.readsOnly_acquire _ _)
    split
    · rw [State.th_modMe]; exact h2
    · rw [State.th_modTh]; exact h2.trans rfl
  · exact h1

theorem State.readsOnly_takeRegs (s : State) (rs : List (BitVec 6)) : s.th.ReadsOnly (s.takeRegs rs).th := by
  induction rs generalizing s with
  | nil => rfl
  | cons r rs ih =>
    unfold State.takeRegs
    split
    · exact ih s
    · exact (s.readsOnly_takeReg r).trans (ih _)

theorem State.th_settleDelay (s : State) : s.settleDelay.th = s.th := by
  unfold State.settleDelay
  split
  · rfl
  · rw [State.th_modMe]

theorem Use.readsOnly_start (u : Use) (s : State) : s.th.ReadsOnly (u.start s).th := by
  unfold Use.start
  extract_lets s1 s2
  have h2 : s.th.ReadsOnly s2.th := by
    simp only [s2]
    split
    · rw [State.th_modTh, State.th_settleDelay]; rfl
    · rw [State.th_settleDelay]; rfl
  exact h2.trans (State.readsOnly_takeRegs _ _)

@[simp] theorem Use.st_start (u : Use) (s : State) : (u.start s).th.st = s.th.st := by rw [u.readsOnly_start s]
@[simp] theorem Use.stklim_start (u : Use) (s : State) : (u.start s).th.stklim = s.th.stklim := by
  rw [u.readsOnly_start s]

theorem State.unheld.mono {s : State} {ns ms : List RegN} (h : s.unheld ns) (hs : ∀ r ∈ ms, r ∈ ns) : s.unheld ms :=
  State.unheld_mono h hs

/-! ### The writes of a row -/

/-- Scalar registers written one after another. -/
def State.setXs (s : State) (ws : List (BitVec 6 × Word)) : State := ws.foldl (fun t w => t.setX w.1 w.2) s

theorem State.setXs_nil (s : State) : s.setXs [] = s := rfl
theorem State.setXs_cons (s : State) (w : BitVec 6 × Word) (ws : List (BitVec 6 × Word)) :
    s.setXs (w :: ws) = (s.setX w.1 w.2).setXs ws := rfl

theorem State.onlyRegs_setXs (s : State) (ws : List (BitVec 6 × Word)) :
    s.OnlyRegs (s.setXs ws) [] (ws.map (·.1)) := by
  induction ws generalizing s with
  | nil => exact .refl s
  | cons w ws ih => exact (s.onlyRegs_setX w.1 w.2).trans (ih _)

theorem State.pc_setXs (s : State) (ws : List (BitVec 6 × Word)) : (s.setXs ws).th.pc = s.th.pc := by
  induction ws generalizing s with
  | nil => rfl
  | cons w ws ih => exact (ih _).trans (s.pc_setX w.1 w.2)

/-- Of different registers each holds what was written to it, and is UNARMED (R165). -/
theorem State.read_setXs (s : State) {ws : List (BitVec 6 × Word)} (hd : (ws.map (·.1)).Nodup)
    {w : BitVec 6 × Word} (hw : w ∈ ws) : (s.setXs ws).xr w.1 = w.2 ∧ ((s.setXs ws).armOf w.1).st = .unarmed := by
  induction ws generalizing s with
  | nil => exact absurd hw List.not_mem_nil
  | cons v ws ih =>
    rw [List.map_cons, List.nodup_cons] at hd
    obtain ⟨hnot, hd⟩ := hd
    rcases List.mem_cons.1 hw with rfl | hw
    · have hlater := (s.setX w.1 w.2).onlyRegs_setXs ws
      refine ⟨(hlater.regs _ hnot).trans ?_, (congrArg ArmSt.st ((hlater.arms _ List.not_mem_nil hnot).trans ?_) : _ = (({} : ArmSt).st))⟩
      · rw [State.xr_setX, if_pos rfl]
      · rw [State.armOf_setX, if_pos rfl]
    · exact ih _ hd hw

end Sys2Proof.Machine

namespace Sys2Proof.Claims

open Sys2Proof.Machine

/-- The values of a row's writes in a state. -/
def RegSpec.values (p : RegSpec) (s : State) : List (BitVec 6 × Word) := p.writes.map (fun w => (w.1, w.2 s))

/-- A row of a table is run by an instruction: the instruction's frame has the registers of the row and no further check,
and its own effect is the writes of the row where the row's condition holds. -/
structure RegSpec.RunBy (p : RegSpec) (i : Instr) (s : State) (u : Use) (body : State → Res) : Prop where
  exec_eq : exec i s = .next (u.run s body)
  feat : u.feat = none
  kern : u.kern = false
  pol : u.pol = none
  after : u.after = false
  size : u.size = p.size
  reads : u.reads = p.reads
  names : ∀ r, r ∈ u.names ↔ r ∈ p.names
  distinct : (p.writes.map (·.1)).Nodup
  effect : p.ok s → body (u.start s) = .next ((u.start s).setXs (p.values s))

/-- Some frame and effect of an instruction run a row. -/
def RegSpec.Runs (p : RegSpec) (i : Instr) (s : State) : Prop := ∃ u body, p.RunBy i s u body

/-- What an instruction leaves that runs a row: the row's values in its registers, and all else but NR and the pc. -/
theorem RegSpec.Runs.completes {p : RegSpec} {i : Instr} {s : State} (h : p.Runs i s) (hn : s.unheld p.names)
    (ha : s.arrived p.reads) (hok : p.ok s) :
    ∃ t, exec i s = .next t ∧ (∀ w ∈ p.writes, t.xr w.1 = w.2 s ∧ (t.armOf w.1).st = .unarmed) ∧
      t.goesOn (s.th.pc + w64 p.size) ∧ s.OnlyRegs t p.reads (p.writes.map (·.1)) := by
  obtain ⟨u, body, h⟩ := h
  have hrun := u.run_of s body (by simp [h.feat]) (by simp [h.kern]) (hn.mono fun r hr => (h.names r).1 hr)
    (by simp [h.after]) (h.reads ▸ ha)
  rw [h.effect hok] at hrun
  have hregs : (p.values s).map (·.1) = p.writes.map (·.1) := by simp [RegSpec.values, Function.comp_def]
  have hstart := u.onlyRegs_start s
  have hwrites := (u.start s).onlyRegs_setXs (p.values s)
  have hadv := ((u.start s).setXs (p.values s)).onlyRegs_advance u.size
  rw [hregs] at hwrites
  refine ⟨_, h.exec_eq.trans (congrArg _ hrun), fun w hw => ?_, ?_, ?_⟩
  · obtain ⟨hx, harm⟩ := (u.start s).read_setXs (hregs ▸ h.distinct) (List.mem_map_of_mem (f := fun w => (w.1, w.2 s)) hw)
    exact ⟨(hadv.regs _ List.not_mem_nil).trans hx,
      (congrArg ArmSt.st (hadv.arms _ List.not_mem_nil List.not_mem_nil)).trans harm⟩
  · have hgo := ((u.start s).setXs (p.values s)).goesOn_advance u.size
    rw [State.pc_setXs, Use.pc_start] at hgo
    exact h.size ▸ hgo
  · exact ((hstart.trans hwrites).trans hadv).mono (by simp [h.reads]) (by simp)

/-- A table whose rows are all run completes. -/
theorem completesAs_of_runs {table : Instr → Option RegSpec}
    (h : ∀ {i p} (s : State), table i = some p → i.wf = true → p.Runs i s) : completesAs table :=
  fun _ _ s hrow hwf hn ha hok => (h s hrow hwf).completes hn ha hok

/-! ### The shapes of rows -/

section
variable {i : Instr} {s : State} {a b d : BitVec 6} {size : Nat}

/-- A row of one register written, by an instruction of the common frame. -/
theorem runs_one {p : RegSpec} {v : State → Word} {reads ds : List (BitVec 6)} {body : State → Res}
    (he : exec i s = .next ((scalarUse reads ds size).run s body)) (hsize : p.size = size) (hreads : p.reads = reads)
    (hw : p.writes = [(d, v)]) (hm : p.masks = []) (hds : ∀ r, r ∈ reads ++ ds ↔ r ∈ reads ++ [d])
    (hb : p.ok s → ∀ t, t = (scalarUse reads ds size).start s → body t = .next (t.setX d (v s))) : p.Runs i s :=
  ⟨_, _, he, rfl, rfl, rfl, rfl, hsize.symm, hreads.symm, fun r => by
    unfold RegSpec.names
    rw [hreads, hw, hm]
    show r ∈ (reads ++ ds).map RegN.x ↔ r ∈ (reads ++ [d]).map RegN.x ++ [].map RegN.k
    simp only [List.map_nil, List.append_nil, List.mem_map, hds], by rw [hw]; simp, fun hok => by
    rw [hb hok _ rfl, RegSpec.values, hw]; rfl⟩

theorem runs_rrr {f g : Word → Word → Word} (he : exec i s = .next (opRRR g b a d s size)) (hfg : ∀ x y, g x y = f x y) :
    (rrr f b a d size).Runs i s :=
  runs_one he rfl rfl rfl rfl (fun _ => Iff.rfl) fun _ t ht => by subst ht; simp only [Use.xr_start, hfg]

theorem runs_rr {f g : Word → Word} (he : exec i s = .next (opRR g a d s size)) (hfg : ∀ x, g x = f x) :
    (rr f a d size).Runs i s :=
  runs_one he rfl rfl rfl rfl (fun _ => Iff.rfl) fun _ t ht => by subst ht; simp only [Use.xr_start, hfg]

theorem runs_divs {f g : Word → Word → Word} {zero zero' : Word → Bool} (he : exec i s = .next (opDiv g zero' b a d s))
    (hz : ∀ y, zero' y = zero y) (hfg : ∀ x y, g x y = f x y) : (divs zero f b a d).Runs i s :=
  runs_one he rfl rfl rfl rfl (fun _ => Iff.rfl) fun hok t ht => by
    subst ht
    have hno : ¬ ((zero (s.xr b) && stBit s.th.st 9) = true) := by rw [Bool.and_eq_true]; exact hok
    simp only [Use.xr_start, Use.st_start, hz, hfg, if_neg hno]

end

/-! ### Majors 0 and 3 -/

theorem runs_aluSpec {i : Instr} {p : RegSpec} (s : State) (h : aluSpec i = some p) : p.Runs i s := by
  cases i
  case slt | sltu => cases h; exact runs_rrr rfl fun x y => w64_b2n _
  case min => cases h; exact runs_rrr rfl fun x y => ite_slt Eq.symm
  case max => cases h; exact runs_rrr rfl fun x y => ite_slt id
  case minu => cases h; exact runs_rrr rfl fun x y => ite_ult Eq.symm
  case maxu => cases h; exact runs_rrr rfl fun x y => ite_ult id
  case addw => cases h; exact runs_rrr rfl sext32_add
  case subw => cases h; exact runs_rrr rfl sext32_sub
  case sllw => cases h; exact runs_rrr rfl fun x y => sext32_shiftLeft x _
  case srlw => cases h; exact runs_rrr rfl fun x y => sext32_setWidth _
  case clz => cases h; exact runs_rr rfl fun x => congrArg w64 (sub_bitLen x)
  case ctz => cases h; exact runs_rr rfl fun x => congrArg w64 (sub_bitLen_reverse x)
  case cpop => cases h; exact runs_rr rfl fun x => congrArg w64 (popCount_eq x)
  case rev8 => cases h; exact runs_rr rfl revBytes_eq
  case ext => cases h; exact runs_rrr rfl extField_eq
  case sextb | sexth => cases h; exact runs_rr rfl fun x => by rw [BitVec.setWidth_eq_extractLsb' (by decide)]
  case sextw | mv | brev | mod31 | div31 | bankof | rowof => cases h; exact runs_rr rfl fun _ => rfl
  case add | sub | and | or | xor | sll | srl | sra | sraw | sh1add | sh2add | sh3add | sh4add | andn | orn | xnor | rol |
      ror | bset | bclr | binv | bext | spa | addm31 =>
    cases h; exact runs_rrr rfl fun _ _ => rfl
  all_goals cases h

/-! ### Major 2 -/

theorem runs_divSpec {i : Instr} {p : RegSpec} (s : State) (h : divSpec i = some p) : p.Runs i s := by
  cases i
  case mul | mulN | mulh | mulhsu => cases h; exact runs_rrr rfl fun _ _ => rfl
  case mulhu => cases h; exact runs_rrr rfl mulHigh_unsigned
  case mulw => cases h; exact runs_rrr rfl sext32_mul
  case div => cases h; exact runs_divs rfl (fun _ => rfl) divS_eq_quot
  case divu => cases h; exact runs_divs rfl (fun _ => rfl) divU_eq_quot
  case rem => cases h; exact runs_divs rfl (fun _ => rfl) remS_eq_quot
  case remu => cases h; exact runs_divs rfl (fun _ => rfl) remU_eq_quot
  case divw => cases h; exact runs_divs rfl (fun _ => rfl) fun _ _ => signExtend_divS32 _ _
  case divuw => cases h; exact runs_divs rfl (fun _ => rfl) fun _ _ => signExtend_divU32 _ _
  case remw => cases h; exact runs_divs rfl (fun _ => rfl) fun _ _ => signExtend_remS32 _ _
  case remuw => cases h; exact runs_divs rfl (fun _ => rfl) fun _ _ => signExtend_remU32 _ _
  all_goals cases h

/-! ### The immediate forms and the moves of operand extensions -/

/-- R132: the registers that `kpack` names. -/
def kpackUse (d : BitVec 6) : Use := { scalarUse [d] [d] with names := .x d :: allMasks }

theorem runs_immSpec {i : Instr} {p : RegSpec} (s : State) (h : immSpec i = some p) : p.Runs i s := by
  cases i
  case slti | sltiu => cases h; exact runs_rr rfl fun x => w64_b2n _
  case addi | andi | ori | xori | slli | srli | srai | rori => cases h; exact runs_rr rfl fun _ => rfl
  case li => cases h; exact runs_one rfl rfl rfl rfl rfl (fun _ => Iff.rfl) fun _ t ht => rfl
  case lix | lixu =>
    cases h; exact runs_one rfl rfl rfl rfl rfl (fun _ => Iff.rfl) fun _ t ht => by subst ht; simp only [Use.oxr_start]
  case insh =>
    cases h
    refine runs_one rfl rfl rfl rfl rfl (fun _ => Iff.rfl) fun _ t ht => ?_
    subst ht
    rw [Use.oxr_start, Use.xr_start, BitVec.setWidth_eq_extractLsb' (by decide)]
  case kpack n d =>
    cases h
    refine ⟨_, _, rfl, rfl, rfl, rfl, rfl, rfl, rfl, fun r => ?_, by simp, fun _ => ?_⟩
    · show r ∈ _ :: allMasks ↔ r ∈ RegN.x d :: RegN.x d :: allMasks
      simp only [List.mem_cons, or_self_left]
    · refine (congrArg (fun v => Res.next (((kpackUse d).start s).setX d v)) ?_)
      rw [Use.xr_start]
      simp only [Use.kr_start]
      exact packByte _ _ n
  case land =>
    cases h
    exact ⟨scalarUse [] [], _, rfl, rfl, rfl, rfl, rfl, rfl, rfl, fun _ => Iff.rfl, List.nodup_nil, fun _ => rfl⟩
  all_goals cases h

/-! ### The compact forms -/

theorem runs_compactSpec {i : Instr} {p : RegSpec} (s : State) (h : compactSpec i = some p) : p.Runs i s := by
  cases i
  case addN | subN | andN | orN | xorN | sllN | srlN | sraN => cases h; exact runs_rrr rfl fun _ _ => rfl
  case addiN | slliN | srliN | sraiN | andiN | nopN => cases h; exact runs_rr rfl fun _ => rfl
  case addiNSp => cases h; exact runs_rr rfl fun x => congrArg (x + ·) (signExtend_shiftLeft _ 4)
  case liN => cases h; exact runs_one rfl rfl rfl rfl rfl (fun _ => Iff.rfl) fun _ t ht => rfl
  all_goals cases h

/-! ### Frames -/

/-- R87, R20: the stack-limit check on numbers. -/
theorem stackLow_iff {lim sp f : Word} : (lim != 0#64 && ((sp - f).ult lim || sp.ult f)) = true ↔
    lim ≠ 0#64 ∧ (sp.toNat < f.toNat ∨ sp.toNat - f.toNat < lim.toNat) := by
  simp only [Bool.and_eq_true, bne_iff_ne, Bool.or_eq_true, BitVec.ult_iff_toNat_lt]
  refine and_congr_right fun _ => ?_
  by_cases h : sp.toNat < f.toNat
  · simp only [h, or_true, true_or]
  · have hsub : (sp - f).toNat = sp.toNat - f.toNat := BitVec.toNat_sub_of_le (Nat.not_lt.1 h)
    simp only [h, or_false, false_or, hsub]

/-- R87, R88: the effect of an `enter` that gives its registers their values by the new stack pointer. -/
def enterEffect (l h : BitVec 6) (next : State → Word → State) (s : State) : Res :=
  if s.th.stklim != 0#64 && ((s.xr rSP - frameSize l h).ult s.th.stklim || (s.xr rSP).ult (frameSize l h)) then
    .trap tSTACK (s.xr rSP - frameSize l h)
  else .next (next s (s.xr rSP - frameSize l h))

theorem exec_enter (l h : BitVec 6) (s : State) : exec (.enter l h) s =
    .next ((scalarUse [rSP] [rSP]).run s (enterEffect l h fun s sp => s.setX rSP sp)) := rfl

theorem exec_enterFp (l h : BitVec 6) (r : BitVec 5) (s : State) : exec (.enterFp l h r) s =
    .next ((scalarUse [rSP, 28#6] [rSP, 28#6, xreg r]).run s
      (enterEffect l h fun s sp => ((s.setX (xreg r) (s.xr 28#6)).setX 28#6 sp).setX rSP sp)) := rfl

theorem exec_leave (l h : BitVec 6) (s : State) : exec (.leave l h) s =
    .next ((scalarUse [rSP] [rSP]).run s fun s => .next (s.setX rSP (s.xr rSP + frameSize l h))) := rfl

theorem exec_leaveFp (l h : BitVec 6) (r : BitVec 5) (s : State) : exec (.leaveFp l h r) s =
    .next ((scalarUse [28#6, xreg r] [rSP, 28#6]).run s fun s =>
      .next ((s.setX rSP (s.xr 28#6 + frameSize l h)).setX 28#6 (s.xr (xreg r)))) := rfl

/-- R87: where the stack-limit check passes, an `enter` is its writes. -/
theorem enterEffect_of_limitOk {l h : BitVec 6} {s : State} (hok : limitOk l h s) (u : Use) (next : State → Word → State) :
    enterEffect l h next (u.start s) = .next (next (u.start s) (s.xr 31 - w64 (frameBytes l h))) := by
  unfold enterEffect
  rw [Use.xr_start, Use.stklim_start, if_neg, frameSize_eq]
  · rfl
  · rw [stackLow_iff, toNat_frameSize]
    rintro ⟨hne, hlow⟩
    rcases hok with hz | ⟨hfits, habove⟩
    · exact hne hz
    · exact hlow.elim (Nat.not_lt.2 hfits) (Nat.not_lt.2 habove)

theorem runs_frameSpec {i : Instr} {p : RegSpec} (s : State) (h : frameSpec i = some p) (hwf : i.wf = true) :
    p.Runs i s := by
  cases i
  case enter l h' =>
    cases h
    refine ⟨_, _, exec_enter l h' s, rfl, rfl, rfl, rfl, rfl, rfl, fun r => Iff.rfl, by simp, fun hok => ?_⟩
    rw [enterEffect_of_limitOk hok]
    simp only [RegSpec.values, List.map, State.setXs_cons, State.setXs_nil]
    rfl
  case enterFp l h' r =>
    cases h
    have hne : xreg r ≠ 28#6 ∧ xreg r ≠ 31#6 := by
      have h : ∀ r : BitVec 5, (r != 28#5 && r != 31#5) = true → xreg r ≠ 28#6 ∧ xreg r ≠ 31#6 := by decide
      exact h r hwf
    refine ⟨_, _, exec_enterFp l h' r s, rfl, rfl, rfl, rfl, rfl, rfl, fun q => ?_, ?_, fun hok => ?_⟩
    · show q ∈ [RegN.x 31#6, .x 28#6, .x 31#6, .x 28#6, .x (xreg r)] ↔
        q ∈ [RegN.x 31#6, .x 28#6, .x (xreg r), .x 28#6, .x 31#6]
      simp only [List.mem_cons, List.not_mem_nil, or_false]
      tauto
    · obtain ⟨h28, h31⟩ := hne
      show [xreg r, 28#6, 31#6].Nodup
      simp only [List.nodup_cons, List.mem_cons, List.not_mem_nil, or_false, not_or, List.nodup_nil, and_true]
      exact ⟨⟨h28, h31⟩, by decide⟩
    · rw [enterEffect_of_limitOk hok, Use.xr_start]
      simp only [RegSpec.values, List.map, State.setXs_cons, State.setXs_nil]
      rfl
  case leave l h' =>
    cases h
    refine ⟨_, _, exec_leave l h' s, rfl, rfl, rfl, rfl, rfl, rfl, fun r => Iff.rfl, by simp, fun _ => ?_⟩
    rw [Use.xr_start, frameSize_eq]
    simp only [RegSpec.values, List.map, State.setXs_cons, State.setXs_nil]
    rfl
  case leaveFp l h' r =>
    cases h
    refine ⟨_, _, exec_leaveFp l h' r s, rfl, rfl, rfl, rfl, rfl, rfl, fun r => Iff.rfl, by simp, fun _ => ?_⟩
    rw [Use.xr_start, Use.xr_start, frameSize_eq]
    simp only [RegSpec.values, List.map, State.setXs_cons, State.setXs_nil]
    rfl
  all_goals cases h

end Sys2Proof.Claims

open Sys2Proof Sys2Proof.Machine Sys2Proof.Claims

/-- Settles O1: the rows of the four tables are run, by `runs_aluSpec`, `runs_immSpec`, `runs_compactSpec` and
`runs_frameSpec`. -/
theorem aluComplete : Obligations.AluComplete := by
  unfold Obligations.AluComplete
  exact ⟨completesAs_of_runs fun s h _ => runs_aluSpec s h, completesAs_of_runs fun s h _ => runs_immSpec s h,
    completesAs_of_runs fun s h _ => runs_compactSpec s h, completesAs_of_runs fun s h hwf => runs_frameSpec s h hwf⟩

/-- R81: a division by zero with DZE set. -/
theorem traps_opDiv {i : Instr} {f : Word → Word → Word} {zero : Word → Bool} {b a d : BitVec 6} {s : State}
    (he : exec i s = .next (opDiv f zero b a d s)) (hrun : canRun s [a, b, d] [a, b]) (hdze : stBit s.th.st 9 = true)
    (hz : zero (s.xr b) = true) : traps i s tDIVZERO (s.xr a) := by
  obtain ⟨hheld, harr⟩ := hrun
  refine he.trans (congrArg _ (Use.run_trap _ nofun nofun hheld nofun harr ?_))
  simp only [Use.xr_start, Use.st_start, hz, hdze, Bool.and_self, if_true]

/-- Settles O2: the rows of the table are run by `runs_divSpec`, and with DZE set the divisions trap by `traps_opDiv`. -/
theorem divComplete : Obligations.DivComplete := by
  unfold Obligations.DivComplete
  refine ⟨completesAs_of_runs fun s h _ => runs_divSpec s h, fun b a d s hrun hdze => ⟨fun hz i hi => ?_, fun hz i hi => ?_⟩⟩
  · have hzero : (s.xr b == 0#64) = true := by rw [hz]; rfl
    simp only [List.mem_cons, List.not_mem_nil, or_false] at hi
    rcases hi with rfl | rfl | rfl | rfl <;> exact traps_opDiv rfl hrun hdze hzero
  · have hzero : lowZero (s.xr b) = true := by rw [lowZero, show (s.xr b).setWidth 32 = 0#32 from hz]; rfl
    simp only [List.mem_cons, List.not_mem_nil, or_false] at hi
    rcases hi with rfl | rfl | rfl | rfl <;> exact traps_opDiv rfl hrun hdze hzero

end

section
/-! SUPPORT. The scalar FP32 instructions (R90 to R94): an instruction whose steps of R91 do not stop is the write of its
result. -/

namespace Sys2Proof.Claims

open Sys2Proof.Machine

section
variable {i : Instr} {s : State} {a b d : BitVec 6}

/-- R90: an FP32 operand at the start of an instruction. -/
theorem f32_start (u : Use) (s : State) (r : BitVec 6) : (u.start s).f32 r = (s.xr r).toNat % 2 ^ 32 := by
  unfold State.f32
  rw [Use.xr_start]

/-- R91: where no step stops, the end of an instruction is the write of its result. -/
theorem fpEnd_of {o : FOut} (h : o.stop = none) (s : State) (d : BitVec 6) (f : Nat → Word) :
    fpEnd s d o f = .next (s.setX d (f o.res)) := by
  unfold fpEnd
  rw [h]

theorem runs_fp2 {op : FOp} (he : exec i s = .next (opF2 op b a d s)) : (fp2 op b a d).Runs i s :=
  runs_one he rfl rfl rfl rfl (fun _ => Iff.rfl) fun hok t ht => by
    subst ht
    rw [Use.st_start, f32_start, f32_start]
    exact fpEnd_of hok _ d w64

theorem runs_fp3 {op : FOp} (he : exec i s = .next (opF3 op b a d s)) : (fp3 op b a d).Runs i s :=
  runs_one (d := d) he rfl rfl rfl rfl (fun r => by simp) fun hok t ht => by
    subst ht
    rw [Use.st_start, f32_start, f32_start, f32_start]
    exact fpEnd_of hok _ d w64

theorem runs_fp1 {f : FpEnv → Nat → FOut} {g : Nat → Word} {r : BitVec 3}
    (he : exec i s = .next ((scalarUse [a] [d]).run s fun s => fpEnd s d (f (fpEnv s.th.st r.toNat) (s.f32 a)) g)) :
    (fp1 f g r a d).Runs i s :=
  runs_one he rfl rfl rfl rfl (fun _ => Iff.rfl) fun hok t ht => by
    subst ht
    rw [Use.st_start, f32_start]
    exact fpEnd_of hok _ d g

/-- R92: an operation on the signs. -/
theorem runs_sign {f : Bool → Bool → Bool} {g : BitVec 1 → BitVec 1 → BitVec 1} (he : exec i s = .next (opSign f b a d s))
    (hfg : ∀ x y : BitVec 1, f (x.getLsbD 0) (y.getLsbD 0) = (g x y).getLsbD 0) :
    (rrr (fun x y => (g (x.extractLsb' 31 1) (y.extractLsb' 31 1) ++ x.extractLsb' 0 31 : BitVec 32).setWidth 64)
      b a d).Runs i s :=
  runs_one he rfl rfl rfl rfl (fun _ => Iff.rfl) fun _ t ht => by
    subst ht
    simp only [f32_start, bitAt_sign, hfg, withSign]

/-- R93: a conversion of an integer. -/
theorem runs_fromInt {f : Word → Int} {r : BitVec 3} (he : exec i s = .next (opFromInt f r a d s)) :
    RegSpec.Runs { reads := [a], writes := [(d, fun s => w64 (intToFp fp32 (modeOf s.th.st r.toNat) (f (s.xr a))))] } i s :=
  runs_one he rfl rfl rfl rfl (fun _ => Iff.rfl) fun _ t ht => by
    subst ht
    rw [Use.st_start, Use.xr_start]

/-- A function of one FP32 operand that no step of R91 stops. -/
theorem runs_f32 {f : Nat → Word} (he : exec i s = .next ((scalarUse [a] [d]).run s fun s => .next (s.setX d (f (s.f32 a))))) :
    (rr (fun x => f (x.toNat % 2 ^ 32)) a d).Runs i s :=
  runs_one he rfl rfl rfl rfl (fun _ => Iff.rfl) fun _ t ht => by
    subst ht
    rw [f32_start]

end

theorem runs_fpSpec {i : Instr} {p : RegSpec} (s : State) (h : fpSpec i = some p) : p.Runs i s := by
  cases i
  case fadd | fsub | fmul | fdiv | fmin | fmax | feq | flt | fle => cases h; exact runs_fp2 rfl
  case fmadd | fmsub => cases h; exact runs_fp3 rfl
  case fsqrt => cases h; exact runs_fp1 (f := fun e x => fpLane fp32 e .sqrt [x]) rfl
  case fsgnj => cases h; exact runs_sign (g := fun _ y => y) rfl (by decide)
  case fsgnjn => cases h; exact runs_sign (g := fun _ y => ~~~y) rfl (by decide)
  case fsgnjx => cases h; exact runs_sign (g := fun x y => x ^^^ y) rfl (by decide)
  case fclass => cases h; exact runs_f32 (f := fun n => w64 (fclassMask n)) rfl
  case bftof => cases h; exact runs_f32 (f := fun n => w64 (bfToFp n)) rfl
  case ftoi => cases h; exact runs_fp1 (f := fun e x => fpToInt fp32 e (-2 ^ 31) (2 ^ 31 - 1) x) rfl
  case ftou => cases h; exact runs_fp1 (f := fun e x => fpToInt fp32 e 0 (2 ^ 32 - 1) x) rfl
  case ftol => cases h; exact runs_fp1 (f := fun e x => fpToInt fp32 e (-2 ^ 63) (2 ^ 63 - 1) x) rfl
  case ftoul => cases h; exact runs_fp1 (f := fun e x => fpToInt fp32 e 0 (2 ^ 64 - 1) x) rfl
  case ftobf => cases h; exact runs_fp1 rfl
  case itof => cases h; exact runs_fromInt (f := fun x => (lo32 x).toInt) rfl
  case utof => cases h; exact runs_fromInt (f := fun x => ((lo32 x).toNat : Int)) rfl
  case ltof => cases h; exact runs_fromInt (f := fun x => x.toInt) rfl
  case ultof => cases h; exact runs_fromInt (f := fun x => (x.toNat : Int)) rfl
  all_goals cases h

end Sys2Proof.Claims

open Sys2Proof Sys2Proof.Machine Sys2Proof.Claims

/-- Settles O3: the rows of the table are run, by `runs_fpSpec`. -/
theorem fpComplete : Obligations.FpComplete := by
  unfold Obligations.FpComplete
  exact completesAs_of_runs fun s h _ => runs_fpSpec s h

end

section
/-! SUPPORT. Branches, jumps and calls (R69, R70, R84, R85): a branch is the check of its target where it is taken, and
nothing where it is not. -/

namespace Sys2Proof.Claims

open Sys2Proof.Machine

/-- The frame of a branch. -/
def BranchSpec.use (p : BranchSpec) : Use := scalarUse p.reads p.links p.size

/-- R85: the state in which a branch has written its link. -/
def BranchSpec.linked (p : BranchSpec) (s : State) : State :=
  if p.link then (p.use.start s).setX 30 (s.th.pc + w64 p.size) else p.use.start s

/-- A row of the table of branches is run by an instruction. -/
def BranchSpec.Runs (p : BranchSpec) (i : Instr) (s : State) : Prop :=
  ∃ body : State → Res, exec i s = .next (p.use.run s body) ∧ body (p.use.start s) =
    if p.taken s then branchTo (p.use.start s) p.kind (p.target s) (p.linked s) else .next (p.use.start s)

theorem BranchSpec.begun_eq (p : BranchSpec) (s : State) : begun s p.reads p.links = p.use.start s := rfl

/-- R85: the link is the one register that a branch writes. -/
theorem BranchSpec.onlyRegs_linked (p : BranchSpec) (s : State) : s.OnlyRegs (p.linked s) p.reads p.links := by
  have hstart := p.use.onlyRegs_start s
  unfold BranchSpec.linked BranchSpec.links
  cases p.link
  · exact hstart
  · exact (hstart.trans ((p.use.start s).onlyRegs_setX 30 _)).mono (by simp [BranchSpec.use, scalarUse])
      (fun r hr => hr)

theorem BranchSpec.xr_linked {p : BranchSpec} (h : p.link = true) (s : State) :
    (p.linked s).xr 30 = s.th.pc + w64 p.size := by
  unfold BranchSpec.linked
  rw [if_pos h, State.xr_setX, if_pos rfl]

theorem BranchSpec.linked_of_not_link {p : BranchSpec} (h : p.link = false) (s : State) : p.linked s = p.use.start s := by
  unfold BranchSpec.linked
  rw [h]
  rfl

/-- R70: a target that passes its check is where a taken branch goes. -/
theorem branchTo_of_ok {s : State} {k : BrKind} {t : Word} (h : s.checkTarget k t = .ok) (u : State) :
    branchTo s k t u = .goto u t := by
  unfold branchTo
  rw [h]

section
variable {p : BranchSpec} {i : Instr} {s : State} (h : p.Runs i s) (hn : s.unheld ((p.reads ++ p.links).map .x))
  (ha : s.arrived p.reads)
include h hn ha

/-- A branch with its checks passed. -/
theorem BranchSpec.Runs.exec_eq : exec i s = .next (p.use.finish s
    (if p.taken s then branchTo (p.use.start s) p.kind (p.target s) (p.linked s) else .next (p.use.start s))) := by
  obtain ⟨body, hexec, hbody⟩ := h
  rw [hexec, Use.run_of p.use s body nofun nofun hn nofun ha, hbody]

/-- R84: a branch that is not taken goes on behind itself. -/
theorem BranchSpec.Runs.notTaken (hno : p.taken s = false) :
    ∃ t, exec i s = .next t ∧ t.goesOn (s.th.pc + w64 p.size) ∧ s.OnlyRegs t p.reads [] := by
  refine ⟨_, (h.exec_eq hn ha).trans ?_, p.use.wrote_none s⟩
  rw [hno]
  rfl

/-- R69, R84, R85: a taken one whose target passes its check goes on there. -/
theorem BranchSpec.Runs.isTaken (hyes : p.taken s = true) (hok : (p.use.start s).checkTarget p.kind (p.target s) = .ok) :
    ∃ t, exec i s = .next t ∧ t.goesOn (p.target s) ∧ t.th.prefixLatch = none ∧
      (p.link = true → t.xr 30 = s.th.pc + w64 p.size) ∧ s.OnlyRegs t p.reads p.links := by
  have hjump := (p.linked s).onlyRegs_jump (p.target s)
  refine ⟨(p.linked s).jump (p.target s), ?_, State.goesOn_jump _ _, ?_, fun hl => ?_, ?_⟩
  · rw [h.exec_eq hn ha, hyes, if_pos rfl, branchTo_of_ok hok]
    rfl
  · rw [State.jump, State.th_modTh]
  · rw [hjump.regs _ List.not_mem_nil, BranchSpec.xr_linked hl]
  · exact ((p.onlyRegs_linked s).trans hjump).mono (by simp) (by simp)

end

/-! ### The shapes of branches -/

section
variable {i : Instr} {s : State}

/-- R84: a branch by a number of parcels. -/
theorem runs_branch {n : Nat} {o : BitVec n} {taken taken' : State → Bool} {reads : List (BitVec 6)} {size : Nat}
    (he : exec i s = .next (opBranch taken' (o.signExtend 64) reads s size))
    (ht : taken' ((scalarUse reads [] size).start s) = taken s) :
    BranchSpec.Runs { reads := reads, taken := taken, target := fun s => s.th.pc + BitVec.ofInt 64 (2 * o.toInt),
                      size := size } i s := by
  refine ⟨_, he, ?_⟩
  show (if taken' ((scalarUse reads [] size).start s) then _ else _) = _
  rw [ht, signExtend_shiftLeft]
  rfl

theorem runs_cond {f g : Word → Word → Bool} {o : BitVec 12} {b a : BitVec 5}
    (he : exec i s = .next (opBranch (fun s => g (s.xr (xreg a)) (s.xr (xreg b))) (o.signExtend 64) [xreg a, xreg b] s))
    (hfg : ∀ x y, g x y = f x y) : (cond f o b a).Runs i s :=
  runs_branch he (by simp only [Use.xr_start, hfg])

/-- R85: a jump to a register's address. -/
theorem runs_jump {link : Bool} {a : BitVec 6} {size : Nat} (he : exec i s = .next (opJump link a s size)) :
    BranchSpec.Runs { reads := [a], target := fun s => s.xr a, kind := .indirect, link := link, size := size } i s := by
  refine ⟨_, he, ?_⟩
  rw [Use.xr_start]
  rfl

theorem runs_ret {size : Nat} (he : exec i s = .next (opRet s size)) :
    BranchSpec.Runs { reads := [30], target := fun s => s.xr 30, kind := .ret, size := size } i s :=
  ⟨fun t => branchTo t .ret (t.xr 30) t, he, by
    rw [BranchSpec.linked_of_not_link rfl, if_pos rfl]
    exact congrArg (branchTo _ _ · _) (Use.xr_start _ _ _)⟩

end

theorem runs_branchSpec {i : Instr} {p : BranchSpec} (s : State) (h : branchSpec i = some p) : p.Runs i s := by
  cases i
  case beq => cases h; exact runs_cond (g := fun x y => x == y) rfl fun _ _ => rfl
  case bne => cases h; exact runs_cond (g := fun x y => x != y) rfl fun _ _ => rfl
  case blt => cases h; exact runs_cond (g := fun x y => x.slt y) rfl fun _ _ => BitVec.slt_eq_decide
  case bge =>
    cases h
    exact runs_cond (g := fun x y => !x.slt y) rfl fun x y => by simp only [BitVec.slt_eq_decide, ← decide_not, not_lt]
  case bltu => cases h; exact runs_cond (g := fun x y => x.ult y) rfl fun _ _ => rfl
  case bgeu =>
    cases h
    exact runs_cond (g := fun x y => !x.ult y) rfl fun x y => by simp only [BitVec.ult_eq_decide, ← decide_not, not_lt]
  case bnr => cases h; exact runs_branch (taken' := fun s => stBit s.th.st 0) rfl (by rw [Use.st_start])
  case brd => cases h; exact runs_branch (taken' := fun s => !stBit s.th.st 0) rfl (by rw [Use.st_start])
  case j | jN => cases h; exact runs_branch (taken' := fun _ => true) rfl rfl
  case call o =>
    cases h
    refine ⟨_, rfl, ?_⟩
    show branchTo _ _ (s.th.pc + o.signExtend 64 <<< 1) _ = _
    rw [signExtend_shiftLeft]
    rfl
  case jr | jrN | callr | callrN => cases h; exact runs_jump rfl
  case ret | retN => cases h; exact runs_ret rfl
  all_goals cases h

end Sys2Proof.Claims

open Sys2Proof Sys2Proof.Machine Sys2Proof.Claims

/-- Settles O4: the rows of the table are run by `runs_branchSpec`; what a run row leaves is `BranchSpec.Runs.notTaken` and
`BranchSpec.Runs.isTaken`. -/
theorem branchComplete : Obligations.BranchComplete := by
  unfold Obligations.BranchComplete
  intro i p s hrow hn ha
  have h := runs_branchSpec s hrow
  exact ⟨h.notTaken hn ha, h.isTaken hn ha⟩

end

section
/-! SUPPORT. What the operations of the memory system leave of the threads and their registers (R206 to R209, R228 to R243,
R346, R432). -/

namespace Sys2Proof.Machine

/-! ### Threads and registers kept -/

/-- What an operation leaves that changes no thread and no core-shared register. -/
structure State.KeepsThreads (s t : State) : Prop where
  cur : t.cur = s.cur
  thread : ∀ k, t.thread k = s.thread k
  shared : ∀ k, (t.core k).c = (s.core k).c ∧ (t.core k).w = (s.core k).w

theorem State.KeepsThreads.refl (s : State) : s.KeepsThreads s := ⟨rfl, fun _ => rfl, fun _ => ⟨rfl, rfl⟩⟩

theorem State.KeepsThreads.trans {s t u : State} (h : s.KeepsThreads t) (k : t.KeepsThreads u) : s.KeepsThreads u where
  cur := k.cur.trans h.cur
  thread := fun n => (k.thread n).trans (h.thread n)
  shared := fun n => ⟨(k.shared n).1.trans (h.shared n).1, (k.shared n).2.trans (h.shared n).2⟩

/-- What keeps the slots and the cores keeps the threads. -/
theorem State.keepsThreads_of_eq {s t : State} (hcur : t.cur = s.cur) (hslots : t.slots = s.slots) (hcores : t.cores = s.cores) :
    s.KeepsThreads t where
  cur := hcur
  thread := fun k => by unfold State.thread State.slot; rw [hslots]
  shared := fun k => by unfold State.core; rw [hcores]; exact ⟨rfl, rfl⟩

theorem State.KeepsThreads.ite {s t u : State} {p : Prop} [Decidable p] (ht : s.KeepsThreads t) (hu : s.KeepsThreads u) :
    s.KeepsThreads (if p then t else u) := by
  split
  · exact ht
  · exact hu

theorem State.keepsThreads_modSlot (s : State) (sid : Nat) {f : Slot → Slot} (hf : ∀ sl, (f sl).th = sl.th) :
    s.KeepsThreads (s.modSlot sid f) where
  cur := rfl
  thread := fun k => by
    unfold State.thread
    rw [State.slot_modSlot]
    split
    · next h => rw [hf, h]
    · rfl
  shared := fun _ => ⟨rfl, rfl⟩

theorem State.keepsThreads_modCore (s : State) (cid : Nat) {f : Core → Core} (hf : ∀ k, (f k).c = k.c ∧ (f k).w = k.w) :
    s.KeepsThreads (s.modCore cid f) where
  cur := rfl
  thread := fun _ => rfl
  shared := fun k => by
    rw [State.core_modCore]
    split
    · next h => rw [h]; exact hf _
    · exact ⟨rfl, rfl⟩

theorem State.keepsThreads_foldl {α : Type} {f : State → α → State} (hf : ∀ (s : State) a, s.KeepsThreads (f s a)) (l : List α)
    (s : State) : s.KeepsThreads (l.foldl f s) := by
  induction l generalizing s with
  | nil => exact .refl s
  | cons a l ih => exact (hf s a).trans (ih _)

theorem State.KeepsThreads.th_eq {s t : State} (h : s.KeepsThreads t) : t.th = s.th := by
  unfold State.th
  rw [h.cur, h.thread]

theorem State.KeepsThreads.keepsRegs {s t : State} (h : s.KeepsThreads t) : s.KeepsRegs t [] := by
  have hme : t.me = t.core (coreOf s.cur) := congrArg (fun c => t.core (coreOf c)) h.cur
  refine State.keepsRegs_of_thread h.cur (by rw [h.th_eq]; exact .refl _) ?_ ?_ <;> rw [hme]
  · exact (h.shared _).1
  · exact (h.shared _).2

/-! ### Homes and copies -/

theorem State.keepsThreads_modHome (s : State) (line : Nat) (f : HomeLine → HomeLine) : s.KeepsThreads (s.modHome line f) :=
  State.keepsThreads_of_eq rfl rfl rfl

theorem State.keepsThreads_modCluster (s : State) (cl : Nat) (f : Cluster → Cluster) : s.KeepsThreads (s.modCluster cl f) :=
  State.keepsThreads_of_eq rfl rfl rfl

theorem State.keepsThreads_owe (s : State) (j : Job) : s.KeepsThreads (s.owe j) :=
  State.keepsThreads_of_eq (s.cur_owe j) (s.slots_owe j) (s.cores_owe j)

theorem State.keepsThreads_trace (s : State) (ev asid cl low : Nat) : s.KeepsThreads (s.trace ev asid cl low) :=
  State.keepsThreads_of_eq rfl rfl rfl

theorem State.keepsThreads_clearEcc (s : State) (us : List EccAt) : s.KeepsThreads (s.clearEcc us) := by
  unfold State.clearEcc
  exact .ite (.refl s) (State.keepsThreads_of_eq rfl rfl rfl)

theorem State.keepsThreads_modBypass (s : State) (cid line : Nat) (f : L1Line → L1Line) :
    s.KeepsThreads (s.modBypass cid line f) := by
  unfold State.modBypass
  refine State.keepsThreads_foldl (fun s i => ?_) _ s
  exact .ite (s.keepsThreads_modSlot _ fun _ => rfl) (.refl s)

theorem State.keepsThreads_lookup (s : State) (a line : Nat) : s.KeepsThreads (s.lookup a line) := by
  unfold State.lookup
  extract_lets tn now home sure s1 s2 set
  have h2 : s.KeepsThreads s2 := State.keepsThreads_of_eq rfl rfl rfl
  exact .ite h2 (h2.trans (s2.keepsThreads_modCluster _ _))

theorem State.keepsThreads_revoke (s : State) (line : Nat) (keep : Option Nat) : s.KeepsThreads (s.revoke line keep) := by
  unfold State.revoke
  split
  · exact .refl s
  · refine .ite (.refl s) ?_
    extract_lets s1
    have h1 : s.KeepsThreads s1 := (s.keepsThreads_modHome _ _).trans (State.keepsThreads_modBypass _ _ _ _)
    refine (h1.trans (s1.keepsThreads_modCore _ ?_)).trans (State.keepsThreads_trace _ _ _ _ _)
    exact fun _ => ⟨rfl, rfl⟩

theorem State.keepsThreads_performWrite (s : State) (line : Nat) (cells : List Host.Cell) (clock : Nat) (who : Option Nat) :
    s.KeepsThreads (s.performWrite line cells clock who) := by
  unfold State.performWrite
  extract_lets s1 h t n s2
  have h2 : s1.KeepsThreads s2 := .ite (.refl s1) (s1.keepsThreads_clearEcc _)
  exact ((s.keepsThreads_revoke line who).trans h2).trans (State.keepsThreads_of_eq rfl rfl rfl)

theorem State.keepsThreads_carry (s : State) (line : Nat) (cells : List Host.Cell) (rels : List Rel) :
    s.KeepsThreads (s.carry line cells rels) := by
  unfold State.carry
  exact .ite (.refl s) (s.keepsThreads_modHome _ _)

theorem State.keepsThreads_refreshBypass (s : State) (cid line : Nat) : s.KeepsThreads (s.refreshBypass cid line) := by
  unfold State.refreshBypass
  exact (s.keepsThreads_modHome _ _).trans (State.keepsThreads_modBypass _ _ _ _)

theorem State.keepsThreads_refreshCopy (s : State) (cid line : Nat) : s.KeepsThreads (s.refreshCopy cid line) := by
  unfold State.refreshCopy
  extract_lets s1
  have h1 : s.KeepsThreads s1 := .ite (s.keepsThreads_refreshBypass cid line) (.refl s)
  split
  · exact h1
  · exact (h1.trans ((s1.keepsThreads_modHome _ _).trans (State.keepsThreads_clearEcc _ _))).trans
      (State.keepsThreads_modCore _ _ fun _ => ⟨rfl, rfl⟩)

theorem State.keepsThreads_drainComb (s : State) (cid line : Nat) : s.KeepsThreads (s.drainComb cid line) := by
  unfold State.drainComb
  split
  · exact .refl s
  · next e _ =>
    extract_lets s1 s2 s3 s4
    have h1 : s.KeepsThreads s1 := s.keepsThreads_modCore _ fun _ => ⟨rfl, rfl⟩
    have h3 : s1.KeepsThreads s3 := (s1.keepsThreads_lookup _ _).trans (s2.keepsThreads_performWrite _ _ _ _)
    have h4 : s3.KeepsThreads s4 := .ite (.refl s3) (s3.keepsThreads_modHome _ _)
    exact ((h1.trans h3).trans h4).trans (s4.keepsThreads_refreshCopy _ _)

theorem State.keepsThreads_performPush (s : State) (a cid : Nat) (d : Push) : s.KeepsThreads (s.performPush a cid d) := by
  unfold State.performPush
  split
  · exact .refl s
  · extract_lets line
    exact (((s.keepsThreads_lookup _ _).trans (State.keepsThreads_performWrite _ _ _ _ _)).trans
      (State.keepsThreads_carry _ _ _ _)).trans (State.keepsThreads_refreshCopy _ _ _)

/-! ### Soft errors -/

theorem State.keepsThreads_zeroUnit (s : State) (u : EccAt) : s.KeepsThreads (s.zeroUnit u) := by
  unfold State.zeroUnit
  split
  case h_6 => exact s.keepsThreads_modCore _ fun _ => ⟨rfl, rfl⟩
  all_goals exact State.keepsThreads_of_eq rfl rfl rfl

theorem State.keepsThreads_corrected (s : State) (u : EccAt) : s.KeepsThreads (s.corrected u) := by
  cases u <;> exact State.keepsThreads_of_eq rfl rfl rfl

theorem State.keepsThreads_readUnit (s : State) (u : EccAt) (a addr : Nat) (eng ma : Bool) :
    s.KeepsThreads (s.readUnit u a addr eng ma) := by
  unfold State.readUnit
  split
  · exact .refl s
  · extract_lets s1
    have h1 : s.KeepsThreads s1 := State.keepsThreads_of_eq rfl rfl rfl
    exact h1.trans (.ite ((s1.keepsThreads_zeroUnit u).trans (State.keepsThreads_owe _ _)) (s1.keepsThreads_corrected u))

theorem State.keepsThreads_readCopy (s : State) (cid line a addr : Nat) : s.KeepsThreads (s.readCopy cid line a addr) := by
  unfold State.readCopy
  exact .ite (.refl s) (s.keepsThreads_readUnit _ _ _ _ _)

theorem State.keepsThreads_releaseHold (s : State) (cid slot line : Nat) : s.KeepsThreads (s.releaseHold cid slot line) := by
  unfold State.releaseHold
  extract_lets s1
  have h1 : s.KeepsThreads s1 := by
    simp only [s1]
    split
    · exact .refl s
    · exact s.keepsThreads_modCore _ fun _ => ⟨rfl, rfl⟩
  refine h1.trans (s1.keepsThreads_modSlot _ fun sl => ?_)
  split <;> rfl

@[simp] theorem State.mem_releaseHold (s : State) (cid slot line : Nat) : (s.releaseHold cid slot line).mem = s.mem := by
  simp only [State.releaseHold, State.mem_modSlot]
  split <;> rfl

/-! ### Watches and breakpoints (R430 to R432) -/

/-- What the action of a watch leaves: it halts cores, and beside them changes clusters, fields and owed work. -/
structure State.Watched (s t : State) : Prop where
  cur : t.cur = s.cur
  slots : t.slots = s.slots
  mem : t.mem = s.mem
  core : ∀ k, t.core k = { s.core k with halted := (t.core k).halted }

theorem State.Watched.refl (s : State) : s.Watched s := ⟨rfl, rfl, rfl, fun _ => rfl⟩

theorem State.Watched.trans {s t u : State} (h : s.Watched t) (k : t.Watched u) : s.Watched u where
  cur := k.cur.trans h.cur
  slots := k.slots.trans h.slots
  mem := k.mem.trans h.mem
  core := fun n => (k.core n).trans (by rw [h.core n])

theorem State.watched_of_eq {s t : State} (hcur : t.cur = s.cur) (hslots : t.slots = s.slots) (hmem : t.mem = s.mem)
    (hcores : t.cores = s.cores) : s.Watched t :=
  ⟨hcur, hslots, hmem, fun k => by unfold State.core; rw [hcores]⟩

theorem State.watched_foldl {α : Type} {f : State → α → State} (hf : ∀ (s : State) a, s.Watched (f s a)) (l : List α) (s : State) :
    s.Watched (l.foldl f s) := by
  induction l generalizing s with
  | nil => exact .refl s
  | cons a l ih => exact (hf s a).trans (ih _)

theorem State.watched_haltCore (s : State) (cid : Nat) : s.Watched (s.haltCore cid) where
  cur := rfl
  slots := rfl
  mem := rfl
  core := fun k => by
    unfold State.haltCore
    rw [State.core_modCore]
    split
    · next h => rw [h]
    · rfl

theorem State.watched_haltCluster (s : State) (cl : Nat) : s.Watched (s.haltCluster cl) :=
  State.watched_foldl (fun s _ => s.watched_haltCore _) _ s

theorem State.watched_owe (s : State) (j : Job) : s.Watched (s.owe j) :=
  State.watched_of_eq (s.cur_owe j) (s.slots_owe j) (s.mem_owe j) (s.cores_owe j)

theorem State.watched_raiseTrigger (s : State) (a : Nat) : s.Watched (s.raiseTrigger a) := by
  unfold State.raiseTrigger
  split
  · exact State.watched_foldl (fun s _ => s.watched_owe _) _ s
  · exact .refl s

theorem State.watched_debugAct (s : State) (act pc : Nat) : s.Watched (s.debugAct act pc) := by
  unfold State.debugAct
  extract_lets cl core s1
  have h1 : s.Watched s1 := State.watched_of_eq rfl rfl rfl rfl
  refine h1.trans ?_
  split
  · exact s1.watched_haltCore _
  · exact (s1.watched_haltCluster cl).trans (State.watched_raiseTrigger _ _)
  · split <;> exact State.watched_of_eq rfl rfl rfl rfl
  · exact .refl s1

theorem State.watched_watchIf (s : State) (va : Nat) (isLoad isStore : Bool) (hit : Nat → Nat → Bool) :
    s.Watched (s.watchIf va isLoad isStore hit) := by
  unfold State.watchIf
  split
  · exact .refl s
  · split
    · exact s.watched_debugAct _ _
    · exact .refl s

theorem State.watched_watch (s : State) (va n : Nat) (isLoad isStore : Bool) : s.Watched (s.watch va n isLoad isStore) :=
  s.watched_watchIf va isLoad isStore _

theorem State.watched_watchStore (s : State) (va m : Nat) (cells : List Host.Cell) : s.Watched (s.watchStore va m cells) :=
  s.watched_watchIf va false true _

theorem State.Watched.keepsThreads {s t : State} (h : s.Watched t) : s.KeepsThreads t where
  cur := h.cur
  thread := fun k => by unfold State.thread State.slot; rw [h.slots]
  shared := fun k => by rw [h.core k]; exact ⟨rfl, rfl⟩

/-! ### Faults -/

theorem State.keepsThreads_sendRec (s : State) (field : Nat) (r : FaultRec) : s.KeepsThreads (s.sendRec field r) := by
  unfold State.sendRec
  extract_lets same b n more
  refine .ite ?_ (State.keepsThreads_of_eq rfl rfl rfl)
  unfold State.batchRec
  extract_lets cyc
  exact State.KeepsThreads.trans (t := s.modField field _) (State.keepsThreads_of_eq rfl rfl rfl)
    (State.keepsThreads_owe _ _)

theorem State.keepsThreads_joinFault (s : State) (cl ctx va : Nat) (k : Kind) (eng : Bool) (who : Issuer) :
    s.KeepsThreads (s.joinFault cl ctx va k eng who) := by
  unfold State.joinFault
  extract_lets page stage on b
  split
  · exact State.keepsThreads_of_eq rfl rfl rfl
  · clear_value b
    cases b with
    | nil => exact .refl s
    | cons r b => exact .ite (.refl s) (s.keepsThreads_sendRec _ _)

theorem State.keepsRegs_waitOn (s : State) (page : Nat) : s.KeepsRegs (s.waitOn page) [] :=
  s.keepsRegs_modTh ⟨rfl, rfl, rfl, rfl, fun _ _ => rfl, rfl, rfl, rfl, rfl, rfl, rfl, rfl⟩

end Sys2Proof.Machine

end

section
/-! SUPPORT. The checks of an address (R96, R97, R343, R352): what `State.resolve` answers by the state alone. -/

namespace Sys2Proof.Machine

/-! ### Threads that an access leaves as they are -/

/-- What is left of the issuing thread by the parts of an access that write none of its registers: its registers, its pc
and its context. -/
structure State.Undisturbed (s t : State) : Prop where
  regs : s.KeepsRegs t []
  pc : t.th.pc = s.th.pc
  ctx : t.th.ctx = s.th.ctx

theorem State.Undisturbed.cur {s t : State} (h : s.Undisturbed t) : t.cur = s.cur := h.regs.cur

theorem State.Undisturbed.trans {s t u : State} (h : s.Undisturbed t) (k : t.Undisturbed u) : s.Undisturbed u where
  regs := h.regs.trans k.regs
  pc := k.pc.trans h.pc
  ctx := k.ctx.trans h.ctx

theorem State.KeepsThreads.undisturbed {s t : State} (h : s.KeepsThreads t) : s.Undisturbed t :=
  ⟨h.keepsRegs, by rw [h.th_eq], by rw [h.th_eq]⟩

theorem State.Undisturbed.refl (s : State) : s.Undisturbed s := (State.KeepsThreads.refl s).undisturbed

theorem State.undisturbed_modTh (s : State) {f : Thread → Thread} (hf : s.th.KeepsRegs (f s.th)) (hpc : (f s.th).pc = s.th.pc)
    (hctx : (f s.th).ctx = s.th.ctx) : s.Undisturbed (s.modTh f) :=
  ⟨s.keepsRegs_modTh hf, by rw [State.th_modTh, hpc], by rw [State.th_modTh, hctx]⟩

/-! ### The translation of a page -/

theorem State.denied_eq_true_iff {s : State} {va : Nat} {k : Kind} :
    s.denied va k = true ↔ ∃ e, s.xlate (coreOf s.cur) s.th.ctx va k = some e ∧ e.grants k = false := by
  unfold State.denied
  cases s.xlate (coreOf s.cur) s.th.ctx va k <;> simp

theorem State.denied_eq_false_iff {s : State} {va : Nat} {k : Kind} :
    s.denied va k = false ↔ ∀ e, s.xlate (coreOf s.cur) s.th.ctx va k = some e → e.grants k = true := by
  unfold State.denied
  cases s.xlate (coreOf s.cur) s.th.ctx va k <;> simp

/-- R343: an access whose page resolves waits for it no more. -/
def State.unwait (s : State) (page : Nat) : State :=
  if s.th.waits.contains page then s.modTh (fun h => { h with waits := h.waits.filter (· != page) }) else s

theorem State.undisturbed_unwait (s : State) (page : Nat) : s.Undisturbed (s.unwait page) := by
  unfold State.unwait
  split
  · exact s.undisturbed_modTh ⟨rfl, rfl, rfl, rfl, fun _ _ => rfl, rfl, rfl, rfl, rfl, rfl, rfl, rfl⟩ rfl rfl
  · exact .refl s

theorem State.unwait_eq (s : State) (page : Nat) : s.unwait page = { s with slots := (s.unwait page).slots } := by
  unfold State.unwait
  split <;> rfl

section
variable {s : State} {va : Word} {k : Kind}

theorem State.resolvePage_denied (h : s.denied va.toNat k = true) : s.resolvePage va k = .trap tACCESS va := by
  unfold State.resolvePage
  exact if_pos h

theorem State.resolvePage_failed (hd : s.denied va.toNat k = false) (hf : va.toNat / 4096 ∈ s.th.failed) :
    s.resolvePage va k = .failed (va.toNat / 4096) va := by
  unfold State.resolvePage
  simp only [hd, Bool.false_eq_true, if_false, List.contains_eq_mem, hf, decide_true, if_true]

theorem State.resolvePage_pending (hd : s.denied va.toNat k = false) (hf : va.toNat / 4096 ∉ s.th.failed)
    (hp : (s.pending (va.toNat / 4096) || s.heldOn (va.toNat / 4096)) = true) : s.resolvePage va k =
      .nr [.faultPending (va.toNat / 4096)] ((s.waitOn (va.toNat / 4096)).joinPage va.toNat k) := by
  unfold State.resolvePage
  simp only [hd, Bool.false_eq_true, if_false, List.contains_eq_mem, hf, decide_false, hp, if_true]

theorem State.resolvePage_miss (hf : va.toNat / 4096 ∉ s.th.failed)
    (hp : (s.pending (va.toNat / 4096) || s.heldOn (va.toNat / 4096)) = false)
    (hx : s.xlate (coreOf s.cur) s.th.ctx va.toNat k = none) : s.resolvePage va k =
      .nr [.translation va.toNat k.w] ((s.waitOn (va.toNat / 4096)).owe
        (.walk (coreOf s.cur) s.th.ctx va.toNat k.code s.issuer false)) := by
  have hd : s.denied va.toNat k = false := State.denied_eq_false_iff.2 (by rw [hx]; nofun)
  unfold State.resolvePage
  simp only [hd, Bool.false_eq_true, if_false, List.contains_eq_mem, hf, decide_false, hp, hx]

theorem State.resolvePage_hit {e : TlbEntry} (hd : s.denied va.toNat k = false) (hf : va.toNat / 4096 ∉ s.th.failed)
    (hp : (s.pending (va.toNat / 4096) || s.heldOn (va.toNat / 4096)) = false)
    (hx : s.xlate (coreOf s.cur) s.th.ctx va.toNat k = some e) :
    s.resolvePage va k = .ok e (s.unwait (va.toNat / 4096)) := by
  unfold State.resolvePage State.unwait
  simp only [hd, Bool.false_eq_true, if_false, List.contains_eq_mem, hf, decide_false, hp, hx]

theorem State.resolve_noncanonical {n : Nat} (hc : canonical va = false) : s.resolve va n k = .trap tADDRESS va := by
  unfold State.resolve
  simp only [hc, Bool.not_false, if_true]

theorem State.resolve_misaligned {n : Nat} (hc : canonical va = true) (ha : va.toNat % n ≠ 0) :
    s.resolve va n k = .trap tMISALIGNED va := by
  unfold State.resolve
  simp only [hc, Bool.not_true, Bool.false_eq_true, if_false, if_pos ha]

theorem State.resolve_of_checks {n : Nat} (hc : canonical va = true) (ha : va.toNat % n = 0) :
    s.resolve va n k = s.resolvePage va k := by
  unfold State.resolve
  simp only [hc, Bool.not_true, Bool.false_eq_true, if_false, ha, ne_eq, not_true]

/-- R96: what stands where an address resolves. -/
theorem State.resolve_eq_ok {n : Nat} {e : TlbEntry} {t : State} (h : s.resolve va n k = .ok e t) :
    canonical va = true ∧ va.toNat % n = 0 ∧ s.denied va.toNat k = false ∧
      (s.pending (va.toNat / 4096) || s.heldOn (va.toNat / 4096)) = false ∧ s.resolvePage va k = .ok e t ∧
      t = s.unwait (va.toNat / 4096) := by
  have hc : canonical va = true := by
    rw [← Bool.not_eq_false]
    intro hc
    rw [State.resolve_noncanonical hc] at h
    exact nomatch h
  have ha : va.toNat % n = 0 := by
    by_contra ha
    rw [State.resolve_misaligned hc ha] at h
    exact nomatch h
  rw [State.resolve_of_checks hc ha] at h
  have hd : s.denied va.toNat k = false := by
    rw [← Bool.not_eq_true]
    intro hd
    rw [State.resolvePage_denied hd] at h
    exact nomatch h
  have hf : va.toNat / 4096 ∉ s.th.failed := fun hf => by
    rw [State.resolvePage_failed hd hf] at h
    exact nomatch h
  have hp : (s.pending (va.toNat / 4096) || s.heldOn (va.toNat / 4096)) = false := by
    rw [← Bool.not_eq_true]
    intro hp
    rw [State.resolvePage_pending hd hf hp] at h
    exact nomatch h
  refine ⟨hc, ha, hd, hp, h, ?_⟩
  cases hx : s.xlate (coreOf s.cur) s.th.ctx va.toNat k with
  | none =>
    rw [State.resolvePage_miss hf hp hx] at h
    exact nomatch h
  | some e' =>
    rw [State.resolvePage_hit hd hf hp hx] at h
    cases h
    rfl

end

/-- What the request of a walk leaves. -/
theorem State.owe_eq (s : State) (j : Job) : s.owe j = { s with due := (s.owe j).due } := by
  unfold State.owe
  split <;> rfl

/-- R343, R407: a thread that waits for a page joins its fault. -/
theorem State.keepsRegs_joinWait (s : State) (va : Nat) (k : Kind) :
    s.KeepsRegs ((s.waitOn (va / 4096)).joinPage va k) [] :=
  (s.keepsRegs_waitOn _).trans (State.keepsThreads_joinFault _ _ _ _ _ _ _).keepsRegs

end Sys2Proof.Machine

open Sys2Proof Sys2Proof.Machine Sys2Proof.Claims

/-- Settles O10: each answer of the checks is a lemma `State.resolvePage_…` of the page. -/
theorem addressChecks : Obligations.AddressChecks := by
  unfold Obligations.AddressChecks
  intro s va n k
  refine ⟨State.resolve_noncanonical, State.resolve_misaligned, fun hc ha => ?_⟩
  rw [State.resolve_of_checks hc ha]
  refine ⟨fun e hx hg => State.resolvePage_denied (State.denied_eq_true_iff.2 ⟨e, hx, hg⟩), fun hgrants => ?_⟩
  have hd : s.denied va.toNat k = false := State.denied_eq_false_iff.2 hgrants
  refine ⟨State.resolvePage_failed hd, fun hf hp => ?pending, fun hf hpend hheld => ?_⟩
  case pending => exact ⟨_, State.resolvePage_pending hd hf (by simpa using hp), s.keepsRegs_joinWait _ k⟩
  have hp : (s.pending (va.toNat / 4096) || s.heldOn (va.toNat / 4096)) = false := by rw [hpend, hheld]; rfl
  refine ⟨fun hx => ?miss, fun e hx => ?hit⟩
  case miss =>
    refine ⟨_, State.resolvePage_miss hf hp hx, (State.owe_eq _ _).trans ?_, ?_⟩
    · rw [State.slots_owe]; rfl
    · exact (s.keepsRegs_waitOn _).trans (State.keepsThreads_owe _ _).keepsRegs
  case hit => exact ⟨_, State.resolvePage_hit hd hf hp hx, s.unwait_eq _, (s.undisturbed_unwait _).regs⟩

end

section
/-! SUPPORT. Scalar loads and stores of ordinary memory (R96 to R100, R208, R232 to R236): what an access whose address has
resolved does, and what it leaves. -/

namespace Sys2Proof.Machine

open Sys2Proof.Claims

/-! ### The rows of the table of accesses -/

/-- R52: the extension of a loaded value of the width of its code. -/
theorem szExtend_eq_extendBy {z : BitVec 3} (hz : z ≠ 7#3) {v : Nat} (hv : v < 2 ^ (8 * 2 ^ (z.toNat % 4))) :
    szExtend z.toNat v = extendBy z v := by
  have hcases : ∀ z : BitVec 3, z ≠ 7#3 → z = 0 ∨ z = 1 ∨ z = 2 ∨ z = 3 ∨ z = 4 ∨ z = 5 ∨ z = 6 := by decide
  rcases hcases z hz with rfl | rfl | rfl | rfl | rfl | rfl | rfl
  · rfl
  · rfl
  · rfl
  · rfl
  · exact congrArg w64 (Nat.mod_eq_of_lt hv)
  · exact congrArg w64 (Nat.mod_eq_of_lt hv)
  · exact congrArg w64 (Nat.mod_eq_of_lt hv)

/-- A row of the table of accesses is run by a load. -/
theorem exec_load {i : Instr} {p : AccessSpec} (s : State) (hrow : accessSpec i = some p) (hwf : i.wf = true)
    (hload : p.store = false) : ∃ sz pol, exec i s = .next (opLoad sz p.strong p.off pol p.base p.reg s p.size) ∧
      szWidth sz = p.width ∧ ∀ v < 2 ^ (8 * p.width), szExtend sz v = p.extend v := by
  cases i
  case ldW | ldWN => cases hrow; exact ⟨2, _, rfl, rfl, fun _ _ => rfl⟩
  case ldD | ldDN | ldDNSp => cases hrow; exact ⟨3, _, rfl, rfl, fun _ _ => rfl⟩
  case ldMn p q z o a d =>
    cases hrow
    exact ⟨z.toNat, _, rfl, rfl, fun v hv => szExtend_eq_extendBy (by simpa [Instr.wf, Instr.wfIn] using hwf) hv⟩
  case stW | stWN | stD | stDN | stDNSp | stMn => cases hrow; cases hload
  all_goals cases hrow

/-- A row of the table of accesses is run by a store. -/
theorem exec_store {i : Instr} {p : AccessSpec} (s : State) (hrow : accessSpec i = some p) (hstore : p.store = true) :
    ∃ sz pol, exec i s = .next (opStore sz p.strong p.off pol p.base p.reg s p.size) ∧ szWidth sz = p.width := by
  cases i
  case stW | stWN => cases hrow; exact ⟨2, _, rfl, rfl⟩
  case stD | stDN | stDNSp => cases hrow; exact ⟨3, _, rfl, rfl⟩
  case stMn p q z o a d =>
    cases hrow
    have hz : z.toNat % 4 = z.toNat := Nat.mod_eq_of_lt z.isLt
    exact ⟨z.toNat, _, rfl, congrArg (2 ^ ·) hz⟩
  case ldW | ldWN | ldD | ldDN | ldDNSp | ldMn => cases hrow; cases hstore
  all_goals cases hrow

/-! ### Bytes of a value -/

theorem length_leBytes (v n : Nat) : (leBytes v n).length = n := by
  induction n generalizing v with
  | zero => rfl
  | succ n ih => rw [leBytes, List.length_cons, ih]

theorem getElem?_leBytes (v : Nat) {n k : Nat} (hk : k < n) : (leBytes v n)[k]? = some (byteOf v k) := by
  induction n generalizing v k with
  | zero => omega
  | succ n ih =>
    cases k with
    | zero => simp [leBytes, byteOf]
    | succ k =>
      rw [leBytes, List.getElem?_cons_succ, ih _ (by omega), byteOf, byteOf, Nat.div_div_eq_div_mul, Nat.pow_succ']

/-- The addresses and bytes of a run of cells. -/
theorem cellsAt_eq (a : Nat) (bs : List Byte) : cellsAt a bs = (bs.zipIdx).map (fun p => (a + p.2, p.1)) := by
  suffices h : ∀ k, cellsAt (a + k) bs = (bs.zipIdx k).map (fun p => (a + p.2, p.1)) from h 0
  intro k
  induction bs generalizing k with
  | nil => rfl
  | cons b bs ih => rw [cellsAt, List.zipIdx_cons, List.map_cons, ← ih (k + 1)]; rfl

/-- The bytes of a scalar store are all present. -/
theorem presentCells_map_some (bs : List Byte) (a : Nat) : presentCells (bs.map some) a = cellsAt a bs := by
  rw [cellsAt_eq, presentCells, List.zipIdx_map, List.filterMap_map, ← List.filterMap_eq_map]
  rfl

/-- The byte at an address of a run of cells. -/
theorem find?_cellsAt (a : Nat) (bs : List Byte) (x : Nat) : (cellsAt a bs).find? (fun c => c.1 == x) =
    if a ≤ x then (bs[x - a]?).map (fun b => (x, b)) else none := by
  induction bs generalizing a with
  | nil => simp [cellsAt]
  | cons b bs ih =>
    rw [cellsAt, List.find?_cons]
    rcases lt_trichotomy a x with h | rfl | h
    · have hne : (a == x) = false := by simpa using h.ne
      have hsub : x - a = (x - (a + 1)) + 1 := by omega
      rw [hne]
      simp only [ih]
      rw [if_pos h.le, if_pos (Nat.succ_le_of_lt h), hsub, List.getElem?_cons_succ]
    · simp
    · have hne : (a == x) = false := by simpa using h.ne'
      rw [hne]
      simp only [ih]
      rw [if_neg (by omega), if_neg (by omega)]

/-- R11: the stored byte of a value at an address, if the store covers it. -/
theorem find?_store (a v n x : Nat) : (cellsAt a (leBytes v n)).find? (fun c => c.1 == x) =
    if a ≤ x ∧ x < a + n then some (x, byteOf v (x - a)) else none := by
  rw [find?_cellsAt]
  by_cases ha : a ≤ x
  · by_cases hx : x < a + n
    · rw [if_pos ha, if_pos ⟨ha, hx⟩, getElem?_leBytes v (by omega)]; rfl
    · have hnone : (leBytes v n)[x - a]? = none := by rw [List.getElem?_eq_none_iff, length_leBytes]; omega
      rw [if_pos ha, if_neg (fun h => hx h.2), hnone]; rfl
  · rw [if_neg ha, if_neg (fun h => ha h.1)]

/-- A byte reads as the last of the cells written to its address, or as before. -/
theorem Memory.read_writeAll_cellsAt (m : List Host.Cell) (a : Nat) (bs : List Byte) (x : Nat) :
    Memory.read (Memory.writeAll m (cellsAt a bs)) x =
      ((cellsAt a bs).find? (fun c => c.1 == x)).elim (Memory.read m x) (·.2) := by
  induction bs generalizing a m with
  | nil => rfl
  | cons b bs ih =>
    rw [cellsAt, Memory.writeAll, ih, List.find?_cons, Memory.read_write]
    by_cases h : a = x
    · subst h
      have hnone : (cellsAt (a + 1) bs).find? (fun c => c.1 == a) = none := by rw [find?_cellsAt, if_neg (by omega)]
      simp [hnone]
    · have hne : (a == x) = false := by simpa using h
      simp only [hne, if_neg (Ne.symm h)]

/-- R11: memory after the store of a value. -/
theorem Memory.read_store (m : List Host.Cell) (a v n x : Nat) :
    Memory.read (Memory.writeAll m (cellsAt a (leBytes v n))) x =
      if a ≤ x ∧ x < a + n then byteOf v (x - a) else Memory.read m x := by
  rw [Memory.read_writeAll_cellsAt, find?_store]
  split <;> rfl

/-! ### What precedes an access of a line -/

theorem State.undisturbed_performDrains (s : State) : s.Undisturbed (s.performDrains s.cur) := by
  unfold State.performDrains
  refine State.Undisturbed.trans (t := s.modTh (fun h => { h with drains := [] })) ?_
    (State.keepsThreads_foldl (fun s d => s.keepsThreads_performPush _ _ d) _ _).undisturbed
  exact s.undisturbed_modTh ⟨rfl, rfl, rfl, rfl, fun _ _ => rfl, rfl, rfl, rfl, rfl, rfl, rfl, rfl⟩ rfl rfl

theorem State.undisturbed_combReady (s : State) (line : Nat) : s.Undisturbed (combReady s line) := by
  unfold combReady
  split
  · exact s.undisturbed_performDrains
  · exact .refl s

theorem State.drainOwn_eq (s : State) (line : Nat) :
    s.drainOwn line = (combReady s line).drainComb (coreOf s.cur) line := by
  have hcur := (s.undisturbed_combReady line).cur
  show (combReady s line).drainComb (coreOf (combReady s line).cur) line = _
  rw [hcur]

theorem State.undisturbed_drainOwn (s : State) (line : Nat) : s.Undisturbed (s.drainOwn line) := by
  rw [State.drainOwn_eq]
  exact (s.undisturbed_combReady line).trans (State.keepsThreads_drainComb _ _ _).undisturbed

/-! ### What a load leaves with its thread -/

theorem State.undisturbed_acquire (s : State) (rels : List Rel) : s.Undisturbed (s.acquire rels) :=
  ⟨(s.onlyRegs_acquire rels).keepsRegs, s.pc_acquire rels, by rw [s.readsOnly_acquire rels]⟩

theorem State.undisturbed_loaded (s : State) (c : L1Line) (m n : Nat) (strong : Bool) :
    s.Undisturbed (s.loaded c m n strong) := by
  unfold State.loaded
  extract_lets rels k s1 new
  have h1 : s.Undisturbed s1 := by
    simp only [s1]
    split
    · exact s.undisturbed_modTh ⟨rfl, rfl, rfl, rfl, fun _ _ => rfl, rfl, rfl, rfl, rfl, rfl, rfl, rfl⟩ rfl rfl
    · exact .refl s
  refine h1.trans ?_
  split
  · refine State.Undisturbed.trans ?_ (State.undisturbed_acquire _ _)
    exact s1.undisturbed_modTh ⟨rfl, rfl, rfl, rfl, fun _ _ => rfl, rfl, rfl, rfl, rfl, rfl, rfl, rfl⟩ rfl rfl
  · split
    · exact .refl s1
    · exact s1.undisturbed_modTh ⟨rfl, rfl, rfl, rfl, fun _ _ => rfl, rfl, rfl, rfl, rfl, rfl, rfl, rfl⟩ rfl rfl

theorem State.mem_acquire (s : State) (rels : List Rel) : (s.acquire rels).mem = s.mem := by
  unfold State.acquire
  split <;> rfl

theorem State.mem_loaded (s : State) (c : L1Line) (m n : Nat) (strong : Bool) : (s.loaded c m n strong).mem = s.mem := by
  unfold State.loaded
  extract_lets rels k s1 new
  have h1 : s1.mem = s.mem := by
    simp only [s1]
    split <;> rfl
  split
  · rw [State.mem_acquire, State.mem_modTh, h1]
  · split
    · exact h1
    · rw [State.mem_modTh, h1]

/-- R134, R432: what the end of a load leaves. -/
def State.endLoad (s : State) (va m n : Nat) (c : L1Line) (strong : Bool) : State :=
  ((s.releaseHold (coreOf s.cur) (s.cur % 16) (m / 64)).watch va n true false).loaded c m n strong

theorem State.undisturbed_endLoad (s : State) (va m n : Nat) (c : L1Line) (strong : Bool) :
    s.Undisturbed (s.endLoad va m n c strong) :=
  ((s.keepsThreads_releaseHold _ _ _).trans (State.watched_watch _ _ _ _ _).keepsThreads).undisturbed.trans
    (State.undisturbed_loaded _ _ _ _ _)

theorem State.mem_endLoad (s : State) (va m n : Nat) (c : L1Line) (strong : Bool) :
    (s.endLoad va m n c strong).mem = s.mem := by
  unfold State.endLoad
  rw [State.mem_loaded, (State.watched_watch _ _ _ _ _).mem, State.mem_releaseHold]

end Sys2Proof.Machine

end

section
/-! SUPPORT. What a load, a weak store and a strong store of ordinary memory leave (R96 to R100, R208, R232 to R236). -/

namespace Sys2Proof.Machine

open Sys2Proof.Claims

/-! ### The accesses -/

/-- R96, R232 to R236: a load of a line of which a usable copy is there. -/
theorem State.loadLocal_of {s : State} {va m n : Nat} {strong : Bool} {c c' : L1Line} {s4 : State}
    (hup : s.ownUpdate (m / 64) = false)
    (hc : (s.drainOwn (m / 64)).copyFor (coreOf s.cur) (s.cur % 16) (m / 64) s.th.pc = some c)
    (hu : (s.drainOwn (m / 64)).usable c strong = true)
    (hs4 : s4 = (s.drainOwn (m / 64)).readCopy (coreOf s.cur) (m / 64) s.th.ctx va)
    (hc' : c' = (s4.copyFor (coreOf s.cur) (s.cur % 16) (m / 64) s.th.pc).getD c) :
    s.loadLocal va m n strong = .ok (lineBytes c'.data m n) (s4.endLoad va m n c' strong) := by
  have hdrain := s.undisturbed_drainOwn (m / 64)
  have hcur : s4.cur = s.cur := by rw [hs4, (State.keepsThreads_readCopy _ _ _ _ _).cur, hdrain.cur]
  unfold State.loadLocal State.endLoad
  simp only [hup, Bool.false_eq_true, if_false, hc, hu, Bool.not_true, hdrain.ctx, ← hs4, ← hc', hcur]

/-- R96: a load whose address resolves. -/
theorem State.loadMem_of {s s2 : State} {va : Word} {n m : Nat} {strong : Bool} {e : TlbEntry}
    (hres : s.resolve va n (Kind.ofCode 0) = .ok e s2) (hm : s2.machineOf (e.sys va.toNat) = some m) :
    s.loadMem va n n strong = s2.loadLocal va.toNat m n strong := by
  unfold State.loadMem State.loadAt
  rw [hres]
  simp only [Acc.bind, hm]

/-- R232: the state in which a grant has been used. -/
def State.useGrant (s : State) (line : Nat) : State :=
  s.modMe (fun k => { k with grants := k.grants.filter (fun g => !(g.1 == s.cur % 16 && g.2.1 == line)) })

/-- R98, R232: a strong store whose address resolves and that has its grant. -/
theorem State.storeStrong_of {s s2 : State} {va : Word} {n v m : Nat} {e : TlbEntry}
    (hres : s.resolve va n (Kind.ofCode 1) = .ok e s2) (hm : s2.machineOf (e.sys va.toNat) = some m)
    (hup : s2.ownUpdate (m / 64) = false)
    (hg : ∃ g ∈ (s2.drainOwn (m / 64)).me.grants, g.1 = s2.cur % 16 ∧ g.2.1 = m / 64) :
    s.storeMem va n v true = .ok ()
      (((s2.drainOwn (m / 64)).useGrant (m / 64)).performStrong va.toNat m (cellsAt m (leBytes v n))) := by
  have hcur := (s2.undisturbed_drainOwn (m / 64)).cur
  have hany : (s2.drainOwn (m / 64)).me.grants.any (fun g => g.1 == s2.cur % 16 && g.2.1 == m / 64) = true := by
    obtain ⟨g, hmem, h1, h2⟩ := hg
    exact List.any_eq_true.2 ⟨g, hmem, by rw [h1, h2, beq_self_eq_true, beq_self_eq_true]; rfl⟩
  unfold State.storeMem State.storeStrong
  rw [if_pos rfl, hres]
  simp only [Acc.bind, State.storeAt, hm, hup, Bool.false_eq_true, if_false, hany, if_true, presentCells_map_some,
    State.useGrant, hcur]

/-- R208: the combining buffer of a core after a store to a line of it, or to one that takes a new entry. -/
def combined (l : List CombEntry) (line now who : Nat) (cells : List Host.Cell) (rels : List Rel) : List CombEntry :=
  if l.any (fun e => e.line == line) then updWhere l (fun e => e.line == line) (fun e => e.add who cells rels)
  else l ++ [({ line := line, bytes := [], since := now, writers := [] } : CombEntry).add who cells rels]

/-- R208: the state in which a store has entered the combining buffer. -/
def State.entersComb (s : State) (line : Nat) (cells : List Host.Cell) (rels : List Rel) : State :=
  s.modMe (fun k => { k with comb := combined k.comb line s.me.cycle s.cur cells rels })

theorem State.modMe_congr {s : State} {f g : Core → Core} (h : f s.me = g s.me) : s.modMe f = s.modMe g :=
  congrArg (fun k : Core => ({ s with cores := s.cores.put (coreOf s.cur) k } : State)) h

/-- R208: a weak store that finds its line, or room, in the combining buffer. -/
theorem State.combine_of {s : State} {va m : Nat} {cells : List Host.Cell}
    (hroom : (∃ x ∈ (combReady s (m / 64)).me.comb, x.line = m / 64) ∨ (combReady s (m / 64)).me.comb.length < 16) :
    s.combine va m cells = .ok ()
      (((combReady s (m / 64)).entersComb (m / 64) cells s.th.fences).watchStore va m cells) := by
  have hcur := (s.undisturbed_combReady (m / 64)).cur
  have hdef : combReady s (m / 64) =
    if s.th.drains.any (fun d => d.cells.any (fun c => c.1 / 64 == m / 64)) then s.performDrains s.cur else s := rfl
  unfold State.combine
  simp only [← hdef]
  by_cases hany : (combReady s (m / 64)).me.comb.any (fun e => e.line == m / 64) = true
  · rw [if_pos hany]
    refine congrArg (fun t : State => Acc.ok () (t.watchStore va m cells)) (State.modMe_congr ?_)
    simp only [combined, if_pos hany, hcur]
  · have hlen : (combReady s (m / 64)).me.comb.length < 16 := hroom.resolve_left fun ⟨x, hx, hline⟩ =>
      hany (List.any_eq_true.2 ⟨x, hx, by rw [hline, beq_self_eq_true]⟩)
    rw [if_neg hany, if_pos hlen]
    refine congrArg (fun t : State => Acc.ok () (t.watchStore va m cells)) (State.modMe_congr ?_)
    simp only [combined, if_neg hany, hcur]

/-- R98, R208: a weak store whose address resolves within this device. -/
theorem State.storeWeak_of {s s2 : State} {va : Word} {n v m : Nat} {e : TlbEntry}
    (hres : s.resolve va n (Kind.ofCode 1) = .ok e s2) (hm : s2.machineOf (e.sys va.toNat) = some m)
    (hup : s2.ownUpdate (m / 64) = false) :
    s.storeMem va n v false = s2.combine va.toNat m (cellsAt m (leBytes v n)) := by
  obtain ⟨hc, ha, hd, hp, hpage, -⟩ := State.resolve_eq_ok hres
  unfold State.storeMem State.storeWeak
  simp only [Bool.false_eq_true, if_false, hc, Bool.not_true, ha, ne_eq, not_true, hd, hp, hpage, Acc.bind, hm, hup,
    presentCells_map_some]

/-! ### What the stores leave -/

theorem State.undisturbed_useGrant (s : State) (line : Nat) : s.Undisturbed (s.useGrant line) := by
  unfold State.useGrant State.modMe
  refine (s.keepsThreads_modCore _ ?_).undisturbed
  exact fun _ => ⟨rfl, rfl⟩

theorem State.undisturbed_performStrong (s : State) (va m : Nat) (cells : List Host.Cell) :
    s.Undisturbed (s.performStrong va m cells) := by
  unfold State.performStrong
  extract_lets line cid rels s1 t
  have h1 : s.Undisturbed s1 := (((s.keepsThreads_performWrite _ _ _ _).trans (State.keepsThreads_carry _ _ _ _)).trans
    (State.keepsThreads_lookup _ _ _)).undisturbed
  refine h1.trans (.trans ?_
    ((State.keepsThreads_refreshCopy _ _ _).trans (State.watched_watchStore _ _ _ _).keepsThreads).undisturbed)
  exact s1.undisturbed_modTh ⟨rfl, rfl, rfl, rfl, fun _ _ => rfl, rfl, rfl, rfl, rfl, rfl, rfl, rfl⟩ rfl rfl

theorem State.mem_performStrong (s : State) (va m : Nat) (cells : List Host.Cell) :
    (s.performStrong va m cells).mem = Memory.writeAll s.mem cells := by
  unfold State.performStrong
  extract_lets line cid rels s1 t
  rw [(State.watched_watchStore _ _ _ _).mem, State.mem_refreshCopy, State.mem_modTh]
  simp only [s1, State.mem_lookup, State.mem_carry, State.mem_performWrite]

theorem State.undisturbed_entersComb (s : State) (line : Nat) (cells : List Host.Cell) (rels : List Rel) :
    s.Undisturbed (s.entersComb line cells rels) := by
  unfold State.entersComb State.modMe
  refine (s.keepsThreads_modCore _ ?_).undisturbed
  exact fun _ => ⟨rfl, rfl⟩

/-! ### What a core reads of its combining buffer -/

/-- R208: the byte at an address among the entries of a buffer for a line. -/
def combByte (l : List CombEntry) (line x : Nat) : Option Host.Cell :=
  ((l.filter (fun e => e.line == line)).flatMap (·.bytes)).find? (fun c => c.1 == x)

theorem combByte_cons (e : CombEntry) (l : List CombEntry) (line x : Nat) : combByte (e :: l) line x =
    if e.line = line then (e.bytes.find? (fun c => c.1 == x)).or (combByte l line x) else combByte l line x := by
  unfold combByte
  rw [List.filter_cons]
  by_cases h : e.line = line
  · rw [if_pos (by rw [h, beq_self_eq_true]), if_pos h, List.flatMap_cons, List.find?_append]
  · rw [if_neg (by simpa using h), if_neg h]

/-- R208: a stored byte stands before what the entry held of its address. -/
theorem CombEntry.find?_add (e : CombEntry) (who : Nat) (cells : List Host.Cell) (rels : List Rel) (x : Nat) :
    (e.add who cells rels).bytes.find? (fun c => c.1 == x) =
      (cells.find? (fun c => c.1 == x)).or (e.bytes.find? (fun c => c.1 == x)) := by
  show (e.bytes.filter (fun b => !cells.any (fun q => q.1 == b.1)) ++ cells).find? _ = _
  rw [List.find?_append, List.find?_filter]
  cases hc : cells.find? (fun c => c.1 == x) with
  | some c =>
    have hany : cells.any (fun q => q.1 == x) = true := List.any_eq_true.2
      ⟨c, List.mem_of_find?_eq_some hc, List.find?_some (p := fun c : Host.Cell => c.1 == x) hc⟩
    rw [List.find?_eq_none.2, Option.none_or, Option.some_or]
    rintro b - hb
    rw [decide_eq_true_eq, beq_iff_eq] at hb
    obtain ⟨hb, rfl⟩ := hb
    rw [hany] at hb
    exact nomatch hb
  | none =>
    have hany : ∀ b : Host.Cell, (b.1 == x) = true → cells.any (fun q => q.1 == b.1) = false := fun b hb => by
      rw [beq_iff_eq.1 hb, ← Bool.not_eq_true, List.any_eq_true]
      rintro ⟨q, hq, hx⟩
      exact List.find?_eq_none.1 hc q hq hx
    rw [Option.or_none, Option.none_or]
    congr 1
    funext b
    cases hb : b.1 == x with
    | false => simp
    | true => simp [hany b hb]

theorem CombEntry.line_add (e : CombEntry) (who : Nat) (cells : List Host.Cell) (rels : List Rel) :
    (e.add who cells rels).line = e.line := rfl

theorem combByte_append (l l' : List CombEntry) (line x : Nat) :
    combByte (l ++ l') line x = (combByte l line x).or (combByte l' line x) := by
  unfold combByte
  rw [List.filter_append, List.flatMap_append, List.find?_append]

theorem combByte_none_of_not_any {l : List CombEntry} {line : Nat} (h : ¬ l.any (fun e => e.line == line) = true) (x : Nat) :
    combByte l line x = none := by
  have hnil : l.filter (fun e => e.line == line) = [] :=
    List.filter_eq_nil_iff.2 fun e he hline => h (List.any_eq_true.2 ⟨e, he, hline⟩)
  unfold combByte
  rw [hnil]
  rfl

/-- R208: a store to the entries of its line. -/
theorem combByte_updWhere (l : List CombEntry) (line who : Nat) (cells : List Host.Cell) (rels : List Rel) (line' x : Nat) :
    combByte (updWhere l (fun e => e.line == line) (fun e => e.add who cells rels)) line' x =
      if line' = line ∧ l.any (fun e => e.line == line) = true then
        (cells.find? (fun c => c.1 == x)).or (combByte l line' x)
      else combByte l line' x := by
  induction l with
  | nil => simp [updWhere]
  | cons e l ih =>
    have hcons : updWhere (e :: l) (fun e => e.line == line) (fun e => e.add who cells rels) =
        (if e.line = line then e.add who cells rels else e) ::
          updWhere l (fun e => e.line == line) (fun e => e.add who cells rels) := by
      simp [updWhere]
    rw [hcons, combByte_cons, combByte_cons, ih]
    by_cases he : e.line = line
    · simp only [he, if_true, CombEntry.line_add, CombEntry.find?_add, List.any_cons, beq_self_eq_true, Bool.true_or,
        and_true]
      by_cases hl : line' = line
      · subst hl
        cases cells.find? (fun c => c.1 == x) <;> simp
      · simp only [hl, false_and, if_false, Ne.symm hl]
    · have hany : ((e.line == line) || l.any (fun e => e.line == line)) = l.any (fun e => e.line == line) := by simp [he]
      simp only [he, if_false, List.any_cons, hany]
      by_cases hl : e.line = line'
      · have hne : line' ≠ line := fun h => he (hl.trans h)
        simp only [hl, if_true, hne, false_and, if_false]
      · simp only [hl, if_false]

/-- R208: what a core reads of its buffer after a store: the stored byte of an address, or what it read before. -/
theorem combByte_combined {l : List CombEntry} {line now who : Nat} {cells : List Host.Cell} {rels : List Rel}
    {line' x : Nat} (hcells : line' ≠ line → cells.find? (fun c => c.1 == x) = none) :
    combByte (combined l line now who cells rels) line' x =
      (cells.find? (fun c => c.1 == x)).or (combByte l line' x) := by
  unfold combined
  split
  · next hany =>
    rw [combByte_updWhere]
    by_cases hl : line' = line
    · rw [if_pos ⟨hl, hany⟩]
    · rw [if_neg (fun h => hl h.1), hcells hl, Option.none_or]
  · next hany =>
    rw [combByte_append, combByte_cons, CombEntry.line_add]
    by_cases hl : line' = line
    · rw [hl, combByte_none_of_not_any hany, if_pos rfl, CombEntry.find?_add]
      simp [combByte]
    · rw [if_neg (Ne.symm hl), hcells hl]
      simp [combByte]

/-- The byte of an address as a core reads it: of its combining buffer, or else of memory. -/
theorem byteFor_eq (s : State) (cid x : Nat) :
    byteFor s cid x = (combByte (s.core cid).comb (x / 64) x).elim (s.byte x) (·.2) := by
  unfold byteFor
  show (match combByte (s.core cid).comb (x / 64) x with | some c => c.2 | none => _) = _
  cases combByte (s.core cid).comb (x / 64) x <;> rfl

end Sys2Proof.Machine

end

section
/-! SUPPORT. What a scalar access leaves once it completes (R96 to R100, R208, R232): the registers, the pc and memory. -/

namespace Sys2Proof.Machine

/-! ### Ends -/

/-- What an instruction that has left its registers alone leaves once it goes on. -/
theorem State.Undisturbed.advance {s q : State} (h : s.Undisturbed q) (size : Nat) :
    (q.advance size).goesOn (s.th.pc + w64 size) ∧ s.KeepsRegs (q.advance size) [] := by
  refine ⟨?_, h.regs.trans (q.onlyRegs_advance size).keepsRegs⟩
  rw [← h.pc]
  exact q.goesOn_advance size

/-- What one that then writes a register leaves. -/
theorem State.Undisturbed.setX_advance {s q : State} (h : s.Undisturbed q) (d : BitVec 6) (v : Word) (size : Nat) :
    ((q.setX d v).advance size).xr d = v ∧ ((q.setX d v).advance size).goesOn (s.th.pc + w64 size) ∧
      s.KeepsRegs ((q.setX d v).advance size) [d] ∧ ∀ a, ((q.setX d v).advance size).byte a = q.byte a := by
  have hadv := (q.setX d v).onlyRegs_advance size
  refine ⟨?_, ?_, (h.regs.trans (q.onlyRegs_setX d v).keepsRegs).trans hadv.keepsRegs, fun a => ?_⟩
  · rw [hadv.regs d List.not_mem_nil, State.xr_setX, if_pos rfl]
  · rw [← h.pc, ← State.pc_setX q d v]
    exact State.goesOn_advance _ size
  · rw [hadv.memory, (q.onlyRegs_setX d v).memory]

end Sys2Proof.Machine

namespace Sys2Proof.Claims

open Sys2Proof.Machine

theorem Use.undisturbed_start (u : Use) (s : State) : s.Undisturbed (u.start s) :=
  ⟨(u.onlyRegs_start s).keepsRegs, u.pc_start s, by rw [u.readsOnly_start s]⟩

theorem AccessSpec.undisturbed_begun (p : AccessSpec) (s : State) : s.Undisturbed (p.begun s) :=
  Use.undisturbed_start _ s

/-- The state in which an address that resolves has resolved. -/
theorem AccessSpec.undisturbed_resolved {p : AccessSpec} {s s2 : State} {va : Word} {n : Nat} {k : Kind} {e : TlbEntry}
    (hres : (p.begun s).resolve va n k = .ok e s2) : s.Undisturbed s2 := by
  obtain ⟨-, -, -, -, -, rfl⟩ := State.resolve_eq_ok hres
  exact (p.undisturbed_begun s).trans (State.undisturbed_unwait _ _)

/-! ### The run of an access -/

section
variable {i : Instr} {p : AccessSpec} {s : State} (hrow : accessSpec i = some p) (hready : p.ready s)
include hrow hready

/-- R96: a load with its checks passed. -/
theorem exec_load_ok (hwf : i.wf = true) (hload : p.store = false) {v : Nat} {t : State} (hv : v < 2 ^ (8 * p.width))
    (ht : (p.begun s).loadMem (p.addr s) p.width p.width p.strong = .ok v t) :
    exec i s = .next ((t.setX p.reg (p.extend v)).advance p.size) := by
  obtain ⟨sz, pol, hexec, hwidth, hext⟩ := exec_load s hrow hwf hload
  obtain ⟨hn, ha, hl⟩ := hready
  have hreads : p.reads = [p.base] := by simp [AccessSpec.reads, hload]
  have hwrites : p.writes = [p.reg] := by simp [AccessSpec.writes, hload]
  have hbegun : (memUse pol [p.base] [p.reg] p.size).start s = p.begun s := by
    unfold AccessSpec.begun
    rw [hreads, hwrites]
    rfl
  rw [hreads] at hn ha
  rw [hwrites] at hn
  rw [hexec, opLoad, Use.run_of (memUse pol [p.base] [p.reg] p.size) s _ nofun nofun hn (fun _ => hl) ha, Use.xr_start, hbegun, hwidth]
  show Host.Outcome.next (Use.finish _ s (((p.begun s).loadMem (p.addr s) _ _ _).res _ _)) = _
  rw [ht, ← hext v hv]
  rfl

/-- R96: a store with its checks passed. -/
theorem exec_store_ok (hstore : p.store = true) {t : State}
    (ht : (p.begun s).storeMem (p.addr s) p.width (s.xr p.reg).toNat p.strong = .ok () t) :
    exec i s = .next (t.advance p.size) := by
  obtain ⟨sz, pol, hexec, hwidth⟩ := exec_store s hrow hstore
  obtain ⟨hn, ha, hl⟩ := hready
  have hreads : p.reads = [p.base, p.reg] := by simp [AccessSpec.reads, hstore]
  have hwrites : p.writes = [] := by simp [AccessSpec.writes, hstore]
  have hbegun : ((memUse pol [p.base, p.reg] [] p.size).carries p.base [p.reg]).start s = p.begun s := by
    unfold AccessSpec.begun
    rw [hreads, hwrites]
    rfl
  rw [hreads] at hn ha
  rw [hwrites] at hn
  rw [hexec, opStore, Use.run_of ((memUse pol [p.base, p.reg] [] p.size).carries p.base [p.reg]) s _ nofun nofun hn
    (fun _ => hl) ha, Use.xr_start, Use.xr_start, hbegun, hwidth]
  show Host.Outcome.next (Use.finish _ s (((p.begun s).storeMem (p.addr s) _ _ _).res _ _)) = _
  rw [ht]
  rfl

end

theorem lineBytes_lt (d : BitVec 512) (off n : Nat) : lineBytes d off n < 2 ^ (8 * n) :=
  Nat.mod_lt _ (Nat.two_pow_pos _)

/-- R11: no byte of a store within a line is of another line. -/
theorem find?_store_of_line_ne {m n v x : Nat} (hin : m % 64 + n ≤ 64) (hne : x / 64 ≠ m / 64) :
    (cellsAt m (leBytes v n)).find? (fun c => c.1 == x) = none := by
  rw [find?_store, if_neg]
  omega

theorem State.comb_entersComb (s : State) (line : Nat) (cells : List Host.Cell) (rels : List Rel) :
    ((s.entersComb line cells rels).core (coreOf s.cur)).comb =
      combined (s.core (coreOf s.cur)).comb line s.me.cycle s.cur cells rels := by
  unfold State.entersComb State.modMe
  rw [State.core_modCore, if_pos rfl]

/-- R208: a core reads the bytes of a weak store as soon as the store is in its combining buffer. -/
theorem byteFor_combine (s : State) {va m n v size : Nat} {rels : List Rel} (hin : m % 64 + n ≤ 64) (x : Nat) :
    byteFor (((s.entersComb (m / 64) (cellsAt m (leBytes v n)) rels).watchStore va m (cellsAt m (leBytes v n))).advance size)
        (coreOf s.cur) x =
      if m ≤ x ∧ x < m + n then byteOf v (x - m) else byteFor s (coreOf s.cur) x := by
  have hwatched := State.watched_watchStore (s.entersComb (m / 64) (cellsAt m (leBytes v n)) rels) va m
    (cellsAt m (leBytes v n))
  rw [byteFor_eq, byteFor_eq]
  simp only [State.advance, State.core_modTh, State.byte, State.mem_modTh]
  rw [hwatched.core, hwatched.mem]
  dsimp only
  rw [State.comb_entersComb, combByte_combined (find?_store_of_line_ne hin), find?_store]
  split <;> rfl

end Sys2Proof.Claims

open Sys2Proof Sys2Proof.Machine Sys2Proof.Claims

/-- Settles O6: the load ends as `State.loadLocal_of` says, and no step of it disturbs another register. -/
theorem loadComplete : Obligations.LoadComplete := by
  unfold Obligations.LoadComplete
  intro i p s s2 e m c hrow hwf hload hready hres hm hup s3 hc hu s4 d
  have h2 := AccessSpec.undisturbed_resolved hres
  have h3 : s.Undisturbed s3 := h2.trans (s2.undisturbed_drainOwn _)
  have h4 : s.Undisturbed s4 := h3.trans (s3.keepsThreads_readCopy _ _ _ _).undisturbed
  rw [← h2.cur, ← h2.pc] at hc
  have hend := State.loadLocal_of (va := (p.addr s).toNat) (n := p.width) hup hc hu rfl rfl
  rw [h2.cur, h2.pc, h2.ctx] at hend
  have hexec := exec_load_ok hrow hready hwf hload (lineBytes_lt _ m p.width) ((State.loadMem_of hres hm).trans hend)
  obtain ⟨hx, hpc, hregs, hbytes⟩ := (h4.trans (s4.undisturbed_endLoad _ _ _ _ _)).setX_advance p.reg _ p.size
  refine ⟨_, hexec, hx, hpc, hregs, fun a => (hbytes a).trans ?_⟩
  unfold State.byte
  rw [State.mem_endLoad]

/-- Settles O7: the store ends as `State.combine_of` says; what its core then reads is `byteFor_combine`. -/
theorem weakStoreComplete : Obligations.WeakStoreComplete := by
  unfold Obligations.WeakStoreComplete
  intro i p s s2 e m hrow hwf hstore hweak hready hres hm hup hin s3 hroom
  have h3 : s.Undisturbed s3 := (AccessSpec.undisturbed_resolved hres).trans (s2.undisturbed_combReady _)
  have hst := (State.storeWeak_of (v := (s.xr p.reg).toNat) hres hm hup).trans (State.combine_of hroom)
  have hwatched := State.watched_watchStore (s3.entersComb (m / 64) (cellsAt m (leBytes (s.xr p.reg).toNat p.width))
    s2.th.fences) (p.addr s).toNat m (cellsAt m (leBytes (s.xr p.reg).toNat p.width))
  rw [← hweak] at hst
  obtain ⟨hpc, hregs⟩ := ((h3.trans (s3.undisturbed_entersComb _ _ _)).trans hwatched.keepsThreads.undisturbed).advance p.size
  refine ⟨_, exec_store_ok hrow hready hstore hst, hpc, hregs, fun a => ?_, fun a => ?_⟩
  · exact congrArg (Memory.read · a) hwatched.mem
  · rw [← h3.cur]
    exact byteFor_combine s3 hin a

/-- Settles O8: the store ends as `State.storeStrong_of` says, and writes its bytes alone. -/
theorem strongStoreComplete : Obligations.StrongStoreComplete := by
  unfold Obligations.StrongStoreComplete
  intro i p s s2 e m hrow hwf hstore hstrong hready hres hm hup s3 hgrant
  have h2 := AccessSpec.undisturbed_resolved hres
  rw [← h2.cur] at hgrant
  have hst := State.storeStrong_of (v := (s.xr p.reg).toNat) hres hm hup hgrant
  rw [← hstrong] at hst
  obtain ⟨hpc, hregs⟩ := (((h2.trans (s2.undisturbed_drainOwn _)).trans (State.undisturbed_useGrant _ _)).trans
    (State.undisturbed_performStrong _ _ _ _)).advance p.size
  refine ⟨_, exec_store_ok hrow hready hstore hst, hpc, hregs, fun a => ?_⟩
  show Memory.read (State.performStrong _ _ _ _).mem a = _
  rw [State.mem_performStrong, Memory.read_store]
  rfl

end

section
/-! SUPPORT. The events on lines that are fetched, streamed or remote (R99, R135, R190, R210 to R213, R345, R425). -/

namespace Sys2Proof.Machine

/-! ### The instruction cache -/

theorem isSome_find?_l1iPut (l : Tab (BitVec 512)) (line : Nat) (d : BitVec 512) :
    ((l1iPut l line d).find? line).isSome = true := by
  have hput : ∀ t : Tab (BitVec 512), ((t.put line d).find? line).isSome = true := fun t => by
    rw [Tab.find?_put, if_pos rfl]
    rfl
  unfold l1iPut
  extract_lets set
  split
  · exact hput _
  · cases set.head? <;> exact hput _

/-- R210: a line that has arrived in an L1 instruction cache is there. -/
theorem State.isSome_l1i_fillL1i (s : State) (cid line : Nat) (st : List (Nat × BitVec 32)) :
    (((s.fillL1i cid line st).core cid).l1i.find? line).isSome = true := by
  unfold State.fillL1i
  extract_lets hit r s1
  clear_value hit
  cases hit with
  | some d =>
    dsimp only
    rw [State.core_modCore, if_pos rfl]
    exact isSome_find?_l1iPut _ _ _
  | none =>
    dsimp only
    rw [State.core_modCore, if_pos rfl]
    exact isSome_find?_l1iPut _ _ _

/-! ### Fetches -/

section
variable {s : State} {sid : Nat} {va a : Word}

/-- R212: the fetch unit acts on a line among those that it prefetches for a thread. -/
theorem exec_fetchPrefetch (hocc : (s.slot sid).occupied = true) (ha : a ∈ s.prefetches sid (s.thread sid).pc)
    (hline : a.toNat / 64 = va.toNat / 64) : exec (.fetchPrefetch sid va) s = .next (s.prefetch sid va) := by
  have hany : (s.prefetches sid (s.thread sid).pc).any (fun a => a.toNat / 64 == va.toNat / 64) = true :=
    List.any_eq_true.2 ⟨a, ha, beq_iff_eq.2 hline⟩
  show execFetchPrefetch sid va s = _
  rw [execFetchPrefetch, hocc, hany]
  rfl

theorem State.prefetch_got {p : BitVec 16} (h : s.fetchParcel sid va = .got p) : s.prefetch sid va = s := by
  unfold State.prefetch
  simp only [h]

theorem State.prefetch_fault (h : s.fetchParcel sid va = .fault) : s.prefetch sid va = s := by
  unfold State.prefetch
  simp only [h]

theorem State.prefetch_fetch {cid line : Nat} {st : List (Nat × BitVec 32)}
    (h : s.fetchParcel sid va = .wait (some (.fetch cid line st))) : s.prefetch sid va = s.fillL1i cid line st := by
  unfold State.prefetch
  simp only [h]

/-- R213: the demand fetch of a thread that runs. -/
theorem exec_demandFetch (hrun : (s.slot sid).st = .run) (hocc : (s.slot sid).occupied = true) :
    exec (.demandFetch sid) s = .next (s.demandFetch sid) := by
  show execDemandFetch sid s = _
  rw [execDemandFetch, if_pos ⟨hrun, hocc⟩]
  rfl

theorem State.demandFetch_one {p : BitVec 16} (h : s.fetchAt sid (s.thread sid).pc = .one p) :
    s.demandFetch sid = s.modThread sid (fun h => { h with fetched := [((s.thread sid).pc.toNat, p)] }) := by
  unfold State.demandFetch
  simp only [h]

theorem State.demandFetch_two {w : BitVec 32} (h : s.fetchAt sid (s.thread sid).pc = .two w) :
    s.demandFetch sid = s.modThread sid (fun h => { h with fetched := [((s.thread sid).pc.toNat, w.setWidth 16),
      (((s.thread sid).pc + 2#64).toNat, w.extractLsb' 16 16)] }) := by
  unfold State.demandFetch
  simp only [h]

theorem State.demandFetch_wait {j : Option Job} (h : s.fetchAt sid (s.thread sid).pc = .wait j) :
    s.demandFetch sid = s.oweOpt j := by
  unfold State.demandFetch
  simp only [h]

end

/-! ### Copies that arrive -/

/-- A line that is in the L1 is a copy for every access of the core. -/
theorem State.isSome_copyFor_of_l1 {s : State} {cid line : Nat} {c : L1Line} (h : (s.core cid).l1.find? line = some c)
    (slot : Nat) (pc : Word) : (s.copyFor cid slot line pc).isSome = true := by
  unfold State.copyFor
  rw [h]
  rfl

theorem State.isSome_copyFor_putL1 (s : State) (cid slot line : Nat) (pc : Word) (c : L1Line) :
    ((s.modCore cid (fun k => { k with l1 := k.l1.put line c })).copyFor cid slot line pc).isSome = true := by
  refine State.isSome_copyFor_of_l1 (c := c) ?_ slot pc
  rw [State.core_modCore, if_pos rfl]
  dsimp only
  rw [Tab.find?_put, if_pos rfl]

/-- R135: a line that arrives in the bypass lines of other slots leaves the bypass line of a slot, and the cores. -/
theorem State.bypass_putBypass (cid line slot : Nat) (c : L1Line) (l : List (Nat × Word)) (hl : ∀ w ∈ l, w.1 ≠ slot)
    (s : State) : ((l.foldl (fun (s : State) w => s.putBypass cid line c w) s).slot (16 * cid + slot)).bypass =
        (s.slot (16 * cid + slot)).bypass ∧
      (l.foldl (fun (s : State) w => s.putBypass cid line c w) s).core cid = s.core cid := by
  induction l generalizing s with
  | nil => exact ⟨rfl, rfl⟩
  | cons w l ih =>
    obtain ⟨hslot, hcore⟩ := ih (fun w hw => hl w (List.mem_cons_of_mem _ hw)) (s.putBypass cid line c w)
    have hne : 16 * cid + slot ≠ 16 * cid + w.1 := fun h => hl w List.mem_cons_self (by omega)
    rw [List.foldl_cons, hslot, hcore]
    unfold State.putBypass
    rw [State.slot_modSlot, if_neg hne]
    exact ⟨rfl, rfl⟩

/-- R134, R135, R190: a line that has arrived for the access of a slot is a copy for it. -/
theorem State.isSome_copyFor_fillLine (s : State) (cid slot line : Nat) (pc : Word) :
    ((s.fillLine cid slot line pc).copyFor cid slot line pc).isSome = true := by
  unfold State.fillLine
  extract_lets s1 a s2 h k waiting clock e holds s3 c
  have hk : s3.core cid = k := rfl
  split
  · exact State.isSome_copyFor_putL1 _ _ _ _ _ _
  · next hmiss =>
    split
    · exact State.isSome_copyFor_putL1 _ _ _ _ _ _
    · have hrest : ∀ w ∈ (s2.askers cid line).filter (fun w => w.1 != slot), w.1 ≠ slot := fun w hw => by
        simpa using (List.mem_filter.1 hw).2
      obtain ⟨hslot, hcore⟩ := State.bypass_putBypass cid line slot c _ hrest (s3.putBypass cid line c (slot, pc))
      have hcore' : (s3.putBypass cid line c (slot, pc)).core cid = k := rfl
      unfold State.copyFor
      simp only [waiting, List.foldl_cons, hcore, hslot, hcore', hmiss]
      unfold State.putBypass
      rw [State.slot_modSlot, if_pos rfl]
      simp [c, hk]

/-- R190: the n-th next element of a read stream arrives. -/
def State.streamElement (sid : Nat) (t : Stream) (s : State) (j : Nat) : State :=
  if t.p + j ≥ t.len then s
  else
    match s.xlate (coreOf sid) (s.thread sid).ctx (t.addr (t.p + j)).toNat (Kind.ofCode 0) with
    | none => s
    | some e => match s.machineOf (e.sys (t.addr (t.p + j)).toNat) with
      | none => s
      | some m =>
        if (s.copyFor (coreOf sid) (sid % 16) (m / 64) (s.thread sid).pc).isSome then s
        else s.fillLine (coreOf sid) (sid % 16) (m / 64) (s.thread sid).pc

section
variable {s : State} {sid n : Nat} {t : Stream}

theorem State.streamArrival_eq (ht : vrd (s.thread sid).streams n = some t) : s.streamArrival sid n =
    if t.inSp || t.isWrite then s else (upTo 16).foldl (State.streamElement sid t) s := by
  unfold State.streamArrival
  simp only [ht]
  rfl

theorem State.streamElement_past {j : Nat} (h : t.len ≤ t.p + j) (s : State) : s.streamElement sid t j = s :=
  if_pos h

theorem State.streamElements_past (l : List Nat) (hl : ∀ j ∈ l, t.len ≤ t.p + j) (s : State) :
    l.foldl (State.streamElement sid t) s = s := by
  induction l with
  | nil => rfl
  | cons j l ih =>
    rw [List.foldl_cons, State.streamElement_past (hl j List.mem_cons_self)]
    exact ih fun k hk => hl k (List.mem_cons_of_mem _ hk)

/-- R190: of a stream at its last element that element alone arrives. -/
theorem State.streamArrival_last (ht : vrd (s.thread sid).streams n = some t) (hsp : t.inSp = false)
    (hw : t.isWrite = false) (hlast : t.p + 1 = t.len) : s.streamArrival sid n = s.streamElement sid t 0 := by
  have hcons : upTo 16 = 0 :: (List.range' 1 15) := by decide
  rw [State.streamArrival_eq ht, hsp, hw, if_neg (by decide), hcons, List.foldl_cons]
  refine State.streamElements_past _ (fun j hj => ?_) _
  have := (List.mem_range'_1.1 hj).1
  omega

theorem State.isSome_copyFor_streamElement {e : TlbEntry} {m : Nat} (hin : t.p < t.len)
    (hx : s.xlate (coreOf sid) (s.thread sid).ctx (t.addr t.p).toNat (Kind.ofCode 0) = some e)
    (hm : s.machineOf (e.sys (t.addr t.p).toNat) = some m) :
    ((s.streamElement sid t 0).copyFor (coreOf sid) (sid % 16) (m / 64) (s.thread sid).pc).isSome = true := by
  unfold State.streamElement
  rw [Nat.add_zero, if_neg (Nat.not_le.2 hin)]
  simp only [hx, hm]
  split
  · assumption
  · exact State.isSome_copyFor_fillLine _ _ _ _ _

end

/-! ### Replies of other devices -/

section
variable {s : State} {cid n : Nat} {r : RemoteReq} (hr : (s.core cid).remote[n]? = some r) (data : BitVec 512)

theorem exec_remoteReply_stays (h : s.travels cid n = false) (b : Bool) : exec (.remoteReply cid n b data) s = .next s := by
  show execRemoteReply cid n b data s = _
  rw [execRemoteReply, h]
  rfl

theorem exec_remoteReply (h : s.travels cid n = true) : exec (.remoteReply cid n false data) s =
    .next (s.remoteReply cid n data) := by
  show execRemoteReply cid n false data s = _
  rw [execRemoteReply, h]
  rfl

/-- R425: a refusal ends the access as a reply that has not come. -/
theorem exec_remoteReply_refused (h : s.travels cid n = true) : exec (.remoteReply cid n true data) s =
    .next (s.remoteFail cid n) := by
  show execRemoteReply cid n true data s = _
  rw [execRemoteReply, h]
  rfl

include hr

/-- R99, R100: the reply to a load of a thread that is still there fills the bypass line of its slot. -/
theorem State.remoteReply_load (hk : r.kind = 0) (hu : (s.thread (16 * cid + r.slot)).uid = r.uid) :
    s.remoteReply cid n data = (s.modCore cid (fun k => { k with remote := k.remote.eraseIdx n })).modSlot (16 * cid + r.slot)
      (fun sl => { sl with bypass := some ⟨r.sys / 64, {
        data := (((s.core cid).remote.take n).filter (fun q => q.uid == r.uid && q.sys / 64 == r.sys / 64)).foldl
          (fun d q => q.over d) data,
        wt := 0, leaseEnd := 0, granted := (s.core cid).cycle, asOf := 0 }, r.pc⟩ }) := by
  unfold State.remoteReply
  simp only [hr, hk, State.thread_modCore, hu, if_true, State.core_modCore]

/-- R345: the reply to a store or an update frees its request. -/
theorem State.remoteReply_write (hk : r.kind = 1 ∨ r.kind = 3) :
    s.remoteReply cid n data = s.modCore cid (fun k => { k with remote := k.remote.eraseIdx n }) := by
  unfold State.remoteReply
  rcases hk with hk | hk <;> simp only [hr, hk]

/-- R345: the time limit of a remote access. -/
theorem State.remoteTimeout_eq : s.remoteTimeout cid n =
    if (s.core cid).cycle < r.since + 2 ^ 20 then s else s.remoteFail cid n := by
  unfold State.remoteTimeout
  simp only [hr]

end

/-! ### Accesses of other devices -/

theorem State.mergeAll_of_no_update {s : State} {line : Nat}
    (h : s.cores.all (fun p => p.2.upd.all (fun u => u.line != line)) = true) : s.mergeAll line = s := by
  have hnil : s.cores.filter (fun p => p.2.upd.any (fun u => u.line == line)) = [] := by
    refine List.filter_eq_nil_iff.2 fun p hp hany => ?_
    obtain ⟨u, hu, hline⟩ := List.any_eq_true.1 hany
    have hne := List.all_eq_true.1 (List.all_eq_true.1 h p hp) u hu
    rw [beq_iff_eq.1 hline] at hne
    simp at hne
  unfold State.mergeAll
  rw [hnil]
  rfl

theorem State.readLine_of_no_error {s : State} (h : s.ecc = []) (line a addr : Nat) (eng ma : Bool) :
    s.readLine line a addr eng ma = s := by
  unfold State.readLine
  rw [h]
  rfl

theorem State.mergeAll_readLine_of_none {s : State} {line : Nat}
    (hupd : s.cores.all (fun p => p.2.upd.all (fun u => u.line != line)) = true) (hecc : s.ecc = []) (a addr : Nat)
    (eng ma : Bool) : (s.mergeAll line).readLine line a addr eng ma = s := by
  rw [State.mergeAll_of_no_update hupd, State.readLine_of_no_error hecc]

section
variable {s : State} {dev sys op m : Nat} {wide : Bool} {data : BitVec 512} {mask : BitVec 64}
  (hres : sysReserved sys = false) (hm : s.machineOf sys = some m)
include hres hm

/-- R425: the owner performs a store of another device. -/
theorem State.mem_forwarded_store : (s.forwarded dev 1 sys op wide data mask).mem =
    Memory.writeAll s.mem (maskedCells (m / 64) data mask) := by
  unfold State.forwarded
  simp only [hres, Bool.false_eq_true, if_false, hm, State.mem_emit, State.mem_performWrite, State.mem_trace]

/-- R425, R346: a load of another device leaves memory as it is, where no update waits to be merged and no error to be
found. -/
theorem State.mem_forwarded_load (hecc : s.ecc = [])
    (hupd : s.cores.all (fun p => p.2.upd.all (fun u => u.line != m / 64)) = true) :
    (s.forwarded dev 0 sys op wide data mask).mem = s.mem := by
  unfold State.forwarded
  simp only [hres, Bool.false_eq_true, if_false, hm, State.mem_emit]
  refine Eq.trans (congrArg State.mem (State.mergeAll_readLine_of_none ?_ ?_ _ _ _ _)) rfl
  · exact hupd
  · exact hecc

end

end Sys2Proof.Machine

open Sys2Proof Sys2Proof.Machine Sys2Proof.Claims

/-- Settles O41: event by event; what each does is said by the lemmas on `State.prefetch`, `State.demandFetch`,
`State.streamArrival`, `State.remoteReply` and `State.forwarded` above. -/
theorem remoteEvents : Obligations.RemoteEvents := by
  unfold Obligations.RemoteEvents
  refine ⟨?prefetch, ?demand, ?stream, ?remote, ?forwarded⟩
  case prefetch =>
    intro sid va a s hocc ha hline
    rw [exec_fetchPrefetch hocc ha hline]
    refine ⟨fun p h => by rw [State.prefetch_got h], fun h => by rw [State.prefetch_fault h], fun cid line st h => ?_⟩
    rw [State.prefetch_fetch h]
    exact ⟨_, rfl, rfl, s.isSome_l1i_fillL1i cid line st⟩
  case demand =>
    intro sid s hrun hocc
    rw [exec_demandFetch hrun hocc]
    refine ⟨fun p h => ⟨_, rfl, ?_⟩, fun w h => ⟨_, rfl, ?_⟩, fun j h => by rw [State.demandFetch_wait h]⟩
    · rw [State.demandFetch_one h, State.thread_modThread, if_pos rfl]
    · rw [State.demandFetch_two h, State.thread_modThread, if_pos rfl]
  case stream =>
    intro sid n st s ht
    refine ⟨fun hno => ?_, fun hsp hw hlast e m hx hm => ⟨_, rfl, ?_⟩⟩
    · refine congrArg Host.Outcome.next ((State.streamArrival_eq ht).trans (if_pos ?_))
      rw [Bool.or_eq_true]
      exact hno
    · rw [State.streamArrival_last ht hsp hw hlast]
      exact State.isSome_copyFor_streamElement (by omega) hx hm
  case remote =>
    intro cid n data r s hr hslot
    refine ⟨exec_remoteReply_stays data, fun ht hk hu => ?_, fun ht hk => ?_, ⟨_, rfl, fun hearly => ?_, fun hlate => ?_⟩⟩
    · refine ⟨_, _, (exec_remoteReply data ht).trans (congrArg _ (State.remoteReply_load hr data hk hu)), rfl, ?_,
        congrArg Slot.bypass ((State.slot_modSlot _ _ _ _).trans (if_pos rfl)), rfl, rfl, rfl⟩
      rw [State.core_modSlot, State.core_modCore, if_pos rfl]
    · refine ⟨_, (exec_remoteReply data ht).trans (congrArg _ (State.remoteReply_write hr data hk)), rfl, ?_⟩
      rw [State.core_modCore, if_pos rfl]
    · exact (State.remoteTimeout_eq hr).trans (if_pos hearly)
    · have heq : s.remoteTimeout cid n = s.remoteFail cid n := (State.remoteTimeout_eq hr).trans (if_neg (Nat.not_lt.2 hlate))
      exact ⟨heq, fun ht => (exec_remoteReply_refused data ht).trans (congrArg _ heq.symm)⟩
  case forwarded =>
    intro dev kind sys op m wide data mask s hsys hres hm
    have hmod : sys % 2 ^ 56 = sys := Nat.mod_eq_of_lt hsys
    refine ⟨_, rfl, fun hk => ?_, fun hk hecc hupd => ?_⟩
    · rw [hk, hmod, State.mem_forwarded_store hres hm]
    · rw [hk, hmod, State.mem_forwarded_load hres hm hecc hupd]

end

section
/-! SUPPORT. The traps of an instruction's own (R20, R154, R161, R168, R173, R262, R270, R336). -/

namespace Sys2Proof.Machine

open Sys2Proof.Claims

/-- R373: the issuer's context lacks the feature of an instruction. -/
def Use.lacks (u : Use) (s : State) : Bool := match u.feat with
  | some f => !s.myCtx.feat.getLsbD f
  | none => false

theorem Use.lacks_of_granted {u : Use} {s : State} (hf : ∀ f, u.feat = some f → s.granted f) : u.lacks s = false := by
  unfold Use.lacks
  cases hu : u.feat with
  | none => rfl
  | some f => have h := hf f hu; unfold State.granted at h; simp [h]

section
variable {u : Use} {s : State} (body : State → Res) (hf : ∀ f, u.feat = some f → s.granted f)
  (hk : u.kern = true → s.th.kern = true)
include hf hk

/-- R328: the checks of the feature and of the privilege pass. -/
theorem Use.checks_pass : ¬ u.lacks s = true ∧ ¬ (u.kern && !s.th.kern) = true := by
  refine ⟨by rw [Use.lacks_of_granted hf]; exact Bool.false_ne_true, ?_⟩
  cases hu : u.kern with
  | false => exact Bool.false_ne_true
  | true => simp [hk hu]

/-- R132: an instruction that names a register that a held instruction will write. -/
theorem Use.run_pending {r : RegN} {e : RingEntry} (hn : u.pending s.th = some (r, e)) :
    u.run s body = if stBit s.th.st 1 then s.raise tHOLD (holdInfo r e.seq) else s.skipCounted := by
  obtain ⟨hfeat, hkern⟩ := Use.checks_pass hf hk
  unfold Use.run
  rw [if_neg, if_neg hkern, hn]
  exact hfeat

/-- R75: an instruction without a policy that reads a register that awaits a value. -/
theorem Use.run_awaiting {r : BitVec 6} {rs : List (BitVec 6)} (hn : u.pending s.th = none)
    (ha : u.awaiting s = r :: rs) (hp : u.pol = none) : u.run s body = s.raise tAWAITING (w64 r.toNat) := by
  obtain ⟨hfeat, hkern⟩ := Use.checks_pass hf hk
  unfold Use.run
  rw [if_neg, if_neg hkern, hn, ha, hp]
  exact hfeat

/-- R328, R132, R75: with the checks of its registers passed, an instruction takes its place among the thread's accesses. -/
theorem Use.run_checked (hn : u.pending s.th = none) (ha : u.awaiting s = []) :
    u.run s body = u.finish s (u.ordered s body) := by
  obtain ⟨hfeat, hkern⟩ := Use.checks_pass hf hk
  unfold Use.run
  rw [if_neg, if_neg hkern, hn, ha]
  exact hfeat

end

/-- R185: a trap of an instruction's own stands whether or not a vector store of the thread still waits. -/
theorem Use.ordered_trap {u : Use} {s : State} {body : State → Res} {c : Nat} {w : Word}
    (hb : body (u.start s) = .trap c w) : u.ordered s body = .trap c w := by
  unfold Use.ordered
  rw [hb]
  exact ite_self _

/-- An instruction whose own effect is a trap. -/
theorem traps_of {i : Instr} {s : State} {u : Use} {body : State → Res} {c : Nat} {w : Word}
    (he : exec i s = .next (u.run s body)) (hf : ∀ f, u.feat = some f → s.granted f) (hk : u.kern = false)
    (hn : s.unheld u.names) (ha : s.arrived u.reads) (hb : body (u.start s) = .trap c w) : traps i s c w := by
  refine he.trans (congrArg _ ?_)
  rw [Use.run_checked body hf (by simp [hk]) (Use.pending_none hn) (Use.awaiting_nil ha), Use.ordered_trap hb]
  rfl

theorem State.unheld_nil (s : State) : s.unheld [] := ⟨nofun, nofun⟩

theorem Use.pm1_start (u : Use) (s : State) : (u.start s).th.pm1 = s.th.pm1 := by rw [u.readsOnly_start s]

/-- R270: whether the thread may use a barrier does not change as its registers are read. -/
theorem Use.hbarOk_start (u : Use) (s : State) (n : Nat) : (u.start s).hbarOk n = s.hbarOk n := by
  have hctx : (u.start s).th.ctx = s.th.ctx := by rw [u.readsOnly_start s]
  unfold State.hbarOk State.holdsAllot State.ctx State.hbaOf
  rw [(u.onlyRegs_start s).mine_eq, u.cur_start, hctx, (u.onlyRegs_start s).device]

/-- R262: the offset of a full-empty access beyond the scratchpad. -/
theorem feCheck_beyond {o : Word} (h : spLimit ≤ o.toNat) (f : Unit → Res) : feCheck o f = .trap tADDRESS o :=
  if_pos h

/-- R262: the offset of a full-empty access that is not a granule's. -/
theorem feCheck_misaligned {o : Word} (hlim : o.toNat < spLimit) (hal : o.toNat % 16 ≠ 0) (f : Unit → Res) :
    feCheck o f = .trap tMISALIGNED o := by
  unfold feCheck
  rw [if_neg (Nat.not_le.2 hlim), if_pos hal]

/-- The check of an offset does not change as registers are read. -/
theorem feCheck_start {u : Use} {s : State} {a : BitVec 6} {r : Res} (hcheck : ∀ f, feCheck (s.xr a) f = r)
    (f : Unit → Res) : feCheck ((u.start s).xr a) f = r := by
  rw [Use.xr_start]
  exact hcheck f

/-- R262: a full-empty access whose offset fails its check. -/
theorem traps_fullEmpty {p : Policy} {a d : BitVec 6} {s : State} {c : Nat} (hrun : canRun s [a, d] [a, d])
    (hcheck : ∀ f, feCheck (s.xr a) f = .trap c (s.xr a)) :
    ∀ i ∈ [Instr.ldff p a d, .ldfe p a d, .stef p a d, .stff p a d], traps i s c (s.xr a) := by
  obtain ⟨hheld, harr⟩ := hrun
  intro i hi
  simp only [List.mem_cons, List.not_mem_nil, or_false] at hi
  rcases hi with rfl | rfl | rfl | rfl
  · exact traps_of (u := memUse p [a] [d]) rfl nofun rfl hheld (fun r hr => harr r (List.mem_append_left [d] hr))
      (feCheck_start hcheck _)
  · exact traps_of (u := memUse p [a] [d]) rfl nofun rfl hheld (fun r hr => harr r (List.mem_append_left [d] hr))
      (feCheck_start hcheck _)
  · exact traps_of (u := (memUse p [a, d] []).carries a [d]) rfl nofun rfl hheld harr
      (feCheck_start hcheck _)
  · exact traps_of (u := (memUse p [a, d] []).carries a [d]) rfl nofun rfl hheld harr
      (feCheck_start hcheck _)

section
variable {s : State} {a b d : BitVec 6}

/-- R20, R87: `enter` below the stack limit. -/
theorem traps_enter {l h : BitVec 6} (hrun : canRun s [rSP] [rSP]) (hlim : s.th.stklim ≠ 0#64)
    (hlow : (s.xr rSP).toNat < (frameSize l h).toNat ∨ (s.xr rSP).toNat - (frameSize l h).toNat < s.th.stklim.toNat) :
    traps (.enter l h) s tSTACK (s.xr rSP - frameSize l h) := by
  obtain ⟨hheld, harr⟩ := hrun
  refine traps_of (exec_enter l h s) nofun rfl (hheld.mono (by simp [scalarUse])) harr ?_
  unfold enterEffect
  rw [Use.xr_start, Use.stklim_start]
  exact if_pos (stackLow_iff.2 ⟨hlim, hlow⟩)

theorem traps_trap (n : BitVec 6) : traps (.trap n) s tTRAP (n.setWidth 64) :=
  traps_of (u := scalarUse [] []) rfl nofun rfl s.unheld_nil nofun rfl

/-- R336: `hret` outside a handler. -/
theorem traps_hret (h : stBit s.th.st 7 = false) : traps .hret s tILLEGAL 0x08000073#64 := by
  refine traps_of (u := scalarUse [] []) rfl nofun rfl s.unheld_nil nofun ?_
  dsimp only
  rw [Use.st_start, h]
  rfl

/-- R154: a place beyond the group's. -/
theorem traps_place (hrun : canRun s [a, d] [a]) (h : s.th.pm1 < (s.xr a).toNat) : traps (.place a d) s tPLACE (s.xr a) := by
  obtain ⟨hheld, harr⟩ := hrun
  refine traps_of (u := scalarUse [a] [d]) rfl nofun rfl hheld harr ?_
  dsimp only
  rw [Use.xr_start, Use.pm1_start]
  exact if_pos h

/-- R161: a cast of an entry that is 0 or odd. -/
theorem traps_cast (p : Policy) (c : BitVec 4) (hf : s.granted fLaunch)
    (hrun : canRun s [a, b, chanReg c, chanReg c + 1#6] [a, b, chanReg c]) (h : s.xr a = 0#64 ∨ (s.xr a).getLsbD 0 = true) :
    traps (.cast p b a c) s tDESC (s.xr a) := by
  obtain ⟨hheld, harr⟩ := hrun
  refine traps_of (u := (workUse (rpw p.bits 1 b a (chanReg c) 15) [a, b, chanReg c, chanReg c + 1#6] [a, b, chanReg c]
    (some p)).carries a [b, chanReg c]) rfl (fun f e => by cases e; exact hf) rfl hheld harr ?_
  dsimp only
  rw [Use.xr_start]
  exact if_pos h

/-- R168, R173: a message index beyond the run of its capability. -/
theorem traps_snd (p : Policy) (m : BitVec 3) (hf : s.granted fFabric) (hrun : canRun s [a, b] [a, b])
    (h : capBits (s.xr a) 28 3 < m.toNat) : traps (.snd p b a m) s tINDEX (s.xr a) := by
  obtain ⟨hheld, harr⟩ := hrun
  refine traps_of (u := { fabUse (rpw p.bits 3 b a (0#3 ++ m) 13) [a, b] [a, b] (some p) with after := true }) rfl
    (fun f e => by cases e; exact hf) rfl hheld harr ?_
  dsimp only
  rw [Use.xr_start]
  exact if_pos h

theorem runRegs_zero (a : BitVec 6) : runRegs a 0#3 = [a] := by
  show [a + 0#6] = [a]
  rw [BitVec.add_zero]

/-- R168: `mint` over a register that is UNARMED. -/
theorem traps_mint (r : BitVec 2) (hf : s.granted fFabric) (hrun : canRun s [a, d] []) (h : (s.armOf a).st = .unarmed) :
    traps (.mint r 0#3 a d) s tMINT (w64 a.toNat) := by
  obtain ⟨hheld, harr⟩ := hrun
  refine traps_of (u := fabUse (rpw 0#2 2 (0#1 ++ r ++ 0#3) a d 13) (runRegs a 0#3 ++ [d]) []) rfl
    (fun f e => by cases e; exact hf) rfl ?_ harr ?_
  · unfold fabUse
    rw [runRegs_zero]
    exact hheld
  · have harm : ∀ u : Use, u.reads = [] → ((u.start s).armOf a).st = .unarmed := fun u hu => by
      rw [(u.onlyRegs_start s).arms a (by simp [hu]) List.not_mem_nil, h]
    rw [runRegs_zero, List.find?_cons_of_pos (by rw [harm _ rfl]; rfl)]

/-- R270: a barrier that the thread may not use. -/
theorem traps_hbarArr (p : Policy) (n : BitVec 2) (hf : s.granted fHbar) (hrun : canRun s [d] [])
    (h : s.hbarOk n.toNat = false) : traps (.hbarArr p n d) s tBARRIER (w64 n.toNat) := by
  obtain ⟨hheld, harr⟩ := hrun
  refine traps_of (u := { memUse p [] [d] with feat := some fHbar, word := rpw p.bits 23 (0#4 ++ n) 0#6 d 12 }) rfl
    (fun f e => by cases e; exact hf) rfl hheld harr ?_
  dsimp only
  rw [Use.hbarOk_start, h]
  rfl

end

/-- The precise traps of an instruction's own. -/
theorem ownTraps_hold : Claims.ownTraps := fun _ _ _ _ =>
  ⟨fun _ _ => traps_enter, traps_trap, traps_hret, traps_place, traps_cast, traps_snd, traps_mint, traps_hbarArr,
    fun _ hrun hbeyond => traps_fullEmpty hrun (feCheck_beyond hbeyond),
    fun _ hrun hlim hal => traps_fullEmpty hrun (feCheck_misaligned hlim hal)⟩

end Sys2Proof.Machine

end

section
/-! SUPPORT. The checks that precede an instruction's own effect (R328): what its frame says of its feature, its privilege
and its registers. -/

namespace Sys2Proof.Claims

open Sys2Proof.Machine

/-! ### The features of the instructions -/

/-- R373: the feature of an instruction. -/
def featOf : Instr → Option Nat
  | .hbarArr .. | .hbarWt .. => some fHbar
  | .arm .. | .disarm .. | .mint .. | .snd .. | .rcv .. | .fabst .. | .sndA .. => some fFabric
  | .launch .. | .cast .. | .recast .. => some fLaunch
  | .mlease .. | .mrel | .tsh .. | .tshr .. | .tld .. | .tst .. | .tzero .. | .mma .. | .tqnt .. => some fMatrix
  | .cpMm .. | .cpMs .. | .cpMv .. | .cpSm .. | .cpSs .. | .cpSv .. | .cpVm .. | .cpVs .. | .cpVv .. | .cpGth .. |
    .cpSct .. | .qfCp .. => some fCopy
  | .clAredSum .. | .clAredMax .. | .clAredMin .. | .clBcst .. | .clGath .. | .qfCl .. => some fCollective
  | .tlbInv .. | .tlbInva .. | .tlbProbe .. | .atpRd .. | .atpWr .. => some fTranslation
  | .ctxNew .. | .ctxGrant .. | .ctxRd .. | .ctxWr .. | .ctxRun .. | .ctxStop .. | .ctxKill .. | .ctxResume .. |
    .ctxIntr .. => some fContext
  | .vfadd .. | .vfsub .. | .vfmul .. | .vfmin .. | .vfmax .. | .vfabs .. | .vfneg .. | .vfma .. | .vfms .. | .vfma4 .. |
    .vfeq .. | .vflt .. | .vfle .. | .vadd .. | .vsub .. | .vmul .. | .vsll .. | .vsrl .. | .vsra .. | .vmin .. |
    .vmax .. | .vminu .. | .vmaxu .. | .vand .. | .vor .. | .vxor .. | .vandn .. | .vieq .. | .vilt .. | .viltu .. |
    .vbcast .. | .kget .. | .kset .. | .vperm .. | .vperm2 .. | .vrot .. | .vins .. | .vext .. | .vsumF .. | .vmaxF .. |
    .vminF .. | .vsumI32 .. | .vmaxI32 .. | .vminI32 .. | .vsumI16 .. | .vsumI8 .. | .vsumBf .. | .vld .. | .vldWk .. |
    .vst .. | .vstWk .. | .vldSp .. | .vstSp .. | .vldWin .. | .vstWin .. | .scfg .. | .sclr .. | .srem .. | .vrcpA .. |
    .vrsqA .. | .vrcpS .. | .vrsqS .. | .vexp2A .. | .vlog2A .. | .vcvtFI .. | .vcvtIF .. | .vcvtBfF .. | .vcvtFBf .. |
    .vcvtFMk8 .. | .vpackI16 .. | .vunpkI16 .. | .vunpkI8 .. | .vquant .. => some fVector
  | _ => none

/-- R373: the feature bit of a major and a minor. -/
def featAt (major minor : Nat) : Option Nat :=
  if (16 ≤ major ∧ major ≤ 21) ∨ major = 23 then some 0 else if major = 24 then some 1 else if major = 25 then some 2
  else if major = 26 then some 3 else if major = 13 then some 4 else if major = 12 ∧ (minor = 23 ∨ minor = 24) then some 5
  else if major = 15 ∧ minor ≤ 2 then some 6 else if major = 30 then some 7 else if major = 29 then some 8 else none

theorem featureOf_eq (w : BitVec 32) : featureOf w = featAt (majorOf w).toNat (RPFmt.minor5 w).toNat := rfl

/-- R373: the feature of an instruction is that of its word. -/
theorem featureOf_encode {i : Instr} {w : BitVec 32} (h : encode i = .word w) : featureOf w = featOf i := by
  cases i
  all_goals cases h
  all_goals simp only [featureOf_eq, RFmt.major_pack, RPFmt.major_pack, RPFmt.minor5_pack, IFmt.major_pack, MFmt.major_pack,
    MNFmt.major_pack, JFmt.major_pack, VFmt.major_pack, XFmt.major_pack, PFmt.major_pack]
  all_goals rfl

/-! ### Frames -/

/-- R75, R132: a frame names the registers that an instruction's operands name; without a policy it reads its sources. -/
structure Operands.NamedBy (o : Operands) (u : Use) : Prop where
  names : ∀ r, r ∈ u.names ↔ r ∈ o.names
  pol : o.policy = false → u.pol = none
  reads : o.policy = false → ∀ r, r ∈ u.reads ↔ r ∈ o.reads

/-- The frame of an instruction: what it is checked for before its own effect. -/
structure Framed (i : Instr) (s : State) (u : Use) : Prop where
  runs : ∃ body, does i s (u.run s body)
  direct : kernelOnly i = true → ∃ body, exec i s = .next (u.run s body)
  feat : u.feat = featOf i
  kern : u.kern = kernelOnly i
  word : (featOf i).isSome = true ∨ kernelOnly i = true → ∃ w, encode i = .word w ∧ u.word = w.toNat
  operands : ∀ o, operandsOf s i = some o → o.NamedBy u

/-- An instruction that is checked for nothing. -/
structure Unchecked (i : Instr) (s : State) : Prop where
  feat : featOf i = none
  kern : kernelOnly i = false
  operands : operandsOf s i = none

theorem does_congr {i : Instr} {s t t' : State} (h : does i s t) (e : t = t') : does i s t' := e ▸ h

/-- The word of a trap record that a frame gives. -/
theorem w64_word {u : Use} {w : BitVec 32} (h : u.word = w.toNat) : w64 u.word = w.setWidth 64 := by
  rw [h]
  exact BitVec.ofNat_toNat 64 w

/-- R132: a register that a frame names and that a held instruction will write. -/
theorem Use.pending_some {u : Use} {h : Thread} (hheld : ∃ r ∈ u.names, (h.pendingAt r).isSome = true) :
    ∃ r ∈ u.names, ∃ e, h.pendingAt r = some e ∧ u.pending h = some (r, e) := by
  have hsome : (u.pending h).isSome = true := by
    obtain ⟨r, hr, hp⟩ := hheld
    obtain ⟨e, he⟩ := Option.isSome_iff_exists.1 hp
    unfold Use.pending
    rw [List.findSome?_isSome_iff]
    exact ⟨r, hr, by rw [he]; rfl⟩
  obtain ⟨⟨r, e⟩, hp⟩ := Option.isSome_iff_exists.1 hsome
  obtain ⟨r', hr', hmap⟩ := List.exists_of_findSome?_eq_some hp
  obtain ⟨e', he', heq⟩ := Option.map_eq_some_iff.1 hmap
  cases heq
  exact ⟨r, hr', e, he', hp⟩

/-- R75: a register that a frame reads and that awaits a value. -/
theorem Use.awaiting_cons {u : Use} {s : State} (hwait : ∃ r ∈ u.reads, (s.armOf r).st = .awaiting) :
    ∃ r rs, u.awaiting s = r :: rs ∧ r ∈ u.reads ∧ (s.armOf r).st = .awaiting := by
  have hmem : ∀ r, r ∈ u.awaiting s ↔ r ∈ u.reads ∧ (s.armOf r).st = .awaiting := fun r => by
    rw [Use.awaiting, List.mem_filter, beq_iff_eq]
  obtain ⟨q, hq⟩ := hwait
  cases ha : u.awaiting s with
  | nil => exact absurd ((hmem q).2 hq) (by rw [ha]; exact List.not_mem_nil)
  | cons r rs =>
    obtain ⟨hr, hst⟩ := (hmem r).1 (ha ▸ List.mem_cons_self)
    exact ⟨r, rs, rfl, hr, hst⟩

section
variable {i : Instr} {s : State} {u : Use} (h : Framed i s u)
include h

/-- R328: an instruction that may be issued passes the checks of its feature and its privilege. -/
theorem Framed.granted (hf : ∀ w f, encode i = .word w → featureOf w = some f → s.myCtx.feat.getLsbD f = true) (f : Nat)
    (hu : u.feat = some f) : s.granted f := by
  have hfeat : featOf i = some f := h.feat.symm.trans hu
  obtain ⟨w, hw, -⟩ := h.word (.inl (by rw [hfeat]; rfl))
  exact hf w f hw ((featureOf_encode hw).trans hfeat)

/-- R373: an instruction of a feature that the context lacks. -/
theorem Framed.feature {w : BitVec 32} {f : Nat} (hw : encode i = .word w) (hf : featureOf w = some f)
    (hno : s.myCtx.feat.getLsbD f = false) : does i s (s.raise tFEATURE (w.setWidth 64)) := by
  obtain ⟨body, hrun⟩ := h.runs
  have hfeat : featOf i = some f := (featureOf_encode hw).symm.trans hf
  obtain ⟨w', hw', hword⟩ := h.word (.inl (by rw [hfeat]; rfl))
  have heq : w' = w := Encoding.word.inj (hw'.symm.trans hw)
  rw [heq] at hword
  refine does_congr hrun ?_
  rw [Use.run_feature body (h.feat.trans hfeat) hno, w64_word hword]

/-- R335, R362, R388: a kernel instruction in a user thread. -/
theorem Framed.privilege (hkern : kernelOnly i = true)
    (hf : ∀ w f, encode i = .word w → featureOf w = some f → s.myCtx.feat.getLsbD f = true) (hno : s.th.kern = false) :
    traps i s tPRIVILEGE (w64 (encodeNat i)) := by
  obtain ⟨body, hrun⟩ := h.direct hkern
  obtain ⟨w, hw, hword⟩ := h.word (.inr hkern)
  have hnat : encodeNat i = u.word := by
    unfold encodeNat
    rw [hw, hword]
  refine hrun.trans (congrArg _ ?_)
  rw [Use.run_privilege body (h.granted hf) (h.kern.trans hkern) hno, hnat]

section
variable {o : Operands} (ho : operandsOf s i = some o) (hissue : mayIssue s i)
include ho hissue

/-- R132: an instruction that names a register that a held instruction will write. -/
theorem Framed.hold (hheld : ∃ r ∈ o.names, (s.th.pendingAt r).isSome = true) :
    ∃ r ∈ o.names, ∃ e, s.th.pendingAt r = some e ∧
      (stBit s.th.st 1 = true → does i s (s.raise tHOLD (holdInfo r e.seq))) ∧
      (stBit s.th.st 1 = false → does i s s.skipCounted) := by
  obtain ⟨body, hrun⟩ := h.runs
  obtain ⟨hf, hk⟩ := hissue
  have hnames := (h.operands o ho).names
  obtain ⟨r, hr, e, he, hpend⟩ := Use.pending_some (u := u) (h := s.th) (by simpa only [hnames] using hheld)
  have hrun' := Use.run_pending body (h.granted hf) (fun hu => hk (h.kern.symm.trans hu)) hpend
  exact ⟨r, (hnames r).1 hr, e, he, fun hb => does_congr hrun (hrun'.trans (if_pos hb)),
    fun hb => does_congr hrun (hrun'.trans (if_neg (by rw [hb]; exact Bool.false_ne_true)))⟩

/-- R75: an instruction without a policy a source of which awaits a value. -/
theorem Framed.awaits (hpol : o.policy = false) (hheld : s.unheld o.names)
    (hwait : ∃ r ∈ o.reads, (s.armOf r).st = .awaiting) :
    ∃ r ∈ o.reads, (s.armOf r).st = .awaiting ∧ does i s (s.raise tAWAITING (w64 r.toNat)) := by
  obtain ⟨body, hrun⟩ := h.runs
  obtain ⟨hf, hk⟩ := hissue
  have hnamed := h.operands o ho
  have hpend : u.pending s.th = none := Use.pending_none (hheld.mono fun r hr => (hnamed.names r).1 hr)
  obtain ⟨r, rs, ha, hr, hst⟩ := Use.awaiting_cons (u := u) (s := s) (by simpa only [hnamed.reads hpol] using hwait)
  exact ⟨r, (hnamed.reads hpol r).1 hr, hst, does_congr hrun
    (Use.run_awaiting body (h.granted hf) (fun hu => hk (h.kern.symm.trans hu)) hpend ha (hnamed.pol hpol))⟩

end
end

/-- R75, R132, R328: the traps of what an instruction may not be issued for, by its frame. -/
theorem issueTraps_of_framed (h : ∀ (i : Instr) (s : State), i.wf = true → s.th.cap = none →
      Unchecked i s ∨ ∃ u, Framed i s u) : Claims.issueTraps := by
  intro i s hwf hcap
  rcases h i s hwf hcap with hbare | ⟨u, hu⟩
  · refine ⟨fun w f hw hf => ?_, fun hk => absurd hk (by rw [hbare.kern]; exact Bool.false_ne_true), fun o ho => ?_⟩
    · exact absurd ((featureOf_encode hw).symm.trans hf) (by rw [hbare.feat]; nofun)
    · exact absurd ho (by rw [hbare.operands]; nofun)
  · exact ⟨fun w f hw hf hno => hu.feature hw hf hno,
      fun hk hf hno => hu.privilege hk hf hno,
      fun o ho hissue => ⟨fun hheld => hu.hold ho hissue hheld, fun hpol hn hwait => hu.awaits ho hissue hpol hn hwait⟩⟩

end Sys2Proof.Claims

end

section
/-! SUPPORT. The frame of each instruction (R75, R132, R328, R373): its row in the tables of operands is what it is checked
for. -/

namespace Sys2Proof.Claims

open Sys2Proof.Machine

/-! ### Operands that a frame names -/

section
variable {u : Use} {ns rs : List (BitVec 6)}

theorem named_policy (h : u.names = ns.map .x) : (scalars ns rs true).NamedBy u :=
  ⟨fun r => by rw [h]; rfl, nofun, nofun⟩

theorem named_scalars (h : u.names = ns.map .x) (hpol : u.pol = none) (hreads : u.reads = rs) :
    (scalars ns rs false).NamedBy u :=
  ⟨fun r => by rw [h]; rfl, fun _ => hpol, fun _ r => by rw [hreads]; rfl⟩

end

/-! ### Scalar instructions -/

section
variable {i : Instr} {s : State} {u : Use} {ops : Operands}

/-- The frame of an instruction of no feature that every thread may execute. -/
theorem Framed.plain (he : ∃ body, exec i s = .next (u.run s body)) (hf : u.feat = none) (hk : u.kern = false)
    (hif : featOf i = none) (hik : kernelOnly i = false) (hops : operandsOf s i = some ops) (hn : ops.NamedBy u) :
    Framed i s u where
  runs := he.imp fun _ h => .inl h
  direct := fun _ => he
  feat := hf.trans hif.symm
  kern := hk.trans hik.symm
  word := fun h => by rw [hif, hik] at h; exact absurd h (by decide)
  operands := fun o ho => by cases hops.symm.trans ho; exact hn

/-- The frame of an instruction that holds its own word. -/
theorem Framed.coded {w : BitVec 32} (he : ∃ body, exec i s = .next (u.run s body)) (hf : u.feat = featOf i)
    (hk : u.kern = kernelOnly i) (hw : encode i = .word w) (hword : u.word = w.toNat)
    (hn : ∀ o, operandsOf s i = some o → o.NamedBy u) : Framed i s u where
  runs := he.imp fun _ h => .inl h
  direct := fun _ => he
  feat := hf
  kern := hk
  word := fun _ => ⟨w, hw, hword⟩
  operands := hn

theorem named_of_eq (hops : operandsOf s i = some ops) (hn : ops.NamedBy u) (o : Operands) (ho : operandsOf s i = some o) :
    o.NamedBy u := by
  cases hops.symm.trans ho
  exact hn

/-- The frame of a row of the tables of register operations. -/
theorem framed_row {p : RegSpec} (h : p.Runs i s) (hif : featOf i = none) (hik : kernelOnly i = false)
    (hops : operandsOf s i = some ⟨p.names, p.reads, false⟩) : ∃ u, Framed i s u := by
  obtain ⟨u, body, h⟩ := h
  exact ⟨u, .plain ⟨body, h.exec_eq⟩ h.feat h.kern hif hik hops
    ⟨h.names, fun _ => h.pol, fun _ r => by rw [h.reads]⟩⟩

/-- The frame of a branch. -/
theorem framed_branch {p : BranchSpec} (h : p.Runs i s) (hif : featOf i = none) (hik : kernelOnly i = false)
    (hops : operandsOf s i = some (scalars (p.reads ++ p.links) p.reads false)) : ∃ u, Framed i s u := by
  obtain ⟨body, he, -⟩ := h
  exact ⟨p.use, .plain ⟨body, he⟩ rfl rfl hif hik hops (named_scalars rfl rfl rfl)⟩

end

/-! ### Vector instructions -/

/-- A row of the tables of vector instructions has the registers of an instruction. -/
structure VecSpec.FitBy (p : VecSpec) (o : VOp) : Prop where
  regs : ∀ r, r ∈ o.srcs.map RegN.v ++ (o.dst.map RegN.v).toList ++ o.dx.toList ↔ r ∈ p.dst :: p.srcs.map .v
  xs : o.xs = p.x
  ks : o.ks = p.ks

/-- R132: the registers that a vector instruction names, its mask register included. -/
theorem VecSpec.FitBy.names {p : VecSpec} {o : VOp} (h : p.FitBy o) {s : State} (hcap : s.th.cap = none) (r : RegN) :
    r ∈ (o.use s).names ↔ r ∈ p.names s := by
  have hregs := h.regs r
  have hx : ((p.x.map xreg).toList).map RegN.x = p.x.toList.map (fun q => RegN.x (xreg q)) := by cases p.x <;> rfl
  have hk : (p.ks.map RegN.k).toList = p.ks.toList.map .k := by cases p.ks <;> rfl
  unfold VOp.use VecSpec.names
  cases hl : s.th.prefixLatch
  all_goals
    simp only [List.mem_append] at hregs
    simp only [hl, hcap, h.xs, h.ks, hx, hk, Option.isNone_none, if_true, Bool.and_true, List.mem_append, ← hregs]
    tauto

section
variable {i : Instr} {s : State} {o : VOp} {p : VecSpec} {w : BitVec 32} {f : VIn → State → Acc VOut}

/-- The frame of a vector instruction. -/
theorem framed_vector (hcap : s.th.cap = none) (he : exec i s = o.run s f) (hif : featOf i = some fVector)
    (hik : kernelOnly i = false) (hw : encode i = .word w) (hword : o.word = w.toNat)
    (hops : operandsOf s i = some ⟨p.names s, p.x.toList.map xreg, true⟩) (hfit : p.FitBy o) : ∃ u, Framed i s u :=
  ⟨o.use s, {
    runs := ⟨o.body f, .inr he⟩
    direct := fun h => absurd h (by rw [hik]; exact Bool.false_ne_true)
    feat := hif.symm
    kern := hik.symm
    word := fun _ => ⟨w, hw, hword⟩
    operands := named_of_eq hops ⟨fun r => hfit.names hcap r, nofun, nofun⟩ }⟩

end

/-- The minor of a vector integer operation holds its width. -/
theorem vw_width {n : Nat} (hn : n < 16) (w : BitVec 2) (p : Policy) (h : BitVec 2) (b a d : BitVec 5) :
    vw (16 * w.toNat + n) p h b a d 17 = (VFmt.pack (w ++ BitVec.ofNat 4 n) p.bits h b a d 17#5).toNat := by
  have hminor : BitVec.ofNat 6 (16 * w.toNat + n) = w ++ BitVec.ofNat 4 n := by
    refine BitVec.eq_of_toNat_eq ?_
    have hw := w.isLt
    rw [BitVec.toNat_ofNat, BitVec.toNat_append, BitVec.toNat_ofNat, Nat.mod_eq_of_lt (b := 2 ^ 4) hn,
      ← Nat.shiftLeft_add_eq_or_of_lt hn, Nat.shiftLeft_eq]
    omega
  unfold vw
  rw [hminor]

/-! ### The tables -/

section
variable {i : Instr} {s : State}

theorem framed_alu {p : RegSpec} (h : aluSpec i = some p) : ∃ u, Framed i s u := by
  cases i
  case add | sub | and | or | xor | sll | srl | sra | slt | sltu | min | max | minu | maxu | mv | addw | subw | sllw |
      srlw | sraw | sh1add | sh2add | sh3add | sh4add | clz | ctz | cpop | rev8 | brev | andn | orn | xnor | rol | ror |
      bset | bclr | binv | bext | ext | sextb | sexth | sextw | mod31 | div31 | bankof | rowof | spa | addm31 =>
    exact framed_row (runs_aluSpec s h) rfl rfl (by cases h; rfl)
  all_goals cases h

theorem framed_div {p : RegSpec} (h : divSpec i = some p) : ∃ u, Framed i s u := by
  cases i
  case mul | mulh | mulhu | mulhsu | mulw | mulN | div | divu | rem | remu | divw | divuw | remw | remuw =>
    exact framed_row (runs_divSpec s h) rfl rfl (by cases h; rfl)
  all_goals cases h

theorem framed_imm {p : RegSpec} (h : immSpec i = some p) : ∃ u, Framed i s u := by
  cases i
  case addi | li | andi | ori | xori | slti | sltiu | slli | srli | srai | rori | lix | lixu | insh | kpack | land =>
    exact framed_row (runs_immSpec s h) rfl rfl (by cases h; rfl)
  all_goals cases h

theorem framed_compact {p : RegSpec} (h : compactSpec i = some p) : ∃ u, Framed i s u := by
  cases i
  case addN | subN | andN | orN | xorN | sllN | srlN | sraN | addiN | liN | slliN | srliN | sraiN | andiN | addiNSp |
      nopN =>
    exact framed_row (runs_compactSpec s h) rfl rfl (by cases h; rfl)
  all_goals cases h

theorem framed_fp {p : RegSpec} (h : fpSpec i = some p) : ∃ u, Framed i s u := by
  cases i
  case fadd | fsub | fmul | fdiv | fmin | fmax | feq | flt | fle | fmadd | fmsub | fsqrt | fsgnj | fsgnjn | fsgnjx |
      fclass | ftoi | ftou | ftol | ftoul | itof | utof | ltof | ultof | ftobf | bftof =>
    exact framed_row (runs_fpSpec s h) rfl rfl (by cases h; rfl)
  all_goals cases h

theorem framed_frame {p : RegSpec} (h : frameSpec i = some p) (hwf : i.wf = true) : ∃ u, Framed i s u := by
  cases i
  case enter | enterFp | leave | leaveFp => exact framed_row (runs_frameSpec s h hwf) rfl rfl (by cases h; rfl)
  all_goals cases h

theorem framed_branches {p : BranchSpec} (h : branchSpec i = some p) : ∃ u, Framed i s u := by
  cases i
  case beq | bne | blt | bge | bltu | bgeu | bnr | brd | j | jN | call | jr | jrN | callr | callrN | ret | retN =>
    exact framed_branch (runs_branchSpec s h) rfl rfl (by cases h; rfl)
  all_goals cases h

theorem framed_access {p : AccessSpec} (h : accessSpec i = some p) : ∃ u, Framed i s u := by
  cases i
  case ldW | ldD | stW | stD | ldMn | stMn | ldDN | stDN | ldWN | stWN | ldDNSp | stDNSp =>
    exact ⟨_, .plain ⟨_, rfl⟩ rfl rfl rfl rfl rfl (named_policy rfl)⟩
  all_goals cases h

theorem framed_bankAccess {p : AccessSpec} (h : spSpec i = some p ∨ vmSpec i = some p) : ∃ u, Framed i s u := by
  cases i
  case ldSp | stSp | ldVm | stVm => exact ⟨_, .plain ⟨_, rfl⟩ rfl rfl rfl rfl rfl (named_policy rfl)⟩
  all_goals exact h.elim nofun nofun

/-- The frame of an atomic. -/
theorem runs_opAmo {op : Nat} {p : Policy} {w : BitVec 1} {sc : BitVec 5} {a d : BitVec 6}
    (he : exec i s = .next (opAmo op p w sc a d s)) : ∃ body, exec i s = .next ((((memUse p
      (if op = 1 then [a, d, d + 1#6] else [a, d]) []).carries a [d, d + 1#6]).scoped sc.toNat).run s body) := by
  unfold opAmo at he
  exact ⟨_, he⟩

theorem runs_opAmoBank {op : Nat} {vm : Bool} {p : Policy} {sc : BitVec 5} {a d : BitVec 6}
    (he : exec i s = .next (opAmoBank op vm p sc a d s)) : ∃ body, exec i s = .next ((((memUse p
      (if op = 1 then [a, d, d + 1#6] else [a, d]) []).carries a [d, d + 1#6]).scoped sc.toNat).run s body) := by
  unfold opAmoBank at he
  exact ⟨_, he⟩

theorem framed_amo {p : AmoSpec} (h : amoSpec i = some p) : ∃ u, Framed i s u := by
  cases i
  case amoSwap | amoCas | amoAdd | amoAnd | amoOr | amoXor | amoMin | amoMax | amoMinu | amoMaxu =>
    exact ⟨_, .plain (runs_opAmo rfl) rfl rfl rfl rfl rfl (named_policy rfl)⟩
  all_goals cases h

theorem framed_bank {p : Bool × AmoSpec} (h : bankSpec i = some p) : ∃ u, Framed i s u := by
  cases i
  case amoSpSwap | amoSpCas | amoSpAdd | amoVmSwap | amoVmCas | amoVmAdd =>
    exact ⟨_, .plain (runs_opAmoBank rfl) rfl rfl rfl rfl rfl (named_policy rfl)⟩
  all_goals cases h

theorem runs_opUpd {k : Nat} {p : Policy} {w : BitVec 1} {a d : BitVec 6} (he : exec i s = .next (opUpd k p w a d s)) :
    ∃ body, exec i s = .next (((memUse p [a, d] []).carries a [d]).run s body) := by
  unfold opUpd at he
  exact ⟨_, he⟩

theorem framed_upd {p : Nat × BitVec 1 × BitVec 6 × BitVec 6} (h : updSpec i = some p) : ∃ u, Framed i s u := by
  cases i
  case updAdd | updMin | updMax => exact ⟨_, .plain (runs_opUpd rfl) rfl rfl rfl rfl rfl (named_policy rfl)⟩
  all_goals cases h

theorem framed_rel {p : Nat × BitVec 5 × BitVec 6 × BitVec 6} (h : relSpec i = some p) : ∃ u, Framed i s u := by
  cases i
  case stRelW | stRelD => exact ⟨_, .plain ⟨_, rfl⟩ rfl rfl rfl rfl rfl (named_policy rfl)⟩
  all_goals cases h

/-- The frame of a place form. -/
def placeUse (form : Nat) (p : Policy) (c a d : BitVec 6) : Use :=
  let store := form == 2 || form == 3 || form == 5 || form == 7
  { (memUse p (a :: placeRegs c ++ (if store then [d] else [])) (if store then [] else [d])) with
    data := if store then [d].filter (fun r => r != a && r != c) else []
    early := fun rs s =>
      let pl := if rs.any (placeRegs c).contains then 0#64 else s.placeArg c
      if pl.toNat > s.th.pm1 then .trap tPLACE pl
      else placeCheck form (if rs.contains a then 0#64 else s.xr a) (fun _ =>
        if s.th.rl.st = .busy then .nr [.reply] 12 s else .skip s) }

theorem runs_opPlace {form : Nat} {p : Policy} {c a d : BitVec 6} (he : exec i s = .next (opPlace form p c a d s)) :
    ∃ body, exec i s = .next ((placeUse form p c a d).run s body) := by
  unfold opPlace at he
  exact ⟨_, he⟩

theorem framed_place {p : PlaceSpec} (h : placeSpec i = some p) : ∃ u, Framed i s u := by
  cases i
  case ldffPlace | ldfePlace | stefPlace | stffPlace | ldSpDPlace | stSpDPlace | ldVmDPlace | stVmDPlace =>
    exact ⟨_, .plain (runs_opPlace rfl) rfl rfl rfl rfl rfl (named_policy rfl)⟩
  all_goals cases h

theorem framed_tile {p : TileSpec} (h : tileSpec s i = some p) : ∃ u, Framed i s u := by
  cases i
  case tsh | tld | tst | tzero | mma | tqnt =>
    exact ⟨_, .coded ⟨_, rfl⟩ rfl rfl rfl rfl (named_of_eq rfl (named_policy rfl))⟩
  all_goals cases h

/-- The frame of a copy. -/
theorem runs_opCopy {m5 idxd : Nat} {dst src : Space} {p : Policy} {b a : BitVec 5} {r w : BitVec 1} {q : BitVec 3}
    (he : exec i s = .next (opCopy m5 idxd dst src p b a r w q s)) :
    ∃ body, exec i s = .next (({ (copyUse (rpw p.bits m5 (b ++ 0#1) (a ++ 0#1) (0#1 ++ r ++ w ++ q) 25)
      (pairRegs a ++ pairRegs b) p) with data := pairRegs a ++ pairRegs b } : Use).run s body) := by
  unfold opCopy at he
  exact ⟨_, he⟩

theorem framed_copy {p : CopySpec} (h : copySpec i = some p) : ∃ u, Framed i s u := by
  cases i
  case cpMm | cpMs | cpMv | cpSm | cpSs | cpSv | cpVm | cpVs | cpVv | cpGth | cpSct =>
    exact ⟨_, .coded (runs_opCopy rfl) rfl rfl rfl rfl (named_of_eq rfl (named_policy rfl))⟩
  all_goals cases h

/-- The frame of a collective. -/
theorem runs_opColl {form : Nat} {p : Policy} {b a : BitVec 6} {q : BitVec 2}
    (he : exec i s = .next (opColl form p b a q s)) : ∃ early body, exec i s = .next
      (({ (collUse (rpw p.bits form b a (0#4 ++ q) 26) [a, b] p) with early := early } : Use).run s body) := by
  unfold opColl at he
  exact ⟨_, _, he⟩

theorem framed_opColl {form : Nat} {p : Policy} {b a : BitVec 6} {q : BitVec 2} {w : BitVec 32}
    (he : exec i s = .next (opColl form p b a q s)) (hif : featOf i = some fCollective) (hik : kernelOnly i = false)
    (hw : encode i = .word w) (hword : rpw p.bits form b a (0#4 ++ q) 26 = w.toNat)
    (hops : operandsOf s i = some (scalars [a, b] [a, b])) : ∃ u, Framed i s u := by
  obtain ⟨early, hrun⟩ := runs_opColl he
  exact ⟨_, .coded hrun hif.symm hik.symm hw hword (named_of_eq hops (named_policy rfl))⟩

theorem framed_coll {p : Nat × BitVec 6 × BitVec 6 × BitVec 2} (h : collSpec i = some p) : ∃ u, Framed i s u := by
  cases i
  case clAredSum | clAredMax | clAredMin | clBcst | clGath =>
    exact framed_opColl rfl rfl rfl rfl rfl rfl
  all_goals cases h

/-! ### The other instructions -/

/-- R67: a stream register is of the upper half of the vector registers. -/
theorem streamField (n : BitVec 2) : (0#1 ++ streamReg n : BitVec 6) = 3#4 ++ n := by
  revert n
  decide

/-- R177: the minor of `snd.a` holds the index. -/
theorem ofNat_index (m : BitVec 3) : BitVec.ofNat 5 (8 + m.toNat) = 1#2 ++ m := by
  revert m
  decide

theorem framed_rest {o : Operands} (h : restOperands i = some o) : ∃ u, Framed i s u := by
  cases i
  case ldff | ldfe | feTest | pin | stef | stff | park | cbInit | cbArr | cbWt | cbClr =>
    exact ⟨_, .plain ⟨_, rfl⟩ rfl rfl rfl rfl rfl (named_policy rfl)⟩
  case hbarArr | hbarWt | rcv | snd | launch | cast | recast | mlease | tshr | qfCp | qfCl | tlbInv | tlbProbe |
      atpWr | ctxNew | ctxGrant | ctxWr | ctxRun | ctxStop | ctxKill | ctxResume =>
    exact ⟨_, .coded ⟨_, rfl⟩ rfl rfl rfl rfl (named_of_eq rfl (named_policy rfl))⟩
  case feEmpty | unpin | wake | copReplay | mtsr | sleep | rdskip | selfid | placeSelf | placeLoad | mfsr | place =>
    exact ⟨_, .plain ⟨_, rfl⟩ rfl rfl rfl rfl rfl (named_scalars rfl rfl rfl)⟩
  case ctxIntr | fabst | atpRd | mfcr | ctxRd | mtcr | fltDone | arm | disarm =>
    exact ⟨_, .coded ⟨_, rfl⟩ rfl rfl rfl rfl (named_of_eq rfl (named_scalars rfl rfl rfl))⟩
  case scfg | sclr | srem =>
    refine ⟨_, .coded ⟨_, rfl⟩ rfl rfl rfl ?_ (named_of_eq rfl ⟨fun _ => Iff.rfl, fun _ => rfl, fun _ _ => Iff.rfl⟩)⟩
    simp only [strUse, streamField]
    rfl
  case kunpack => exact ⟨_, .plain ⟨_, rfl⟩ rfl rfl rfl rfl rfl ⟨fun _ => Iff.rfl, fun _ => rfl, fun _ _ => Iff.rfl⟩⟩
  case sndA p m b a d =>
    refine ⟨_, .coded ⟨_, rfl⟩ rfl rfl rfl ?_ (named_of_eq rfl (named_policy rfl))⟩
    show rpw p.bits (8 + m.toNat) b a d 13 = _
    rw [rpw, ofNat_index]
  case mint r n a d =>
    refine ⟨_, .coded ⟨_, rfl⟩ rfl rfl rfl rfl (named_of_eq rfl ⟨fun q => ?_, fun _ => rfl, fun _ _ => Iff.rfl⟩)⟩
    simp only [fabUse, scalars, List.map_append, List.mem_append, List.map_cons, List.mem_cons, List.map_nil,
      List.not_mem_nil, or_false]
    exact or_comm
  case copRd n a d =>
    by_cases hn : n.toNat < 2
    · have hops : operandsOf s (.copRd n a d) = some (scalars [a, d] [a] false) := congrArg some (if_pos hn)
      exact ⟨_, .plain ⟨_, rfl⟩ rfl rfl rfl rfl hops (named_scalars (by rw [if_pos hn]; rfl) rfl (if_pos hn))⟩
    · have hops : operandsOf s (.copRd n a d) = some (scalars [d] [] false) := congrArg some (if_neg hn)
      exact ⟨_, .plain ⟨_, rfl⟩ rfl rfl rfl rfl hops (named_scalars (by rw [if_neg hn]; rfl) rfl (if_neg hn))⟩
  all_goals cases h

/-- R328: the instructions that are checked for a feature or a kernel thread. -/
def checked (i : Instr) : Bool := (featOf i).isSome || kernelOnly i

theorem framed_of_no_operands (hc : checked i = true) (h : operandsOf s i = none) : ∃ u, Framed i s u := by
  cases i
  case mrel | tlbInva => exact ⟨_, .coded ⟨_, rfl⟩ rfl rfl rfl rfl nofun⟩
  all_goals nomatch hc, h

end

end Sys2Proof.Claims

end

section
/-! SUPPORT. The frames of the vector instructions, and with them the traps of what an instruction may not be issued for
(R75, R132, R328, R335, R362, R373, R388). -/

namespace Sys2Proof.Claims

open Sys2Proof.Machine

section
variable {o : VOp} {p : VecSpec}

/-- The registers of an instruction that writes a vector register. -/
theorem fit_vector {d : BitVec 5} (hd : p.dst = .v d) (hsrcs : o.srcs = p.srcs) (hdst : o.dst = some d) (hdx : o.dx = none)
    (hx : o.xs = p.x) (hk : o.ks = p.ks) : p.FitBy o :=
  ⟨fun r => by simp [hd, hsrcs, hdst, hdx, or_comm], hx, hk⟩

/-- The registers of one that writes a scalar or a mask register. -/
theorem fit_other {r : RegN} (hd : p.dst = r) (hsrcs : o.srcs = p.srcs) (hdst : o.dst = none) (hdx : o.dx = some r)
    (hx : o.xs = p.x) (hk : o.ks = p.ks) : p.FitBy o :=
  ⟨fun q => by simp [hd, hsrcs, hdst, hdx, or_comm], hx, hk⟩

/-- The registers of a store. -/
theorem fit_store {d : BitVec 5} (hd : p.dst = .v d) (hp : p.srcs = []) (hsrcs : o.srcs = [d]) (hdst : o.dst = none)
    (hdx : o.dx = none) (hx : o.xs = p.x) (hk : o.ks = p.ks) : p.FitBy o :=
  ⟨fun r => by simp [hd, hp, hsrcs, hdst, hdx], hx, hk⟩

end

section
variable {i : Instr} {s : State} {p : VecSpec} (hcap : s.th.cap = none)
include hcap

theorem framed_vecInt (h : vecIntSpec s i = some p) : ∃ u, Framed i s u := by
  cases i
  case vadd | vsub | vmul | vsll | vsrl | vsra | vmin | vmax | vminu | vmaxu =>
    exact framed_vector hcap rfl rfl rfl rfl (vw_width (by decide) _ _ _ _ _ _) rfl (fit_vector rfl rfl rfl rfl rfl rfl)
  case vand | vor | vxor | vandn | vbcast =>
    exact framed_vector hcap rfl rfl rfl rfl rfl rfl (fit_vector rfl rfl rfl rfl rfl rfl)
  case vieq | vilt | viltu | kget | kset =>
    exact framed_vector hcap rfl rfl rfl rfl rfl rfl (fit_other rfl rfl rfl rfl rfl rfl)
  all_goals cases h

theorem framed_vecPerm (h : vecPermSpec s i = some p) : ∃ u, Framed i s u := by
  cases i
  case vperm | vperm2 | vrot | vins =>
    exact framed_vector hcap rfl rfl rfl rfl rfl rfl (fit_vector rfl rfl rfl rfl rfl rfl)
  case vext | vsumI32 | vmaxI32 | vminI32 | vsumI16 | vsumI8 | vsumF | vmaxF | vminF | vsumBf =>
    exact framed_vector hcap rfl rfl rfl rfl rfl rfl (fit_other rfl rfl rfl rfl rfl rfl)
  all_goals cases h

theorem framed_vecFp (h : vecFpSpec s i = some p) : ∃ u, Framed i s u := by
  cases i
  case vfadd | vfsub | vfmul | vfmin | vfmax | vfabs | vfneg | vfma | vfms | vfma4 | vrcpA | vrsqA | vrcpS | vrsqS |
      vexp2A | vlog2A | vcvtFI | vcvtIF | vcvtBfF | vcvtFBf | vcvtFMk8 | vpackI16 | vunpkI16 | vunpkI8 | vquant =>
    exact framed_vector hcap rfl rfl rfl rfl rfl rfl (fit_vector rfl rfl rfl rfl rfl rfl)
  case vfeq | vflt | vfle => exact framed_vector hcap rfl rfl rfl rfl rfl rfl (fit_other rfl rfl rfl rfl rfl rfl)
  all_goals cases h

theorem framed_vecMem {o : Operands} (hint : vecIntSpec s i = none) (hperm : vecPermSpec s i = none)
    (hfp : vecFpSpec s i = none) (h : vectorOperands s i = some o) : ∃ u, Framed i s u := by
  cases i
  case vld | vldWk | vldSp | vldWin =>
    exact framed_vector hcap rfl rfl rfl rfl rfl rfl (fit_vector rfl rfl rfl rfl rfl rfl)
  case vst | vstWk | vstSp | vstWin =>
    exact framed_vector hcap rfl rfl rfl rfl rfl rfl (fit_store rfl rfl rfl rfl rfl rfl rfl)
  all_goals nomatch hint, hperm, hfp, h

theorem framed_vectorOperands {o : Operands} (h : vectorOperands s i = some o) : ∃ u, Framed i s u := by
  cases hint : vecIntSpec s i with
  | some p => exact framed_vecInt hcap hint
  | none =>
    cases hperm : vecPermSpec s i with
    | some p => exact framed_vecPerm hcap hperm
    | none =>
      cases hfp : vecFpSpec s i with
      | some p => exact framed_vecFp hcap hfp
      | none => exact framed_vecMem hcap hint hperm hfp h

end

/-! ### Every instruction -/

section
variable {α β : Type} {x : Option α} {b : β}

theorem eq_some_of_orElse {f : Unit → Option α} {a : α} (h : x.orElse f = some a) : x = some a ∨ f () = some a := by
  cases x with
  | none => exact .inr h
  | some _ => exact .inl h

theorem eq_some_of_map {f : α → β} (h : x.map f = some b) : ∃ a, x = some a := by
  obtain ⟨a, ha, -⟩ := Option.map_eq_some_iff.1 h
  exact ⟨a, ha⟩

end

section
variable {i : Instr} {s : State}

/-- The frame of an instruction of the tables of register operations. -/
theorem framed_of_regSpec {p : RegSpec} (hwf : i.wf = true) (h : ((aluSpec i).orElse (fun _ => (divSpec i).orElse (fun _ =>
    (immSpec i).orElse (fun _ => (compactSpec i).orElse (fun _ => (fpSpec i).orElse (fun _ => frameSpec i)))))) = some p) :
    ∃ u, Framed i s u := by
  rcases eq_some_of_orElse h with h | h
  · exact framed_alu h
  rcases eq_some_of_orElse h with h | h
  · exact framed_div h
  rcases eq_some_of_orElse h with h | h
  · exact framed_imm h
  rcases eq_some_of_orElse h with h | h
  · exact framed_compact h
  rcases eq_some_of_orElse h with h | h
  · exact framed_fp h
  · exact framed_frame h hwf

/-- The frame of an instruction of the tables of accesses. -/
theorem framed_of_accessSpec {p : AccessSpec}
    (h : ((accessSpec i).orElse (fun _ => (spSpec i).orElse (fun _ => vmSpec i))) = some p) : ∃ u, Framed i s u := by
  rcases eq_some_of_orElse h with h | h
  · exact framed_access h
  · exact framed_bankAccess (eq_some_of_orElse h)

/-- The frame of an instruction of the tables of atomics. -/
theorem framed_of_amoSpec {p : AmoSpec} (h : ((amoSpec i).orElse (fun _ => (bankSpec i).map (·.2))) = some p) :
    ∃ u, Framed i s u := by
  rcases eq_some_of_orElse h with h | h
  · exact framed_amo h
  · obtain ⟨p, h⟩ := eq_some_of_map h
    exact framed_bank h

/-- The frame of an instruction that names registers, table by table. -/
theorem framed_of_operands {o : Operands} (hwf : i.wf = true) (hcap : s.th.cap = none) (h : operandsOf s i = some o) :
    ∃ u, Framed i s u := by
  unfold operandsOf at h
  rcases eq_some_of_orElse h with h | h
  · obtain ⟨p, h⟩ := eq_some_of_map h
    exact framed_of_regSpec hwf h
  rcases eq_some_of_orElse h with h | h
  · obtain ⟨p, h⟩ := eq_some_of_map h
    exact framed_branches h
  rcases eq_some_of_orElse h with h | h
  · obtain ⟨p, h⟩ := eq_some_of_map h
    exact framed_of_accessSpec h
  rcases eq_some_of_orElse h with h | h
  · obtain ⟨p, h⟩ := eq_some_of_map h
    exact framed_of_amoSpec h
  rcases eq_some_of_orElse h with h | h
  · obtain ⟨p, h⟩ := eq_some_of_map h
    exact framed_upd h
  rcases eq_some_of_orElse h with h | h
  · obtain ⟨p, h⟩ := eq_some_of_map h
    exact framed_rel h
  rcases eq_some_of_orElse h with h | h
  · obtain ⟨p, h⟩ := eq_some_of_map h
    exact framed_place h
  rcases eq_some_of_orElse h with h | h
  · obtain ⟨p, h⟩ := eq_some_of_map h
    exact framed_tile h
  rcases eq_some_of_orElse h with h | h
  · obtain ⟨p, h⟩ := eq_some_of_map h
    exact framed_copy h
  rcases eq_some_of_orElse h with h | h
  · obtain ⟨p, h⟩ := eq_some_of_map h
    exact framed_coll h
  rcases eq_some_of_orElse h with h | h
  · exact framed_rest h
  · exact framed_vectorOperands hcap h

end

theorem framed_or_unchecked (i : Instr) (s : State) (hwf : i.wf = true) (hcap : s.th.cap = none) :
    Unchecked i s ∨ ∃ u, Framed i s u := by
  cases ho : operandsOf s i with
  | some o => exact .inr (framed_of_operands hwf hcap ho)
  | none =>
    cases hc : checked i with
    | true => exact .inr (framed_of_no_operands hc ho)
    | false =>
      unfold checked at hc
      rw [Bool.or_eq_false_iff, Option.isSome_eq_false_iff, Option.isNone_iff_eq_none] at hc
      exact .inl ⟨hc.1, hc.2, ho⟩

end Sys2Proof.Claims

open Sys2Proof Sys2Proof.Machine Sys2Proof.Claims

/-- Settles O55: an instruction's frame is what its row in the tables of operands says (`framed_or_unchecked`), and the
traps before its own effect follow from the frame; the traps of an instruction's own are `ownTraps_hold`. -/
theorem preciseTraps : Obligations.PreciseTraps := by
  unfold Obligations.PreciseTraps
  exact ⟨issueTraps_of_framed framed_or_unchecked, ownTraps_hold⟩

end

section
/-! SUPPORT. Lanes of vector registers (R179, R180): their numbers as words, a register made of lanes, and the destination
of an instruction with its disabled lanes merged or zeroed. -/

namespace Sys2Proof.Machine

open Sys2Proof.Claims

/-! ### Lanes as words -/

theorem lane_eq_la (s : State) (w : Nat) (r : BitVec 5) (j : Nat) : lane w (s.vr r) j = (la s w r j).toNat :=
  bitsAt_toNat _ _ _

theorem lane_lt (w : Nat) (v : VWord) (j : Nat) : lane w v j < 2 ^ w := Nat.mod_lt _ (Nat.two_pow_pos w)

theorem bitAt_toNat {n : Nat} (x : BitVec n) (k : Nat) : bitAt x.toNat k = x.getLsbD k := by
  rw [BitVec.getLsbD, Nat.testBit_eq_decide_div_mod_eq]
  rfl

/-- The two's complement value of a number is that of its word. -/
theorem sval_eq_toInt {n : Nat} (x : BitVec n) : sval n x.toNat = x.toInt := by
  unfold sval
  rw [bitAt_toNat, ← BitVec.msb_eq_getLsbD_last, BitVec.toInt_eq_msb_cond, Nat.mod_eq_of_lt x.isLt]
  push_cast
  rfl

theorem ofSval_eq (n : Nat) (z : Int) : ofSval n z = (BitVec.ofInt n z).toNat := by
  rw [BitVec.toNat_ofInt]
  unfold ofSval
  norm_cast

theorem ofSval_sval {n : Nat} (x : BitVec n) : ofSval 32 (sval n x.toNat) = (x.signExtend 32).toNat := by
  rw [sval_eq_toInt, ofSval_eq, BitVec.signExtend]

/-! ### A register made of lanes -/

theorem zipIdx_map_range {α : Type} (f : Nat → α) (n : Nat) :
    ((List.range n).map f).zipIdx = (List.range n).map (fun j => (f j, j)) := by
  apply List.ext_getElem
  · simp
  · intro i h _
    simp

/-- The number that lanes make. -/
theorem bitsAt_foldr_lanes (w : Nat) (l : List Nat) (j : Nat) :
    bitsAt (l.foldr (fun x t => t * 2 ^ w + x % 2 ^ w) 0) (w * j) w = l.getD j 0 % 2 ^ w := by
  unfold bitsAt
  induction l generalizing j with
  | nil => simp
  | cons x l ih =>
    have hx : x % 2 ^ w < 2 ^ w := Nat.mod_lt _ (Nat.two_pow_pos w)
    rw [List.foldr_cons, Nat.mul_comm (List.foldr _ _ _)]
    cases j with
    | zero => simp
    | succ j =>
      rw [Nat.mul_succ, Nat.add_comm (w * j), Nat.pow_add, ← Nat.div_div_eq_div_mul, Nat.mul_add_div (Nat.two_pow_pos w),
        Nat.div_eq_of_lt hx, Nat.add_zero, ih, List.getD_cons_succ]

theorem bitsAt_ofNat (n : Nat) {m lo len : Nat} (h : lo + len ≤ m) :
    bitsAt (BitVec.ofNat m n).toNat lo len = bitsAt n lo len := by
  have hpow : 2 ^ m = 2 ^ lo * 2 ^ (m - lo) := by rw [← Nat.pow_add, Nat.add_sub_cancel' (by omega)]
  unfold bitsAt
  rw [BitVec.toNat_ofNat, hpow, Nat.mod_mul_right_div_self, Nat.mod_mod_of_dvd _ (Nat.pow_dvd_pow 2 (by omega))]

theorem lane_ofLanes {w : Nat} (l : List Nat) {j : Nat} (hj : w * j + w ≤ 512) :
    lane w (ofLanes w l) j = l.getD j 0 % 2 ^ w := by
  rw [← bitsAt_foldr_lanes]
  exact bitsAt_ofNat _ hj

theorem lane_end {w j : Nat} (hj : j < 512 / w) : w * j + w ≤ 512 :=
  calc w * j + w = w * (j + 1) := by rw [Nat.mul_succ]
    _ ≤ w * (512 / w) := Nat.mul_le_mul_left w hj
    _ ≤ 512 := Nat.mul_div_le 512 w

/-- R180: a lane of the destination. -/
theorem lane_mergeLanes {w : Nat} (en : BitVec 16) (z : Bool) (old : VWord) (f : Nat → Nat) {j : Nat}
    (hj : j < 512 / w) : lane w (mergeLanes w en z old ((upTo (512 / w)).map f)) j =
      if en.getLsbD (j * w / 32) then f j % 2 ^ w else if z then 0 else lane w old j := by
  unfold mergeLanes upTo
  rw [zipIdx_map_range, List.map_map, lane_ofLanes _ (lane_end hj), List.getD_eq_getElem _ _ (by simpa using hj),
    List.getElem_map, List.getElem_range]
  dsimp only [Function.comp]
  split
  · rfl
  · split
    · rfl
    · exact Nat.mod_eq_of_lt (lane_lt w old j)

/-- R180: a bit of the mask destination. -/
theorem getLsbD_mergeMask (en : BitVec 16) (z : Bool) (old res : BitVec 16) {j : Nat} (hj : j < 16) :
    (mergeMask en z old res).getLsbD j =
      if en.getLsbD j then res.getLsbD j else if z then false else old.getLsbD j := by
  unfold mergeMask
  rw [BitVec.getLsbD_or, BitVec.getLsbD_and]
  cases z with
  | false =>
    rw [if_neg Bool.false_ne_true, BitVec.getLsbD_and, BitVec.getLsbD_not]
    cases en.getLsbD j <;> simp [hj]
  | true => cases en.getLsbD j <;> simp

/-- A mask made of a test of each position. -/
theorem getLsbD_maskOf (p : Nat → Bool) {j : Nat} (hj : j < 16) : (maskOf p).getLsbD j = p j := by
  have hadd : (fun (n k : Nat) => n + if p k then 2 ^ k else 0) = fun n k => n + b2n (p k) * 2 ^ k := by
    funext n k
    cases p k <;> simp [b2n]
  unfold maskOf
  rw [hadd, BitVec.getLsbD_ofNat]
  show (decide (j < 16) && (bitsNat p 16).testBit j) = p j
  rw [testBit_bitsNat]
  simp [hj]

end Sys2Proof.Machine

end

section
/-! SUPPORT. A vector instruction that names no stream and makes no access, up to its issue (R180 to R182, R190): it reads
its operands, and its own effect is the issue of the result of its computation. -/

namespace Sys2Proof.Machine

open Sys2Proof.Claims

/-! ### What the reading of operands leaves -/

/-- What the reading of operands changes of the issuing thread (R130, R158, R164, R190). -/
def Thread.TakesOnly (h h' : Thread) : Prop :=
  h' = { h with
    xarm := h'.xarm, clock := h'.clock, floor := h'.floor, strongFloor := h'.strongFloor, heavy := h'.heavy,
    behind := h'.behind, seen := h'.seen, stale := h'.stale, popped := h'.popped }

theorem Thread.ReadsOnly.takesOnly {h h' : Thread} (a : h.ReadsOnly h') : h.TakesOnly h' := by
  unfold Thread.TakesOnly
  rw [a]

theorem Thread.TakesOnly.keepsRegs {h h' : Thread} (a : h.TakesOnly h') : h.KeepsRegs h' := by
  unfold Thread.TakesOnly at a
  rw [a]
  exact ⟨rfl, rfl, rfl, rfl, fun _ _ => rfl, rfl, rfl, rfl, rfl, rfl, rfl, rfl⟩

/-- What the reading of an instruction's operands leaves. -/
structure State.Took (s t : State) : Prop where
  keeps : s.KeepsRegs t []
  thread : s.th.TakesOnly t.th
  slot : (t.slot s.cur).st = (s.slot s.cur).st
  byte : ∀ a, t.byte a = s.byte a

theorem State.Took.trans {s t u : State} (h : s.Took t) (k : t.Took u) : s.Took u where
  keeps := h.keeps.trans k.keeps
  thread := Eq.trans k.thread (by rw [h.thread])
  slot := by rw [← h.slot, ← h.keeps.cur, k.slot]
  byte := fun a => (k.byte a).trans (h.byte a)

theorem State.took_of_onlyRegs {s t : State} {rs : List (BitVec 6)} (h : s.OnlyRegs t rs []) (k : s.th.ReadsOnly t.th) :
    s.Took t where
  keeps := h.keepsRegs
  thread := k.takesOnly
  slot := by rw [h.slot]
  byte := h.memory

theorem State.Took.refl (s : State) : s.Took s := State.took_of_onlyRegs (.refl s) rfl

theorem State.Took.ite {s t u : State} {p : Prop} [Decidable p] (ht : s.Took t) (hu : s.Took u) :
    s.Took (if p then t else u) := by
  split
  · exact ht
  · exact hu

theorem State.took_of_keepsThreads {s t : State} (h : s.KeepsThreads t) (hslot : (t.slot s.cur).st = (s.slot s.cur).st)
    (hmem : t.mem = s.mem) : s.Took t where
  keeps := h.keepsRegs
  thread := by rw [h.th_eq]; rfl
  slot := hslot
  byte := fun a => by unfold State.byte; rw [hmem]

theorem State.slotSt_modTh (s : State) (f : Thread → Thread) : ((s.modTh f).slot s.cur).st = (s.slot s.cur).st := by
  show ((s.modThread s.cur f).slot s.cur).st = _
  rw [State.slot_modThread, if_pos rfl]

theorem State.took_modTh (s : State) {f : Thread → Thread} (h : s.th.TakesOnly (f s.th)) : s.Took (s.modTh f) where
  keeps := s.keepsRegs_modTh h.keepsRegs
  thread := by rw [State.th_modTh]; exact h
  slot := s.slotSt_modTh f
  byte := fun _ => rfl

theorem Use.took_start (u : Use) (s : State) : s.Took (u.start s) :=
  State.took_of_onlyRegs (u.onlyRegs_start s) (u.readsOnly_start s)

theorem State.took_takeV (s : State) (r : BitVec 5) : s.Took (s.takeV r) := by
  unfold State.takeV
  split
  · exact State.took_of_onlyRegs (s.onlyRegs_strongRead _) (s.readsOnly_strongRead _)
  · exact .refl s

theorem State.took_takeOld (s : State) (o : VOp) (en : BitVec 16) : s.Took (o.takeOld en s) := by
  unfold VOp.takeOld
  split
  · next d _ => exact .ite (.refl s) (s.took_takeV d)
  · exact .refl s

theorem State.took_releaseHold (s : State) (cid slot line : Nat) : s.Took (s.releaseHold cid slot line) := by
  refine State.took_of_keepsThreads (s.keepsThreads_releaseHold cid slot line) ?_ (s.mem_releaseHold cid slot line)
  unfold State.releaseHold
  extract_lets s1
  have h1 : s1.slot s.cur = s.slot s.cur := by
    simp only [s1]
    split <;> rfl
  rw [State.slot_modSlot]
  split
  · next h => rw [← h, h1]; split <;> rfl
  · rw [h1]

theorem State.took_watch (s : State) (va n : Nat) (isLoad isStore : Bool) : s.Took (s.watch va n isLoad isStore) := by
  have h := s.watched_watch va n isLoad isStore
  exact State.took_of_keepsThreads h.keepsThreads (by unfold State.slot; rw [h.slots]) h.mem

/-- R190: elements popped before this execution complete with it. -/
theorem State.took_popDone (s : State) (p : Popped) : s.Took (s.popDone p) := by
  unfold State.popDone
  split
  · exact .refl s
  · split
    · exact .refl s
    · extract_lets va s1 s2
      have h1 : s.Took s1 := s.took_modTh rfl
      have h2 : s1.Took s2 := by
        simp only [s2]
        split
        · exact s1.took_releaseHold _ _ _
        · exact .refl s1
      exact (h1.trans h2).trans (s2.took_watch _ _ _ _)

theorem State.took_popsDone (s : State) : s.Took s.popsDone := by
  have hfold : ∀ (l : List Popped) (t : State), t.Took (l.foldl State.popDone t) := fun l => by
    induction l with
    | nil => exact .refl
    | cons p l ih => exact fun t => (t.took_popDone p).trans (ih _)
  unfold State.popsDone
  split
  · exact (hfold _ s).trans (State.took_modTh _ rfl)
  · exact .refl s

section
variable {s t : State} (h : s.Took t)
include h

theorem State.Took.ring_eq : t.th.ring = s.th.ring := by rw [h.thread]
theorem State.Took.cap_eq : t.th.cap = s.th.cap := by rw [h.thread]
theorem State.Took.prefix_eq : t.th.prefixLatch = s.th.prefixLatch := by rw [h.thread]
theorem State.Took.streams_eq : t.th.streams = s.th.streams := by rw [h.thread]
theorem State.Took.streamOf_eq (r : BitVec 5) : t.th.streamOf r = s.th.streamOf r := by rw [h.thread]; rfl
theorem State.Took.vr_eq : t.vr = s.vr := funext h.keeps.vecs
theorem State.Took.kr_eq : t.kr = s.kr := funext h.keeps.masks

theorem State.Took.enabledBy_eq : enabledBy t = enabledBy s := by
  unfold enabledBy
  rw [h.prefix_eq, h.kr_eq]

theorem State.Took.vecFrame (d : Option RegN) : VecFrame s t d := h.keeps.vecFrame h.streams_eq d

end

/-! ### Instructions that name no stream -/

/-- The operands of a vector instruction that names no stream. -/
def VOp.input (o : VOp) (s : State) : VIn :=
  { src := o.srcs.map s.vr, en := enabledBy s, x := match o.xs with | some r => s.xr (xreg r) | none => 0#64,
    k := match o.ks with | some r => s.kr r | none => 0#16, env := vecEnv s,
    old := match o.dst with | some d => s.vr d | none => 0#512 }

theorem State.Took.input_eq {s t : State} (h : s.Took t) (o : VOp) : o.input t = o.input s := by
  unfold VOp.input vecEnv
  rw [h.vr_eq, h.kr_eq, h.enabledBy_eq, h.prefix_eq, funext fun r => h.keeps.regs r List.not_mem_nil,
    show t.th.st = s.th.st by rw [h.thread]]

/-- An instruction names no stream. -/
def VOp.Streamless (o : VOp) (h : Thread) : Prop := ∀ r ∈ o.srcs ++ o.dst.toList, h.streamOf r = none

theorem VOp.used_nil {o : VOp} {h : Thread} (hs : o.Streamless h) : o.used h = [] := by
  unfold VOp.used
  unfold VOp.Streamless at hs
  generalize o.srcs ++ o.dst.toList = l at hs
  induction l with
  | nil => rfl
  | cons r l ih =>
    rw [List.foldl_cons, hs r List.mem_cons_self]
    exact ih fun q hq => hs q (List.mem_cons_of_mem _ hq)

theorem VOp.streamOf_dst {o : VOp} {h : Thread} (hs : o.Streamless h) {d : BitVec 5} (hd : o.dst = some d) :
    h.streamOf d = none :=
  hs d (List.mem_append_right _ (by rw [hd]; exact List.mem_singleton_self d))

theorem VOp.misuse_none {o : VOp} {h : Thread} (hs : o.Streamless h) : o.misuse h = none := by
  unfold VOp.misuse
  split
  · next r hr =>
    have hval := List.find?_some hr
    rw [hs r (List.mem_append_left _ (List.mem_of_find?_eq_some hr))] at hval
    exact absurd hval Bool.false_ne_true
  · split
    · next d hd => rw [VOp.streamOf_dst hs hd]
    · rfl

theorem VOp.enabled_eq {o : VOp} {s : State} (hs : o.Streamless s.th) (hcap : s.th.cap = none) :
    o.enabled s = enabledBy s := by
  unfold VOp.enabled State.prefixMask enabledBy
  rw [VOp.used_nil hs, hcap]
  rfl

/-- R189: the sources that are no streams are read as they stand. -/
theorem State.sources_eq {l : List (BitVec 5)} : ∀ {s : State} {got : List (BitVec 5 × VWord)},
    (∀ r ∈ l, s.th.streamOf r = none) → (∀ p ∈ got, p.2 = s.vr p.1) →
      ∃ t, s.sources l got = .ok (l.map s.vr) t ∧ s.Took t := by
  induction l with
  | nil => exact fun _ _ => ⟨_, rfl, .refl _⟩
  | cons r l ih =>
    intro s got hl hgot
    have hr := hl r List.mem_cons_self
    have hrest : ∀ q ∈ l, s.th.streamOf q = none := fun q hq => hl q (List.mem_cons_of_mem _ hq)
    unfold State.sources
    split
    · next p hp =>
      obtain ⟨t, ht, hk⟩ := ih hrest hgot
      have hval : p.2 = s.vr r := by
        rw [hgot p (List.mem_of_find?_eq_some hp),
          eq_of_beq (List.find?_some (p := fun p : BitVec 5 × VWord => p.1 == r) hp)]
      refine ⟨t, ?_, hk⟩
      rw [ht, hval]
      rfl
    · have htake := s.took_takeV r
      have hpop : s.pop r = .ok (s.vr r) (s.takeV r) := by unfold State.pop; rw [hr]
      obtain ⟨t, ht, hk⟩ := ih (s := s.takeV r) (got := (r, s.vr r) :: got)
        (fun q hq => (htake.streamOf_eq q).trans (hrest q hq)) (fun p hp => by
          rw [htake.vr_eq]
          rcases List.mem_cons.1 hp with rfl | hp
          · rfl
          · exact hgot p hp)
      refine ⟨t, ?_, htake.trans hk⟩
      rw [hpop]
      show ((s.takeV r).sources l ((r, s.vr r) :: got)).bind _ = _
      rw [ht, htake.vr_eq]
      rfl

/-! ### The effect -/

section
variable {o : VOp} {g : VIn → VOut} {s : State}

/-- R180 to R190: the effect of an instruction that names no stream and makes no access is its issue. -/
theorem VOp.body_pure (hroom : (s.th.ring.filter (fun e => !e.retired)).length < 16) (hcap : s.th.cap = none)
    (hs : o.Streamless s.th) (hstore : o.store = false) (hplain : o.xs.isSome = true → o.plain = true)
    (haway : (g (o.input s)).away = false) :
    ∃ t, o.body (pureV g) s = .next (o.issue (o.input s) (g (o.input s)) 0 t) ∧ s.Took t := by
  obtain ⟨t, ht, hk⟩ := State.sources_eq (l := o.srcs) (got := [])
    (fun r hr => hs r (List.mem_append_left _ hr)) (fun _ hp => absurd hp List.not_mem_nil)
  refine ⟨o.takeOld (enabledBy s) t.popsDone, ?_, (hk.trans t.took_popsDone).trans (State.took_takeOld _ o _)⟩
  have hfollows : o.follows s.th (g (o.input s)) = false := by
    unfold VOp.follows
    rw [VOp.used_nil hs, haway]
    cases hx : o.xs.isSome with
    | false => rfl
    | true => rw [hplain hx]; rfl
  unfold VOp.body
  extract_lets h s0 en env x k old tgt dry eff
  have hen : en = enabledBy s := VOp.enabled_eq hs hcap
  have hx : x = (o.input s).x := by
    simp only [x, show h.cap = none from hcap, VOp.input]
    cases o.xs <;> rfl
  have hmask : k = (o.input s).k := by
    simp only [k, show h.cap = none from hcap, VOp.input]
    cases o.ks <;> rfl
  have hold : old = (o.input s).old := by
    simp only [old, VOp.input]
    cases hd : o.dst with
    | none => rfl
    | some d => simp only [show h.streamOf d = none from VOp.streamOf_dst hs hd]; rfl
  have htgt : tgt = none := by
    simp only [tgt]
    cases hd : o.dst with
    | none => rfl
    | some d => rw [Option.bind_some, show h.streamOf d = none from VOp.streamOf_dst hs hd]; rfl
  have hstored : ∀ out, o.stored out t t = (out, t) := fun out => by unfold VOp.stored; rw [hstore]; rfl
  have heff : eff (o.srcs.map s.vr) t = .ok (o.input s, g (o.input s), 0) t := by
    have hinput : ({ src := o.srcs.map s.vr, en := en, x := x, k := k, env := env, old := old } : VIn) = o.input s := by
      rw [hen, hx, hmask, hold]
      rfl
    simp only [eff, dry, htgt, hinput, pureV, Acc.both, Acc.bind, hstored]
  rw [if_neg (Nat.not_le.2 hroom), VOp.misuse_none hs, ht]
  dsimp only [Acc.bind]
  rw [heff, hen]
  dsimp only [Acc.res]
  rw [hfollows, haway]
  rfl

end

end Sys2Proof.Machine

end

section
/-! SUPPORT. The issue of a vector instruction that names no stream (R128, R182, R184): the entry it makes in the ring, and
what it leaves when its result is written at once and when it is not. -/

namespace Sys2Proof.Machine

open Sys2Proof.Claims

/-! ### The write of a result -/

/-- The register of a write. -/
def RegW.reg : RegW → RegN
  | .x r _ => .x r
  | .v r _ => .v r
  | .k r _ => .k r

/-- What the write of a register changes of the issuing thread. -/
def Thread.WritesOnly (h h' : Thread) : Prop := h' = { h with x := h'.x, xarm := h'.xarm, v := h'.v, k := h'.k }

/-- What the write of a result leaves. -/
structure State.Wrote (s t : State) (w : RegW) : Prop where
  cur : t.cur = s.cur
  value : written t w
  frame : VecFrame s t (some w.reg)
  thread : s.th.WritesOnly t.th
  slot : (t.slot s.cur).st = (s.slot s.cur).st
  byte : ∀ a, t.byte a = s.byte a

/-- What keeps all but some scalar registers is within the frame of any of them. -/
theorem State.KeepsRegs.vecFrame_x {s t : State} {r : BitVec 6} (h : s.KeepsRegs t [r])
    (hs : t.th.streams = s.th.streams) : VecFrame s t (some (.x r)) where
  regs := fun q hq => h.regs q fun hmem => hq (by rw [List.mem_singleton.1 hmem])
  vecs := fun q _ => h.vecs q
  masks := fun q _ => h.masks q
  exts := h.exts
  streams := hs
  status := h.status
  special := ⟨h.nrt, h.stklim, h.uha⟩
  trapRecord := h.trapRecord

/-- The write of a mask register changes no other. -/
theorem vecFrame_setK (s : State) (r : BitVec 3) (v : BitVec 16) : VecFrame s (s.setK r v) (some (.k r)) := by
  have hth : (s.setK r v).th = { s.th with k := vwr s.th.k r.toNat v } := s.th_modTh _
  have hme : (s.setK r v).me = s.me := rfl
  exact {
    regs := fun q _ => State.xr_of _ _ _ (by rw [hth]) (by rw [hme])
    vecs := fun q _ => State.vr_of (by rw [hth]) (by rw [hme]) q
    masks := fun q hq => (s.kr_setK r q v).trans (if_neg fun h => hq (by rw [h]))
    exts := fun n => by unfold State.oxr; rw [hth]
    streams := by rw [hth]
    status := fun _ _ => by rw [hth]
    special := by rw [hth]; exact ⟨rfl, rfl, rfl⟩
    trapRecord := by rw [hth]; exact ⟨rfl, rfl, rfl, rfl⟩ }

theorem State.wrote_setX (s : State) (r : BitVec 6) (v : Word) : s.Wrote (s.setX r v) (.x r v) := by
  have honly := s.onlyRegs_setX r v
  exact {
    cur := honly.cur_eq
    value := (s.xr_setX r r v).trans (if_pos rfl)
    frame := honly.keepsRegs.vecFrame_x honly.streams_eq
    thread := by
      rw [State.th_setX]
      split <;> rfl
    slot := by rw [honly.slot]
    byte := honly.memory }

theorem State.wrote_setV (s : State) (r : BitVec 5) (v : VWord) : s.Wrote (s.setV r v) (.v r v) where
  cur := by unfold State.setV State.putV; split <;> rfl
  value := (s.vr_setV r r v).trans (if_pos rfl)
  frame := vecFrame_setV s r v
  thread := by
    rw [State.th_setV]
    split <;> rfl
  slot := by
    unfold State.setV State.putV
    split
    · rfl
    · exact s.slotSt_modTh _
  byte := s.byte_setV r v

theorem State.wrote_setK (s : State) (r : BitVec 3) (v : BitVec 16) : s.Wrote (s.setK r v) (.k r v) where
  cur := rfl
  value := (s.kr_setK r r v).trans (if_pos rfl)
  frame := vecFrame_setK s r v
  thread := by
    unfold State.setK
    rw [State.th_modTh]
    rfl
  slot := s.slotSt_modTh _
  byte := fun _ => rfl

/-- R128: the write of the result of the issuing instruction. -/
theorem State.wrote_applyW (s : State) : ∀ w, s.Wrote (s.applyW w 16) w
  | .x r v => s.wrote_setX r v
  | .v r v => s.wrote_setV r v
  | .k r v => s.wrote_setK r v

/-- R115: counting saturations leaves the registers. -/
theorem State.keepsThreads_addQsat (s : State) (n : Nat) : s.KeepsThreads (s.addQsat n) := by
  unfold State.addQsat
  split
  · exact .refl s
  · exact State.keepsThreads_of_eq rfl rfl rfl

theorem State.took_addQsat (s : State) (n : Nat) : s.Took (s.addQsat n) := by
  refine State.took_of_keepsThreads (s.keepsThreads_addQsat n) ?_ ?_ <;> unfold State.addQsat <;> split <;> rfl


/-! ### The ring entry -/

/-- The write that the result of an instruction makes: its disabled lanes merged or zeroed. -/
def VOp.Makes (o : VOp) (s : State) (i : VIn) (out : VOut) (w : RegW) : Prop :=
  match w with
  | .v d v => o.dst = some d ∧ o.dx = none ∧ v = mergeLanes out.w i.en (zeroing s) i.old out.lanes
  | .x r v => o.dst = none ∧ o.dx = some (.x r) ∧ v = out.val
  | .k r v => o.dst = none ∧ o.dx = some (.k r) ∧ v = mergeMask i.en (zeroing s) (s.kr r) out.mask

theorem State.Took.makes {s t : State} (h : s.Took t) {o : VOp} {i : VIn} {out : VOut} {w : RegW} (hw : o.Makes s i out w) :
    o.Makes t i out w := by
  have hz : zeroing t = zeroing s := by unfold zeroing; rw [h.prefix_eq]
  unfold VOp.Makes at hw ⊢
  rwa [hz, h.kr_eq]

/-- R184: the entry of an instruction without a late fault, which makes one write: retired at once where nothing older and
no required hold stands against it. -/
structure RingEntry.Records (e : RingEntry) (s : State) (w : RegW) (req sat : Nat) : Prop where
  seq : e.seq = s.th.nextSeq
  addr : e.addr = s.th.pc
  fault : e.fault = none
  writes : e.writes = [w]
  qsat : e.qsat = sat
  retired : e.retired = (req == 0 && !olderLate s)
  left : e.retired = false → e.left = req + 1

/-- R182: the result of an entry that is retired at once is written and its saturations counted. -/
def State.retireNow (s : State) (w : RegW) (e : RingEntry) : State :=
  if e.retired then (s.applyW w 16).addQsat e.qsat else s

/-- R184: an entry becomes the youngest of the ring. -/
def State.enterRing (s : State) (e : RingEntry) : State :=
  s.modTh (fun h => { h with ring := ringPut h.ring e, nextSeq := h.nextSeq + 1#8 })

/-- R128, R133: the slot passes over the cycles of a hold field. -/
def State.holdSlot (s : State) (h : BitVec 2) : State :=
  if h = 0#2 then s else s.modSlot s.cur (fun sl => { sl with st := .skip h.toNat })

/-- R128, R182, R184: the issue of an instruction without a late fault that makes one write. -/
theorem VOp.issue_eq {o : VOp} {i : VIn} {out : VOut} {s : State} {w : RegW} (hs : o.Streamless s.th)
    (hfault : out.fault = none) (hstore : out.store = none) (hw : o.Makes s i out w) :
    ∃ e : RingEntry, e.Records s w o.req out.qsat ∧
      o.issue i out 0 s = ((s.retireNow w e).enterRing e).holdSlot o.hold := by
  unfold VOp.issue
  extract_lets h z used writes e now s1 s2 s3
  have hused : used = [] := VOp.used_nil hs
  have hwrites : writes = [w] := by
    simp only [writes]
    cases w with
    | v d v =>
      obtain ⟨hdst, hdx, hv⟩ := hw
      simp only [hdst, hdx, show h.streamOf d = none from VOp.streamOf_dst hs hdst, hv]
      rfl
    | x r v =>
      obtain ⟨hdst, hdx, hv⟩ := hw
      simp only [hdst, hdx, hv]
      rfl
    | k r v =>
      obtain ⟨hdst, hdx, hv⟩ := hw
      simp only [hdst, hdx, hv]
      rfl
  have hnow : now = (o.req == 0 && !olderLate s) := by
    simp only [now, hfault, hstore]
    simp [olderLate, h]
  refine ⟨{ e with retired := now, left := if now then 0 else e.left },
    ⟨rfl, rfl, hfault, hwrites, rfl, hnow, fun hr => if_neg ?_⟩, ?_⟩
  · rw [show now = false from hr]
    exact Bool.false_ne_true
  · have h1 : s1 = s := by simp only [s1, hused]; rw [hfault]; rfl
    have h2 : s2 = s.retireNow w { e with retired := now, left := if now then 0 else e.left } := by
      simp only [s2, h1, hwrites]
      rfl
    simp only [s3, h2]
    rfl

/-! ### What the issue leaves -/

theorem getLast?_ringPut (l : List RingEntry) (e : RingEntry) : (ringPut l e).getLast? = some e := by
  unfold ringPut
  rw [List.getLast?_concat]

/-- What the issue of an entry leaves. -/
structure State.Issued (s t : State) (w : RegW) (e : RingEntry) (hold : BitVec 2) : Prop where
  cur : t.cur = s.cur
  pc : t.th.pc = s.th.pc
  ring : t.th.ring.getLast? = some e
  nextSeq : t.th.nextSeq = s.th.nextSeq + 1#8
  held : Claims.heldFor s t hold
  waiting : e.retired = false → VecFrame s t none
  written : e.retired = true → written t w ∧ VecFrame s t (some w.reg)
  byte : ∀ a, t.byte a = s.byte a

theorem State.keepsRegs_enterRing (s : State) (e : RingEntry) : s.KeepsRegs (s.enterRing e) [] :=
  s.keepsRegs_modTh ⟨rfl, rfl, rfl, rfl, fun _ _ => rfl, rfl, rfl, rfl, rfl, rfl, rfl, rfl⟩

theorem State.th_enterRing (s : State) (e : RingEntry) :
    (s.enterRing e).th = { s.th with ring := ringPut s.th.ring e, nextSeq := s.th.nextSeq + 1#8 } := s.th_modTh _

/-- A register holds its value where a state keeps the registers. -/
theorem State.KeepsRegs.written {s t : State} (h : s.KeepsRegs t []) {w : RegW} (hw : written s w) : written t w := by
  cases w with
  | x r v => exact (h.regs r List.not_mem_nil).trans hw
  | v r v => exact (h.vecs r).trans hw
  | k r v => exact (h.masks r).trans hw

/-- The entering of the ring and the hold of the slot leave the registers. -/
theorem State.issued_ring (s : State) (e : RingEntry) (hold : BitVec 2) :
    let t := (s.enterRing e).holdSlot hold
    s.KeepsRegs t [] ∧ t.th = (s.enterRing e).th ∧ Claims.heldFor s t hold ∧ ∀ a, t.byte a = s.byte a := by
  intro t
  simp only [t]
  unfold State.holdSlot Claims.heldFor
  split
  · exact ⟨s.keepsRegs_enterRing e, rfl, (s.slotSt_modTh _).trans rfl, fun _ => rfl⟩
  · have hk := (s.enterRing e).keepsThreads_modSlot (s.enterRing e).cur (f := fun sl => { sl with st := .skip hold.toNat })
      fun _ => rfl
    refine ⟨(s.keepsRegs_enterRing e).trans hk.keepsRegs, hk.th_eq, ?_, fun _ => rfl⟩
    rw [State.slot_modSlot, if_pos (show s.cur = (s.enterRing e).cur from rfl)]

theorem State.wrote_retire (s : State) (w : RegW) (n : Nat) : s.Wrote ((s.applyW w 16).addQsat n) w := by
  have hw := s.wrote_applyW w
  have hq := (s.applyW w 16).took_addQsat n
  exact {
    cur := hq.keeps.cur.trans hw.cur
    value := hq.keeps.written hw.value
    frame := vecFrame_trans hw.frame (hq.vecFrame _)
    thread := by rw [(State.keepsThreads_addQsat _ n).th_eq]; exact hw.thread
    slot := by rw [← hw.slot, ← hw.cur, hq.slot]
    byte := fun a => (hq.byte a).trans (hw.byte a) }

/-- What an entry leaves, by what the writing of its result leaves. -/
theorem State.issued_of {s u : State} {w : RegW} {e : RingEntry} {hold : BitVec 2} (hcur : u.cur = s.cur)
    (hthread : s.th.WritesOnly u.th) (hslot : (u.slot s.cur).st = (s.slot s.cur).st) (hbyte : ∀ a, u.byte a = s.byte a)
    (hwaiting : e.retired = false → VecFrame s u none)
    (hwritten : e.retired = true → written u w ∧ VecFrame s u (some w.reg)) :
    s.Issued ((u.enterRing e).holdSlot hold) w e hold := by
  obtain ⟨hkeeps, hth, hheld, hmem⟩ := u.issued_ring e hold
  generalize (u.enterRing e).holdSlot hold = t at hkeeps hth hheld hmem ⊢
  rw [State.th_enterRing] at hth
  have hframe : ∀ d, VecFrame u t d := hkeeps.vecFrame (by rw [hth])
  exact {
    cur := hkeeps.cur.trans hcur
    pc := by rw [hth, hthread]
    ring := by rw [hth]; exact getLast?_ringPut _ e
    nextSeq := by rw [hth, hthread]
    held := by
      unfold Claims.heldFor at hheld ⊢
      rwa [hcur, hslot] at hheld
    waiting := fun hr => vecFrame_trans (hwaiting hr) (hframe _)
    written := fun hr => ⟨hkeeps.written (hwritten hr).1, vecFrame_trans (hwritten hr).2 (hframe _)⟩
    byte := fun a => (hmem a).trans (hbyte a) }

/-- R128, R182, R184: what the issue of an entry leaves: its result is written if it is retired at once. -/
theorem State.issued_entry (s : State) (w : RegW) (e : RingEntry) (hold : BitVec 2) :
    s.Issued (((s.retireNow w e).enterRing e).holdSlot hold) w e hold := by
  cases hr : e.retired with
  | false =>
    have hnow : s.retireNow w e = s := if_neg (by rw [hr]; exact Bool.false_ne_true)
    rw [hnow]
    exact State.issued_of rfl rfl rfl (fun _ => rfl) (fun _ => (State.Took.refl s).vecFrame none)
      (fun h => absurd (hr.symm.trans h) Bool.false_ne_true)
  | true =>
    have hnow : s.retireNow w e = (s.applyW w 16).addQsat e.qsat := if_pos hr
    rw [hnow]
    have hw := s.wrote_retire w e.qsat
    exact State.issued_of hw.cur hw.thread hw.slot hw.byte (fun h => absurd (h.symm.trans hr) Bool.false_ne_true)
      (fun _ => ⟨hw.value, hw.frame⟩)

end Sys2Proof.Machine

end

section
/-! SUPPORT. The completion of a vector instruction that makes no access (R128, R180 to R184): a row of the tables of vector
instructions completes where the instruction's computation yields what the row says. -/

namespace Sys2Proof.Claims

open Sys2Proof.Machine

/-- The completion of an instruction with the result of a row; see completesVec. -/
def VecSpec.Completes (p : VecSpec) (i : Instr) (s : State) : Prop :=
  ∃ t e w, exec i s = .next t ∧ t.goesOn (s.th.pc + w64 (vecSize s)) ∧ t.th.prefixLatch = none ∧
    t.th.ring.getLast? = some e ∧ e.seq = s.th.nextSeq ∧ t.th.nextSeq = s.th.nextSeq + 1#8 ∧ e.addr = s.th.pc ∧
    e.fault = none ∧ e.writes = [w] ∧ p.good s w ∧ e.qsat = p.sat ∧ heldFor s t p.hold ∧
    e.retired = (p.req == 0 && !olderLate s) ∧ (e.retired = false → e.left = p.req + 1 ∧ VecFrame s t none) ∧
    (e.retired = true → written t w ∧ VecFrame s t (some p.dst)) ∧ ∀ a, t.byte a = s.byte a

theorem completesVec_iff {table : State → Instr → Option VecSpec} : completesVec table ↔
    ∀ (i : Instr) (s : State) (p : VecSpec), table s i = some p → vecReady s (p.names s) p.x → p.ok → i.wf = true →
      p.Completes i s :=
  ⟨fun h i s p hp hr hok hwf => h i s p hp hwf hr hok, fun h i s p hp hwf hr hok => h i s p hp hr hok hwf⟩

/-- A row of the tables of vector instructions is of an instruction that makes no access. -/
structure VecSpec.RowOf (p : VecSpec) (o : VOp) : Prop extends p.FitBy o where
  hold : o.hold = p.hold
  req : o.req = p.req
  noStore : o.store = false
  plain : o.xs.isSome = true → o.plain = true

/-- The result of an instruction is that of a row. -/
structure VecSpec.Yields (p : VecSpec) (s : State) (o : VOp) (out : VOut) : Prop where
  fault : out.fault = none
  store : out.store = none
  away : out.away = false
  sat : out.qsat = p.sat
  write : ∃ w, o.Makes s (o.input s) out w ∧ p.good s w

theorem VecSpec.good.reg_eq {p : VecSpec} {s : State} {w : RegW} (h : p.good s w) : w.reg = p.dst := by
  cases w with
  | x r v => exact h.1.symm
  | v r v => exact h.1.symm
  | k r v => exact h.1.symm

/-- R66: the end of a vector instruction: the pc moves and the latch of `pfx` is cleared. -/
def ended (s : State) (n : Nat) : State := (s.advance n).modTh (fun h => { h with prefixLatch := none })

theorem th_ended (s : State) (n : Nat) : (ended s n).th = { s.th.advanced n with prefixLatch := none } := by
  unfold ended
  rw [State.th_modTh, State.advance_eq, State.th_modTh]

/-- What the end of a vector instruction leaves. -/
theorem ended_frame (s : State) (n : Nat) (d : Option RegN) : VecFrame s (ended s n) d := by
  have hadv := s.onlyRegs_advance n
  have hlatch : (s.advance n).KeepsRegs (ended s n) [] :=
    State.keepsRegs_modTh _ ⟨rfl, rfl, rfl, rfl, fun _ _ => rfl, rfl, rfl, rfl, rfl, rfl, rfl, rfl⟩
  exact (hadv.keepsRegs.trans hlatch).vecFrame (by rw [th_ended]; rfl) d

theorem goesOn_ended (s : State) (n : Nat) : (ended s n).goesOn (s.th.pc + w64 n) := by
  unfold State.goesOn
  rw [th_ended]
  exact ⟨rfl, stBit_stSet _ _ _ (by decide)⟩

theorem slotSt_ended (s : State) (n : Nat) : ((ended s n).slot s.cur).st = (s.slot s.cur).st :=
  ((s.advance n).slotSt_modTh _).trans (s.slotSt_modTh _)

/-- A register that has been written keeps its value to the end of the instruction. -/
theorem written_ended {s : State} {w : RegW} (h : written s w) (n : Nat) : written (ended s n) w := by
  have hf := ended_frame s n none
  cases w with
  | x r v => exact (hf.regs r nofun).trans h
  | v r v => exact (hf.vecs r nofun).trans h
  | k r v => exact (hf.masks r nofun).trans h

section
variable {i : Instr} {s : State} {o : VOp} {p : VecSpec} {g : VIn → VOut}

theorem VecSpec.RowOf.streamless (h : p.RowOf o) (hs : ∀ r, RegN.v r ∈ p.names s → s.th.streamOf r = none) :
    o.Streamless s.th := by
  intro r hr
  refine hs r (List.mem_append_left _ (List.mem_append_left _ (List.mem_append_left _ ((h.regs (.v r)).1 ?_))))
  refine List.mem_append_left _ ?_
  rcases List.mem_append.1 hr with hr | hr
  · exact List.mem_append_left _ (List.mem_map_of_mem hr)
  · refine List.mem_append_right _ ?_
    cases hd : o.dst with
    | none => rw [hd] at hr; exact absurd hr List.not_mem_nil
    | some d => rw [hd] at hr; rw [List.mem_singleton.1 hr]; exact List.mem_singleton_self _

/-- R328, R180 to R190: where it may issue, such an instruction is the issue of its result. -/
theorem VecSpec.RowOf.run_eq (h : p.RowOf o) (hready : vecReady s (p.names s) p.x)
    (haway : (g (o.input s)).away = false) : ∃ t, s.Took t ∧ o.run s (pureV g) =
      .next (ended (o.issue (o.input s) (g (o.input s)) 0 t) (vecSize s)) := by
  obtain ⟨hfeat, hnames, harrived, hcap, hstreams, hroom⟩ := hready
  have hstart := (o.use s).took_start s
  have hreads : s.arrived (o.use s).reads := by
    have : (o.use s).reads = p.x.toList.map xreg := by
      unfold VOp.use
      simp only [hcap, h.xs, Option.isNone_none, if_true]
      cases p.x <;> rfl
    rwa [this]
  have hunheld : s.unheld (o.use s).names := hnames.mono fun r hr => (h.names hcap r).1 hr
  have hrun := Use.run_of (o.use s) s (o.body (pureV g)) (by rintro f ⟨⟩; exact hfeat) nofun hunheld nofun hreads
  obtain ⟨t, hbody, htook⟩ := VOp.body_pure (o := o) (g := g) (s := (o.use s).start s) (by rwa [hstart.ring_eq])
    (hstart.cap_eq.trans hcap) (fun r hr => (hstart.streamOf_eq r).trans (h.streamless hstreams r hr)) h.noStore h.plain
    (by rwa [hstart.input_eq])
  rw [hstart.input_eq] at hbody
  refine ⟨t, hstart.trans htook, ?_⟩
  unfold VOp.run
  rw [hrun, hbody]
  rfl

/-- R128, R180, R182, R184: a row completes where the instruction's computation yields what the row says. -/
theorem VecSpec.completes_of (he : exec i s = o.run s (pureV g)) (h : p.RowOf o) (hready : vecReady s (p.names s) p.x)
    (hy : p.Yields s o (g (o.input s))) : p.Completes i s := by
  obtain ⟨w, hmakes, hgood⟩ := hy.write
  obtain ⟨t, htook, hrun⟩ := h.run_eq (g := g) hready hy.away
  obtain ⟨-, -, -, -, hstreams, -⟩ := hready
  obtain ⟨e, hrec, hissue⟩ := VOp.issue_eq (fun r hr => (htook.streamOf_eq r).trans (h.streamless hstreams r hr))
    hy.fault hy.store (htook.makes hmakes)
  have hi := t.issued_entry w e o.hold
  rw [← hissue] at hi
  rw [hrun] at he
  generalize o.issue (o.input s) (g (o.input s)) 0 t = u at he hi
  have hcur : t.cur = s.cur := htook.keeps.cur
  have hold : olderLate t = olderLate s := by unfold olderLate; rw [htook.ring_eq]
  refine ⟨ended u (vecSize s), e, w, he, ?pc, by rw [th_ended], ?ring, ?seq, ?next, ?addr, hrec.fault, hrec.writes, hgood,
    hrec.qsat.trans hy.sat, ?held, ?retired, fun hr => ⟨?left, ?waiting⟩, fun hr => ⟨?value, ?frame⟩, ?byte⟩
  case pc =>
    have hpc : u.th.pc = s.th.pc := by rw [hi.pc, htook.thread]
    rw [← hpc]
    exact goesOn_ended u _
  case ring => rw [th_ended]; exact hi.ring
  case seq => rw [hrec.seq, htook.thread]
  case next =>
    rw [th_ended]
    exact hi.nextSeq.trans (by rw [htook.thread])
  case addr => rw [hrec.addr, htook.thread]
  case held =>
    have hheld := hi.held
    unfold heldFor at hheld ⊢
    rw [hcur, htook.slot] at hheld
    rw [← h.hold, ← hheld, ← hcur, ← hi.cur]
    exact slotSt_ended u _
  case retired => rw [hrec.retired, hold, h.req]
  case left => rw [hrec.left hr, h.req]
  case waiting => exact vecFrame_trans (vecFrame_trans (htook.vecFrame _) (hi.waiting hr)) (ended_frame u _ _)
  case value => exact written_ended (hi.written hr).1 _
  case frame =>
    rw [← hgood.reg_eq]
    exact vecFrame_trans (vecFrame_trans (htook.vecFrame _) (hi.written hr).2) (ended_frame u _ _)
  case byte => exact fun a => (hi.byte a).trans (htook.byte a)

end

end Sys2Proof.Claims

end

section
/-! SUPPORT. The three shapes of rows of the tables of vector instructions (R180): lanes of a vector register, a mask, and a
scalar. -/

namespace Sys2Proof.Claims

open Sys2Proof.Machine

/-- A result without a fault or an access, which counts some saturations. -/
structure Quiet (out : VOut) (sat : Nat) : Prop where
  fault : out.fault = none
  store : out.store = none
  away : out.away = false
  sat : out.qsat = sat

/-- A result of lanes of width w, by their values modulo 2^w. -/
structure HasLanes (out : VOut) (w : Nat) (f : Nat → Nat) (sat : Nat) : Prop extends Quiet out sat where
  width : out.w = w
  lanes : ∃ k : Nat → Nat, out.lanes = (upTo (512 / w)).map k ∧ ∀ j < 512 / w, k j % 2 ^ w = f j % 2 ^ w

section
variable {i : Instr} {s : State} {o : VOp} {p : VecSpec} {g : VIn → VOut} {word : Nat} {pol : Policy} {hold : BitVec 2}
  {req : Nat} {srcs : List (BitVec 5)} {x : Option (BitVec 5)} {ks : Option (BitVec 3)} {plain rmw : Bool} {ok : Prop}

/-- A row that writes lanes of a vector register. -/
theorem completes_lanes {d : BitVec 5} {w : Nat} {f : Nat → Nat} {sat : Nat}
    (ho : o = { word, pol, hold, req, srcs, xs := x, dst := some d, plain, rmw }) (he : exec i s = o.run s (pureV g))
    (hplain : x.isSome = true → plain = true) (hp : p = { hold, req, srcs, x, dst := .v d, width := w, elem := f, sat, ok })
    (hready : vecReady s (p.names s) p.x) (hg : HasLanes (g (o.input s)) w f sat) : p.Completes i s := by
  subst hp ho
  obtain ⟨k, hlanes, hk⟩ := hg.lanes
  refine VecSpec.completes_of he ⟨fit_vector rfl rfl rfl rfl rfl rfl, rfl, rfl, rfl, hplain⟩ hready
    ⟨hg.fault, hg.store, hg.away, hg.sat, .v d _, ⟨rfl, rfl, rfl⟩, rfl, fun j hj => ?_⟩
  rw [hg.width, hlanes, lane_mergeLanes _ _ _ _ hj, hk j hj]
  rfl

/-- A row that writes a mask register. -/
theorem completes_mask {k : BitVec 3} {f : Nat → Nat}
    (ho : o = { word, pol, hold, req, srcs, xs := x, dx := some (.k k), plain }) (he : exec i s = o.run s (pureV g))
    (hplain : x.isSome = true → plain = true) (hp : p = { hold, req, srcs, x, dst := .k k, elem := f, ok })
    (hready : vecReady s (p.names s) p.x) (hquiet : Quiet (g (o.input s)) 0)
    (hg : ∀ j < 16, (g (o.input s)).mask.getLsbD j = (f j == 1)) : p.Completes i s := by
  subst hp ho
  refine VecSpec.completes_of he ⟨fit_other rfl rfl rfl rfl rfl rfl, rfl, rfl, rfl, hplain⟩ hready
    ⟨hquiet.fault, hquiet.store, hquiet.away, hquiet.sat, .k k _, ⟨rfl, rfl, rfl⟩, rfl, fun j hj => ?_⟩
  rw [getLsbD_mergeMask _ _ _ _ hj, hg j hj]
  rfl

/-- A row that writes a scalar register. -/
theorem completes_word {d : BitVec 6} {w : Nat} {v : Word}
    (ho : o = { word, pol, hold, req, srcs, ks, dx := some (.x d) }) (he : exec i s = o.run s (pureV g))
    (hp : p = { hold, req, srcs, ks, dst := .x d, width := w, word := v, ok }) (hready : vecReady s (p.names s) p.x)
    (hquiet : Quiet (g (o.input s)) 0) (hg : (g (o.input s)).val = v) : p.Completes i s := by
  subst hp ho
  exact VecSpec.completes_of he ⟨fit_other rfl rfl rfl rfl rfl rfl, rfl, rfl, rfl, nofun⟩ hready
    ⟨hquiet.fault, hquiet.store, hquiet.away, hquiet.sat, .x d _, ⟨rfl, rfl, rfl⟩, rfl, hg⟩

end

/-! ### Results of lanewise computations -/

section
variable {s : State} {o : VOp}

theorem at_input (o : VOp) (s : State) (j : Nat) : (o.input s).at j = o.srcs.map (fun r => (la s 32 r j).toNat) := by
  unfold VIn.at VOp.input
  rw [List.map_map]
  exact List.map_congr_left fun r _ => lane_eq_la s 32 r j

theorem hasLanes_map {w : Nat} {k f : Nat → Nat} (hk : ∀ j < 512 / w, k j % 2 ^ w = f j % 2 ^ w) :
    HasLanes { w := w, lanes := (upTo (512 / w)).map k } w f 0 :=
  ⟨⟨rfl, rfl, rfl, rfl⟩, rfl, k, rfl, hk⟩

theorem hasLanes_words {k f : Nat → Nat} (hk : ∀ j < 16, k j % 2 ^ 32 = f j % 2 ^ 32) :
    HasLanes { lanes := (upTo 16).map k } 32 f 0 :=
  hasLanes_map hk

theorem hasLanes_map2 {w : Nat} {F : Nat → Nat → Nat} {f : BitVec w → BitVec w → BitVec w} {a b : BitVec 5}
    (hF : ∀ x y : BitVec w, F x.toNat y.toNat % 2 ^ w = (f x y).toNat) (hsrcs : o.srcs = [a, b]) :
    HasLanes (map2 w F (o.input s)) w (fun j => (f (la s w a j) (la s w b j)).toNat) 0 := by
  refine hasLanes_map fun j _ => ?_
  simp only [VOp.input, hsrcs, List.map_cons, List.map_nil, lane_eq_la, hF]

/-- R183: where no enabled lane stops there is no late fault. -/
theorem laneFault_none {w n : Nat} {en : BitVec 16} {opnd : Nat → Nat → Nat} {k : Nat → FOut}
    (hk : ∀ j < n, en.getLsbD (j * w / 32) = true → (k j).stop = none) : laneFault w en opnd ((upTo n).map k) = none := by
  have hnil : (((upTo n).map k).zipIdx).filterMap (fun p =>
      if en.getLsbD (p.2 * w / 32) then p.1.stop.map (fun t => (t.1, p.2, t.2.1, t.2.2)) else none) = [] := by
    unfold upTo
    rw [zipIdx_map_range, List.filterMap_map, List.filterMap_eq_nil_iff]
    intro j hj
    dsimp only [Function.comp]
    split
    · next hen => rw [hk j (List.mem_range.1 hj) hen]; rfl
    · rfl
  unfold laneFault
  rw [hnil]
  rfl

theorem hasLanes_lanesOut {w n : Nat} {en : BitVec 16} {opnd : Nat → Nat → Nat} {k : Nat → FOut} {f : Nat → Nat}
    (hn : n = 512 / w) (hk : ∀ j < 512 / w, en.getLsbD (j * w / 32) = true → (k j).stop = none)
    (hf : ∀ j < 512 / w, (k j).res % 2 ^ w = f j % 2 ^ w) : HasLanes (lanesOut w en opnd ((upTo n).map k)) w f 0 := by
  subst hn
  exact ⟨⟨laneFault_none hk, rfl, rfl, rfl⟩, rfl, fun j => (k j).res, List.map_map, hf⟩

end

end Sys2Proof.Claims

end

section
/-! SUPPORT. What the lanewise functions of the vector instructions are on words (R118, R192 to R194, R199). -/

namespace Sys2Proof.Machine

open Sys2Proof.Claims

/-! ### Integer lanes (R193) -/

section
variable {n : Nat} (x y : BitVec n)

theorem lane_add : VIop.add.lane n x.toNat y.toNat % 2 ^ n = (x + y).toNat := (BitVec.toNat_add x y).symm

theorem lane_sub : VIop.sub.lane n x.toNat y.toNat % 2 ^ n = (x - y).toNat := by
  have hy := y.isLt
  rw [BitVec.toNat_sub]
  show (x.toNat + 2 ^ n - y.toNat) % 2 ^ n = _
  congr 1
  omega

theorem lane_mul : VIop.mul.lane n x.toNat y.toNat % 2 ^ n = (x * y).toNat := (BitVec.toNat_mul x y).symm

theorem lane_sll : VIop.sll.lane n x.toNat y.toNat % 2 ^ n = (x <<< (y.toNat % n)).toNat := by
  rw [BitVec.toNat_shiftLeft, Nat.shiftLeft_eq]
  rfl

theorem lane_srl : VIop.srl.lane n x.toNat y.toNat % 2 ^ n = (x >>> (y.toNat % n)).toNat := by
  rw [BitVec.toNat_ushiftRight, Nat.shiftRight_eq_div_pow]
  exact Nat.mod_eq_of_lt (Nat.lt_of_le_of_lt (Nat.div_le_self _ _) x.isLt)

theorem lane_sra : VIop.sra.lane n x.toNat y.toNat % 2 ^ n = (x.sshiftRight (y.toNat % n)).toNat := by
  show ofSval n (sval n x.toNat / 2 ^ (y.toNat % n)) % 2 ^ n = _
  rw [ofSval_eq, sval_eq_toInt, BitVec.toNat_mod_cancel, BitVec.sshiftRight, Int.shiftRight_eq_div_pow]
  push_cast
  rfl

/-- Of equal words either is the smaller and either the larger. -/
theorem ite_toInt_le {α : Type} {u v : α} (h : x = y → v = u) :
    (if y.toInt ≤ x.toInt then u else v) = if x.toInt ≤ y.toInt then v else u := by
  split <;> split
  · next hyx hxy => exact (h (BitVec.eq_of_toInt_eq (Int.le_antisymm hxy hyx))).symm
  · rfl
  · rfl
  · omega

theorem lane_min : VIop.min.lane n x.toNat y.toNat % 2 ^ n = (if x.toInt ≤ y.toInt then x else y).toNat := by
  show (if sval n x.toNat ≤ sval n y.toNat then x.toNat else y.toNat) % 2 ^ n = _
  rw [sval_eq_toInt, sval_eq_toInt, ← apply_ite BitVec.toNat, BitVec.toNat_mod_cancel]

theorem lane_max : VIop.max.lane n x.toNat y.toNat % 2 ^ n = (if x.toInt ≤ y.toInt then y else x).toNat := by
  show (if sval n y.toNat ≤ sval n x.toNat then x.toNat else y.toNat) % 2 ^ n = _
  rw [sval_eq_toInt, sval_eq_toInt, ← apply_ite BitVec.toNat, ite_toInt_le x y Eq.symm, BitVec.toNat_mod_cancel]

theorem lane_minu : VIop.minu.lane n x.toNat y.toNat % 2 ^ n = (if x.toNat ≤ y.toNat then x else y).toNat := by
  show (if x.toNat ≤ y.toNat then x.toNat else y.toNat) % 2 ^ n = _
  rw [← apply_ite BitVec.toNat, BitVec.toNat_mod_cancel]

theorem lane_maxu : VIop.maxu.lane n x.toNat y.toNat % 2 ^ n = (if x.toNat ≤ y.toNat then y else x).toNat := by
  show (if y.toNat ≤ x.toNat then x.toNat else y.toNat) % 2 ^ n = _
  rw [← apply_ite BitVec.toNat, BitVec.toNat_mod_cancel, apply_ite BitVec.toNat, apply_ite BitVec.toNat]
  split <;> split <;> omega

end

/-! ### Bitwise lanes (R193) -/

section
variable (x y : BitVec 32)

theorem toNat_and_lane : (x.toNat &&& y.toNat) % 2 ^ 32 = (x &&& y).toNat := by
  rw [← BitVec.toNat_and, BitVec.toNat_mod_cancel]

theorem toNat_or_lane : (x.toNat ||| y.toNat) % 2 ^ 32 = (x ||| y).toNat := by
  rw [← BitVec.toNat_or, BitVec.toNat_mod_cancel]

theorem toNat_xor_lane : (x.toNat ^^^ y.toNat) % 2 ^ 32 = (x ^^^ y).toNat := by
  rw [← BitVec.toNat_xor, BitVec.toNat_mod_cancel]

theorem toNat_andNot_lane : (x.toNat &&& (2 ^ 32 - 1 - y.toNat)) % 2 ^ 32 = (x &&& ~~~y).toNat := by
  rw [← BitVec.toNat_not, toNat_and_lane]

theorem beq_toNat : (x.toNat == y.toNat) = (x == y) := by
  rw [Bool.eq_iff_iff, beq_iff_eq, beq_iff_eq, BitVec.toNat_inj]

/-- A bit of the low 16 of a word. -/
theorem getLsbD_bitField (x : Word) {j : Nat} (hj : j < 16) :
    (x.setWidth 16).getLsbD j = ((x.extractLsb' j 1).toNat == 1) := by
  rw [BitVec.getLsbD_setWidth, decide_eq_true hj, Bool.true_and, ← bitsAt_toNat, ← bitAt_toNat]
  rfl

theorem beq_b2n (b : Bool) : (b2n b == 1) = b := by cases b <;> rfl

end

/-! ### FP lanes without exceptions (R192) -/

theorem clearSign (x : BitVec 32) : x.toNat % 2 ^ 31 = (x &&& 0x7FFFFFFF#32).toNat := by
  rw [BitVec.toNat_and]
  exact (Nat.and_two_pow_sub_one_eq_mod x.toNat 31).symm

theorem flipSign (x : BitVec 32) : (x.toNat + 2 ^ 31) % 2 ^ 32 = (x ^^^ 0x80000000#32).toNat := by
  rw [BitVec.toNat_xor, Nat.add_comm]
  show (2 ^ 31 + x.toNat) % 2 ^ 32 = x.toNat ^^^ 2 ^ 31
  refine Nat.eq_of_testBit_eq fun i => ?_
  rw [Nat.testBit_mod_two_pow, Nat.testBit_xor, Nat.testBit_two_pow]
  rcases lt_trichotomy i 31 with h | rfl | h
  · rw [Nat.testBit_two_pow_add_gt h, decide_eq_true (by omega : i < 32), decide_eq_false (by omega : ¬ 31 = i)]
    simp
  · rw [Nat.testBit_two_pow_add_eq]
    simp
  · have hx : x.toNat.testBit i = false :=
      Nat.testBit_lt_two_pow (Nat.lt_of_lt_of_le x.isLt (Nat.pow_le_pow_right Nat.two_pos h))
    rw [hx, decide_eq_false (by omega : ¬ i < 32), decide_eq_false (by omega : ¬ 31 = i)]
    rfl

/-! ### Saturation (R199) -/

/-- A lane saturated to 16 bits, and whether it is out of range. -/
theorem satLane_eq (x : BitVec 32) : satLane 16 x.toNat =
    ((BitVec.ofInt 16 (max (-32768) (min 32767 x.toInt))).toNat,
      decide (x.toInt < -32768) || decide (32767 < x.toInt)) := by
  unfold satLane
  simp only [sval_eq_toInt, ofSval_eq]
  generalize x.toInt = v
  show (if v > 32767 then ((BitVec.ofInt 16 32767).toNat, true)
    else if v < -32768 then ((BitVec.ofInt 16 (-32768)).toNat, true) else ((BitVec.ofInt 16 v).toNat, false)) = _
  split
  · next hi => rw [min_eq_left (by omega), decide_eq_true hi, Bool.or_true]; rfl
  · next hi =>
    rw [min_eq_right (by omega)]
    split
    · next lo => rw [max_eq_left (by omega), decide_eq_true lo, Bool.true_or]
    · next lo => rw [max_eq_right (by omega), decide_eq_false lo, decide_eq_false hi, Bool.or_false]

/-! ### Reductions (R118, R194) -/

theorem maxInt_assoc {n : Nat} (a b c : BitVec n) :
    (if (if a.toInt ≤ b.toInt then b else a).toInt ≤ c.toInt then c else if a.toInt ≤ b.toInt then b else a) =
      if a.toInt ≤ (if b.toInt ≤ c.toInt then c else b).toInt then (if b.toInt ≤ c.toInt then c else b) else a := by
  by_cases hab : a.toInt ≤ b.toInt <;> by_cases hbc : b.toInt ≤ c.toInt <;> simp only [hab, hbc, if_true, if_false]
  · rw [if_pos (hab.trans hbc)]
  · rw [if_neg (by omega : ¬ a.toInt ≤ c.toInt)]

theorem minInt_assoc {n : Nat} (a b c : BitVec n) :
    (if (if a.toInt ≤ b.toInt then a else b).toInt ≤ c.toInt then (if a.toInt ≤ b.toInt then a else b) else c) =
      if a.toInt ≤ (if b.toInt ≤ c.toInt then b else c).toInt then a else if b.toInt ≤ c.toInt then b else c := by
  by_cases hab : a.toInt ≤ b.toInt <;> by_cases hbc : b.toInt ≤ c.toInt <;> simp only [hab, hbc, if_true, if_false]
  · rw [if_pos (hab.trans hbc)]
  · rw [if_neg (by omega : ¬ a.toInt ≤ c.toInt)]

/-- One level over the images of values is the image of the level. -/
theorem treeLevel_map {α β : Type} {f : α → α → α} {F : β → β → β} {c : α → β}
    (h : ∀ a b, F (c a) (c b) = c (f a b)) :
    ∀ l : List (Option α), treeLevel F (l.map (Option.map c)) = (treeLevel f l).map (Option.map c)
  | some a :: some b :: l => by simp [treeLevel, h, treeLevel_map h l]
  | some a :: none :: l => by simp [treeLevel, treeLevel_map h l]
  | none :: x :: l => by simp [treeLevel, treeLevel_map h l]
  | [some a] => rfl
  | [none] => rfl
  | [] => rfl

/-- The tree over the images of values is the image of the tree. -/
theorem tree_map {α β : Type} {f : α → α → α} {F : β → β → β} {c : α → β}
    (h : ∀ a b, F (c a) (c b) = c (f a b)) (k : Nat) :
    ∀ l : List (Option α), tree F k (l.map (Option.map c)) = (tree f k l).map c := by
  induction k with
  | zero => intro l; cases l <;> rfl
  | succ k ih => exact fun l => by rw [tree, treeLevel_map h, ih, tree]

theorem length_treeLevel {α : Type} (f : α → α → α) : ∀ l : List (Option α), (treeLevel f l).length = (l.length + 1) / 2
  | some x :: some y :: l => by simp [treeLevel, length_treeLevel f l]; omega
  | some x :: none :: l => by simp [treeLevel, length_treeLevel f l]; omega
  | none :: x :: l => by simp [treeLevel, length_treeLevel f l]; omega
  | [x] => by cases x <;> simp [treeLevel]
  | [] => by simp [treeLevel]

section
variable {α : Type} {f : α → α → α} {e : α} (hassoc : ∀ a b c, f (f a b) c = f a (f b c)) (hid : ∀ a, f e a = a)
include hassoc

theorem foldl_treeLevel : ∀ (l : List (Option α)) (a : α),
    (treeLevel f l).reduceOption.foldl f a = l.reduceOption.foldl f a
  | some x :: some y :: l, a => by simp [treeLevel, List.reduceOption_cons_of_some, hassoc, foldl_treeLevel l]
  | some x :: none :: l, a => by
    simp [treeLevel, List.reduceOption_cons_of_some, List.reduceOption_cons_of_none, foldl_treeLevel l]
  | none :: some x :: l, a => by
    simp [treeLevel, List.reduceOption_cons_of_some, List.reduceOption_cons_of_none, foldl_treeLevel l]
  | none :: none :: l, a => by simp [treeLevel, List.reduceOption_cons_of_none, foldl_treeLevel l]
  | [some x], a => rfl
  | [none], a => rfl
  | [], a => rfl

include hid

/-- R118: the tree of an associative operation is its fold over the lanes that are present. -/
theorem tree_eq_foldl (k : Nat) : ∀ l : List (Option α), l.length = 2 ^ k →
    (tree f k l).getD e = l.reduceOption.foldl f e := by
  induction k with
  | zero =>
    intro l hl
    obtain ⟨x, rfl⟩ := List.length_eq_one_iff.1 hl
    cases x with
    | none => rfl
    | some a => exact (hid a).symm
  | succ k ih =>
    intro l hl
    rw [tree, ih _ (by rw [length_treeLevel, hl, Nat.pow_succ]; omega), foldl_treeLevel hassoc]

end

theorem reduceOption_map_ite {α β : Type} (q : α → Bool) (f : α → β) (l : List α) :
    (l.map (fun j => if q j then some (f j) else none)).reduceOption = (l.filter q).map f := by
  induction l with
  | nil => rfl
  | cons x l ih =>
    cases hx : q x with
    | true => simp [List.reduceOption_cons_of_some, hx, ih]
    | false => simp [List.reduceOption_cons_of_none, hx, ih]

/-- R118, R194: an integer reduction is the fold of its operation over the enabled lanes. -/
theorem reduceInt_eq {s : State} {o : VOp} {a : BitVec 5} {w k E : Nat} {F : Nat → Nat → Nat}
    {f : BitVec w → BitVec w → BitVec w} {e : BitVec w} (hF : ∀ x y : BitVec w, F x.toNat y.toNat % 2 ^ w = (f x y).toNat)
    (hassoc : ∀ a b c, f (f a b) c = f a (f b c)) (hid : ∀ a, f e a = a) (hlen : 512 / w = 2 ^ k) (hE : E = e.toNat)
    (hsrcs : o.srcs = [a]) : (reduceInt w k F E (o.input s)).val =
      ((((upTo (512 / w)).filter (fun j => (enabledBy s).getLsbD (j * w / 32))).map (la s w a)).foldl f e).signExtend 64 := by
  have hhead : (o.input s).src.headD 0#512 = s.vr a := by unfold VOp.input; rw [hsrcs]; rfl
  have hlanes : (upTo (512 / w)).map (fun j => if (enabledBy s).getLsbD (j * w / 32) then some (lane w (s.vr a) j) else none) =
      ((upTo (512 / w)).map (fun j => if (enabledBy s).getLsbD (j * w / 32) then some (la s w a j) else none)).map
        (Option.map BitVec.toNat) := by
    rw [List.map_map]
    refine List.map_congr_left fun j _ => ?_
    rw [lane_eq_la, Function.comp, apply_ite (Option.map BitVec.toNat)]
    rfl
  unfold reduceInt
  dsimp only
  rw [hhead]
  show BitVec.ofInt 64 (sval w ((tree _ k ((upTo (512 / w)).map (fun j =>
    if (enabledBy s).getLsbD (j * w / 32) then some (lane w (s.vr a) j) else none))).getD E)) = _
  rw [hlanes, tree_map (f := f) hF, hE, Option.getD_map, tree_eq_foldl hassoc hid k _ (by simp [upTo, hlen]),
    reduceOption_map_ite, sval_eq_toInt, BitVec.signExtend]

end Sys2Proof.Machine

end

section
/-! SUPPORT. The vector integer instructions, permutes, lane moves and reductions, row by row of their tables (R118, R193,
R194). -/

namespace Sys2Proof.Claims

open Sys2Proof.Machine

section
variable {i : Instr} {s : State} {word : Nat} {pol : Policy} {h : BitVec 2} {a b d : BitVec 5}

/-! ### Shapes -/

/-- A lanewise integer operation of two registers. -/
theorem completes_vint {w : Nat} {F : Nat → Nat → Nat} {f : BitVec w → BitVec w → BitVec w}
    (he : exec i s = VOp.run { word, pol, hold := h, req := 0, srcs := [a, b], dst := some d } s (pureV (map2 w F)))
    (hF : ∀ x y : BitVec w, F x.toNat y.toNat % 2 ^ w = (f x y).toNat)
    (hready : vecReady s ((vint s w f h b a d).names s) none) : (vint s w f h b a d).Completes i s :=
  completes_lanes rfl he nofun rfl hready (hasLanes_map2 hF rfl)

/-- An integer comparison. -/
theorem completes_vicmp {F : Nat → Nat → Bool} {f : BitVec 32 → BitVec 32 → Bool} {k : BitVec 3}
    (he : exec i s = VOp.run { word, pol, hold := h, req := 0, srcs := [a, b], dx := some (.k k) } s (pureV (cmp2 F)))
    (hF : ∀ x y : BitVec 32, F x.toNat y.toNat = f x y) (hready : vecReady s ((vicmp s f h b a k).names s) none) :
    (vicmp s f h b a k).Completes i s := by
  refine completes_mask rfl he nofun rfl hready ⟨rfl, rfl, rfl, rfl⟩ fun j hj => ?_
  rw [beq_b2n, ← hF]
  refine (getLsbD_maskOf _ hj).trans ?_
  rw [at_input]
  rfl

/-- An integer reduction. -/
theorem completes_reduced {w k E : Nat} {F : Nat → Nat → Nat} {f : BitVec w → BitVec w → BitVec w} {e : BitVec w}
    (he : exec i s = VOp.run { word, pol, hold := h, req := 2, srcs := [a], dx := some (.x (xreg d)) } s
      (pureV (reduceInt w k F E)))
    (hF : ∀ x y : BitVec w, F x.toNat y.toNat % 2 ^ w = (f x y).toNat)
    (hassoc : ∀ a b c, f (f a b) c = f a (f b c)) (hid : ∀ a, f e a = a) (hlen : 512 / w = 2 ^ k) (hE : E = e.toNat)
    (hready : vecReady s ((reduced s w f e h a d).names s) none) : (reduced s w f e h a d).Completes i s :=
  completes_word rfl he rfl hready ⟨rfl, rfl, rfl, rfl⟩ (reduceInt_eq hF hassoc hid hlen hE rfl)

/-- R118, R194: an FP reduction where it reports no fault. -/
theorem completes_reducedFp {f : Fmt} {w k E : Nat} {op : FOp}
    (he : exec i s = VOp.run { word, pol, hold := h, req := 2, srcs := [a], dx := some (.x (xreg d)) } s
      (pureV (reduceFp f w k op E)))
    (hready : vecReady s ((reducedFp s f w k op E h a d).names s) none) (hok : (reducedFp s f w k op E h a d).ok) :
    (reducedFp s f w k op E h a d).Completes i s := by
  have hquiet : ∀ i : VIn, (reduceFp f w k op E i).fault = none → Quiet (reduceFp f w k op E i) 0 := fun i hf => by
    refine ⟨hf, ?_, ?_, ?_⟩ <;> unfold reduceFp <;> dsimp only <;> split <;> rfl
  exact completes_word rfl he rfl hready (hquiet _ hok) rfl

end

/-! ### The tables -/

section
variable {i : Instr} {s : State} {p : VecSpec}

theorem completes_vecInt (hp : vecIntSpec s i = some p) (hready : vecReady s (p.names s) p.x) : p.Completes i s := by
  cases i
  case vadd => cases hp; exact completes_vint rfl lane_add hready
  case vsub => cases hp; exact completes_vint rfl lane_sub hready
  case vmul => cases hp; exact completes_vint rfl lane_mul hready
  case vsll => cases hp; exact completes_vint rfl lane_sll hready
  case vsrl => cases hp; exact completes_vint rfl lane_srl hready
  case vsra => cases hp; exact completes_vint rfl lane_sra hready
  case vmin => cases hp; exact completes_vint rfl lane_min hready
  case vmax => cases hp; exact completes_vint rfl lane_max hready
  case vminu => cases hp; exact completes_vint rfl lane_minu hready
  case vmaxu => cases hp; exact completes_vint rfl lane_maxu hready
  case vand => cases hp; exact completes_vint rfl toNat_and_lane hready
  case vor => cases hp; exact completes_vint rfl toNat_or_lane hready
  case vxor => cases hp; exact completes_vint rfl toNat_xor_lane hready
  case vandn => cases hp; exact completes_vint rfl toNat_andNot_lane hready
  case vieq => cases hp; exact completes_vicmp rfl beq_toNat hready
  case vilt => cases hp; exact completes_vicmp rfl (fun x y => by rw [sval_eq_toInt, sval_eq_toInt]) hready
  case viltu => cases hp; exact completes_vicmp rfl (fun _ _ => rfl) hready
  case vbcast =>
    cases hp
    exact completes_lanes rfl rfl (fun _ => rfl) rfl hready
      ⟨⟨rfl, rfl, rfl, rfl⟩, rfl, fun _ => _, rfl, fun _ _ => Nat.mod_mod _ _⟩
  case kget => cases hp; exact completes_word rfl rfl rfl hready ⟨rfl, rfl, rfl, rfl⟩ rfl
  case kset p h a k =>
    cases hp
    refine completes_mask rfl rfl (fun _ => rfl) rfl hready ⟨rfl, rfl, rfl, rfl⟩ fun j hj => ?_
    exact getLsbD_bitField (s.xr (xreg a)) hj
  all_goals cases hp

theorem completes_vecPerm (hp : vecPermSpec s i = some p) (hready : vecReady s (p.names s) p.x) (hok : p.ok) :
    p.Completes i s := by
  cases i
  case vperm =>
    cases hp
    refine completes_lanes rfl rfl nofun rfl hready ⟨⟨rfl, rfl, rfl, rfl⟩, rfl, _, List.map_map, fun j _ => ?_⟩
    simp only [Function.comp, lane_eq_la]
  case vperm2 =>
    cases hp
    refine completes_lanes rfl rfl nofun rfl hready ⟨⟨rfl, rfl, rfl, rfl⟩, rfl, _, List.map_map, fun j _ => ?_⟩
    simp only [Function.comp, lane_eq_la, bitAt_toNat]
    split <;> rw [lane_eq_la]
  case vrot =>
    cases hp
    refine completes_lanes rfl rfl nofun rfl hready (hasLanes_words fun j _ => ?_)
    exact congrArg (· % 2 ^ 32) (lane_eq_la _ _ _ _)
  case vins =>
    cases hp
    refine completes_lanes rfl rfl (fun _ => rfl) rfl hready (hasLanes_words fun j _ => ?_)
    split
    · exact Nat.mod_mod _ _
    · exact congrArg (· % 2 ^ 32) (lane_eq_la _ _ _ _)
  case vext p h n a d =>
    cases hp
    refine completes_word rfl rfl rfl hready ⟨rfl, rfl, rfl, rfl⟩ ?_
    show sext32 (w64 (lane 32 (s.vr a) n.toNat)) = _
    rw [lane_eq_la, w64, BitVec.ofNat_toNat, sext32_setWidth]
  case vsumI32 | vsumI16 | vsumI8 =>
    cases hp
    exact completes_reduced rfl (fun x y => (BitVec.toNat_add x y).symm) BitVec.add_assoc BitVec.zero_add rfl rfl hready
  case vmaxI32 =>
    cases hp
    exact completes_reduced rfl lane_max maxInt_assoc (fun x => if_pos (BitVec.le_toInt x)) rfl rfl hready
  case vminI32 =>
    cases hp
    refine completes_reduced rfl lane_min minInt_assoc (fun x => ?_) rfl rfl hready
    have hmax : x.toInt ≤ (0x7FFFFFFF#32).toInt := Int.le_of_lt_add_one BitVec.toInt_lt
    split
    · next hx => exact BitVec.eq_of_toInt_eq (Int.le_antisymm hx hmax)
    · rfl
  case vsumF | vmaxF | vminF | vsumBf => cases hp; exact completes_reducedFp rfl hready hok
  all_goals cases hp

end

end Sys2Proof.Claims

end

section
/-! SUPPORT. The vector FP instructions, special functions and conversions, row by row of their table (R112, R183, R192,
R197 to R200). -/

namespace Sys2Proof.Claims

open Sys2Proof.Machine

/-! ### Shapes -/

section
variable {i : Instr} {s : State} {o : VOp} {g : VIn → VOut} {word : Nat} {pol : Policy} {hold : BitVec 2} {req : Nat}
  {srcs : List (BitVec 5)} {d : BitVec 5}

/-- R91, R183: a lanewise computation, of which no enabled lane stops. -/
theorem completes_vout {w n : Nat} {opnd : Nat → Nat → Nat} {k f : Nat → FOut}
    (ho : o = { word, pol, hold, req, srcs, dst := some d }) (he : exec i s = o.run s (pureV g))
    (hg : g (o.input s) = lanesOut w (enabledBy s) opnd ((upTo n).map k)) (hn : n = 512 / w)
    (hk : ∀ j < n, (k j).stop = (f j).stop ∧ (k j).res % 2 ^ w = (f j).res % 2 ^ w)
    (hready : vecReady s ((vout s hold req srcs (.v d) w f).names s) none)
    (hok : (vout s hold req srcs (.v d) w f).ok) : (vout s hold req srcs (.v d) w f).Completes i s := by
  subst hn
  refine completes_lanes ho he nofun rfl hready ?_
  rw [hg]
  exact hasLanes_lanesOut rfl (fun j hj hen => (hk j hj).1.trans (hok j hj hen)) fun j hj => (hk j hj).2

/-- R192: a lanewise FP operation. -/
theorem completes_vfp {op : FOp} {last : Nat}
    (he : exec i s = VOp.run { word, pol, hold, req, srcs, dst := some d } s (pureV (fpVec op last)))
    (hready : vecReady s ((vfp s op req hold srcs (.v d)).names s) none) (hok : (vfp s op req hold srcs (.v d)).ok) :
    (vfp s op req hold srcs (.v d)).Completes i s :=
  completes_vout rfl he rfl rfl (fun j _ => by rw [at_input]; exact ⟨rfl, rfl⟩) hready hok

/-- R192: an FP comparison. -/
theorem completes_vfcmp {op : FOp} {k : BitVec 3}
    (he : exec i s = VOp.run { word, pol, hold, req, srcs, dx := some (.k k) } s (pureV (fpCmp op)))
    (hready : vecReady s ((vfp s op req hold srcs (.k k)).names s) none) (hok : (vfp s op req hold srcs (.k k)).ok) :
    (vfp s op req hold srcs (.k k)).Completes i s := by
  refine completes_mask rfl he nofun rfl hready ⟨laneFault_none fun j hj hen => ?_, rfl, rfl, rfl⟩ fun j hj => ?_
  · rw [at_input]
    exact hok j hj hen
  · refine (getLsbD_maskOf _ hj).trans ?_
    rw [List.getD_eq_getElem _ _ (by simpa [upTo] using hj), List.getElem_map]
    simp only [upTo, List.getElem_range, at_input]
    rfl

/-- R197, R198: a special function. -/
theorem completes_vsfu {inv : List FV → Bool} {F : FpEnv → List FV → Nat × Nat} {f : List FV → Nat × Nat}
    (he : exec i s = VOp.run { word, pol, hold, req, srcs, dst := some d } s (pureV (sfuVec inv F)))
    (hF : F (vecEnv s) = f) (hready : vecReady s ((vsfu s inv f req hold srcs d).names s) none)
    (hok : (vsfu s inv f req hold srcs d).ok) : (vsfu s inv f req hold srcs d).Completes i s := by
  subst hF
  exact completes_vout rfl he rfl rfl (fun j _ => by rw [at_input]; exact ⟨rfl, rfl⟩) hready hok

end

section
variable {s : State} {o : VOp} {a b : BitVec 5}

/-- R199: the lanes that a quarter or half of a register is widened to. -/
theorem hasLanes_pickLanes {w base : Nat} {F f : Nat → Nat} (hsrcs : o.srcs = [a])
    (hf : ∀ j, F (part s w a base j).toNat = f j) : HasLanes (pickLanes w base F (o.input s)) 32 f 0 := by
  refine hasLanes_words fun j _ => ?_
  rw [show (o.input s).src.headD 0#512 = s.vr a by unfold VOp.input; rw [hsrcs]; rfl, lane_eq_la]
  exact congrArg (· % 2 ^ 32) (hf j)

/-- R199: lanes 0 to 15 of a pair of registers are those of the first, and 16 to 31 those of the second. -/
theorem lane_pair (hsrcs : o.srcs = [a, b]) {j : Nat} (hj : j < 32) :
    lane 32 ((o.input s).src.getD (j / 16) 0#512) (j % 16) = (la s 32 (if j < 16 then a else b) (j % 16)).toNat := by
  have hsrc : (o.input s).src = [s.vr a, s.vr b] := by unfold VOp.input; rw [hsrcs]; rfl
  rw [hsrc]
  split
  · next h => rw [Nat.div_eq_of_lt h]; exact lane_eq_la _ _ _ _
  · rw [show j / 16 = 1 by omega]; exact lane_eq_la _ _ _ _

/-- R199: a pair of registers saturated to 16-bit lanes, and the saturations that are counted. -/
theorem hasLanes_packVec (hsrcs : o.srcs = [a, b]) (v : Nat → Int)
    (hv : ∀ j, v j = (la s 32 (if j < 16 then a else b) (j % 16)).toInt) :
    HasLanes (packVec (o.input s)) 16 (fun j => (BitVec.ofInt 16 (max (-32768) (min 32767 (v j)))).toNat)
      ((upTo 32).filter (fun j => (enabledBy s).getLsbD (j / 2) && (decide (v j < -32768) || decide (32767 < v j)))).length := by
  have hsat : (upTo 32).map (fun j => satLane 16 (lane 32 ((o.input s).src.getD (j / 16) 0#512) (j % 16))) =
      (upTo 32).map (fun j => ((BitVec.ofInt 16 (max (-32768) (min 32767 (v j)))).toNat,
        decide (v j < -32768) || decide (32767 < v j))) :=
    List.map_congr_left fun j hj => by rw [lane_pair hsrcs (List.mem_range.1 hj), satLane_eq, hv]
  unfold packVec
  rw [hsat]
  refine ⟨⟨rfl, rfl, rfl, ?_⟩, rfl, _, List.map_map, fun _ _ => rfl⟩
  dsimp only
  unfold upTo
  rw [zipIdx_map_range, List.filter_map, List.length_map]
  rfl

end

/-! ### Block quantisation (R200) -/

theorem length_quantiseBlock (xs : List FV) (t : Nat) : (quantiseBlock xs t).2.1.length = xs.length := by
  unfold quantiseBlock
  split <;> simp

theorem eq_map_getD (l : List Nat) {n : Nat} (hn : l.length = n) : l = (upTo n).map (fun j => l.getD j 0) := by
  subst hn
  refine List.ext_getElem (by simp [upTo]) fun j hj _ => ?_
  rw [List.getElem_map, ← List.getD_eq_getElem l 0 hj]
  simp [upTo]

/-- R200: the codes and the scale of a block, where no element stops. -/
theorem hasLanes_quantVec (t : Nat) (i : VIn) (hfault : (quantVec t i).fault = none) :
    HasLanes (quantVec t i) 8 (fun j => (quantVec t i).lanes.getD j 0) (quantVec t i).qsat := by
  have hlen : (quantVec t i).lanes.length = 512 / 8 := by
    unfold quantVec
    simp [length_quantiseBlock, upTo]
  exact ⟨⟨hfault, rfl, rfl, rfl⟩, rfl, _, eq_map_getD _ hlen, fun _ _ => rfl⟩

/-! ### The table -/

section
variable {i : Instr} {s : State} {p : VecSpec}

theorem completes_vecFp (hp : vecFpSpec s i = some p) (hready : vecReady s (p.names s) p.x) (hok : p.ok) :
    p.Completes i s := by
  cases i
  case vfadd | vfsub | vfmul | vfmin | vfmax | vfma | vfms | vfma4 => cases hp; exact completes_vfp rfl hready hok
  case vfabs =>
    cases hp
    refine completes_lanes rfl rfl nofun rfl hready (hasLanes_map fun j _ => ?_)
    exact congrArg (· % 2 ^ 32) ((congrArg (· % 2 ^ 31) (lane_eq_la _ _ _ _)).trans (clearSign _))
  case vfneg =>
    cases hp
    refine completes_lanes rfl rfl nofun rfl hready (hasLanes_map fun j _ => ?_)
    exact congrArg (· % 2 ^ 32) ((congrArg (fun n => (n + 2 ^ 31) % 2 ^ 32) (lane_eq_la _ _ _ _)).trans (flipSign _))
  case vfeq | vflt | vfle => cases hp; exact completes_vfcmp rfl hready hok
  case vrcpA | vrsqA | vrcpS | vrsqS | vexp2A | vlog2A => cases hp; exact completes_vsfu rfl rfl hready hok
  case vcvtFI =>
    cases hp
    refine completes_lanes rfl rfl nofun rfl hready (hasLanes_words fun j _ => ?_)
    rw [at_input]
    exact congrArg (fun v => intToFp fp32 (vecEnv s).mode v % 2 ^ 32) (sval_eq_toInt _)
  case vcvtIF =>
    cases hp
    exact completes_vout rfl rfl rfl rfl (fun j _ => by rw [at_input]; exact ⟨rfl, Nat.mod_mod _ _⟩) hready hok
  case vcvtBfF =>
    cases hp
    exact completes_vout rfl rfl rfl rfl (fun j hj => by rw [lane_pair rfl hj]; exact ⟨rfl, rfl⟩) hready hok
  case vcvtFBf | vcvtFMk8 =>
    cases hp
    exact completes_lanes rfl rfl nofun rfl hready (hasLanes_pickLanes rfl fun _ => rfl)
  case vpackI16 =>
    cases hp
    exact completes_lanes rfl rfl nofun rfl hready (hasLanes_packVec rfl _ fun _ => rfl)
  case vunpkI16 | vunpkI8 =>
    cases hp
    exact completes_lanes rfl rfl nofun rfl hready (hasLanes_pickLanes rfl fun _ => ofSval_sval _)
  case vquant =>
    cases hp
    exact completes_lanes rfl rfl nofun rfl hready (hasLanes_quantVec _ _ hok)
  all_goals cases hp

end

end Sys2Proof.Claims

open Sys2Proof Sys2Proof.Machine Sys2Proof.Claims

/-- Settles O24: an instruction that names no stream and makes no access is the issue of its result
(`VecSpec.completes_of`), and row by row of the three tables the instruction's result is what the row says. -/
theorem vectorComplete : Obligations.VectorComplete := by
  unfold Obligations.VectorComplete
  refine ⟨completesVec_iff.2 fun i s p hp hready _ _ => ?int, completesVec_iff.2 fun i s p hp hready hok _ => ?perm,
    completesVec_iff.2 fun i s p hp hready hok _ => ?fp⟩
  case int => exact completes_vecInt hp hready
  case perm => exact completes_vecPerm hp hready hok
  case fp => exact completes_vecFp hp hready hok

end

section
/-! SUPPORT. The events that deliver a trap that waits (R172, R184, R329), and the reflection (R375): what each leaves of the
thread whose trap it is. -/

namespace Sys2Proof.Machine

/-! ### What the delivery of a trap leaves of its thread -/

/-- R17, R19: the thread after a delivery, beside the trap record, the status, the pc and the latches. -/
theorem State.thread_deliver (s : State) (sid : Nat) (t : Trap) :
    let h := (s.deliver sid t).thread sid
    h = { s.thread sid with
      epc := h.epc, ecause := h.ecause, einfo := h.einfo, estat := h.estat, st := h.st, pc := h.pc,
      prefixLatch := h.prefixLatch, cap := h.cap, nrBefore := h.nrBefore, heavy := h.heavy, trapWait := none } := by
  intro h
  cases ht : (s.thread sid).takesTrap t.code with
  | true =>
    rw [show h = _ from congrArg Slot.th (s.slot_deliver_taken ht)]
    dsimp only [Thread.enterHandler, Thread.record]
  | false =>
    rw [show h = _ from congrArg Slot.th (s.slot_deliver_reflected ht)]
    dsimp only
    split <;> rfl

/-- R19: a thread that takes the trap is in its handler. -/
theorem State.inHandler_deliver (s : State) {sid : Nat} {t : Trap} (ht : (s.thread sid).takesTrap t.code = true) :
    Claims.inHandler (s.thread sid) ((s.deliver sid t).thread sid) t := by
  rw [show (s.deliver sid t).thread sid = _ from congrArg Slot.th (s.slot_deliver_taken ht)]
  exact (s.thread sid).inHandler_enterHandler t

/-- R375: the slot of one that does not sleeps for the reflection. -/
theorem State.sleeps_deliver (s : State) {sid : Nat} {t : Trap} (ht : (s.thread sid).takesTrap t.code = false) :
    ((s.deliver sid t).slot sid).st = .sleep (.reflect t) 0 := by
  rw [s.slot_deliver_reflected ht]

theorem State.thread_modThread_same (s : State) (sid : Nat) (f : Thread → Thread) :
    (s.modThread sid f).thread sid = f (s.thread sid) := by
  rw [State.thread_modThread, if_pos rfl]

/-! ### The cancelling of instructions (R184) -/

/-- R190: undoing pops moves the positions of streams and nothing else of the thread. -/
theorem Thread.undoPops_eq (h : Thread) (l : List RingEntry) :
    h.undoPops l = { h with streams := (h.undoPops l).streams } := by
  have hpops : ∀ (ps : List (Nat × Nat)) (g : Thread), g = { h with streams := g.streams } →
      ps.foldl (fun h p => h.setP (BitVec.ofNat 5 p.1) p.2) g =
        { h with streams := (ps.foldl (fun h p => h.setP (BitVec.ofNat 5 p.1) p.2) g).streams } := by
    intro ps
    induction ps with
    | nil => exact fun _ hg => hg
    | cons p ps ih =>
      intro g hg
      refine ih _ ?_
      rw [hg]; rfl
  induction l with
  | nil => rfl
  | cons e l ih => exact hpops e.pops _ ih

/-- R184, R330: what the cancelling from an entry on changes of the thread. -/
theorem Thread.cancelFrom_eq (h : Thread) (e : RingEntry) : h.cancelFrom e = { h with
    streams := (h.cancelFrom e).streams, ring := (h.cancelFrom e).ring, replay := (h.cancelFrom e).replay, rpc := h.pc } := by
  unfold Thread.cancelFrom
  dsimp only
  rw [Thread.undoPops_eq]

theorem Thread.length_ring_cancelFrom_le (h : Thread) (e : RingEntry) : (h.cancelFrom e).ring.length ≤ h.ring.length :=
  List.length_take_le' _ _

/-- R329: whether the thread takes a trap does not depend on its ring. -/
theorem Thread.takesTrap_cancelFrom (h : Thread) (e : RingEntry) (code : Nat) :
    (h.cancelFrom e).takesTrap code = h.takesTrap code := by
  rw [Thread.cancelFrom_eq]; rfl

/-! ### The events -/

/-- R329: a trap that waited is delivered once every older instruction has retired. -/
theorem exec_preciseTrapDelivery {s : State} {sid : Nat} {tr : Trap} (hw : (s.thread sid).trapWait = some tr)
    (hf : (s.thread sid).inFlight = false) : exec (.preciseTrapDelivery sid) s = .next (s.deliver sid tr) := by
  show done (s.deliverWaiting sid) = _
  simp only [State.deliverWaiting, hw, hf, done, Bool.false_eq_true, if_false]

/-- R184: the trap of a late fault. -/
def Thread.lateTrap (h : Thread) (e : RingEntry) (code : Nat) (info : Word) : Trap :=
  { code := code, info := info, seq := e.seq, org := 1, pc := e.addr, st := h.st }

/-- R184: a late fault is delivered to the thread with the faulting entry and all younger ones cancelled. -/
theorem exec_lateFaultDelivery {s : State} {sid : Nat} {e : RingEntry} {code : Nat} {info : Word}
    (hl : (s.thread sid).lateFault = some e) (hfault : e.fault = some (code, info)) :
    exec (.lateFaultDelivery sid) s = .next { ({ s with cur := sid } : State).deliverLate e with cur := s.cur } ∧
    ({ s with cur := sid } : State).deliverLate e =
      (({ s with cur := sid } : State).modThread sid (·.cancelFrom e)).deliver sid
        ((s.thread sid).lateTrap e code info) := by
  constructor
  · show done (s.deliverLateOf sid) = _
    simp only [State.deliverLateOf, hl, done]
  · have hst : (({ s with cur := sid } : State).modTh (·.cancelFrom e)).th.st = (s.thread sid).st := by
      rw [State.th_modTh, Thread.cancelFrom_eq]; rfl
    simp only [State.deliverLate, hfault, hst]
    rfl

/-- R172: the overwrite trap of a pending event. -/
def Thread.overwriteTrapOf (h : Thread) (r : BitVec 6) (why : BitVec 4) : Trap :=
  { code := tOVERWRITE, info := overwriteInfo r why, pc := h.pc, st := h.stBefore }

section
variable {s : State} {sid : Nat} {r : BitVec 6} {why : BitVec 4} (hp : (s.thread sid).pendOv = some (r, why))
  (huh : stBit (s.thread sid).st 7 = false)
include hp huh

/-- R329: a pending overwrite trap waits for the instructions in flight. -/
theorem exec_overwriteTrap_waits (hf : (s.thread sid).inFlight = true) : exec (.overwriteTrap sid) s = .next s := by
  show done (s.overwriteTrap sid) = _
  simp only [State.overwriteTrap, hp, hf, huh, done, Bool.or_true, if_true]

/-- R172: and is then delivered, no longer pending. -/
theorem exec_overwriteTrap (hf : (s.thread sid).inFlight = false) : exec (.overwriteTrap sid) s =
    .next ((s.modThread sid (fun h => { h with pendOv := none })).deliver sid
      ((s.thread sid).overwriteTrapOf r why)) := by
  show done (s.overwriteTrap sid) = _
  simp only [State.overwriteTrap, hp, hf, huh, done, Bool.or_false, Bool.false_eq_true, if_false]
  rfl

end

/-- R375: the state in which a thread is about to leave its slot: its accesses performed, its lines released. -/
def State.leaving (s : State) (sid : Nat) : State :=
  (((({ s with nextToken := s.nextToken + 1 } : State).flushPort (coreOf sid)).flushSends sid).settle sid).releaseLines sid

/-- R375: the save frame of a reflected thread. -/
def State.reflectFrame (s : State) (sid k : Nat) (tr : Trap) : Frame :=
  { num := k, sid := sid, why := 2, token := w64 (s.nextToken + 1), handler := s.handlerOf (s.thread sid) tr, trap := some tr,
    qo := ((s.leaving sid).slot sid).qo, th := { (s.leaving sid).thread sid with pc := tr.pc } }

/-- R375: how a reflection ends by the writing of the frame: the thread is in it, or the error is noted. -/
def State.reflectEnd (s : State) (sid k : Nat) (tr : Trap) : Option State → State
  | some u => (u.postTrap (s.handlerOf (s.thread sid) tr) (s.reflectFrame sid k tr) tr).vacate sid
  | none => (s.leaving sid).modCtx (s.thread sid).ctx (fun c => { c with lastErr := 1 })

/-- R375: a reflection with a free frame and room in the handler's trap queue. -/
theorem exec_trapReflection {s : State} {sid n k : Nat} {tr : Trap} {o : Option State}
    (hst : (s.slot sid).st = .sleep (.reflect tr) n) (hf : (s.thread sid).inFlight = false)
    (hroom : (s.ctx (s.handlerOf (s.thread sid) tr)).tqRoom = true) (hframe : (s.ctx (s.thread sid).ctx).freeFrame = some k)
    (hto : (s.leaving sid).toFrame (s.thread sid).ctx (s.reflectFrame sid k tr) = o) :
    exec (.trapReflection sid) s = .next (s.reflectEnd sid k tr o) := by
  show done (s.reflect sid) = _
  unfold State.leaving State.reflectFrame State.leaving at hto
  simp only [State.reflect, hst, hf, hroom, hframe, hto, done, Bool.not_true, Bool.false_eq_true, or_self, if_false]
  cases o <;> simp only [State.reflectEnd, State.leaving, State.reflectFrame]

end Sys2Proof.Machine

open Sys2Proof Sys2Proof.Machine Sys2Proof.Claims

/-- Settles O38: each event is a delivery or a reflection by its equation `exec_…`, and a delivery leaves the thread in its
handler (`State.inHandler_deliver`) or its slot asleep (`State.sleeps_deliver`). -/
theorem trapEvents : Obligations.TrapEvents := by
  unfold Obligations.TrapEvents
  intro sid s
  refine ⟨fun tr hw hf => ?waiting, fun e code info hl hfault => ?late, fun r why hp huh => ?overwrite,
    fun tr n k hst hf => ?reflection⟩
  case waiting =>
    refine ⟨_, exec_preciseTrapDelivery hw hf, ?_, s.inHandler_deliver, s.sleeps_deliver⟩
    rw [State.thread_deliver]
  case late =>
    obtain ⟨hexec, hdeliver⟩ := exec_lateFaultDelivery hl hfault
    rw [hdeliver] at hexec
    generalize hu : ({ s with cur := sid } : State).modThread sid (·.cancelFrom e) = u at hexec
    have hth : u.thread sid = (s.thread sid).cancelFrom e := by rw [← hu, State.thread_modThread_same]; rfl
    have htakes : (u.thread sid).takesTrap code = (s.thread sid).takesTrap code := by
      rw [hth, Thread.takesTrap_cancelFrom]
    refine ⟨_, hexec, rfl, ?_, fun ht => ?_, fun ht => ?_⟩
    · show ((u.deliver sid _).thread sid).ring.length ≤ _
      rw [State.thread_deliver, hth]
      exact Thread.length_ring_cancelFrom_le _ e
    · obtain ⟨hepc, -, hinfo, -, hpc, hbit, -⟩ :=
        u.inHandler_deliver (t := (s.thread sid).lateTrap e code info) (htakes.trans ht)
      refine ⟨hepc, hinfo, hpc.trans ?_, hbit⟩
      rw [hth, Thread.cancelFrom_eq]
    · exact u.sleeps_deliver (t := (s.thread sid).lateTrap e code info) (htakes.trans ht)
  case overwrite =>
    refine ⟨exec_overwriteTrap_waits hp huh, fun hf => ?_⟩
    have hexec := exec_overwriteTrap hp huh hf
    generalize hu : s.modThread sid (fun h => { h with pendOv := none }) = u at hexec
    have hth : u.thread sid = { s.thread sid with pendOv := none } := by rw [← hu, State.thread_modThread_same]
    have htakes : ∀ code, (u.thread sid).takesTrap code = (s.thread sid).takesTrap code := fun code => by rw [hth]; rfl
    refine ⟨_, hexec, ?_, fun ht => ?_, fun ht => ?_⟩
    · rw [State.thread_deliver, hth]
    · have h := u.inHandler_deliver (t := (s.thread sid).overwriteTrapOf r why) ((htakes _).trans ht)
      rw [hth] at h
      exact h
    · exact u.sleeps_deliver (t := (s.thread sid).overwriteTrapOf r why) ((htakes _).trans ht)
  case reflection =>
    intro anc c hroom hframe s1 f
    exact ⟨fun u hto => exec_trapReflection hst hf hroom hframe hto, exec_trapReflection hst hf hroom hframe⟩
end

section
/-! SUPPORT. The fabric's instructions (R163 to R178): what each update of a register's arming state leaves, the fields of a
capability, and the completion of an instruction of the fabric. -/

namespace Sys2Proof.Machine

open Sys2Proof.Claims

/-! ### The arming state of registers -/

theorem State.armOf_modArm (s : State) (q r : BitVec 6) (f : ArmSt → ArmSt) :
    (s.modArm q f).armOf r = if r = q then f (s.armOf r) else s.armOf r := by
  by_cases hc : isC q = true
  · rw [State.modArm, if_pos hc, State.modMe_congr (g := fun k =>
      { k with carm := vwr k.carm q.toNat (f (vrd s.me.carm q.toNat)) }) rfl]
    split
    · next h => subst h; simp [State.armOf, hc]
    · next h => exact armOf_modMe_carm s q r _ hc h
  · rw [State.modArm, if_neg hc, State.modTh_congr (g := fun h =>
      { h with xarm := vwr h.xarm q.toNat (f (vrd s.th.xarm q.toNat)) }) rfl]
    split
    · next h => subst h; simp [State.armOf, hc]
    · next h => exact armOf_modTh_xarm s q r _ hc h

theorem State.onlyRegs_modArm (s : State) (q : BitVec 6) (f : ArmSt → ArmSt) : s.OnlyRegs (s.modArm q f) [q] [] := by
  have harm : ∀ r, r ∉ [q] → r ∉ ([] : List (BitVec 6)) → (s.modArm q f).armOf r = s.armOf r := fun r hr _ => by
    rw [State.armOf_modArm, if_neg (by simpa using hr)]
  unfold State.modArm at harm ⊢
  split at harm
  · next h =>
    rw [if_pos h]
    exact s.onlyRegs_modMe _ _ _ rfl (fun r _ => State.xr_of _ _ _ (by simp) (by simp)) harm
  · next h =>
    rw [if_neg h]
    exact s.onlyRegs_modTh _ _ _ rfl (fun _ _ => rfl) (fun r _ => State.xr_of _ _ _ (by simp) (by simp)) harm

theorem State.readsOnly_modArm (s : State) (q : BitVec 6) (f : ArmSt → ArmSt) : s.th.ReadsOnly (s.modArm q f).th := by
  unfold State.modArm
  split
  · rw [State.th_modMe]; rfl
  · rw [State.th_modTh]; rfl

/-- Change the arming state of some registers, one after another. -/
def State.modArms (s : State) (l : List (BitVec 6)) (f : ArmSt → ArmSt) : State := l.foldl (fun s r => s.modArm r f) s

theorem State.onlyRegs_modArms (s : State) (l : List (BitVec 6)) (f : ArmSt → ArmSt) : s.OnlyRegs (s.modArms l f) l [] := by
  induction l generalizing s with
  | nil => exact .refl s
  | cons q l ih => exact (s.onlyRegs_modArm q f).trans (ih _)

theorem State.readsOnly_modArms (s : State) (l : List (BitVec 6)) (f : ArmSt → ArmSt) :
    s.th.ReadsOnly (s.modArms l f).th := by
  induction l generalizing s with
  | nil => rfl
  | cons q l ih => exact (s.readsOnly_modArm q f).trans (ih _)

/-- A change that is none the second time is made to each register of the list. -/
theorem State.armOf_modArms (s : State) (l : List (BitVec 6)) {f : ArmSt → ArmSt} (hf : ∀ a, f (f a) = f a) (r : BitVec 6) :
    (s.modArms l f).armOf r = if r ∈ l then f (s.armOf r) else s.armOf r := by
  induction l generalizing s with
  | nil => rfl
  | cons q l ih =>
    rw [State.modArms, List.foldl_cons, ← State.modArms, ih, State.armOf_modArm]
    by_cases hq : r = q <;> by_cases hl : r ∈ l <;> simp [hq, hl, hf]

/-- R176: what `arm` makes of a register. -/
def ArmSt.armed (re : Bool) (a : ArmSt) : ArmSt := { a with st := if a.st = .unarmed then .awaiting else a.st, re := re }

/-- R176: what `disarm` makes of a register. -/
def ArmSt.disarmed (a : ArmSt) : ArmSt := { a with st := .unarmed, re := false }

theorem ArmSt.armed_armed (re : Bool) (a : ArmSt) : (a.armed re).armed re = a.armed re := by
  obtain ⟨st, _⟩ := a
  cases st <;> rfl

theorem ArmSt.disarmed_disarmed (a : ArmSt) : a.disarmed.disarmed = a.disarmed := rfl

/-! ### The end of an instruction -/

theorem State.undisturbed_of_onlyRegs {s t : State} {rs : List (BitVec 6)} (h : s.OnlyRegs t rs [])
    (k : s.th.ReadsOnly t.th) : s.Undisturbed t :=
  ⟨h.keepsRegs, by rw [k], by rw [k]⟩

@[simp] theorem State.armOf_advance (s : State) (n : Nat) (r : BitVec 6) : (s.advance n).armOf r = s.armOf r :=
  (s.onlyRegs_advance n).arms r List.not_mem_nil List.not_mem_nil

theorem State.gen_advance (s : State) (n : Nat) : (s.advance n).th.gen = s.th.gen := by
  rw [(s.onlyRegs_advance n).thread]

/-- A register that an instruction does not read is armed at the start of its effect as before. -/
theorem Use.armOf_start (u : Use) (s : State) {r : BitVec 6} (h : r ∉ u.reads) : (u.start s).armOf r = s.armOf r :=
  (u.onlyRegs_start s).arms r h List.not_mem_nil

/-- R328: with every check passed, an instruction of the fabric is its own effect. -/
theorem exec_fabric {i : Instr} {s q : State} {u : Use} {body : State → Res} (he : exec i s = .next (u.run s body))
    (hu : u.feat = some fFabric ∧ u.kern = false ∧ u.size = 4) (hg : s.granted fFabric) (hn : s.unheld u.names)
    (hl : u.after = true → s.th.lateWaits = false) (ha : s.arrived u.reads) (hb : body (u.start s) = .next q) :
    exec i s = .next (q.advance 4) := by
  obtain ⟨hfeat, hkern, hsize⟩ := hu
  rw [he, Use.run_of u s body (fun f e => by rw [hfeat] at e; cases e; exact hg) (by simp [hkern]) hn hl ha, hb, ← hsize]
  rfl

/-! ### Capabilities (R166, R168) -/

/-- R166: a capability before it is sealed. -/
def State.unsealed (s : State) (a : BitVec 6) (n : BitVec 3) (r : BitVec 2) : Word :=
  w64 (s.selfWord s.th.ctx s.cur * 2 ^ 37 + a.toNat * 2 ^ 31 + n.toNat * 2 ^ 28 + s.th.gen.toNat * 2 ^ 20 + r.toNat * 2 ^ 18)

theorem State.capability_eq (s : State) (a : BitVec 6) (n : BitVec 3) (r : BitVec 2) :
    s.capability a n r = s.unsealed a n r ||| (s.sealFor s.th.ctx (s.unsealed a n r)).setWidth 64 := rfl

/-- R166: the fields of a capability above its seal: the identity of its thread's slot, the first register of its run and
the count of the others, the generation and the rights. -/
structure CapFields (c : Word) (w : BitVec 27) (a : BitVec 6) (n : BitVec 3) (g : BitVec 8) (r : BitVec 2) : Prop where
  identity : c.extractLsb' 37 27 = w
  first : c.extractLsb' 31 6 = a
  others : c.extractLsb' 28 3 = n
  gen : c.extractLsb' 20 8 = g
  rights : c.extractLsb' 18 2 = r

/-- A seal leaves the bits above it. -/
theorem extractLsb'_or_seal (c : Word) (x : BitVec 18) {lo len : Nat} (h : 18 ≤ lo) :
    (c ||| x.setWidth 64).extractLsb' lo len = c.extractLsb' lo len := by
  ext j hj
  have hx : x.getLsbD (lo + j) = false := BitVec.getLsbD_of_ge x _ (by omega)
  simp [hx]

/-- A seal is the low bits of what had none. -/
theorem extractLsb'_seal {c : Word} (x : BitVec 18) (h : c.extractLsb' 0 18 = 0#18) :
    (c ||| x.setWidth 64).extractLsb' 0 18 = x := by
  have hsplit : (c ||| x.setWidth 64).extractLsb' 0 18 = c.extractLsb' 0 18 ||| x := by
    ext j hj
    simp [BitVec.getLsbD_eq_getElem hj, show j < 64 by omega]
  rw [hsplit, h, BitVec.zero_or]

theorem CapFields.sealed {c : Word} {w : BitVec 27} {a : BitVec 6} {n : BitVec 3} {g : BitVec 8} {r : BitVec 2}
    (h : CapFields c w a n g r) (x : BitVec 18) : CapFields (c ||| x.setWidth 64) w a n g r where
  identity := (extractLsb'_or_seal c x (by decide)).trans h.identity
  first := (extractLsb'_or_seal c x (by decide)).trans h.first
  others := (extractLsb'_or_seal c x (by decide)).trans h.others
  gen := (extractLsb'_or_seal c x (by decide)).trans h.gen
  rights := (extractLsb'_or_seal c x (by decide)).trans h.rights

/-- A field below a number is what is appended to the number's word. -/
theorem ofNat_append {m k : Nat} (x : Nat) (y : BitVec k) :
    BitVec.ofNat m x ++ y = BitVec.ofNat (m + k) (x * 2 ^ k + y.toNat) := by
  have hdiv : (x * 2 ^ k + y.toNat) / 2 ^ k = x := by
    rw [Nat.mul_comm, Nat.mul_add_div (Nat.two_pow_pos k), Nat.div_eq_of_lt y.isLt, Nat.add_zero]
  have hmod : (x * 2 ^ k + y.toNat) % 2 ^ k = y.toNat := by
    rw [Nat.mul_comm, Nat.mul_add_mod, Nat.mod_eq_of_lt y.isLt]
  apply BitVec.eq_of_toNat_eq
  rw [BitVec.toNat_append, ← Nat.shiftLeft_add_eq_or_of_lt y.isLt, Nat.shiftLeft_eq, BitVec.toNat_ofNat, BitVec.toNat_ofNat,
    Nat.add_comm m k, Nat.pow_add, Nat.mod_mul, hdiv, hmod, Nat.add_comm, Nat.mul_comm (2 ^ k)]

/-- R166: an unsealed capability is its fields, one below another. -/
theorem State.unsealed_eq (s : State) (a : BitVec 6) (n : BitVec 3) (r : BitVec 2) : s.unsealed a n r =
    BitVec.ofNat 27 (s.selfWord s.th.ctx s.cur) ++ a ++ n ++ s.th.gen ++ r ++ 0#18 := by
  simp only [ofNat_append]
  refine congrArg (BitVec.ofNat 64) ?_
  rw [BitVec.toNat_ofNat]
  ring

theorem extractLsb'_append_add {v k : Nat} (x : BitVec v) (y : BitVec k) (lo len : Nat) :
    (x ++ y).extractLsb' (k + lo) len = x.extractLsb' lo len := by
  rw [BitVec.extractLsb'_append_eq_of_le (Nat.le_add_right k lo), Nat.add_sub_cancel_left]

/-- R166: fields one below another are read from below: each field passed brings the one above it down. -/
theorem capFields_append (w : BitVec 27) (a : BitVec 6) (n : BitVec 3) (g : BitVec 8) (r : BitVec 2) (z : BitVec 18) :
    CapFields (w ++ a ++ n ++ g ++ r ++ z) w a n g r := by
  have hz := extractLsb'_append_add (w ++ a ++ n ++ g ++ r) z
  have hr := extractLsb'_append_add (w ++ a ++ n ++ g) r
  have hg := extractLsb'_append_add (w ++ a ++ n) g
  have hn := extractLsb'_append_add (w ++ a) n
  have ha := extractLsb'_append_add w a
  constructor
  case identity =>
    exact (hz 19 27).trans <| (hr 17 27).trans <| (hg 9 27).trans <| (hn 6 27).trans <|
      (ha 0 27).trans BitVec.extractLsb'_eq_self
  case first =>
    exact (hz 13 6).trans <| (hr 11 6).trans <| (hg 3 6).trans <| (hn 0 6).trans BitVec.extractLsb'_append_eq_right
  case others => exact (hz 10 3).trans <| (hr 8 3).trans <| (hg 0 3).trans BitVec.extractLsb'_append_eq_right
  case gen => exact (hz 2 8).trans <| (hr 0 8).trans BitVec.extractLsb'_append_eq_right
  case rights => exact (hz 0 2).trans BitVec.extractLsb'_append_eq_right

/-- R166: the fields of a capability. -/
theorem State.capFields_capability (s : State) (a : BitVec 6) (n : BitVec 3) (r : BitVec 2) :
    CapFields (s.capability a n r) (BitVec.ofNat 27 (s.selfWord s.th.ctx s.cur)) a n s.th.gen r := by
  rw [State.capability_eq]
  refine CapFields.sealed ?_ _
  rw [State.unsealed_eq]
  exact capFields_append _ a n s.th.gen r 0#18

/-- R168: a capability carries the seal of its fields. -/
theorem State.seal_capability (s : State) (a : BitVec 6) (n : BitVec 3) (r : BitVec 2) :
    (s.capability a n r).extractLsb' 0 18 =
      Config.sealOf (Config.secret s.myCtx.secretNo) ((s.capability a n r).extractLsb' 18 46) := by
  have hlow : (s.unsealed a n r).extractLsb' 0 18 = 0#18 := by
    rw [State.unsealed_eq]
    exact BitVec.extractLsb'_append_eq_right
  rw [State.capability_eq, extractLsb'_seal _ hlow, extractLsb'_or_seal _ _ (by decide)]
  rfl

/-- A capability depends on nothing that the reading of registers changes. -/
theorem Use.capability_start (u : Use) (s : State) (a : BitVec 6) (n : BitVec 3) (r : BitVec 2) :
    (u.start s).capability a n r = s.capability a n r := by
  have hthread := u.readsOnly_start s
  have hgen : (u.start s).th.gen = s.th.gen := by rw [hthread]
  have hctx : (u.start s).th.ctx = s.th.ctx := by rw [hthread]
  have hself : ∀ c k, (u.start s).selfWord c k = s.selfWord c k := by rw [(u.onlyRegs_start s).device]; exact fun _ _ => rfl
  have hseal : ∀ c w, (u.start s).sealFor c w = s.sealFor c w := by rw [(u.onlyRegs_start s).device]; exact fun _ _ => rfl
  simp only [State.capability_eq, State.unsealed, hgen, hctx, Use.cur_start, hself, hseal]

/-! ### Arming, disarming and minting -/

section
variable {s : State} {n : BitVec 3} {a : BitVec 6}

/-- R176: a change of the arming state of the registers of a run, at the end of an instruction that reads none. -/
theorem Use.armed_run (u : Use) (hreads : u.reads = []) (s : State) (l : List (BitVec 6)) {f : ArmSt → ArmSt}
    (hf : ∀ x, f (f x) = f x) (r : BitVec 6) :
    ((u.start s).modArms l f).armOf r = if r ∈ l then f (s.armOf r) else s.armOf r := by
  rw [State.armOf_modArms _ _ hf, u.armOf_start s (hreads ▸ List.not_mem_nil)]

theorem Use.undisturbed_modArms (u : Use) (s : State) (l : List (BitVec 6)) (f : ArmSt → ArmSt) :
    s.Undisturbed ((u.start s).modArms l f) :=
  (Use.undisturbed_start u s).trans
    (State.undisturbed_of_onlyRegs (State.onlyRegs_modArms _ l f) (State.readsOnly_modArms _ l f))

/-- R167: an advance of the issuing thread's generation leaves its registers, their arming states and its pc. -/
theorem State.undisturbed_advanceGen (s : State) : s.Undisturbed (s.advanceGen s.cur) ∧
    (s.advanceGen s.cur).th.gen = (s.slot s.cur).gen + 1#8 ∧ ∀ r, (s.advanceGen s.cur).armOf r = s.armOf r := by
  have hth : (s.advanceGen s.cur).th = { s.th with gen := (s.slot s.cur).gen + 1#8 } := by
    show ((s.modSlot s.cur _).slot s.cur).th = _
    rw [State.slot_modSlot, if_pos rfl]; rfl
  refine ⟨⟨State.keepsRegs_of_thread rfl ?_ rfl rfl, by rw [hth], by rw [hth]⟩, by rw [hth],
    fun r => State.armOf_of _ _ r (by rw [hth]) rfl⟩
  rw [hth]
  exact ⟨rfl, rfl, rfl, rfl, fun _ _ => rfl, rfl, rfl, rfl, rfl, rfl, rfl, rfl⟩

/-- R176: what `disarm` does to the registers of a run, and to the generation where it says so. -/
def State.disarmRun (s : State) (l : List (BitVec 6)) (g : BitVec 1) : State :=
  let q := s.modArms l ArmSt.disarmed
  if g == 1#1 then q.advanceGen q.cur else q

/-- R167, R176: the registers of the run are UNARMED, and the generation is the slot's next one where `disarm` says so. -/
theorem Use.disarmed_run (u : Use) (hreads : u.reads = []) (s : State) (l : List (BitVec 6)) (g : BitVec 1) :
    s.Undisturbed ((u.start s).disarmRun l g) ∧
    (∀ r, ((u.start s).disarmRun l g).armOf r = if r ∈ l then (s.armOf r).disarmed else s.armOf r) ∧
    ((u.start s).disarmRun l g).th.gen = if g = 1#1 then (s.slot s.cur).gen + 1#8 else s.th.gen := by
  have hbegun := u.undisturbed_modArms s l ArmSt.disarmed
  have harm := u.armed_run hreads s l ArmSt.disarmed_disarmed
  have honly := (u.onlyRegs_start s).trans (State.onlyRegs_modArms (u.start s) l ArmSt.disarmed)
  unfold State.disarmRun
  generalize (u.start s).modArms l ArmSt.disarmed = q at hbegun harm honly
  by_cases h : g = 1#1
  · obtain ⟨hregs, hgen, harms⟩ := q.undisturbed_advanceGen
    simp only [h, beq_self_eq_true, if_true]
    refine ⟨hbegun.trans hregs, fun r => (harms r).trans (harm r), ?_⟩
    rw [hgen, honly.cur_eq, honly.slot]
  · simp only [beq_iff_eq, h, if_false]
    exact ⟨hbegun, harm, by rw [honly.thread]⟩

variable (hg : s.granted fFabric)
include hg

/-- R176: `arm` changes the registers of its run. -/
theorem exec_arm (e : BitVec 1) (hrun : canRun s (runRegs a n) []) : ∃ u : Use, u.reads = [] ∧
    exec (.arm e n a) s = .next (((u.start s).modArms (runRegs a n) (ArmSt.armed (e == 1#1))).advance 4) := by
  obtain ⟨hn, ha⟩ := hrun
  exact ⟨fabUse (rpw 0#2 0 (0#2 ++ e ++ n) a 0#6 13) (runRegs a n) [], rfl, exec_fabric rfl ⟨rfl, rfl, rfl⟩ hg hn nofun ha rfl⟩

/-- R176: so does `disarm`, and it may advance the generation. -/
theorem exec_disarm (g : BitVec 1) (hrun : canRun s (runRegs a n) []) : ∃ u : Use, u.reads = [] ∧
    exec (.disarm g n a) s = .next (((u.start s).disarmRun (runRegs a n) g).advance 4) := by
  obtain ⟨hn, ha⟩ := hrun
  exact ⟨fabUse (rpw 0#2 1 (0#1 ++ g ++ 0#1 ++ n) a 0#6 13) (runRegs a n) [], rfl,
    exec_fabric rfl ⟨rfl, rfl, rfl⟩ hg hn nofun ha rfl⟩

/-- R168: `mint` over a run none of whose registers is UNARMED. -/
theorem exec_mint (r : BitVec 2) (d : BitVec 6) (hrun : canRun s (runRegs a n ++ [d]) [])
    (harmed : ∀ q ∈ runRegs a n, (s.armOf q).st ≠ .unarmed) : ∃ u : Use,
    exec (.mint r n a d) s = .next (((u.start s).setX d (s.capability a n r)).advance 4) := by
  obtain ⟨hn, ha⟩ := hrun
  refine ⟨fabUse (rpw 0#2 2 (0#1 ++ r ++ n) a d 13) (runRegs a n ++ [d]) [],
    exec_fabric rfl ⟨rfl, rfl, rfl⟩ hg hn nofun ha ?_⟩
  have hnone : (runRegs a n).find? (fun q =>
      (((fabUse (rpw 0#2 2 (0#1 ++ r ++ n) a d 13) (runRegs a n ++ [d]) []).start s).armOf q).st == .unarmed) = none := by
    rw [List.find?_eq_none]
    intro q hq
    rw [Use.armOf_start _ s List.not_mem_nil]
    simpa using harmed q hq
  rw [hnone]
  exact congrArg (fun c => Res.next (State.setX _ d c)) (Use.capability_start _ s a n r)

end

end Sys2Proof.Machine

open Sys2Proof Sys2Proof.Machine Sys2Proof.Claims

/-- Settles O20: `exec_arm`, `exec_disarm` and `exec_mint` give the state that each leaves, `Use.armed_run` the arming states
of the run, and `State.capFields_capability` and `State.seal_capability` what is minted. -/
theorem armingComplete : Obligations.ArmingComplete := by
  unfold Obligations.ArmingComplete
  intro n a s hg _ run
  have hregs : run = runRegs a n := rfl
  clear_value run
  subst hregs
  refine ⟨fun e hrun => ?arm, fun g hrun => ?disarm, fun r d hrun harmed => ?mint⟩
  case arm =>
    obtain ⟨u, hreads, hexec⟩ := exec_arm hg e hrun
    obtain ⟨hgo, hkeeps⟩ := (u.undisturbed_modArms s (runRegs a n) (ArmSt.armed (e == 1#1))).advance 4
    have harm := u.armed_run hreads s (runRegs a n) (ArmSt.armed_armed (e == 1#1))
    refine ⟨_, hexec, hgo, hkeeps, fun r hr => ?_, fun r hr => ?_⟩
    · rw [State.armOf_advance, harm, if_pos hr]
      exact ⟨rfl, rfl⟩
    · rw [State.armOf_advance, harm, if_neg hr]
  case disarm =>
    obtain ⟨u, hreads, hexec⟩ := exec_disarm hg g hrun
    obtain ⟨hbegun, harm, hgen⟩ := u.disarmed_run hreads s (runRegs a n) g
    obtain ⟨hgo, hkeeps⟩ := hbegun.advance 4
    refine ⟨_, hexec, hgo, hkeeps, fun r hr => ?_, fun r hr => ?_, fun h => ?_, fun h => ?_⟩
    · rw [State.armOf_advance, harm, if_pos hr]
      exact ⟨rfl, rfl⟩
    · rw [State.armOf_advance, harm, if_neg hr]
    · rw [State.gen_advance, hgen, if_pos h]
    · rw [State.gen_advance, hgen, if_neg (by rw [h]; decide)]
  case mint =>
    obtain ⟨u, hexec⟩ := exec_mint hg r d hrun harmed
    obtain ⟨hx, hgo, hkeeps, -⟩ := (Use.undisturbed_start u s).setX_advance d (s.capability a n r) 4
    obtain ⟨hself, hfirst, hothers, hgen, hrights⟩ := s.capFields_capability a n r
    refine ⟨_, hexec, hgo, hkeeps, ?_⟩
    rw [hx]
    exact ⟨hself, hfirst, hothers, hgen, hrights, s.seal_capability a n r⟩
end

section
/-! SUPPORT. Sends, receives and the fabric word (R164, R173, R177, R178): what each finds at the start of its effect and what
it leaves. -/

namespace Sys2Proof.Machine

open Sys2Proof.Claims

/-! ### What the start of an instruction leaves of the fabric -/

theorem Use.sendq_start (u : Use) (s : State) : (u.start s).me.sendq = s.me.sendq := by rw [(u.onlyRegs_start s).core]

/-- R177: whether a send finds room and no held store does not depend on the registers that it reads. -/
theorem Use.sendCauses_start (u : Use) (s : State) : (u.start s).sendCauses = s.sendCauses := by
  have huid : (u.start s).th.uid = s.th.uid := by rw [u.readsOnly_start s]
  have hclusters : (u.start s).clusters = s.clusters := by rw [(u.onlyRegs_start s).device]
  simp only [State.sendCauses, State.sendRoom, State.holding, Use.sendq_start, Use.cur_start, huid, hclusters]

theorem State.sendCauses_none {s : State} (hroom : s.sendRoom = true) (hhold : s.holding = false) : s.sendCauses = none := by
  unfold State.sendCauses
  rw [hroom, hhold]

theorem Use.sl_start (u : Use) (s : State) : (u.start s).th.sl = s.th.sl := by rw [u.readsOnly_start s]

theorem Use.fabricWord_start (u : Use) (s : State) : (u.start s).th.fabricWord = s.th.fabricWord := by
  rw [u.readsOnly_start s]; rfl

/-! ### A message enters the send queue -/

/-- R173: the message that a send enters. -/
def State.message (s : State) (cap : Word) (i : Nat) (v : Word) (ack : Bool) : Msg :=
  { cap := cap, idx := i, value := v, clock := s.th.clock, ack := ack, ctx := s.th.ctx, from_ := s.cur,
    fromGen := s.th.gen, since := s.cycle, uid := s.th.uid, rels := s.th.fences }

theorem State.sendq_enqueueMsg (s : State) (cap : Word) (i : Nat) (v : Word) (ack : Bool) :
    (s.enqueueMsg cap i v ack).me.sendq = s.me.sendq ++ [s.message cap i v ack] := by
  unfold State.enqueueMsg
  rw [State.me_owe, State.me_modMe]; rfl

theorem State.undisturbed_enqueueMsg (s : State) (cap : Word) (i : Nat) (v : Word) (ack : Bool) :
    s.Undisturbed (s.enqueueMsg cap i v ack) := by
  unfold State.enqueueMsg
  refine State.Undisturbed.trans ?_ (State.keepsThreads_owe _ _).undisturbed
  exact ⟨s.keepsRegs_modMe rfl rfl, rfl, rfl⟩

theorem State.sendq_advance (s : State) (n : Nat) : (s.advance n).me.sendq = s.me.sendq := by
  rw [(s.onlyRegs_advance n).core]

/-! ### A FULL register is consumed -/

/-- R164: the arming state that the reading of a FULL register leaves. -/
theorem State.armOf_takeReg_full {s : State} {q : BitVec 6} (h : (s.armOf q).st = .full) :
    ((s.takeReg q).armOf q).st = if (s.armOf q).re then .awaiting else .unarmed := by
  unfold State.takeReg
  simp only [h, if_true]
  generalize State.acquire _ _ = u
  by_cases hc : isC q = true
  · simp [State.armOf, hc]
  · simp [State.armOf, hc]

/-- The one register that an instruction reads is read in a state with the registers as before. -/
theorem Use.start_reads_one {u : Use} {a : BitVec 6} (h : u.reads = [a]) (s : State) :
    ∃ t, s.OnlyRegs t [] [] ∧ u.start s = t.takeReg a := by
  refine ⟨_, ?_, congrArg (State.takeRegs _) h⟩
  have hsettle := s.onlyRegs_settle
  split
  · exact hsettle.trans (State.onlyRegs_modTh _ _ _ _ rfl (fun _ _ => rfl) (fun r _ => State.xr_of _ _ _ (by simp) (by simp))
      (fun r _ _ => State.armOf_of _ _ _ (by simp) (by simp)))
  · exact hsettle

theorem Use.armOf_start_full {u : Use} {a : BitVec 6} (hreads : u.reads = [a]) {s : State} (h : (s.armOf a).st = .full) :
    ((u.start s).armOf a).st = if (s.armOf a).re then .awaiting else .unarmed := by
  obtain ⟨t, ht, hstart⟩ := Use.start_reads_one hreads s
  have harm : t.armOf a = s.armOf a := ht.arms a List.not_mem_nil List.not_mem_nil
  rw [hstart, State.armOf_takeReg_full (by rw [harm, h]), harm]

/-! ### The instructions -/

section
variable {s : State} {a b d : BitVec 6} (hg : s.granted fFabric) (p : Policy) (i : BitVec 3)
include hg

/-- R177: a send with room enters one message. -/
theorem exec_snd (hact : canAct s [a, b] [a, b]) (hi : i.toNat ≤ capBits (s.xr a) 28 3) (hhold : s.holding = false)
    (hroom : s.sendRoom = true) : ∃ u : Use,
    exec (.snd p b a i) s = .next (((u.start s).enqueueMsg (s.xr a) i.toNat (s.xr b) false).advance 4) := by
  obtain ⟨⟨hn, ha⟩, hlate⟩ := hact
  refine ⟨{ fabUse (rpw p.bits 3 b a (0#3 ++ i) 13) [a, b] [a, b] (some p) with after := true },
    exec_fabric rfl ⟨rfl, rfl, rfl⟩ hg hn (fun _ => hlate) ha ?_⟩
  dsimp only
  rw [Use.xr_start, Use.xr_start, if_neg (Nat.not_lt.2 hi), Use.sendCauses_start, State.sendCauses_none hroom hhold]

/-- R177: a send with a reply whose reply has come completes with its reason. -/
theorem exec_sndA (hact : canAct s [a, b, d] [a, b]) (hdone : s.th.sl.st = .done) (htag : s.th.sl.tag = s.th.pc) : ∃ u : Use,
    exec (.sndA p i b a d) s = .next ((((u.start s).modTh (fun h => { h with sl := { h.sl with st := .idle } })).setX d
      (w64 s.th.sl.code)).advance 4) := by
  obtain ⟨⟨hn, ha⟩, hlate⟩ := hact
  refine ⟨{ fabUse (rpw p.bits (8 + i.toNat) b a d 13) [a, b, d] [a, b] (some p) with after := true },
    exec_fabric rfl ⟨rfl, rfl, rfl⟩ hg hn (fun _ => hlate) (fun r hr => ha r hr) ?_⟩
  dsimp only
  rw [Use.sl_start, Use.pc_start, if_neg (by rw [hdone]; exact nofun), if_pos ⟨hdone, htag⟩]

/-- R177: a receive copies its register. -/
theorem exec_rcv (hrun : canRun s [a, d] [a]) : ∃ u : Use, u.reads = [a] ∧ u.size = 4 ∧
    exec (.rcv p a d) s = .next (((u.start s).setX d (s.xr a)).advance 4) := by
  obtain ⟨hn, ha⟩ := hrun
  refine ⟨fabUse (rpw p.bits 4 0#6 a d 13) [a, d] [a] (some p), rfl, rfl, exec_fabric rfl ⟨rfl, rfl, rfl⟩ hg hn nofun ha ?_⟩
  rw [Use.xr_start]

/-- R178: the thread's overwrite count and last reason, cleared where `fabst` says so. -/
def State.fabricCleared (s : State) (c : BitVec 1) : State :=
  if c == 1#1 then s.modTh (fun h => { h with owc := 0, last := 0#4 }) else s

/-- R178: `fabst` copies the fabric word, and clears it where it says so. -/
theorem exec_fabst (c : BitVec 1) (hrun : canRun s [d] []) : ∃ u : Use,
    exec (.fabst c d) s = .next ((((u.start s).fabricCleared c).setX d (w64 s.th.fabricWord)).advance 4) := by
  obtain ⟨hn, ha⟩ := hrun
  refine ⟨fabUse (rpw 0#2 5 0#6 (0#5 ++ c) d 13) [d] [], exec_fabric rfl ⟨rfl, rfl, rfl⟩ hg hn nofun ha ?_⟩
  rw [Use.fabricWord_start]; rfl

end

/-- R178: what the clearing of the fabric word leaves. -/
theorem State.undisturbed_fabricCleared (s : State) (c : BitVec 1) : s.Undisturbed (s.fabricCleared c) := by
  unfold State.fabricCleared
  split
  · exact s.undisturbed_modTh ⟨rfl, rfl, rfl, rfl, fun _ _ => rfl, rfl, rfl, rfl, rfl, rfl, rfl, rfl⟩ rfl rfl
  · exact .refl s

end Sys2Proof.Machine

open Sys2Proof Sys2Proof.Machine Sys2Proof.Claims

/-- Settles O21: `exec_snd`, `exec_sndA`, `exec_rcv` and `exec_fabst` give the state that each leaves; the send queue has one
message more by `State.sendq_enqueueMsg`, and the FULL register is consumed by `Use.armOf_start_full`. -/
theorem fabricComplete : Obligations.FabricComplete := by
  unfold Obligations.FabricComplete
  intro p i a b d s hg
  refine ⟨fun hact hi hhold hroom => ?snd, fun hact hdone htag => ?sndA, fun hrun => ?rcv, fun c hrun => ?fabst⟩
  case snd =>
    obtain ⟨u, hexec⟩ := exec_snd hg p i hact hi hhold hroom
    have hbegun := Use.undisturbed_start u s
    obtain ⟨hgo, hkeeps⟩ := (hbegun.trans ((u.start s).undisturbed_enqueueMsg (s.xr a) i.toNat (s.xr b) false)).advance 4
    refine ⟨_, (u.start s).message (s.xr a) i.toNat (s.xr b) false, hexec, hgo, hkeeps, ?_, rfl, rfl, rfl, rfl, hbegun.ctx,
      hbegun.cur⟩
    rw [State.sendq_advance, State.sendq_enqueueMsg, Use.sendq_start]
  case sndA =>
    obtain ⟨u, hexec⟩ := exec_sndA hg p i hact hdone htag
    generalize hq : (u.start s).modTh (fun h => { h with sl := { h.sl with st := .idle } }) = q at hexec
    have hbegun : s.Undisturbed q := (Use.undisturbed_start u s).trans <| hq ▸ State.undisturbed_modTh _
      ⟨rfl, rfl, rfl, rfl, fun _ _ => rfl, rfl, rfl, rfl, rfl, rfl, rfl, rfl⟩ rfl rfl
    obtain ⟨hx, hgo, hkeeps, -⟩ := hbegun.setX_advance d (w64 s.th.sl.code) 4
    have hend := (q.onlyRegs_setX d (w64 s.th.sl.code)).trans (State.onlyRegs_advance _ 4)
    refine ⟨_, hexec, hgo, hkeeps, hx, ?_, ?_⟩
    · rw [hend.thread, ← hq, State.th_modTh]
    · rw [hend.core, ← hq]
      exact u.sendq_start s
  case rcv =>
    obtain ⟨u, hreads, hsize, hexec⟩ := exec_rcv hg p hrun
    obtain ⟨hx, -, hgo, honly⟩ := u.wrote_one s d (s.xr a)
    rw [hsize] at hx hgo honly
    refine ⟨_, hexec, hgo, hreads ▸ honly, hx, fun hne hfull => ?_⟩
    rw [State.armOf_advance, State.armOf_setX, if_neg hne, Use.armOf_start_full hreads hfull]
  case fabst =>
    obtain ⟨u, hexec⟩ := exec_fabst hg c hrun
    have hbegun := (Use.undisturbed_start u s).trans ((u.start s).undisturbed_fabricCleared c)
    obtain ⟨hx, hgo, hkeeps, -⟩ := hbegun.setX_advance d (w64 s.th.fabricWord) 4
    have hend := (((u.start s).fabricCleared c).onlyRegs_setX d (w64 s.th.fabricWord)).trans (State.onlyRegs_advance _ 4)
    refine ⟨_, hexec, hgo, hkeeps, hx, fun h => ?_, fun h => ?_⟩ <;> subst h <;> rw [hend.thread]
    · rw [show (u.start s).fabricCleared 1#1 = _ from if_pos rfl, State.th_modTh]
      exact ⟨rfl, rfl⟩
    · rw [show (u.start s).fabricCleared 0#1 = _ from if_neg (by decide), u.readsOnly_start s]
      exact ⟨rfl, rfl⟩
end

section
/-! SUPPORT. What the operations of the memory system leave of the slots and of the buffers of the cores (R98, R134, R206 to
R209, R228 to R243, R346, R432). -/

namespace Sys2Proof.Machine

open Sys2Proof.Claims

/-! ### Slots and buffers kept -/

/-- What an operation leaves that changes no slot's state, no combining entry and no write grant of a core. -/
structure State.KeepsBuffers (s t : State) : Prop where
  slot : ∀ k, (t.slot k).st = (s.slot k).st
  comb : ∀ k, (t.core k).comb = (s.core k).comb
  grants : ∀ k, (t.core k).grants = (s.core k).grants

theorem State.KeepsBuffers.refl (s : State) : s.KeepsBuffers s := ⟨fun _ => rfl, fun _ => rfl, fun _ => rfl⟩

theorem State.KeepsBuffers.trans {s t u : State} (h : s.KeepsBuffers t) (k : t.KeepsBuffers u) : s.KeepsBuffers u :=
  ⟨fun n => (k.slot n).trans (h.slot n), fun n => (k.comb n).trans (h.comb n), fun n => (k.grants n).trans (h.grants n)⟩

theorem State.KeepsBuffers.ite {s t u : State} {p : Prop} [Decidable p] (ht : s.KeepsBuffers t) (hu : s.KeepsBuffers u) :
    s.KeepsBuffers (if p then t else u) := by
  split
  · exact ht
  · exact hu

theorem State.keepsBuffers_of_eq {s t : State} (hslots : t.slots = s.slots) (hcores : t.cores = s.cores) :
    s.KeepsBuffers t where
  slot := fun k => by unfold State.slot; rw [hslots]
  comb := fun k => by unfold State.core; rw [hcores]
  grants := fun k => by unfold State.core; rw [hcores]

theorem State.keepsBuffers_modSlot (s : State) (sid : Nat) {f : Slot → Slot} (hf : ∀ sl, (f sl).st = sl.st) :
    s.KeepsBuffers (s.modSlot sid f) where
  slot := fun k => by
    rw [State.slot_modSlot]
    split
    · next h => rw [hf, h]
    · rfl
  comb := fun _ => rfl
  grants := fun _ => rfl

theorem State.keepsBuffers_modHome (s : State) (line : Nat) (f : HomeLine → HomeLine) : s.KeepsBuffers (s.modHome line f) :=
  State.keepsBuffers_of_eq rfl rfl

theorem State.keepsBuffers_modTh (s : State) (f : Thread → Thread) : s.KeepsBuffers (s.modTh f) := by
  refine s.keepsBuffers_modSlot s.cur ?_
  exact fun _ => rfl

theorem State.keepsBuffers_modCore (s : State) (cid : Nat) {f : Core → Core}
    (hf : ∀ k, (f k).comb = k.comb ∧ (f k).grants = k.grants) : s.KeepsBuffers (s.modCore cid f) where
  slot := fun _ => rfl
  comb := fun k => by
    rw [State.core_modCore]
    split
    · next h => rw [h]; exact (hf _).1
    · rfl
  grants := fun k => by
    rw [State.core_modCore]
    split
    · next h => rw [h]; exact (hf _).2
    · rfl

theorem State.keepsBuffers_foldl {α : Type} {f : State → α → State} (hf : ∀ (s : State) a, s.KeepsBuffers (f s a))
    (l : List α) (s : State) : s.KeepsBuffers (l.foldl f s) := by
  induction l generalizing s with
  | nil => exact .refl s
  | cons a l ih => exact (hf s a).trans (ih _)

/-- What touches only registers keeps the buffers. -/
theorem State.OnlyRegs.keepsBuffers {s t : State} {rs ds : List (BitVec 6)} (h : s.OnlyRegs t rs ds) : s.KeepsBuffers t := by
  have hme : t.me = t.core (coreOf s.cur) := congrArg (fun c => t.core (coreOf c)) h.cur_eq
  have hcore : ∀ k, (t.core k).comb = (s.core k).comb ∧ (t.core k).grants = (s.core k).grants := fun k => by
    by_cases hk : k = coreOf s.cur
    · rw [hk, ← hme, h.core]
      exact ⟨rfl, rfl⟩
    · rw [h.cores k hk]
      exact ⟨rfl, rfl⟩
  refine ⟨fun k => ?_, fun k => (hcore k).1, fun k => (hcore k).2⟩
  by_cases hk : k = s.cur
  · rw [hk, h.slot]
  · rw [h.slots k hk]

theorem State.Watched.keepsBuffers {s t : State} (h : s.Watched t) : s.KeepsBuffers t where
  slot := fun k => by unfold State.slot; rw [h.slots]
  comb := fun k => by rw [h.core k]
  grants := fun k => by rw [h.core k]

/-! ### Homes and copies -/

theorem State.keepsBuffers_trace (s : State) (ev asid cl low : Nat) : s.KeepsBuffers (s.trace ev asid cl low) :=
  State.keepsBuffers_of_eq rfl rfl

theorem State.keepsBuffers_clearEcc (s : State) (us : List EccAt) : s.KeepsBuffers (s.clearEcc us) := by
  unfold State.clearEcc
  exact .ite (.refl s) (State.keepsBuffers_of_eq rfl rfl)

theorem State.keepsBuffers_modBypass (s : State) (cid line : Nat) (f : L1Line → L1Line) :
    s.KeepsBuffers (s.modBypass cid line f) := by
  unfold State.modBypass
  refine State.keepsBuffers_foldl (fun s i => ?_) _ s
  exact .ite (s.keepsBuffers_modSlot _ fun _ => rfl) (.refl s)

theorem State.keepsBuffers_lookup (s : State) (a line : Nat) : s.KeepsBuffers (s.lookup a line) := by
  unfold State.lookup
  extract_lets tn now home sure s1 s2 set
  exact .ite (State.keepsBuffers_of_eq rfl rfl) (State.keepsBuffers_of_eq rfl rfl)

theorem State.keepsBuffers_revoke (s : State) (line : Nat) (keep : Option Nat) : s.KeepsBuffers (s.revoke line keep) := by
  unfold State.revoke
  split
  · exact .refl s
  · refine .ite (.refl s) ?_
    extract_lets s1
    have h1 : s.KeepsBuffers s1 := (s.keepsBuffers_modHome line _).trans (State.keepsBuffers_modBypass _ _ _ _)
    refine (h1.trans (s1.keepsBuffers_modCore _ ?_)).trans (State.keepsBuffers_trace _ _ _ _ _)
    exact fun _ => ⟨rfl, rfl⟩

theorem State.keepsBuffers_performWrite (s : State) (line : Nat) (cells : List Host.Cell) (clock : Nat) (who : Option Nat) :
    s.KeepsBuffers (s.performWrite line cells clock who) := by
  unfold State.performWrite
  extract_lets s1 h t n s2
  have h2 : s1.KeepsBuffers s2 := .ite (.refl s1) (s1.keepsBuffers_clearEcc _)
  exact ((s.keepsBuffers_revoke line who).trans h2).trans (State.keepsBuffers_of_eq rfl rfl)

theorem State.keepsBuffers_carry (s : State) (line : Nat) (cells : List Host.Cell) (rels : List Rel) :
    s.KeepsBuffers (s.carry line cells rels) := by
  unfold State.carry
  exact .ite (.refl s) (State.keepsBuffers_of_eq rfl rfl)

theorem State.keepsBuffers_refreshCopy (s : State) (cid line : Nat) : s.KeepsBuffers (s.refreshCopy cid line) := by
  unfold State.refreshCopy State.refreshBypass
  extract_lets t data n rels s1
  have h1 : s.KeepsBuffers s1 :=
    .ite ((s.keepsBuffers_modHome line _).trans (State.keepsBuffers_modBypass _ _ _ _)) (.refl s)
  split
  · exact h1
  · refine (h1.trans ((s1.keepsBuffers_modHome line _).trans (State.keepsBuffers_clearEcc _ _))).trans
      (State.keepsBuffers_modCore _ _ ?_)
    exact fun _ => ⟨rfl, rfl⟩

theorem State.keepsBuffers_performPush (s : State) (a cid : Nat) (d : Push) : s.KeepsBuffers (s.performPush a cid d) := by
  unfold State.performPush
  split
  · exact .refl s
  · extract_lets line
    exact (((s.keepsBuffers_lookup _ _).trans (State.keepsBuffers_performWrite _ _ _ _ _)).trans
      (State.keepsBuffers_carry _ _ _ _)).trans (State.keepsBuffers_refreshCopy _ _ _)

theorem State.keepsBuffers_performDrains (s : State) (sid : Nat) : s.KeepsBuffers (s.performDrains sid) := by
  unfold State.performDrains
  refine State.KeepsBuffers.trans (t := s.modThread sid (fun h => { h with drains := [] })) ?_
    (State.keepsBuffers_foldl (fun s d => s.keepsBuffers_performPush _ _ d) _ _)
  refine s.keepsBuffers_modSlot sid ?_
  exact fun _ => rfl

theorem State.keepsBuffers_combReady (s : State) (line : Nat) : s.KeepsBuffers (combReady s line) := by
  unfold combReady
  exact .ite (s.keepsBuffers_performDrains _) (.refl s)

/-- R208: the performing of a combining entry takes it from the buffer, and leaves the slots and the grants. -/
theorem State.drainComb_slot (s : State) (cid line : Nat) :
    (∀ k, ((s.drainComb cid line).slot k).st = (s.slot k).st) ∧
      ∀ k, ((s.drainComb cid line).core k).grants = (s.core k).grants := by
  unfold State.drainComb
  split
  · exact ⟨fun _ => rfl, fun _ => rfl⟩
  · next e _ =>
    extract_lets s1 s2 s3 s4
    have h3 : s1.KeepsBuffers s3 := (s1.keepsBuffers_lookup _ _).trans (s2.keepsBuffers_performWrite _ _ _ _)
    have h4 : s3.KeepsBuffers s4 := .ite (.refl s3) (State.keepsBuffers_of_eq rfl rfl)
    have h := (h3.trans h4).trans (s4.keepsBuffers_refreshCopy cid line)
    refine ⟨fun k => h.slot k, fun k => (h.grants k).trans ?_⟩
    simp only [s1]
    rw [State.core_modCore]
    split
    · next hk => rw [hk]
    · rfl

theorem State.drainOwn_slot (s : State) (line : Nat) : (∀ k, ((s.drainOwn line).slot k).st = (s.slot k).st) ∧
    ∀ k, ((s.drainOwn line).core k).grants = (s.core k).grants := by
  have hcomb := s.keepsBuffers_combReady line
  obtain ⟨hslot, hgrants⟩ := (combReady s line).drainComb_slot (coreOf s.cur) line
  rw [← State.drainOwn_eq] at hslot hgrants
  exact ⟨fun k => (hslot k).trans (hcomb.slot k), fun k => (hgrants k).trans (hcomb.grants k)⟩

theorem State.keepsBuffers_performStrong (s : State) (va m : Nat) (cells : List Host.Cell) :
    s.KeepsBuffers (s.performStrong va m cells) := by
  unfold State.performStrong
  extract_lets line cid rels s1 t
  have h1 : s.KeepsBuffers s1 := ((s.keepsBuffers_performWrite _ _ _ _).trans (State.keepsBuffers_carry _ _ _ _)).trans
    (State.keepsBuffers_lookup _ _ _)
  exact ((h1.trans (s1.keepsBuffers_modTh _)).trans (State.keepsBuffers_refreshCopy _ _ _)).trans
    (State.watched_watchStore _ _ _ _).keepsBuffers

theorem State.keepsBuffers_readUnit (s : State) (u : EccAt) (a addr : Nat) (eng ma : Bool) :
    s.KeepsBuffers (s.readUnit u a addr eng ma) := by
  have hzero : ∀ t : State, t.KeepsBuffers (t.zeroUnit u) := fun t => by
    unfold State.zeroUnit
    split
    case h_6 => exact t.keepsBuffers_modCore _ fun _ => ⟨rfl, rfl⟩
    all_goals exact State.keepsBuffers_of_eq rfl rfl
  have hcorrected : ∀ t : State, t.KeepsBuffers (t.corrected u) := fun t => by
    cases u <;> exact State.keepsBuffers_of_eq rfl rfl
  unfold State.readUnit
  split
  · exact .refl s
  · extract_lets s1
    have h1 : s.KeepsBuffers s1 := State.keepsBuffers_of_eq rfl rfl
    exact h1.trans (.ite ((hzero s1).trans (State.keepsBuffers_of_eq (State.slots_owe _ _) (State.cores_owe _ _)))
      (hcorrected s1))

theorem State.keepsBuffers_readCopy (s : State) (cid line a addr : Nat) : s.KeepsBuffers (s.readCopy cid line a addr) := by
  unfold State.readCopy
  exact .ite (.refl s) (s.keepsBuffers_readUnit _ _ _ _ _)

theorem State.keepsBuffers_releaseHold (s : State) (cid slot line : Nat) : s.KeepsBuffers (s.releaseHold cid slot line) := by
  unfold State.releaseHold
  extract_lets s1
  have h1 : s.KeepsBuffers s1 := by
    simp only [s1]
    split
    · exact .refl s
    · exact s.keepsBuffers_modCore _ fun _ => ⟨rfl, rfl⟩
  refine h1.trans (s1.keepsBuffers_modSlot _ fun sl => ?_)
  split <;> rfl

/-! ### Scratchpads kept -/

/-- What an operation leaves that writes no scratchpad. -/
def State.KeepsScratch (s t : State) : Prop := ∀ k, (t.cluster k).scratch = (s.cluster k).scratch

theorem State.KeepsScratch.refl (s : State) : s.KeepsScratch s := fun _ => rfl

theorem State.KeepsScratch.trans {s t u : State} (h : s.KeepsScratch t) (k : t.KeepsScratch u) : s.KeepsScratch u :=
  fun n => (k n).trans (h n)

/-- The scratchpad of the issuing thread's cluster. -/
theorem State.KeepsScratch.mine {s t : State} (h : s.KeepsScratch t) (hcur : t.cur = s.cur) :
    t.mine.scratch = s.mine.scratch := by
  show (t.cluster (clusterOf t.cur)).scratch = _
  rw [hcur, h]
  rfl

theorem State.KeepsScratch.ite {s t u : State} {p : Prop} [Decidable p] (ht : s.KeepsScratch t) (hu : s.KeepsScratch u) :
    s.KeepsScratch (if p then t else u) := by
  split
  · exact ht
  · exact hu

theorem State.keepsScratch_of_eq {s t : State} (h : t.clusters = s.clusters) : s.KeepsScratch t := fun _ => by
  unfold State.cluster
  rw [h]

theorem State.OnlyRegs.keepsScratch {s t : State} {rs ds : List (BitVec 6)} (h : s.OnlyRegs t rs ds) : s.KeepsScratch t :=
  fun k => by rw [h.cluster_eq k]

theorem State.keepsScratch_foldl {α : Type} {f : State → α → State} (hf : ∀ (s : State) a, s.KeepsScratch (f s a))
    (l : List α) (s : State) : s.KeepsScratch (l.foldl f s) := by
  induction l generalizing s with
  | nil => exact .refl s
  | cons a l ih => exact (hf s a).trans (ih _)

theorem State.keepsScratch_modCluster (s : State) (cl : Nat) {f : Cluster → Cluster} (hf : ∀ c, (f c).scratch = c.scratch) :
    s.KeepsScratch (s.modCluster cl f) := fun k => by
  rw [State.cluster_modCluster]
  split
  · next h => rw [hf, h]
  · rfl

theorem State.keepsScratch_haltCluster (s : State) (cl : Nat) : s.KeepsScratch (s.haltCluster cl) :=
  State.keepsScratch_foldl (f := fun s i => s.haltCore (8 * cl + i)) (fun _ _ => State.keepsScratch_of_eq rfl) _ s

/-- R431: the action of a watch writes no scratchpad. -/
theorem State.keepsScratch_debugAct (s : State) (act pc : Nat) : s.KeepsScratch (s.debugAct act pc) := by
  unfold State.debugAct
  extract_lets cl core s1
  have h1 : s.KeepsScratch s1 := s.keepsScratch_modCluster _ fun _ => rfl
  refine h1.trans ?_
  split
  · exact State.keepsScratch_of_eq rfl
  · refine (s1.keepsScratch_haltCluster cl).trans ?_
    unfold State.raiseTrigger
    exact .ite (State.keepsScratch_foldl (fun _ _ => State.keepsScratch_of_eq (State.clusters_owe _ _)) _ _) (.refl _)
  · split <;> exact State.keepsScratch_of_eq rfl
  · exact .refl s1

theorem State.keepsScratch_watch (s : State) (va n : Nat) (isLoad isStore : Bool) :
    s.KeepsScratch (s.watch va n isLoad isStore) := by
  unfold State.watch State.watchIf
  split
  · exact .refl s
  · split
    · exact s.keepsScratch_debugAct _ _
    · exact .refl s

theorem State.keepsScratch_releaseHold (s : State) (cid slot line : Nat) : s.KeepsScratch (s.releaseHold cid slot line) := by
  refine State.keepsScratch_of_eq ?_
  simp only [State.releaseHold, State.clusters_modSlot]
  split <;> rfl

/-! ### The end of an instruction's reads -/

/-- What an operation leaves of what has been stored, beside memory: the buffers of the cores and the scratchpads. -/
structure State.KeepsStores (s t : State) : Prop where
  buffers : s.KeepsBuffers t
  scratch : s.KeepsScratch t

theorem State.KeepsStores.refl (s : State) : s.KeepsStores s := ⟨.refl s, .refl s⟩

theorem State.KeepsStores.trans {s t u : State} (h : s.KeepsStores t) (k : t.KeepsStores u) : s.KeepsStores u :=
  ⟨h.buffers.trans k.buffers, h.scratch.trans k.scratch⟩

theorem State.KeepsStores.ite {s t u : State} {p : Prop} [Decidable p] (ht : s.KeepsStores t) (hu : s.KeepsStores u) :
    s.KeepsStores (if p then t else u) :=
  ⟨.ite ht.buffers hu.buffers, .ite ht.scratch hu.scratch⟩

theorem State.OnlyRegs.keepsStores {s t : State} {rs ds : List (BitVec 6)} (h : s.OnlyRegs t rs ds) : s.KeepsStores t :=
  ⟨h.keepsBuffers, h.keepsScratch⟩

theorem State.keepsStores_modTh (s : State) (f : Thread → Thread) : s.KeepsStores (s.modTh f) :=
  ⟨s.keepsBuffers_modTh f, State.keepsScratch_of_eq rfl⟩

theorem State.keepsStores_takeV (s : State) (r : BitVec 5) : s.KeepsStores (s.takeV r) := by
  unfold State.takeV
  split
  · exact (s.onlyRegs_strongRead _).keepsStores
  · exact .refl s

theorem State.keepsStores_popDone (s : State) (p : Popped) : s.KeepsStores (s.popDone p) := by
  unfold State.popDone
  split
  · exact .refl s
  · split
    · exact .refl s
    · extract_lets va s1 s2
      have h1 : s.KeepsStores s1 := s.keepsStores_modTh _
      have h2 : s1.KeepsStores s2 := by
        simp only [s2]
        split
        · exact ⟨s1.keepsBuffers_releaseHold _ _ _, s1.keepsScratch_releaseHold _ _ _⟩
        · exact .refl s1
      exact (h1.trans h2).trans ⟨(s2.watched_watch _ _ _ _).keepsBuffers, s2.keepsScratch_watch _ _ _ _⟩

/-- R190: what the elements popped before this execution complete with leaves the buffers and the scratchpads. -/
theorem State.keepsStores_popsDone (s : State) : s.KeepsStores s.popsDone := by
  have hfold : ∀ (l : List Popped) (t : State), t.KeepsStores (l.foldl State.popDone t) := fun l => by
    induction l with
    | nil => exact .refl
    | cons p l ih => exact fun t => (t.keepsStores_popDone p).trans (ih _)
  unfold State.popsDone
  split
  · exact (hfold _ s).trans (State.keepsStores_modTh _ _)
  · exact .refl s

end Sys2Proof.Machine

end

section
/-! SUPPORT. What the access of a vector instruction leaves of the issuing thread (R98, R100, R195, R343), and that an access
does not depend on the logical time at which its operands have been read (R130, R231). -/

namespace Sys2Proof.Machine

open Sys2Proof.Claims

/-! ### Accesses -/

/-- What the reading of operands and an access change of the issuing thread. -/
def Thread.AccessesOnly (h h' : Thread) : Prop :=
  h' = { h with
    xarm := h'.xarm, clock := h'.clock, floor := h'.floor, strongFloor := h'.strongFloor, heavy := h'.heavy,
    behind := h'.behind, seen := h'.seen, stale := h'.stale, popped := h'.popped, waits := h'.waits, drains := h'.drains }

theorem Thread.TakesOnly.accessesOnly {h h' : Thread} (a : h.TakesOnly h') : h.AccessesOnly h' := by
  unfold Thread.TakesOnly at a
  unfold Thread.AccessesOnly
  rw [a]

theorem Thread.AccessesOnly.keepsRegs {h h' : Thread} (a : h.AccessesOnly h') : h.KeepsRegs h' := by
  unfold Thread.AccessesOnly at a
  rw [a]
  exact ⟨rfl, rfl, rfl, rfl, fun _ _ => rfl, rfl, rfl, rfl, rfl, rfl, rfl, rfl⟩

/-- What the reading of an instruction's operands and its access leave. -/
structure State.Accessed (s t : State) : Prop where
  keeps : s.KeepsRegs t []
  thread : s.th.AccessesOnly t.th
  slot : (t.slot s.cur).st = (s.slot s.cur).st

theorem State.Took.accessed {s t : State} (h : s.Took t) : s.Accessed t := ⟨h.keeps, h.thread.accessesOnly, h.slot⟩

theorem State.Accessed.refl (s : State) : s.Accessed s := (State.Took.refl s).accessed

theorem State.Accessed.trans {s t u : State} (h : s.Accessed t) (k : t.Accessed u) : s.Accessed u where
  keeps := h.keeps.trans k.keeps
  thread := Eq.trans k.thread (by rw [h.thread])
  slot := by rw [← h.slot, ← h.keeps.cur, k.slot]

theorem State.accessed_modTh (s : State) {f : Thread → Thread} (h : s.th.AccessesOnly (f s.th)) : s.Accessed (s.modTh f) where
  keeps := s.keepsRegs_modTh h.keepsRegs
  thread := by rw [State.th_modTh]; exact h
  slot := s.slotSt_modTh f

/-- An operation that keeps the threads and the states of the slots. -/
theorem State.KeepsThreads.accessed {s t : State} (h : s.KeepsThreads t) (k : s.KeepsBuffers t) : s.Accessed t where
  keeps := h.keepsRegs
  thread := by rw [h.th_eq]; rfl
  slot := k.slot _

section
variable {s t : State} (h : s.Accessed t)
include h

theorem State.Accessed.cur_eq : t.cur = s.cur := h.keeps.cur
theorem State.Accessed.ctx_eq : t.th.ctx = s.th.ctx := by rw [h.thread]
theorem State.Accessed.pc_eq : t.th.pc = s.th.pc := by rw [h.thread]
theorem State.Accessed.ring_eq : t.th.ring = s.th.ring := by rw [h.thread]
theorem State.Accessed.nextSeq_eq : t.th.nextSeq = s.th.nextSeq := by rw [h.thread]
theorem State.Accessed.prefix_eq : t.th.prefixLatch = s.th.prefixLatch := by rw [h.thread]
theorem State.Accessed.streams_eq : t.th.streams = s.th.streams := by rw [h.thread]
theorem State.Accessed.streamOf_eq (r : BitVec 5) : t.th.streamOf r = s.th.streamOf r := by rw [h.thread]; rfl
theorem State.Accessed.kr_eq : t.kr = s.kr := funext h.keeps.masks
theorem State.Accessed.olderLate_eq : olderLate t = olderLate s := by unfold olderLate; rw [h.ring_eq]
theorem State.Accessed.inFlight_eq : t.th.inFlight = s.th.inFlight := by unfold Thread.inFlight; rw [h.ring_eq]

theorem State.Accessed.vecFrame (d : Option RegN) : VecFrame s t d := h.keeps.vecFrame h.streams_eq d

theorem State.Accessed.makes {o : VOp} {i : VIn} {out : VOut} {w : RegW} (hw : o.Makes s i out w) : o.Makes t i out w := by
  have hz : zeroing t = zeroing s := by unfold zeroing; rw [h.prefix_eq]
  unfold VOp.Makes at hw ⊢
  rwa [hz, h.kr_eq]

end

/-! ### The parts of an access of a line -/

theorem State.accessed_unwait (s : State) (page : Nat) : s.Accessed (s.unwait page) := by
  unfold State.unwait
  split
  · exact s.accessed_modTh rfl
  · exact .refl s

theorem State.accessed_performDrains (s : State) : s.Accessed (s.performDrains s.cur) := by
  unfold State.performDrains
  exact (s.accessed_modTh (f := fun h => { h with drains := [] }) rfl).trans
    ((State.keepsThreads_foldl (fun s d => s.keepsThreads_performPush _ _ d) _ _).accessed
      (State.keepsBuffers_foldl (fun s d => s.keepsBuffers_performPush _ _ d) _ _))

theorem State.accessed_combReady (s : State) (line : Nat) : s.Accessed (combReady s line) := by
  unfold combReady
  split
  · exact s.accessed_performDrains
  · exact .refl s

theorem State.accessed_drainOwn (s : State) (line : Nat) : s.Accessed (s.drainOwn line) := by
  have hcomb := s.accessed_combReady line
  have hdrain := (combReady s line).keepsThreads_drainComb (coreOf s.cur) line
  rw [← State.drainOwn_eq] at hdrain
  exact {
    keeps := hcomb.keeps.trans hdrain.keepsRegs
    thread := by rw [hdrain.th_eq]; exact hcomb.thread
    slot := (s.drainOwn_slot line).1 _ }

theorem State.accessed_readCopy (s : State) (cid line a addr : Nat) : s.Accessed (s.readCopy cid line a addr) :=
  (s.keepsThreads_readCopy cid line a addr).accessed (s.keepsBuffers_readCopy cid line a addr)

theorem State.accessed_acquire (s : State) (rels : List Rel) : s.Accessed (s.acquire rels) :=
  (State.took_of_onlyRegs (s.onlyRegs_acquire rels) (s.readsOnly_acquire rels)).accessed

theorem State.accessed_loaded (s : State) (c : L1Line) (m n : Nat) (strong : Bool) : s.Accessed (s.loaded c m n strong) := by
  unfold State.loaded
  extract_lets rels k s1 new
  have h1 : s.Accessed s1 := by
    simp only [s1]
    split
    · exact s.accessed_modTh rfl
    · exact .refl s
  refine h1.trans ?_
  split
  · refine (s1.accessed_modTh ?_).trans (State.accessed_acquire _ _)
    rfl
  · split
    · exact .refl s1
    · exact s1.accessed_modTh rfl

theorem State.accessed_endLoad (s : State) (va m n : Nat) (c : L1Line) (strong : Bool) :
    s.Accessed (s.endLoad va m n c strong) :=
  ((s.took_releaseHold _ _ _).trans (State.took_watch _ _ _ _ _)).accessed.trans (State.accessed_loaded _ _ _ _ _)

theorem State.accessed_useGrant (s : State) (line : Nat) : s.Accessed (s.useGrant line) where
  keeps := (s.undisturbed_useGrant line).regs
  thread := by unfold State.useGrant; rw [State.th_modMe]; rfl
  slot := rfl

theorem State.accessed_performStrong (s : State) (va m : Nat) (cells : List Host.Cell) :
    s.Accessed (s.performStrong va m cells) where
  keeps := (s.undisturbed_performStrong va m cells).regs
  thread := by
    unfold State.performStrong
    extract_lets line cid rels s1 t
    have h1 : s.KeepsThreads s1 := ((s.keepsThreads_performWrite _ _ _ _).trans (State.keepsThreads_carry _ _ _ _)).trans
      (State.keepsThreads_lookup _ _ _)
    rw [(State.watched_watchStore _ _ _ _).keepsThreads.th_eq, (State.keepsThreads_refreshCopy _ _ _).th_eq, State.th_modTh,
      h1.th_eq]
    rfl
  slot := (s.keepsBuffers_performStrong va m cells).slot _

theorem State.accessed_entersComb (s : State) (line : Nat) (cells : List Host.Cell) (rels : List Rel) :
    s.Accessed (s.entersComb line cells rels) where
  keeps := (s.undisturbed_entersComb line cells rels).regs
  thread := by unfold State.entersComb; rw [State.th_modMe]; rfl
  slot := rfl

theorem State.accessed_watchStore (s : State) (va m : Nat) (cells : List Host.Cell) : s.Accessed (s.watchStore va m cells) :=
  (s.watched_watchStore va m cells).keepsThreads.accessed (s.watched_watchStore va m cells).keepsBuffers

/-! ### What a line that is ready holds -/

theorem State.mem_performPush (s : State) (a cid : Nat) (d : Push) :
    (s.performPush a cid d).mem = Memory.writeAll s.mem d.cells := by
  unfold State.performPush
  split
  · next h => rw [h]; rfl
  · simp

/-- Memory after pushes have been performed in order. -/
def pushedOver (m : List Host.Cell) (l : List Push) : List Host.Cell := l.foldl (fun m d => Memory.writeAll m d.cells) m

theorem State.mem_performDrains (s : State) (sid : Nat) :
    (s.performDrains sid).mem = pushedOver s.mem (s.thread sid).drains := by
  have hfold : ∀ (l : List Push) (t : State),
      (l.foldl (fun u d => u.performPush (u.thread sid).ctx (coreOf sid) d) t).mem = pushedOver t.mem l := fun l => by
    induction l with
    | nil => exact fun _ => rfl
    | cons d l ih => exact fun t => (ih _).trans (congrArg (pushedOver · l) (t.mem_performPush _ _ d))
  exact hfold _ _

theorem State.mem_combReady (s : State) (line : Nat) : (combReady s line).mem =
    if s.th.drains.any (fun d => d.cells.any (fun c => c.1 / 64 == line)) then pushedOver s.mem s.th.drains else s.mem := by
  unfold combReady
  split
  · exact s.mem_performDrains s.cur
  · rfl

theorem State.mem_drainComb (s : State) (cid line : Nat) : (s.drainComb cid line).mem =
    ((s.core cid).comb.find? (fun e => e.line == line)).elim s.mem (fun e => Memory.writeAll s.mem e.bytes) := by
  unfold State.drainComb
  cases (s.core cid).comb.find? (fun e => e.line == line) with
  | none => rfl
  | some e =>
    dsimp only [Option.elim]
    rw [State.mem_refreshCopy]
    split
    · rw [State.mem_performWrite, State.mem_lookup, State.mem_modCore]
    · rw [State.mem_modHome, State.mem_performWrite, State.mem_lookup, State.mem_modCore]

theorem State.mem_drainOwn (s : State) (line : Nat) : (s.drainOwn line).mem =
    ((s.core (coreOf s.cur)).comb.find? (fun e => e.line == line)).elim (combReady s line).mem
      (fun e => Memory.writeAll (combReady s line).mem e.bytes) := by
  rw [State.drainOwn_eq, State.mem_drainComb, (s.keepsBuffers_combReady line).comb]

theorem State.comb_combReady (s : State) (line : Nat) : (combReady s line).me.comb = s.me.comb := by
  show ((combReady s line).core (coreOf (combReady s line).cur)).comb = _
  rw [(s.accessed_combReady line).cur_eq]
  exact (s.keepsBuffers_combReady line).comb _

theorem State.grants_drainOwn (s : State) (line : Nat) : (s.drainOwn line).me.grants = s.me.grants := by
  obtain ⟨-, hgrants⟩ := s.drainOwn_slot line
  show ((s.drainOwn line).core (coreOf (s.drainOwn line).cur)).grants = _
  rw [(s.accessed_drainOwn line).cur_eq]
  exact hgrants _

/-- R96: the translation by which an address resolves. -/
theorem State.xlate_of_resolve {s t : State} {va : Word} {n : Nat} {k : Kind} {e : TlbEntry}
    (h : s.resolve va n k = .ok e t) :
    va.toNat / 4096 ∉ s.th.failed ∧ s.xlate (coreOf s.cur) s.th.ctx va.toNat k = some e := by
  obtain ⟨-, -, hd, hp, hpage, -⟩ := State.resolve_eq_ok h
  have hf : va.toNat / 4096 ∉ s.th.failed := fun hf => by
    rw [State.resolvePage_failed hd hf] at hpage
    exact nomatch hpage
  refine ⟨hf, ?_⟩
  cases hx : s.xlate (coreOf s.cur) s.th.ctx va.toNat k with
  | none =>
    rw [State.resolvePage_miss hf hp hx] at hpage
    exact nomatch hpage
  | some e' =>
    rw [State.resolvePage_hit hd hf hp hx] at hpage
    cases hpage
    rfl

/-! ### States that differ in the issuing thread's logical time -/

/-- Two states that differ in the logical time of the issuing thread alone. -/
structure State.Retimed (s t : State) : Prop where
  device : t = { s with slots := t.slots }
  thread : t.th = { s.th with clock := t.th.clock, strongFloor := t.th.strongFloor }

/-- R130, R231: the reading of a vector register changes the reader's logical time at most. -/
theorem State.retimed_takeV (s : State) (r : BitVec 5) : s.Retimed (s.takeV r) := by
  unfold State.takeV
  split
  · exact ⟨rfl, by unfold State.strongRead; rw [State.th_modTh]⟩
  · exact ⟨rfl, rfl⟩

section
variable {s t : State} (h : s.Retimed t)
include h

theorem State.Retimed.cur_eq : t.cur = s.cur := by rw [h.device]
theorem State.Retimed.mem_eq : t.mem = s.mem := by rw [h.device]
theorem State.Retimed.core_eq (k : Nat) : t.core k = s.core k := by rw [h.device]; rfl
theorem State.Retimed.cluster_eq (k : Nat) : t.cluster k = s.cluster k := by rw [h.device]; rfl
theorem State.Retimed.mine_eq : t.mine = s.mine := by rw [h.device]; rfl
theorem State.Retimed.me_eq : t.me = s.me := by rw [h.device]; rfl
theorem State.Retimed.machineOf_eq (sys : Nat) : t.machineOf sys = s.machineOf sys := by rw [h.device]; rfl
theorem State.Retimed.ctx_eq : t.th.ctx = s.th.ctx := by rw [h.thread]
theorem State.Retimed.drains_eq : t.th.drains = s.th.drains := by rw [h.thread]

theorem State.Retimed.xlate_eq (k : Kind) (va : Nat) :
    t.xlate (coreOf t.cur) t.th.ctx va k = s.xlate (coreOf s.cur) s.th.ctx va k := by
  rw [h.cur_eq, h.ctx_eq, h.device]
  rfl

theorem State.Retimed.denied_eq (k : Kind) (va : Nat) : t.denied va k = s.denied va k := by
  unfold State.denied
  rw [h.xlate_eq]

theorem State.Retimed.ownUpdate_eq (line : Nat) : t.ownUpdate line = s.ownUpdate line := by
  rw [h.device]
  rfl

theorem State.Retimed.pending_eq (page : Nat) : t.pending page = s.pending page := by
  unfold State.pending
  rw [h.ctx_eq, h.device]
  rfl

theorem State.Retimed.heldOn_eq (page : Nat) : t.heldOn page = s.heldOn page := by
  have huid : t.th.uid = s.th.uid := by rw [h.thread]
  unfold State.heldOn
  rw [huid, h.device]

theorem State.Retimed.unwait (page : Nat) : (s.unwait page).Retimed (t.unwait page) := by
  have hw : t.th.waits = s.th.waits := by rw [h.thread]
  unfold State.unwait
  rw [hw]
  split
  · exact ⟨by rw [h.device]; rfl, by rw [State.th_modTh, State.th_modTh, h.thread]⟩
  · exact h

/-- An address resolves whatever the logical time is. -/
theorem State.Retimed.resolve {va : Word} {n : Nat} {k : Kind} {e : TlbEntry} {s2 : State}
    (hres : s.resolve va n k = .ok e s2) : ∃ t2, t.resolve va n k = .ok e t2 ∧ s2.Retimed t2 := by
  obtain ⟨hc, ha, hd, hp, hpage, rfl⟩ := State.resolve_eq_ok hres
  refine ⟨t.unwait (va.toNat / 4096), ?_, h.unwait _⟩
  obtain ⟨hf, hx⟩ := State.xlate_of_resolve hres
  rw [State.resolve_of_checks hc ha]
  refine State.resolvePage_hit ((h.denied_eq k _).trans hd) ?_ (by rw [h.pending_eq, h.heldOn_eq]; exact hp)
    ((h.xlate_eq k _).trans hx)
  rw [show t.th.failed = s.th.failed by rw [h.thread]]
  exact hf

theorem State.Retimed.mem_combReady (line : Nat) : (combReady t line).mem = (combReady s line).mem := by
  rw [State.mem_combReady, State.mem_combReady, h.drains_eq, h.mem_eq]

theorem State.Retimed.comb_combReady (line : Nat) : (combReady t line).me.comb = (combReady s line).me.comb := by
  rw [State.comb_combReady, State.comb_combReady, h.me_eq]

theorem State.Retimed.grants_drainOwn (line : Nat) : (t.drainOwn line).me.grants = (s.drainOwn line).me.grants := by
  rw [State.grants_drainOwn, State.grants_drainOwn, h.me_eq]

theorem State.Retimed.mem_drainOwn (line : Nat) : (t.drainOwn line).mem = (s.drainOwn line).mem := by
  rw [State.mem_drainOwn, State.mem_drainOwn, h.mem_combReady, h.cur_eq, h.core_eq]

end
end Sys2Proof.Machine

end

section
/-! SUPPORT. The run of a vector load or store that names no stream (R128, R180 to R185, R195): its effect is the issue of what
its access has left, and what that issue leaves. -/

namespace Sys2Proof.Machine

open Sys2Proof.Claims

/-! ### The effect -/

theorem State.keepsStores_takeOld (s : State) (o : VOp) (en : BitVec 16) : s.KeepsStores (o.takeOld en s) := by
  unfold VOp.takeOld
  split
  · next d _ => exact .ite (.refl s) (s.keepsStores_takeV d)
  · exact .refl s

/-- The state in which an instruction is issued whose access has left a state: the elements popped before are taken with
it (R190), and the old value of its destination (R180). -/
def VOp.settled (o : VOp) (en : BitVec 16) (s : State) : State := o.takeOld en s.popsDone

theorem VOp.took_settled (o : VOp) (en : BitVec 16) (s : State) : s.Took (o.settled en s) :=
  s.took_popsDone.trans (State.took_takeOld _ o en)

theorem VOp.keepsStores_settled (o : VOp) (en : BitVec 16) (s : State) : s.KeepsStores (o.settled en s) :=
  s.keepsStores_popsDone.trans (State.keepsStores_takeOld _ o en)

section
variable {o : VOp} {f : VIn → State → Acc VOut} {s s1 s2 : State} {out : VOut}

/-- R180 to R190: the effect of an instruction that names no stream and whose access goes through is its issue. -/
theorem VOp.body_access (hroom : (s.th.ring.filter (fun e => !e.retired)).length < 16) (hcap : s.th.cap = none)
    (hs : o.Streamless s.th) (hsources : s.sources o.srcs [] = .ok (o.srcs.map s.vr) s1)
    (hf : f (o.input s) s1 = .ok out s2) (hfollows : (o.follows s.th out && s.th.lateWaits) = false)
    (haway : out.away = false) : o.body f s = .next (o.issue (o.input s) (o.stored out s1 s2).1 0
      (o.settled (enabledBy s) (o.stored out s1 s2).2)) := by
  unfold VOp.body
  extract_lets h s0 en env x k old tgt dry eff
  have hen : en = enabledBy s := VOp.enabled_eq hs hcap
  have hx : x = (o.input s).x := by
    simp only [x, show h.cap = none from hcap, VOp.input]
    cases o.xs <;> rfl
  have hmask : k = (o.input s).k := by
    simp only [k, show h.cap = none from hcap, VOp.input]
    cases o.ks <;> rfl
  have hold : old = (o.input s).old := by
    simp only [old, VOp.input]
    cases hd : o.dst with
    | none => rfl
    | some d => simp only [show h.streamOf d = none from VOp.streamOf_dst hs hd]; rfl
  have htgt : tgt = none := by
    simp only [tgt]
    cases hd : o.dst with
    | none => rfl
    | some d => rw [Option.bind_some, show h.streamOf d = none from VOp.streamOf_dst hs hd]; rfl
  have hinput : ({ src := o.srcs.map s.vr, en := en, x := x, k := k, env := env, old := old } : VIn) = o.input s := by
    rw [hen, hx, hmask, hold]
    rfl
  have hstored : (o.stored out s1 s2).1.away = false := by
    unfold VOp.stored
    split
    · exact haway
    · split
      · exact haway
      · split <;> exact haway
  have hfollowed : o.follows h (o.stored out s1 s2).1 = o.follows s.th out := by
    unfold VOp.follows
    rw [hstored, haway]
  have heff : eff (o.srcs.map s.vr) s1 = .ok (o.input s, (o.stored out s1 s2).1, 0) (o.stored out s1 s2).2 := by
    simp only [eff, dry, htgt, hinput, hf, Acc.both, Acc.bind]
  rw [if_neg (Nat.not_le.2 hroom), VOp.misuse_none hs, hsources]
  dsimp only [Acc.bind]
  rw [heff, hen]
  dsimp only [Acc.res]
  rw [hfollowed, hfollows, hstored]
  rfl

/-- R73, R164: an instruction with a base register starts as one that reads it. -/
theorem VOp.start_use {a : BitVec 5} (hx : o.xs = some a) (hcap : s.th.cap = none) :
    (o.use s).start s = begunHeavy s [xreg a] [] := by
  have hreads : (o.use s).reads = [xreg a] := by
    unfold VOp.use
    simp only [hx, hcap, Option.isNone_none, if_true]
    rfl
  have hlight : (o.use s).endsLight = true := by
    unfold Use.endsLight VOp.use
    simp
  unfold begunHeavy Use.start
  rw [hreads, hlight]
  rfl

end

/-! ### What the issue leaves -/

theorem State.core_of_eq {s t : State} (h : t.cores = s.cores) (k : Nat) : t.core k = s.core k := by
  unfold State.core
  rw [h]

theorem State.clusters_ring (s : State) (e : RingEntry) (hold : BitVec 2) :
    ((s.enterRing e).holdSlot hold).clusters = s.clusters := by
  unfold State.holdSlot
  split <;> rfl

theorem State.cores_ring (s : State) (e : RingEntry) (hold : BitVec 2) :
    ((s.enterRing e).holdSlot hold).cores = s.cores := by
  unfold State.holdSlot
  split <;> rfl

theorem State.clusters_addQsat (s : State) (n : Nat) : (s.addQsat n).clusters = s.clusters := by
  unfold State.addQsat
  split <;> rfl

/-- R182: the write of a vector register writes no scratchpad. -/
theorem State.keepsScratch_retireNow (s : State) (d : BitVec 5) (v : VWord) (e : RingEntry) :
    s.KeepsScratch (s.retireNow (.v d v) e) := by
  unfold State.retireNow
  refine .ite (State.KeepsScratch.trans (t := s.applyW (.v d v) 16) (State.keepsScratch_of_eq ?_)
    (State.keepsScratch_of_eq (State.clusters_addQsat _ _))) (.refl s)
  show (s.putV d v 16).clusters = s.clusters
  unfold State.putV
  split <;> rfl

/-- R185: the entry of a store without a fault: retired, or waiting with what is left of the store. -/
structure RingEntry.RecordsStore (e : RingEntry) (s : State) (left : Option LateStore) : Prop where
  seq : e.seq = s.th.nextSeq
  fault : e.fault = none
  writes : e.writes = []
  store : e.store = left
  retired : e.retired = left.isNone
  left : e.retired = false → e.left = 1

/-- R182: the saturations of a store that is retired at once are counted. -/
def State.countNow (s : State) (e : RingEntry) : State := if e.retired then s.addQsat e.qsat else s

theorem State.took_countNow (s : State) (e : RingEntry) : s.Took (s.countNow e) := by
  unfold State.countNow
  exact .ite (s.took_addQsat _) (.refl s)

theorem State.clusters_countNow (s : State) (e : RingEntry) : (s.countNow e).clusters = s.clusters := by
  unfold State.countNow
  split
  · exact s.clusters_addQsat _
  · rfl

theorem State.cores_countNow (s : State) (e : RingEntry) : (s.countNow e).cores = s.cores := by
  unfold State.countNow State.addQsat
  split
  · split <;> rfl
  · rfl

end Sys2Proof.Machine

namespace Sys2Proof.Claims

open Sys2Proof.Machine

section
variable {o : VOp} {f : VIn → State → Acc VOut} {s s1 s2 : State} {out : VOut}

/-- R328, R180 to R190: where it may issue, such an instruction is the issue of what its access leaves. -/
theorem run_access {p : VecSpec} {a : BitVec 5} (hfit : p.FitBy o) (hx : p.x = some a) (hready : vecReady s (p.names s) p.x)
    (hs : o.Streamless s.th)
    (hsources : (begunHeavy s [xreg a] []).sources o.srcs [] = .ok (o.srcs.map s.vr) s1)
    (hf : f (o.input s) s1 = .ok out s2) (hfollows : (o.follows s.th out && s.th.lateWaits) = false)
    (haway : out.away = false) : o.run s f = .next (ended (o.issue (o.input s) (o.stored out s1 s2).1 0
      (o.settled (enabledBy s) (o.stored out s1 s2).2)) (vecSize s)) := by
  obtain ⟨hfeat, hnames, harrived, hcap, -, hroom⟩ := hready
  have hstart := VOp.start_use (o := o) (hfit.xs.trans hx) hcap
  have htook := (o.use s).took_start s
  rw [hstart] at htook
  have hreads : s.arrived (o.use s).reads := by
    have : (o.use s).reads = p.x.toList.map xreg := by
      unfold VOp.use
      simp only [hcap, hfit.xs, Option.isNone_none, if_true]
      cases p.x <;> rfl
    rwa [this]
  have hunheld : s.unheld (o.use s).names := hnames.mono fun r hr => (hfit.names hcap r).1 hr
  have hbody := VOp.body_access (o := o) (f := f) (s := begunHeavy s [xreg a] []) (s1 := s1) (s2 := s2) (out := out)
    (by rwa [htook.ring_eq]) (htook.cap_eq.trans hcap) (fun r hr => (htook.streamOf_eq r).trans (hs r hr))
    (by rwa [htook.vr_eq]) (by rwa [htook.input_eq])
    (by rw [show (begunHeavy s [xreg a] []).th.lateWaits = s.th.lateWaits by unfold Thread.lateWaits; rw [htook.ring_eq]]
        rwa [show o.follows (begunHeavy s [xreg a] []).th out = o.follows s.th out by
          unfold VOp.follows VOp.used; simp only [htook.streamOf_eq]]) haway
  rw [htook.input_eq, htook.enabledBy_eq] at hbody
  unfold VOp.run
  rw [Use.run_of (o.use s) s (o.body f) (by rintro g ⟨⟩; exact hfeat) nofun hunheld nofun hreads, hstart, hbody]
  rfl

end

/-! ### What the issue of a load leaves -/

/-- R128, R182, R184: what a load leaves, of which an entry has been made after its access. -/
theorem loads_of {p : VecSpec} {s q u : State} {e : RingEntry} {w : RegW} {sat : Nat} (hq : s.Accessed q)
    (hrec : e.Records q w p.req sat) (hi : q.Issued u w e p.hold) (hgood : p.good s w) :
    p.loads s (ended u (vecSize s)) := by
  refine ⟨e, w, ?pc, by rw [th_ended], ?ring, ?seq, hrec.fault, hrec.writes, hgood, ?held, ?retired,
    fun hr => ⟨hrec.left hr, ?waiting⟩, fun hr => ⟨?value, ?frame⟩⟩
  case pc =>
    rw [← hq.pc_eq, ← hi.pc]
    exact goesOn_ended u _
  case ring => rw [th_ended]; exact hi.ring
  case seq => rw [hrec.seq, hq.nextSeq_eq]
  case held =>
    have hheld := hi.held
    unfold heldFor at hheld ⊢
    rw [hq.cur_eq, hq.slot] at hheld
    rw [← hheld, ← hq.cur_eq, ← hi.cur]
    exact slotSt_ended u _
  case retired => rw [hrec.retired, hq.olderLate_eq]
  case waiting => exact vecFrame_trans (vecFrame_trans (hq.vecFrame _) (hi.waiting hr)) (ended_frame u _ _)
  case value => exact written_ended (hi.written hr).1 _
  case frame =>
    rw [← hgood.reg_eq]
    exact vecFrame_trans (vecFrame_trans (hq.vecFrame _) (hi.written hr).2) (ended_frame u _ _)

/-- R195: a vector load. -/
def loadOp (word : Nat) (pol : Policy) (hold : BitVec 2) (req : Nat) (a d : BitVec 5) : VOp :=
  { word, pol, hold, req, xs := some a, dst := some d }

/-- What a vector load does, with its elements. -/
def loadSpec (hold : BitVec 2) (req : Nat) (a d : BitVec 5) (elem : Nat → Nat) : VecSpec :=
  { hold, req, x := some a, dst := .v d, elem }

section
variable {word : Nat} {pol : Policy} {hold : BitVec 2} {req : Nat} {a d : BitVec 5} {elem : Nat → Nat} {s : State} {out : VOut}

theorem streamOf_of_ready (hready : vecReady s ((loadSpec hold req a d elem).names s) (some a)) : s.th.streamOf d = none := by
  obtain ⟨-, -, -, -, hstreams, -⟩ := hready
  exact hstreams d List.mem_cons_self

/-- R180: a load writes the lanes that it has read. -/
theorem loadOp_makes (hlanes : HasLanes out 32 elem 0) : ∃ v,
    (loadOp word pol hold req a d).Makes s ((loadOp word pol hold req a d).input s) out (.v d v) ∧
      (loadSpec hold req a d elem).good s (.v d v) := by
  obtain ⟨k, hlist, hk⟩ := hlanes.lanes
  refine ⟨_, ⟨rfl, rfl, rfl⟩, rfl, fun j (hj : j < 512 / 32) => ?_⟩
  show lane 32 _ j = if (enabledBy s).getLsbD (j * 32 / 32) then elem j % 2 ^ 32 else _
  rw [hlanes.width, hlist, lane_mergeLanes _ _ _ _ hj, hk j hj]
  rfl

/-- R98, R195: a vector load whose access has gone through completes with the lanes that it has read. -/
theorem run_loadOp {f : VIn → State → Acc VOut} {s2 : State}
    (hready : vecReady s ((loadSpec hold req a d elem).names s) (some a)) (hlate : s.th.lateWaits = false)
    (hf : f ((loadOp word pol hold req a d).input s) (begunHeavy s [xreg a] []) = .ok out s2)
    (hacc : (begunHeavy s [xreg a] []).Accessed s2) (hlanes : HasLanes out 32 elem 0) :
    ∃ t, (loadOp word pol hold req a d).run s f = .next t ∧ (loadSpec hold req a d elem).loads s t ∧
      (∀ x, t.byte x = s2.byte x) ∧ t.mine.scratch = s2.mine.scratch := by
  have hs : (loadOp word pol hold req a d).Streamless s.th := fun r hr => by
    rw [List.mem_singleton.1 hr]
    exact streamOf_of_ready hready
  obtain ⟨v, hmakes, hgood⟩ := loadOp_makes (word := word) (pol := pol) (hold := hold) (req := req) (a := a) (d := d) (s := s)
    hlanes
  have hrun := run_access (o := loadOp word pol hold req a d) (p := loadSpec hold req a d elem)
    (fit_vector rfl rfl rfl rfl rfl rfl) rfl hready hs rfl hf (by rw [hlate, Bool.and_false]) hlanes.away
  generalize hi : (loadOp word pol hold req a d).input s = i at hrun hmakes
  change _ = Host.Outcome.next (ended (VOp.issue _ i out 0 (VOp.settled _ (enabledBy s) s2)) (vecSize s)) at hrun
  have htook := (loadOp word pol hold req a d).took_settled (enabledBy s) s2
  have hkept := (loadOp word pol hold req a d).keepsStores_settled (enabledBy s) s2
  generalize (loadOp word pol hold req a d).settled (enabledBy s) s2 = q at hrun htook hkept
  have hq : s.Accessed q := ((Use.took_start _ s).accessed.trans hacc).trans htook.accessed
  obtain ⟨e, hrec, hissue⟩ := VOp.issue_eq (fun r hr => (hq.streamOf_eq r).trans (hs r hr)) hlanes.fault hlanes.store
    (hq.makes hmakes)
  have hissued := q.issued_entry (.v d v) e hold
  have hscratch : q.KeepsScratch (((q.retireNow (.v d v) e).enterRing e).holdSlot hold) :=
    (q.keepsScratch_retireNow d v e).trans (State.keepsScratch_of_eq (State.clusters_ring _ _ _))
  rw [hissue] at hrun
  refine ⟨_, hrun, loads_of hq hrec hissued hgood, fun x => (hissued.byte x).trans (htook.byte x), ?_⟩
  exact (hscratch.mine hissued.cur).trans (hkept.scratch.mine htook.keeps.cur)

end

/-! ### What the issue of a store leaves -/

/-- R195: a vector store. -/
def storeOp (word : Nat) (pol : Policy) (hold : BitVec 2) (a d : BitVec 5) : VOp :=
  { word, pol, hold, req := 0, xs := some a, srcs := [d], store := true }

/-- R128, R184, R185: the issue of a store. -/
theorem issue_storeOp {word : Nat} {pol : Policy} {hold : BitVec 2} {a d : BitVec 5} {i : VIn} {out : VOut} {s : State}
    (hs : s.th.streamOf d = none) (hfault : out.fault = none) (holder : olderLate s = false) :
    ∃ e : RingEntry, e.RecordsStore s out.store ∧
      (storeOp word pol hold a d).issue i out 0 s = ((s.countNow e).enterRing e).holdSlot hold := by
  have hused : (storeOp word pol hold a d).used s.th = [] := VOp.used_nil fun r hr => by
    rw [List.mem_singleton.1 hr]
    exact hs
  unfold VOp.issue
  extract_lets h z used writes e now s1 s2 s3
  have hnow : now = out.store.isNone := by
    unfold olderLate at holder
    simp [now, hfault, h, holder, storeOp]
  have hwrites : writes = [] := rfl
  refine ⟨{ e with retired := now, left := if now then 0 else e.left }, ⟨rfl, hfault, hwrites, rfl, hnow, fun hr => ?_⟩, ?_⟩
  · rw [show now = false from hr]
    rfl
  · have h1 : s1 = s := by simp only [s1, show used = [] from hused]; rw [hfault]; rfl
    have h2 : s2 = s.countNow { e with retired := now, left := if now then 0 else e.left } := by
      simp only [s2, h1, hwrites]
      rfl
    simp only [s3, h2]
    rfl

/-- R185: what a store leaves, of which an entry has been made. -/
theorem stores_of {s q : State} {e : RingEntry} {hold : BitVec 2} {left : Option LateStore} {late : LateStore → Prop}
    (hq : s.Accessed q) (he : e.RecordsStore s left)
    (hleft : if s.th.inFlight = true ∧ enabledBy s ≠ 0#16 then ∃ d, left = some d ∧ late d else left = none) :
    stores s (ended ((q.enterRing e).holdSlot hold) (vecSize s)) hold late := by
  obtain ⟨hkeeps, hth, hheld, -⟩ := q.issued_ring e hold
  generalize (q.enterRing e).holdSlot hold = u at hkeeps hth hheld ⊢
  rw [State.th_enterRing] at hth
  have hframe : VecFrame s u none := vecFrame_trans (hq.vecFrame _) (hkeeps.vecFrame (by rw [hth]) _)
  refine ⟨?pc, by rw [th_ended], vecFrame_trans hframe (ended_frame u _ _), ?held, e, ?ring, he.seq, he.writes, he.fault, ?left⟩
  case pc =>
    have hpc : u.th.pc = s.th.pc := by rw [hth]; exact hq.pc_eq
    rw [← hpc]
    exact goesOn_ended u _
  case held =>
    unfold heldFor at hheld ⊢
    rw [hq.cur_eq, hq.slot] at hheld
    rw [← hheld, ← hq.cur_eq, ← hkeeps.cur]
    exact slotSt_ended u _
  case ring =>
    rw [th_ended]
    show u.th.ring.getLast? = _
    rw [hth]
    exact getLast?_ringPut _ e
  case left =>
    have hretired := he.retired
    split at hleft <;> rename_i hwaits
    · rw [if_pos hwaits]
      obtain ⟨d, rfl, hd⟩ := hleft
      exact ⟨hretired, he.left hretired, d, he.store, hd⟩
    · rw [if_neg hwaits]
      subst hleft
      exact ⟨hretired, he.store⟩

/-- R185: the state whose stores stand after a vector store: that after its access, or that before it where the store waits. -/
def storeEnd (s s1 s2 : State) : State := if s.th.inFlight = true ∧ enabledBy s ≠ 0#16 then s1 else s2

section
variable {word : Nat} {pol : Policy} {hold : BitVec 2} {a d : BitVec 5} {f : VIn → State → Acc VOut} {s s1 s2 : State}
  {out : VOut} {late : LateStore → Prop}

/-- R185: what is left of a store whose access has gone through, where nothing older in the ring will report a fault. -/
theorem stored_storeOp (h1 : s.Accessed s1) (holder : olderLate s = false)
    (hstore : if enabledBy s = 0#16 then out.store = none else ∃ q, out.store = some q ∧ late q) :
    ∃ left, (storeOp word pol hold a d).stored out s1 s2 = ({ out with store := left }, storeEnd s s1 s2) ∧
      if s.th.inFlight = true ∧ enabledBy s ≠ 0#16 then ∃ q, left = some q ∧ late q else left = none := by
  have hfault : s1.olderFault = false := h1.olderLate_eq.trans holder
  unfold VOp.stored storeEnd
  rw [hfault, h1.inFlight_eq]
  by_cases hen : enabledBy s = 0#16
  · rw [if_pos hen] at hstore
    exact ⟨none, by simp [hstore, hen, storeOp], by simp [hen]⟩
  · rw [if_neg hen] at hstore
    obtain ⟨q, hq, hlate⟩ := hstore
    cases s.th.inFlight with
    | false => exact ⟨none, by simp [storeOp], by simp⟩
    | true =>
      have hout : ({ out with store := some q } : VOut) = out := by rw [← hq]
      exact ⟨some q, by simp [hq, hen, hout, storeOp], by simpa [hen] using hlate⟩

/-- R189: the source of a store that is no stream is read as it stands. -/
theorem sources_storeOp (hd : s.th.streamOf d = none) : s.sources [d] [] = .ok [s.vr d] (s.takeV d) := by
  unfold State.sources
  rw [List.find?_nil]
  dsimp only
  unfold State.pop
  rw [hd]
  rfl

/-- R98, R185, R195: a vector store whose access can go through completes, or waits where older entries have not retired. -/
theorem run_storeOp (hready : storeReady s a d)
    (hf : f ((storeOp word pol hold a d).input s) ((begunHeavy s [xreg a] []).takeV d) = .ok out s2)
    (hacc : ((begunHeavy s [xreg a] []).takeV d).Accessed s2) (hfault : out.fault = none) (haway : out.away = false)
    (hstore : if enabledBy s = 0#16 then out.store = none else ∃ q, out.store = some q ∧ late q) :
    ∃ t, (storeOp word pol hold a d).run s f = .next t ∧ stores s t hold late ∧ t.cur = s.cur ∧
      (∀ x, t.byte x = (storeEnd s ((begunHeavy s [xreg a] []).takeV d) s2).byte x) ∧
      (∀ k, (t.core k).comb = ((storeEnd s ((begunHeavy s [xreg a] []).takeV d) s2).core k).comb) ∧
      (storeEnd s ((begunHeavy s [xreg a] []).takeV d) s2).KeepsScratch t := by
  obtain ⟨hready, holder⟩ := hready
  have hd : s.th.streamOf d = none := streamOf_of_ready (hold := hold) (req := 0) (elem := fun _ => 0) hready
  have hs : (storeOp word pol hold a d).Streamless s.th := fun r hr => by
    rw [List.mem_singleton.1 hr]
    exact hd
  have hb : s.Took (begunHeavy s [xreg a] []) := Use.took_start _ s
  have h1 := (hb.trans (State.took_takeV _ d)).accessed
  have hsources := sources_storeOp ((hb.streamOf_eq d).trans hd)
  rw [hb.vr_eq] at hsources
  generalize (begunHeavy s [xreg a] []).takeV d = s1 at *
  obtain ⟨left, hstored, hleft⟩ := stored_storeOp (word := word) (pol := pol) (hold := hold) (a := a) (d := d) (s2 := s2) h1
    holder hstore
  have hend : s.Accessed (storeEnd s s1 s2) := by
    unfold storeEnd
    split
    · exact h1
    · exact h1.trans hacc
  have hrun := run_access (o := storeOp word pol hold a d) (p := loadSpec hold 0 a d (fun _ => 0))
    (fit_store rfl rfl rfl rfl rfl rfl rfl) rfl hready hs hsources hf
    (by rw [VOp.follows, VOp.used_nil hs, haway]; rfl) haway
  rw [hstored] at hrun
  generalize storeEnd s s1 s2 = u at hend hrun ⊢
  have htook := (storeOp word pol hold a d).took_settled (enabledBy s) u
  have hkept := (storeOp word pol hold a d).keepsStores_settled (enabledBy s) u
  dsimp only at hrun
  generalize (storeOp word pol hold a d).settled (enabledBy s) u = q at hrun htook hkept
  have hq : s.Accessed q := hend.trans htook.accessed
  obtain ⟨e, he, hissue⟩ := issue_storeOp (word := word) (pol := pol) (hold := hold) (a := a)
    (i := (storeOp word pol hold a d).input s) (out := { out with store := left }) ((hq.streamOf_eq d).trans hd) hfault
    (hq.olderLate_eq.trans holder)
  have hcount := q.took_countNow e
  obtain ⟨hkeeps, -, -, hbyte⟩ := (q.countNow e).issued_ring e hold
  have hrec : e.RecordsStore s left := ⟨he.seq.trans hq.nextSeq_eq, he.fault, he.writes, he.store, he.retired, he.left⟩
  rw [hissue] at hrun
  refine ⟨_, hrun, stores_of (hq.trans hcount.accessed) hrec hleft, ?cur, fun x => ?byte, fun k => ?comb, ?scratch⟩
  case cur => exact hkeeps.cur.trans (hcount.keeps.cur.trans hq.cur_eq)
  case byte => exact (hbyte x).trans ((hcount.byte x).trans (htook.byte x))
  case comb =>
    have hcores := (State.cores_ring (q.countNow e) e hold).trans (q.cores_countNow e)
    exact (congrArg Core.comb (State.core_of_eq hcores k)).trans (hkept.buffers.comb k)
  case scratch =>
    exact hkept.scratch.trans ((State.keepsScratch_of_eq (q.clusters_countNow e)).trans
      (State.keepsScratch_of_eq (State.clusters_ring _ _ _)))

end

end Sys2Proof.Claims

end

section
/-! SUPPORT. The bytes of a store of which some lanes are disabled (R11, R185, R195, R196): which bytes of memory it writes. -/

namespace Sys2Proof.Machine

open Sys2Proof.Claims

/-! ### Bytes that are present -/

theorem presentCells_cons (o : Option Byte) (bs : List (Option Byte)) (a : Nat) :
    presentCells (o :: bs) a = (o.map (fun b => (a, b))).toList ++ presentCells bs (a + 1) := by
  have hshift : ((bs.zipIdx 1).filterMap (fun p => p.1.map (fun b => (a + p.2, b)))) = presentCells bs (a + 1) := by
    unfold presentCells
    rw [List.zipIdx_succ, List.filterMap_map]
    refine List.filterMap_congr fun p _ => ?_
    dsimp only [Function.comp]
    rw [Nat.add_assoc, Nat.add_comm p.2 1]
  unfold presentCells at hshift ⊢
  rw [List.zipIdx_cons, List.filterMap_cons, Nat.zero_add, hshift]
  cases o <;> rfl

/-- The byte at an address of the bytes that are present. -/
theorem find?_presentCells (bs : List (Option Byte)) (a y : Nat) : (presentCells bs a).find? (fun c => c.1 == y) =
    if a ≤ y then (bs[y - a]?.join).map (fun b => (y, b)) else none := by
  induction bs generalizing a with
  | nil => simp [presentCells]
  | cons o bs ih =>
    rw [presentCells_cons, List.find?_append, ih]
    rcases lt_trichotomy a y with h | rfl | h
    · have hne : (a == y) = false := by simpa using h.ne
      have hsub : y - a = (y - (a + 1)) + 1 := by omega
      rw [if_pos h.le, if_pos (Nat.succ_le_of_lt h), hsub, List.getElem?_cons_succ]
      cases o <;> simp [hne]
    · rw [if_neg (by omega)]
      cases o <;> simp
    · have hne : (a == y) = false := by simpa using h.ne'
      rw [if_neg (by omega), if_neg (by omega)]
      cases o <;> simp [hne]

/-- Memory after the bytes that are present have been written. -/
theorem Memory.read_presentCells (m : List Host.Cell) (bs : List (Option Byte)) (a y : Nat) :
    Memory.read (Memory.writeAll m (presentCells bs a)) y =
      ((presentCells bs a).find? (fun c => c.1 == y)).elim (Memory.read m y) (·.2) := by
  induction bs generalizing a m with
  | nil => rfl
  | cons o bs ih =>
    rw [presentCells_cons]
    cases o with
    | none => exact ih m (a + 1)
    | some b =>
      show Memory.read (Memory.writeAll (Memory.write m a b) (presentCells bs (a + 1))) y = _
      rw [ih, Memory.read_write]
      by_cases h : a = y
      · subst h
        have hnone : (presentCells bs (a + 1)).find? (fun c => c.1 == a) = none := by
          rw [find?_presentCells, if_neg (by omega)]
        simp [hnone]
      · have hne : (a == y) = false := by simpa using h
        simp [hne, Ne.symm h]

/-- R185: the bytes of a store of elements of es bytes: of n bytes those of the enabled positions, byte k being g k. -/
def Masks (bs : List (Option Byte)) (en : BitVec 16) (es n : Nat) (g : Nat → Byte) : Prop :=
  ∀ k, bs[k]?.join = if k < n ∧ en.getLsbD (k / es) = true then some (g k) else none

/-- What a store writes over a byte at an address. -/
def maskedOver (en : BitVec 16) (es n : Nat) (g : Nat → Byte) (a y : Nat) (old : Byte) : Byte :=
  if a ≤ y ∧ y < a + n ∧ en.getLsbD ((y - a) / es) = true then g (y - a) else old

section
variable {bs : List (Option Byte)} {en : BitVec 16} {es n : Nat} {g : Nat → Byte}

theorem Masks.find? (h : Masks bs en es n g) (a y : Nat) : (presentCells bs a).find? (fun c => c.1 == y) =
    if a ≤ y ∧ y < a + n ∧ en.getLsbD ((y - a) / es) = true then some (y, g (y - a)) else none := by
  rw [find?_presentCells, h]
  by_cases ha : a ≤ y
  · have hlt : y - a < n ↔ y < a + n := by omega
    simp only [ha, if_true, true_and, hlt]
    split <;> rfl
  · simp [ha]

theorem Masks.read (h : Masks bs en es n g) (m : List Host.Cell) (a y : Nat) :
    Memory.read (Memory.writeAll m (presentCells bs a)) y = maskedOver en es n g a y (Memory.read m y) := by
  rw [Memory.read_presentCells, h.find?]
  unfold maskedOver
  split <;> rfl

end

/-! ### The bytes of a register, and of elements -/

/-- R195: the bytes of a register of which some lanes are disabled. -/
theorem masks_maskedBytes (en : BitVec 16) (v : VWord) : Masks (maskedBytes en v) en 4 64 (byteOf v.toNat) := by
  intro k
  unfold maskedBytes
  rw [List.getElem?_map, List.getElem?_zipIdx]
  by_cases hk : k < 64
  · rw [getElem?_leBytes _ hk]
    simp [hk]
  · have hnone : (leBytes v.toNat 64)[k]? = none := by rw [List.getElem?_eq_none_iff, length_leBytes]; omega
    rw [hnone]
    simp [hk]

theorem getElem?_elemBytes (en : BitVec 16) {es : Nat} (hes : 0 < es) (l : List Nat) (n k : Nat) :
    ((l.zipIdx n).flatMap (fun p => (leBytes p.1 es).map (fun b => if en.getLsbD p.2 then some b else none)))[k]?.join =
      if k < es * l.length ∧ en.getLsbD (n + k / es) = true then some (byteOf (l.getD (k / es) 0) (k % es)) else none := by
  induction l generalizing n k with
  | nil => simp
  | cons v l ih =>
    have hlen : ((leBytes v es).map (fun b => if en.getLsbD n then some b else none)).length = es := by
      rw [List.length_map, length_leBytes]
    rw [List.zipIdx_cons, List.flatMap_cons, List.getElem?_append, hlen]
    by_cases hk : k < es
    · have hlt : k < es * (v :: l).length := Nat.lt_of_lt_of_le hk (Nat.le_mul_of_pos_right es (Nat.succ_pos _))
      rw [if_pos hk, List.getElem?_map, getElem?_leBytes v hk, Nat.div_eq_of_lt hk, Nat.mod_eq_of_lt hk]
      simp only [Nat.add_zero, hlt, true_and, Option.map_some, Option.join_some, List.getD_cons_zero]
    · obtain ⟨j, rfl⟩ := Nat.exists_eq_add_of_le (Nat.not_lt.1 hk)
      have hlt : es + j < es * (v :: l).length ↔ j < es * l.length := by
        rw [List.length_cons, Nat.mul_succ]
        omega
      rw [if_neg hk, Nat.add_sub_cancel_left, ih, Nat.add_div_left _ hes, Nat.add_mod_left, List.getD_cons_succ]
      simp only [hlt, show n + 1 + j / es = n + (j / es).succ by omega]

/-- R196: the bytes of elements of which some are disabled. -/
theorem masks_elemBytes (en : BitVec 16) {es n : Nat} (hes : 0 < es) {l : List Nat} (hn : n = es * l.length) :
    Masks (elemBytes en es l) en es n (fun k => byteOf (l.getD (k / es) 0) (k % es)) := by
  intro k
  rw [hn]
  unfold elemBytes
  simpa only [Nat.zero_add] using getElem?_elemBytes en hes l 0 k

end Sys2Proof.Machine

end

section
/-! SUPPORT. The vector loads and stores of ordinary memory (R96 to R100, R185, R195, R208, R232): what their accesses do where
an address resolves, and what they leave. -/

namespace Sys2Proof.Machine

open Sys2Proof.Claims

/-! ### Stores of bytes of which some are absent -/

section
variable {s s2 : State} {va : Word} {n m : Nat} {e : TlbEntry} {bs : List (Option Byte)}
  (hres : s.resolve va n (Kind.ofCode 1) = .ok e s2) (hm : s2.machineOf (e.sys va.toNat) = some m)
include hres hm

/-- R98, R232: a strong store whose address resolves and that has its grant. -/
theorem State.storeStrong_bytes (hup : s2.ownUpdate (m / 64) = false)
    (hg : ∃ g ∈ (s2.drainOwn (m / 64)).me.grants, g.1 = s2.cur % 16 ∧ g.2.1 = m / 64) :
    s.storeStrong va bs n = .ok ()
      (((s2.drainOwn (m / 64)).useGrant (m / 64)).performStrong va.toNat m (presentCells bs m)) := by
  have hcur := (s2.accessed_drainOwn (m / 64)).cur_eq
  have hany : (s2.drainOwn (m / 64)).me.grants.any (fun g => g.1 == s2.cur % 16 && g.2.1 == m / 64) = true := by
    obtain ⟨g, hmem, h1, h2⟩ := hg
    exact List.any_eq_true.2 ⟨g, hmem, by rw [h1, h2, beq_self_eq_true, beq_self_eq_true]; rfl⟩
  unfold State.storeStrong
  rw [hres]
  simp only [Acc.bind, State.storeAt, hm, hup, Bool.false_eq_true, if_false, hany, if_true, State.useGrant, hcur]

/-- R98, R208: a weak store whose address resolves within this device. -/
theorem State.storeWeak_bytes (hup : s2.ownUpdate (m / 64) = false) :
    s.storeWeak va bs n = s2.combine va.toNat m (presentCells bs m) := by
  obtain ⟨hc, ha, hd, hp, hpage, -⟩ := State.resolve_eq_ok hres
  unfold State.storeWeak
  simp only [Bool.false_eq_true, if_false, hc, Bool.not_true, ha, ne_eq, not_true, hd, hp, hpage, Acc.bind, hm, hup]

/-- R185: what a store that waits would write, where its address resolves within this device. -/
theorem State.lateMem_of (strong : Bool) : s.lateMem strong va bs =
    some { dest := if strong then .strong else .weak, va := va.toNat, at_ := m, bytes := bs, quiet := s.th.broke } := by
  obtain ⟨-, -, -, hp, -, rfl⟩ := State.resolve_eq_ok hres
  obtain ⟨-, hx⟩ := State.xlate_of_resolve hres
  have hdev : (s.unwait (va.toNat / 4096)).machineOf (e.sys va.toNat) = s.machineOf (e.sys va.toNat) := by
    rw [s.unwait_eq]
    rfl
  rw [hdev] at hm
  unfold State.lateMem
  rw [if_neg (by rw [hp]; exact Bool.false_ne_true), hx, Option.bind_some, hm]
  rfl

end

/-! ### What the accesses leave -/

theorem State.mem_strongStore (s : State) (va m : Nat) (cells : List Host.Cell) :
    (((s.drainOwn (m / 64)).useGrant (m / 64)).performStrong va m cells).mem =
      Memory.writeAll (s.drainOwn (m / 64)).mem cells :=
  State.mem_performStrong _ _ _ _

theorem State.accessed_strongStore (s : State) (va m : Nat) (cells : List Host.Cell) :
    s.Accessed (((s.drainOwn (m / 64)).useGrant (m / 64)).performStrong va m cells) :=
  ((s.accessed_drainOwn _).trans (State.accessed_useGrant _ _)).trans (State.accessed_performStrong _ _ _ _)

/-- R208: the state in which a weak store has entered the combining buffer, once what precedes it has been performed. -/
def State.weakStored (s : State) (va m : Nat) (cells : List Host.Cell) : State :=
  ((combReady s (m / 64)).entersComb (m / 64) cells s.th.fences).watchStore va m cells

theorem State.mem_weakStored (s : State) (va m : Nat) (cells : List Host.Cell) :
    (s.weakStored va m cells).mem = (combReady s (m / 64)).mem :=
  (State.watched_watchStore _ _ _ _).mem

theorem State.accessed_weakStored (s : State) (va m : Nat) (cells : List Host.Cell) : s.Accessed (s.weakStored va m cells) :=
  ((s.accessed_combReady _).trans (State.accessed_entersComb _ _ _ _)).trans (State.accessed_watchStore _ _ _ _)

/-- R208: what the core then reads of its buffer. -/
theorem State.combByte_weakStored (s : State) (va m : Nat) {cells : List Host.Cell} {x : Nat}
    (hcells : x / 64 ≠ m / 64 → cells.find? (fun c => c.1 == x) = none) :
    combByte ((s.weakStored va m cells).core (coreOf s.cur)).comb (x / 64) x =
      (cells.find? (fun c => c.1 == x)).or (combByte (s.core (coreOf s.cur)).comb (x / 64) x) := by
  have hcur := (s.accessed_combReady (m / 64)).cur_eq
  have henters := State.comb_entersComb (combReady s (m / 64)) (m / 64) cells s.th.fences
  rw [hcur] at henters
  unfold State.weakStored
  rw [(State.watched_watchStore _ _ _ _).core]
  dsimp only
  rw [henters, combByte_combined hcells, (s.keepsBuffers_combReady (m / 64)).comb]

end Sys2Proof.Machine

namespace Sys2Proof.Claims

open Sys2Proof.Machine

/-- R195: the address of a vector access is that of its base register. -/
theorem vecAddr_eq {i : VIn} {s : State} {a : BitVec 5} (hx : i.x = s.xr (xreg a)) {o : BitVec 5} :
    vecAddr i.x o = vecAddrOf s o a := by
  rw [hx]
  rfl

/-! ### Loads -/

/-- R195: the lanes of a load of 64 bytes. -/
theorem hasLanes_bytes {v : Nat} {elem : Nat → Nat} (h : ∀ j < 16, v / 2 ^ (32 * j) % 2 ^ 32 = elem j % 2 ^ 32) :
    HasLanes { lanes := lanes 32 (BitVec.ofNat 512 v) } 32 elem 0 := by
  refine ⟨⟨rfl, rfl, rfl, rfl⟩, rfl, lane 32 (BitVec.ofNat 512 v), rfl, fun j (hj : j < 16) => ?_⟩
  rw [← h j hj]
  unfold lane
  rw [bitsAt_ofNat v (by omega)]
  exact Nat.mod_mod _ _

/-- R195: the lanes of a load of a line that starts within it. -/
theorem hasLanes_line (data : BitVec 512) (m : Nat) :
    HasLanes { lanes := lanes 32 (BitVec.ofNat 512 (lineBytes data m 64)) } 32
      (fun j => data.toNat / 2 ^ (8 * (m % 64) + 32 * j)) 0 := by
  have hline : BitVec.ofNat 512 (lineBytes data m 64) = BitVec.ofNat 512 (data.toNat / 2 ^ (8 * (m % 64))) := by
    refine BitVec.eq_of_toNat_eq ?_
    rw [BitVec.toNat_ofNat, BitVec.toNat_ofNat]
    unfold lineBytes
    simp only [Nat.reduceMul, Nat.mod_mod]
  rw [hline]
  refine hasLanes_bytes fun j _ => ?_
  rw [Nat.div_div_eq_div_mul, ← Nat.pow_add]

section
variable {s s2 : State} {o a : BitVec 5} {e : TlbEntry} {k : Kind}
  (hres : (begunHeavy s [xreg a] []).resolve (vecAddrOf s o a) 64 k = .ok e s2)
include hres

theorem accessed_resolved : (begunHeavy s [xreg a] []).Accessed s2 := by
  obtain ⟨-, -, -, -, -, hs2⟩ := State.resolve_eq_ok hres
  rw [hs2]
  exact State.accessed_unwait _ _

/-- R130, R231: the reading of the stored register leaves how the address resolves. -/
theorem resolves_taken (d : BitVec 5) : ∃ t2,
    ((begunHeavy s [xreg a] []).takeV d).resolve (vecAddrOf s o a) 64 k = .ok e t2 ∧ s2.Retimed t2 ∧
      ((begunHeavy s [xreg a] []).takeV d).Accessed t2 := by
  obtain ⟨t2, hres', ht2⟩ := ((begunHeavy s [xreg a] []).retimed_takeV d).resolve hres
  obtain ⟨-, -, -, -, -, hunwait⟩ := State.resolve_eq_ok hres'
  exact ⟨t2, hres', ht2, by rw [hunwait]; exact State.accessed_unwait _ _⟩

theorem cur_resolved : s2.cur = s.cur := ((Use.took_start _ s).accessed.trans (accessed_resolved hres)).cur_eq

end

/-- R96, R195, R232 to R236: the access of a vector load of a line of which a usable copy is there. -/
theorem vecLoad_ok {s s2 : State} {o a : BitVec 5} {e : TlbEntry} {m : Nat} {c : L1Line} {strong : Bool} {i : VIn}
    (hm : s2.machineOf (e.sys (vecAddrOf s o a).toNat) = some m) (hup : s2.ownUpdate (m / 64) = false)
    (hx : i.x = s.xr (xreg a))
    (hres : (begunHeavy s [xreg a] []).resolve (vecAddrOf s o a) 64 (Kind.ofCode 0) = .ok e s2)
    (hc : (lineReady s2 (m / 64)).copyFor (coreOf s.cur) (s.cur % 16) (m / 64) s.th.pc = some c)
    (hu : (lineReady s2 (m / 64)).usable c strong = true) :
    let s4 := (lineReady s2 (m / 64)).readCopy (coreOf s.cur) (m / 64) s.th.ctx (vecAddrOf s o a).toNat
    ∃ u, vecLoad strong o i (begunHeavy s [xreg a] []) = .ok { lanes := lanes 32 (BitVec.ofNat 512
        (lineBytes ((s4.copyFor (coreOf s.cur) (s.cur % 16) (m / 64) s.th.pc).getD c).data m 64)) } u ∧
      (begunHeavy s [xreg a] []).Accessed u ∧ u.mem = s4.mem := by
  intro s4
  have hbegun := accessed_resolved hres
  have hacc : s.Accessed s2 := (Use.took_start _ s).accessed.trans hbegun
  have h4 : s2.Accessed s4 := (s2.accessed_drainOwn _).trans (State.accessed_readCopy _ _ _ _ _)
  rw [← hacc.cur_eq, ← hacc.pc_eq] at hc
  have hload := State.loadLocal_of (va := (vecAddrOf s o a).toNat) (n := 64) hup hc hu rfl rfl
  rw [hacc.cur_eq, hacc.pc_eq, hacc.ctx_eq] at hload
  let c4 := (s4.copyFor (coreOf s.cur) (s.cur % 16) (m / 64) s.th.pc).getD c
  refine ⟨s4.endLoad (vecAddrOf s o a).toNat m 64 c4 strong, ?_,
    (hbegun.trans h4).trans (s4.accessed_endLoad _ _ _ _ _), s4.mem_endLoad _ _ _ _ _⟩
  unfold vecLoad
  rw [vecAddr_eq hx, State.loadMem_of hres hm, hload]
  rfl

/-! ### Stores -/

/-- R185: the store of the enabled lanes of a register, as it would wait in the ring of a thread. -/
def vecLate (s : State) (d : BitVec 5) (strong : Bool) (va m : Nat) (quiet : Bool) : LateStore :=
  { dest := if strong then .strong else .weak, va := va, at_ := m, bytes := maskedBytes (enabledBy s) (s.vr d), quiet }

/-- R195: the cells that a vector store writes. -/
def vecCells (s : State) (d : BitVec 5) (m : Nat) : List Host.Cell := presentCells (maskedBytes (enabledBy s) (s.vr d)) m

theorem took_taken (s : State) (a d : BitVec 5) : s.Took ((begunHeavy s [xreg a] []).takeV d) :=
  (Use.took_start _ s).trans (State.took_takeV _ d)

theorem keepsStores_taken (s : State) (a d : BitVec 5) : s.KeepsStores ((begunHeavy s [xreg a] []).takeV d) :=
  (Use.onlyRegs_start _ s).keepsStores.trans (State.keepsStores_takeV _ d)

theorem storeEnd_of_enabled {s : State} (h : enabledBy s ≠ 0#16) (s1 s2 : State) :
    storeEnd s s1 s2 = if s.th.inFlight = true then s1 else s2 := by
  unfold storeEnd
  simp only [h, and_true, ne_eq, not_false_eq_true]

theorem storeEnd_of_masked {s : State} (h : enabledBy s = 0#16) (s1 s2 : State) : storeEnd s s1 s2 = s2 :=
  if_neg fun hen => hen.2 h

/-- What a core reads of an address is of its combining buffer and of memory. -/
theorem byteFor_congr {s t : State} {cid x : Nat} (hcomb : (t.core cid).comb = (s.core cid).comb)
    (hbyte : t.byte x = s.byte x) : byteFor t cid x = byteFor s cid x := by
  rw [byteFor_eq, byteFor_eq, hcomb, hbyte]

theorem read_vecCells (s : State) (d : BitVec 5) (m : Nat) (l : List Host.Cell) (y : Nat) :
    Memory.read (Memory.writeAll l (vecCells s d m)) y = lanesOver s d m y (Memory.read l y) :=
  (masks_maskedBytes _ _).read l m y

theorem latePuts_vecLate (s : State) (d : BitVec 5) (strong : Bool) (va m : Nat) (quiet : Bool) :
    latePuts (vecLate s d strong va m quiet) (lanesOver s d m) :=
  fun l y => read_vecCells s d m l y

section
variable {s s2 : State} {o a d : BitVec 5} {e : TlbEntry} {m : Nat} {i : VIn}
  (hx : i.x = s.xr (xreg a)) (hen : i.en = enabledBy s) (hsrc : i.src = [s.vr d])
  (hres : (begunHeavy s [xreg a] []).resolve (vecAddrOf s o a) 64 (Kind.ofCode 1) = .ok e s2)
  (hm : s2.machineOf (e.sys (vecAddrOf s o a).toNat) = some m) (hup : s2.ownUpdate (m / 64) = false)

/-- R195: a store with no enabled lane makes its checks. -/
theorem vecStore_masked (hx : i.x = s.xr (xreg a)) (hen : i.en = 0#16)
    (hres : (begunHeavy s [xreg a] []).resolve (vecAddrOf s o a) 64 (Kind.ofCode 1) = .ok e s2) (d : BitVec 5)
    (strong : Bool) : ∃ u, vecStore strong o i ((begunHeavy s [xreg a] []).takeV d) = .ok {} u ∧
      ((begunHeavy s [xreg a] []).takeV d).Accessed u ∧ u.mem = s2.mem := by
  obtain ⟨t2, hres', ht2, hacc⟩ := resolves_taken hres d
  refine ⟨t2, ?_, hacc, ht2.mem_eq⟩
  unfold vecStore
  rw [vecAddr_eq hx, hen]
  simp [hres', Acc.bind]

include hx hen hsrc hres hm hup

/-- R195, R232: the access of a strong vector store that has its grant. -/
theorem vecStore_strong (hlanes : enabledBy s ≠ 0#16)
    (hg : ∃ g ∈ (lineReady s2 (m / 64)).me.grants, g.1 = s.cur % 16 ∧ g.2.1 = m / 64) :
    ∃ u quiet, vecStore true o i ((begunHeavy s [xreg a] []).takeV d) =
        .ok { store := some (vecLate s d true (vecAddrOf s o a).toNat m quiet) } u ∧
      ((begunHeavy s [xreg a] []).takeV d).Accessed u ∧
      u.mem = Memory.writeAll (lineReady s2 (m / 64)).mem (vecCells s d m) := by
  obtain ⟨t2, hres', ht2, hacc⟩ := resolves_taken hres d
  have hm' : t2.machineOf (e.sys (vecAddrOf s o a).toNat) = some m := (ht2.machineOf_eq _).trans hm
  have hg' : ∃ g ∈ (t2.drainOwn (m / 64)).me.grants, g.1 = t2.cur % 16 ∧ g.2.1 = m / 64 := by
    rw [ht2.grants_drainOwn, ht2.cur_eq, cur_resolved hres]
    exact hg
  have hstore := State.storeStrong_bytes (bs := maskedBytes (enabledBy s) (s.vr d)) hres' hm'
    ((ht2.ownUpdate_eq _).trans hup) hg'
  refine ⟨_, ((begunHeavy s [xreg a] []).takeV d).th.broke, ?_,
    hacc.trans (t2.accessed_strongStore (vecAddrOf s o a).toNat m (vecCells s d m)), ?_⟩
  · unfold vecStore
    rw [vecAddr_eq hx, hen, hsrc]
    simp only [hlanes, if_false, if_true, List.headD_cons, hstore, Acc.bind, State.lateMem_of hres' hm']
    simp [vecLate, vecCells]
  · rw [State.mem_strongStore, ht2.mem_drainOwn]
    rfl

/-- R195, R208: the access of a weak vector store that finds room in the combining buffer. -/
theorem vecStore_weak (hlanes : enabledBy s ≠ 0#16) (hline : m % 64 = 0)
    (hroom : (∃ x ∈ (combReady s2 (m / 64)).me.comb, x.line = m / 64) ∨ (combReady s2 (m / 64)).me.comb.length < 16) :
    ∃ u quiet, vecStore false o i ((begunHeavy s [xreg a] []).takeV d) =
        .ok { store := some (vecLate s d false (vecAddrOf s o a).toNat m quiet) } u ∧
      ((begunHeavy s [xreg a] []).takeV d).Accessed u ∧ u.mem = (combReady s2 (m / 64)).mem ∧
      ∀ x, byteFor u (coreOf s.cur) x = lanesOver s d m x (byteFor (combReady s2 (m / 64)) (coreOf s.cur) x) := by
  obtain ⟨t2, hres', ht2, hacc⟩ := resolves_taken hres d
  have hm' : t2.machineOf (e.sys (vecAddrOf s o a).toNat) = some m := (ht2.machineOf_eq _).trans hm
  rw [← ht2.comb_combReady] at hroom
  have hstore := (State.storeWeak_bytes (bs := maskedBytes (enabledBy s) (s.vr d)) hres' hm'
    ((ht2.ownUpdate_eq _).trans hup)).trans (State.combine_of hroom)
  have hmem : (t2.weakStored (vecAddrOf s o a).toNat m (vecCells s d m)).mem = (combReady s2 (m / 64)).mem := by
    rw [State.mem_weakStored, ht2.mem_combReady]
  refine ⟨_, ((begunHeavy s [xreg a] []).takeV d).th.broke, ?_,
    hacc.trans (t2.accessed_weakStored (vecAddrOf s o a).toNat m (vecCells s d m)), hmem, fun x => ?_⟩
  · unfold vecStore
    rw [vecAddr_eq hx, hen, hsrc]
    simp only [hlanes, if_false, List.headD_cons, hstore, Acc.bind, State.lateMem_of hres' hm']
    simp [vecLate, vecCells, State.weakStored]
  · have hcur : t2.cur = s.cur := ht2.cur_eq.trans (cur_resolved hres)
    have hfind := (masks_maskedBytes (enabledBy s) (s.vr d)).find? m x
    have hcomb := t2.combByte_weakStored (vecAddrOf s o a).toNat m (cells := vecCells s d m) (x := x)
      (fun hne => hfind.trans (if_neg (by omega)))
    rw [hcur] at hcomb
    rw [byteFor_eq, byteFor_eq, hcomb, (s2.keepsBuffers_combReady _).comb, ht2.core_eq]
    unfold State.byte lanesOver
    rw [hmem, show (vecCells s d m).find? _ = _ from hfind]
    split <;> rfl

end

end Sys2Proof.Claims

open Sys2Proof Sys2Proof.Machine Sys2Proof.Claims

/-- Settles O25: a vector access whose address resolves ends as `vecLoad_ok`, `vecStore_strong`, `vecStore_weak` or
`vecStore_masked` says, and what its issue leaves are `run_loadOp` and `run_storeOp`. -/
theorem vecMemComplete : Obligations.VecMemComplete := by
  unfold Obligations.VecMemComplete
  intro p h o a d s s2 e m hm hup
  refine ⟨?load, fun hready hres => ?store⟩
  case load =>
    intro c strong s3 s4 data v hready hlate hres hc hu
    obtain ⟨u, hf, hacc, hmem⟩ := vecLoad_ok (i := (loadOp 0 p h 0 a d).input s) hm hup rfl hres hc hu
    obtain ⟨t, hexec, hloads, hbyte, -⟩ := run_loadOp (word := vw (if strong then 0 else 1) p h o a d 19) (pol := p)
      (f := vecLoad strong o) hready hlate hf hacc (hasLanes_line _ m)
    refine ⟨t, ?_, hloads, fun x => (hbyte x).trans (congrArg (Memory.read · x) hmem)⟩
    rw [← hexec]
    cases strong <;> rfl
  case store =>
    intro late
    have htaken := took_taken s a d
    refine ⟨?strong, ?weak, ?masked⟩
    case strong =>
      intro hen s3 hg
      obtain ⟨u, quiet, hf, hacc, hmem⟩ := vecStore_strong (i := (storeOp (vw 2 p h o a d 19) p h a d).input s) rfl rfl rfl
        hres hm hup hen hg
      obtain ⟨t, hexec, hstores, -, hbyte, -, -⟩ := run_storeOp (late := late true) hready hf hacc rfl rfl
        (by rw [if_neg hen]; exact ⟨_, rfl, rfl, rfl, rfl, latePuts_vecLate _ _ _ _ _ _⟩)
      refine ⟨t, hexec, hstores, fun x => ?_⟩
      rw [hbyte, storeEnd_of_enabled hen, apply_ite (State.byte · x), htaken.byte]
      exact congrArg (ite _ _) ((congrArg (Memory.read · x) hmem).trans (read_vecCells s d m _ x))
    case weak =>
      intro hen hline s3 hroom
      obtain ⟨u, quiet, hf, hacc, hmem, hread⟩ := vecStore_weak (i := (storeOp (vw 3 p h o a d 19) p h a d).input s) rfl rfl
        rfl hres hm hup hen hline hroom
      obtain ⟨t, hexec, hstores, -, hbyte, hcomb, -⟩ := run_storeOp (late := late false) hready hf hacc rfl rfl
        (by rw [if_neg hen]; exact ⟨_, rfl, rfl, rfl, rfl, latePuts_vecLate _ _ _ _ _ _⟩)
      rw [storeEnd_of_enabled hen] at hbyte hcomb
      refine ⟨t, hexec, hstores, fun x => ?_, fun x => ?_⟩
      · rw [hbyte, apply_ite (State.byte · x), htaken.byte]
        exact congrArg (ite _ _) (congrArg (Memory.read · x) hmem)
      · rw [byteFor_congr (hcomb _) (hbyte x), apply_ite (byteFor · _ x), hread]
        exact congrArg (ite _ · _) (byteFor_congr ((keepsStores_taken s a d).buffers.comb _) (htaken.byte x))
    case masked =>
      intro hen strong
      obtain ⟨u, hf, hacc, hmem⟩ := vecStore_masked (i := (storeOp (vw (if strong then 2 else 3) p h o a d 19) p h a d).input s)
        rfl hen hres d strong
      obtain ⟨t, hexec, hstores, -, hbyte, -, -⟩ := run_storeOp (late := fun _ => False) hready hf hacc rfl rfl
        (if_pos hen ▸ rfl)
      refine ⟨t, ?_, hstores, fun x => (hbyte x).trans ?_⟩
      · rw [← hexec]
        cases strong <;> rfl
      · rw [storeEnd_of_masked hen]
        obtain ⟨-, -, -, -, -, hs2⟩ := State.resolve_eq_ok hres
        rw [State.byte, hmem, hs2, State.unwait_eq]
        exact (Use.took_start _ s).byte x

end

section
/-! SUPPORT. The accesses of the scratchpad by vector instructions (R185, R195, R196, R217, R221, R222, R231, R252):
what they read and write, and what they leave. -/

namespace Sys2Proof.Machine

open Sys2Proof.Claims

/-! ### Reads -/

theorem State.accessed_readUnits (s : State) (l : List EccAt) (a addr : Nat) (eng : Bool) :
    s.Accessed (s.readUnits l a addr eng) := by
  unfold State.readUnits
  split
  · exact .refl s
  · exact (State.keepsThreads_foldl (fun s u => s.keepsThreads_readUnit u a addr eng _) l s).accessed
      (State.keepsBuffers_foldl (fun s u => s.keepsBuffers_readUnit u a addr eng _) l s)

theorem cur_bankRead (vm : Bool) (o n : Nat) (s : State) : (bankRead vm o n s).cur = s.cur :=
  (s.accessed_readUnits _ _ _ _).cur_eq

/-- R231, R240: what a strong read of a bank takes is of the reader's logical time and of the releases it acquires. -/
theorem State.onlyRegs_joinBank (s : State) (times : Tab Nat) (rels : Tab (List Rel)) (gs : List Nat) :
    s.OnlyRegs (s.joinBank times rels gs) [] [] :=
  (s.onlyRegs_strongRead _).trans (State.onlyRegs_acquire _ _)

theorem State.took_joinBank (s : State) (times : Tab Nat) (rels : Tab (List Rel)) (gs : List Nat) :
    s.Took (s.joinBank times rels gs) :=
  (State.took_of_onlyRegs (s.onlyRegs_strongRead _) (s.readsOnly_strongRead _)).trans
    (State.took_of_onlyRegs (State.onlyRegs_acquire _ _) (State.readsOnly_acquire _ _))

/-- R252: what a load of the scratchpad leaves. -/
structure State.LoadedSp (s : State) (o n : Nat) (r : Nat × State) : Prop where
  value : r.1 = Memory.nat (bankRead false o n s).mine.scratch o n
  mem : r.2.mem = (bankRead false o n s).mem
  scratch : r.2.mine.scratch = (bankRead false o n s).mine.scratch
  accessed : s.Accessed r.2

theorem State.loadedSp_spLoad (s : State) (o n : Nat) : s.LoadedSp o n (s.spLoad (clusterOf s.cur) o n) := by
  have hcur := cur_bankRead false o n s
  have hread : s.Accessed (bankRead false o n s) := s.accessed_readUnits _ _ _ _
  unfold State.spLoad
  extract_lets gs s1 t
  have hs1 : s1 = bankRead false o n s := rfl
  rw [← hs1] at hcur hread
  have hjoin : s1.OnlyRegs t [] [] := s1.onlyRegs_joinBank _ _ _
  have htook : s1.Took t := s1.took_joinBank _ _ _
  let mark (c : Cluster) : Cluster := { c with gread := readAt c.gread gs t.th.clock }
  have hmark : t.KeepsThreads (t.modCluster (clusterOf s.cur) mark) := t.keepsThreads_modCluster _ _
  have hscratch : t.KeepsScratch (t.modCluster (clusterOf s.cur) mark) := t.keepsScratch_modCluster _ fun _ => rfl
  refine ⟨?_, ?_, ?_, ?_⟩
  · show Memory.nat (s1.cluster (clusterOf s.cur)).scratch o n = Memory.nat (s1.cluster (clusterOf s1.cur)).scratch o n
    rw [hcur]
  · exact (congrArg State.mem hjoin.device).trans rfl
  · exact (hjoin.keepsScratch.trans hscratch).mine (hmark.cur.trans hjoin.cur_eq)
  · exact (hread.trans htook.accessed).trans (hmark.accessed (State.keepsBuffers_of_eq rfl rfl))

theorem State.accessed_readScale (s : State) (w : Option Win) (o : Nat) : s.Accessed (s.readScale w o).2 := by
  unfold State.readScale
  split
  · split
    · exact (s.loadedSp_spLoad _ _).accessed
    · exact .refl s
  · exact .refl s

/-! ### Reads do not depend on the logical time -/

theorem State.zeroUnit_slots (s : State) (l : Tab Slot) (u : EccAt) :
    ({ s with slots := l } : State).zeroUnit u = { s.zeroUnit u with slots := l } := by
  unfold State.zeroUnit
  cases u with
  | hbm | l2 => with_reducible rfl
  | vm | sp | tile => dsimp only [State.modCluster]
  | l1 => dsimp only [State.modCore]

theorem State.corrected_slots (s : State) (l : Tab Slot) (u : EccAt) :
    ({ s with slots := l } : State).corrected u = { s.corrected u with slots := l } := by
  cases u <;> rfl

theorem State.owe_slots (s : State) (l : Tab Slot) (j : Job) :
    ({ s with slots := l } : State).owe j = { s.owe j with slots := l } := by
  unfold State.owe
  dsimp only
  split <;> rfl

theorem State.readUnit_slots (s : State) (l : Tab Slot) (u : EccAt) (a addr : Nat) (eng ma : Bool) :
    ({ s with slots := l } : State).readUnit u a addr eng ma = { s.readUnit u a addr eng ma with slots := l } := by
  unfold State.readUnit
  dsimp only
  cases s.ecc.find? (fun e => e.1 == u) with
  | none => rfl
  | some e =>
    let s1 : State := { s with ecc := s.ecc.filter (fun e => e.1 != u) }
    dsimp only
    cases e.2 with
    | false => exact s1.corrected_slots l u
    | true => exact (congrArg (State.owe · _) (s1.zeroUnit_slots l u)).trans (State.owe_slots _ _ _)

section
variable {s t : State} (h : s.Retimed t)
include h

theorem State.Retimed.readUnit (u : EccAt) (a addr : Nat) (eng ma : Bool) :
    (s.readUnit u a addr eng ma).Retimed (t.readUnit u a addr eng ma) where
  device := by
    have hslots : t.readUnit u a addr eng ma = { s.readUnit u a addr eng ma with slots := t.slots } := by
      conv_lhs => rw [h.device]
      exact s.readUnit_slots t.slots u a addr eng ma
    rw [hslots]
  thread := by
    rw [(t.keepsThreads_readUnit u a addr eng ma).th_eq, (s.keepsThreads_readUnit u a addr eng ma).th_eq]
    exact h.thread

theorem State.Retimed.readUnits (l : List EccAt) (a addr : Nat) (eng : Bool) :
    (s.readUnits l a addr eng).Retimed (t.readUnits l a addr eng) := by
  have hecc : t.ecc = s.ecc := by rw [h.device]
  unfold State.readUnits
  rw [hecc]
  clear hecc
  split
  · exact h
  · next hne =>
    clear hne
    induction l generalizing s t with
    | nil => exact h
    | cons u l ih => exact ih (h.readUnit u a addr eng _)

theorem State.Retimed.bankRead (vm : Bool) (o n : Nat) : (bankRead vm o n s).Retimed (bankRead vm o n t) := by
  unfold Claims.bankRead
  rw [h.cur_eq, h.ctx_eq]
  exact h.readUnits _ _ _ _

/-- R222: the scale of a block, and what its reading leaves, whatever the logical time is. -/
theorem State.Retimed.readScale (w : Option Win) (o : Nat) : (t.readScale w o).1 = (s.readScale w o).1 ∧
    (t.readScale w o).2.mem = (s.readScale w o).2.mem ∧
    (t.readScale w o).2.mine.scratch = (s.readScale w o).2.mine.scratch := by
  unfold State.readScale
  split
  · next w =>
    split
    · have hbank := h.bankRead false (w.scaleAt o) 1
      have hs := s.loadedSp_spLoad (w.scaleAt o) 1
      have ht := t.loadedSp_spLoad (w.scaleAt o) 1
      rw [ht.value, ht.mem, ht.scratch, hs.value, hs.mem, hs.scratch, hbank.mine_eq, hbank.mem_eq]
      exact ⟨rfl, rfl, rfl⟩
    · exact ⟨rfl, h.mem_eq, congrArg Cluster.scratch h.mine_eq⟩
  · exact ⟨rfl, h.mem_eq, congrArg Cluster.scratch h.mine_eq⟩

theorem State.Retimed.winAt_eq (a : Word) : t.winAt a = s.winAt a := by
  unfold State.winAt
  rw [h.mine_eq, show t.cycle = s.cycle by rw [h.device]]

end

theorem State.OnlyRegs.winAt_eq {s t : State} {rs ds : List (BitVec 6)} (h : s.OnlyRegs t rs ds) (a : Word) :
    t.winAt a = s.winAt a := by
  have hmine : t.mine = s.mine := by
    show t.cluster (clusterOf t.cur) = _
    rw [h.cur_eq, h.cluster_eq]
    rfl
  unfold State.winAt
  rw [hmine, show t.cycle = s.cycle by rw [h.device]]

/-! ### Stores -/

/-- R232, R252: what a store to the scratchpad leaves. -/
theorem State.accessed_spStore (s : State) (cl o n : Nat) (cells : List Host.Cell) : s.Accessed (s.spStore cl o n cells) := by
  unfold State.spStore State.spPut
  extract_lets gs rels t s1
  have h1 : s.Accessed s1 := ((s.keepsThreads_clearEcc _).trans (State.keepsThreads_modCluster _ _ _)).accessed
    ((s.keepsBuffers_clearEcc _).trans (State.keepsBuffers_of_eq rfl rfl))
  exact h1.trans (s1.accessed_modTh rfl)

theorem State.mem_spStore (s : State) (cl o n : Nat) (cells : List Host.Cell) : (s.spStore cl o n cells).mem = s.mem :=
  s.mem_clearEcc _

theorem State.scratch_spStore (s : State) (o n : Nat) (cells : List Host.Cell) :
    (s.spStore (clusterOf s.cur) o n cells).mine.scratch = Memory.writeAll s.mine.scratch cells := by
  have hcur := (s.accessed_spStore (clusterOf s.cur) o n cells).cur_eq
  have hwritten : ((s.spStore (clusterOf s.cur) o n cells).cluster (clusterOf s.cur)).scratch =
      Memory.writeAll ((s.clearEcc ((granules o n).map (.sp (clusterOf s.cur)))).cluster (clusterOf s.cur)).scratch cells := by
    unfold State.spStore State.spPut
    extract_lets gs rels t s1
    refine (State.keepsScratch_of_eq (s := s1) rfl _).trans ?_
    simp only [s1]
    rw [State.cluster_modCluster, if_pos rfl]
  show ((s.spStore (clusterOf s.cur) o n cells).cluster (clusterOf (s.spStore (clusterOf s.cur) o n cells).cur)).scratch = _
  rw [hcur, hwritten]
  exact congrArg (Memory.writeAll · cells) (State.keepsScratch_of_eq (s.clusters_clearEcc _) _)

/-! ### Elements -/

theorem Masks.congr {bs : List (Option Byte)} {en : BitVec 16} {es n : Nat} {g g' : Nat → Byte} (h : Masks bs en es n g)
    (hg : ∀ k < n, g k = g' k) : Masks bs en es n g' := by
  intro k
  rw [h k]
  by_cases hk : k < n
  · rw [hg k hk]
  · simp [hk]

/-- A store of which every lane is disabled writes no byte. -/
theorem maskedOver_masked (es n : Nat) (g : Nat → Byte) (a y : Nat) (old : Byte) : maskedOver 0#16 es n g a y old = old :=
  if_neg fun h => by simp at h

/-- Where no lane is enabled, a byte stays whether or not the store waits. -/
theorem ite_maskedOver (c : Prop) [Decidable c] (en : BitVec 16) (es n : Nat) (g : Nat → Byte) (a y : Nat) (old : Byte) :
    (if c ∧ en ≠ 0#16 then old else maskedOver en es n g a y old) = if c then old else maskedOver en es n g a y old := by
  by_cases hen : en = 0#16
  · rw [hen, maskedOver_masked, ite_self, ite_self]
  · simp only [ne_eq, hen, not_false_eq_true, and_true]

/-- A byte of a lane is the byte of its register. -/
theorem byteOf_lane (v : VWord) (k : Nat) : byteOf (lane 32 v (k / 4)) (k % 4) = byteOf v.toNat k := by
  have hr : k % 4 < 4 := Nat.mod_lt _ (by decide)
  have hlane : (2 : Nat) ^ 32 = 256 ^ (k % 4) * 2 ^ (32 - 8 * (k % 4)) := by
    rw [show 256 = 2 ^ 8 from rfl, ← Nat.pow_mul, ← Nat.pow_add, Nat.add_sub_cancel' (by omega)]
  have hbyte : (2 : Nat) ^ (32 * (k / 4)) * 256 ^ (k % 4) = 256 ^ k := by
    rw [show 256 = 2 ^ 8 from rfl, ← Nat.pow_mul, ← Nat.pow_add, ← Nat.pow_mul]
    congr 1
    omega
  unfold byteOf lane bitsAt
  rw [hlane, Nat.mod_mul_right_div_self, Nat.div_div_eq_div_mul, hbyte]
  refine BitVec.eq_of_toNat_eq ?_
  rw [BitVec.toNat_ofNat, BitVec.toNat_ofNat, Nat.mod_mod_of_dvd _ (Nat.pow_dvd_pow 2 (by omega))]

theorem getD_map_upTo (f : Nat → Nat) {n j : Nat} (hj : j < n) : ((upTo n).map f).getD j 0 = f j := by
  unfold upTo
  simp [hj]

/-- R195: the bytes of the lanes of a register. -/
theorem masks_lanes (en : BitVec 16) (v : VWord) : Masks (elemBytes en 4 (lanes 32 v)) en 4 64 (byteOf v.toNat) := by
  refine (masks_elemBytes en (by decide) (by simp [lanes])).congr fun k hk => ?_
  rw [show lanes 32 v = (upTo 16).map (lane 32 v) from rfl, getD_map_upTo _ (by omega)]
  exact byteOf_lane v k

end Sys2Proof.Machine

namespace Sys2Proof.Claims

open Sys2Proof.Machine

/-! ### Formats of a window -/

/-- R196, R222: an element of a window of a format, decoded under a scale. -/
def winDecode (fmt sc v : Nat) : Nat :=
  match fmt with
  | 1 => (scaledMk8 v sc).into fp32 .rne
  | 2 => ofSval 32 (sval 8 v)
  | 3 => bfToFp v
  | _ => v

/-- R196: a lane encoded for a window of a format under a scale, and whether it saturates. -/
def winEncode (env : FpEnv) (fmt sc v : Nat) : FOut × Bool :=
  match fmt with
  | 1 => mk8Store env sc v
  | 2 => let r := satLane 8 v; (⟨r.1, none⟩, r.2)
  | 3 => (fpToBf env v, false)
  | _ => (⟨v, none⟩, false)

/-- A lane saturated to 8 bits. -/
theorem fst_satLane_byte (x : BitVec 32) :
    (satLane 8 x.toNat).1 = (BitVec.ofInt 8 (max (-128) (min 127 x.toInt))).toNat := by
  unfold satLane
  simp only [sval_eq_toInt, ofSval_eq]
  generalize x.toInt = v
  show (if v > 127 then ((BitVec.ofInt 8 127).toNat, true)
    else if v < -128 then ((BitVec.ofInt 8 (-128)).toNat, true) else ((BitVec.ofInt 8 v).toNat, false)).1 = _
  split
  · rw [min_eq_left (by omega)]; rfl
  · rw [min_eq_right (by omega)]
    split
    · rw [max_eq_left (by omega)]
    · rw [max_eq_right (by omega)]

theorem winEncode_eq (env : FpEnv) (fmt sc : Nat) (x : BitVec 32) :
    (winEncode env fmt sc x.toNat).1 = winCode env fmt sc x.toNat := by
  unfold winEncode winCode
  split
  · rfl
  · simp only [Nat.reduceEqDiff, if_false, if_true, fst_satLane_byte, BitVec.ofNat_toNat, BitVec.setWidth_eq]
  · rfl
  · next h1 h2 h3 => rw [if_neg h1, if_neg h2, if_neg h3]

/-- R196: the lanes of a load of a window. -/
theorem winDecode_eq (fmt sc v j : Nat) : winDecode fmt sc (bitsAt v (8 * (winBytes fmt / 16) * j) (8 * (winBytes fmt / 16))) =
    winLane fmt sc v j := by
  unfold winDecode winLane
  split
  · rfl
  · have hbyte : bitsAt v (8 * j) 8 = (BitVec.ofNat 8 (v / 2 ^ (8 * j))).toNat := (BitVec.toNat_ofNat _ _).symm
    exact (congrArg (fun b => ofSval 32 (sval 8 b)) hbyte).trans (ofSval_sval _)
  · rfl
  · next h1 h2 h3 =>
    rw [if_neg h1, if_neg h2, if_neg h3]
    unfold winBytes
    split
    · exact absurd rfl h1
    · exact absurd rfl h2
    · exact absurd rfl h3
    · rfl

theorem winBytes_eq (fmt : Nat) : winBytes fmt = winBytes fmt / 16 * 16 ∧ 0 < winBytes fmt / 16 := by
  unfold winBytes
  split <;> decide

theorem lanes_map {α : Type} (v : VWord) (f : Nat → α) : (lanes 32 v).map f = (upTo 16).map (fun j => f (lane 32 v j)) :=
  List.map_map

/-! ### The accesses -/

section
variable {s : State} {o a : BitVec 5} {i : VIn} (hx : i.x = s.xr (xreg a))

/-- R195: the range checks of a scratchpad form. -/
theorem spRange_ok {α : Type} {va : Word} {n align : Nat} (h : va.toNat + n ≤ 819200) (halign : va.toNat % align = 0)
    (f : Unit → Acc α) : spRange va n align f = f () := by
  unfold spRange
  rw [if_neg (show ¬ va.toNat + n > spLimit from Nat.not_lt.2 h), if_neg (fun hne => hne halign)]

include hx

/-- R195, R252: the access of a raw load. -/
theorem vecLoadSp_ok (hrange : (vecAddrOf s o a).toNat + 64 ≤ 819200) (halign : (vecAddrOf s o a).toNat % 16 = 0) (b : State) :
    vecLoadSp o i b = .ok { lanes := lanes 32 (BitVec.ofNat 512 (b.spLoad (clusterOf b.cur) (vecAddrOf s o a).toNat 64).1) }
      (b.spLoad (clusterOf b.cur) (vecAddrOf s o a).toNat 64).2 := by
  unfold vecLoadSp
  rw [vecAddr_eq hx]
  exact spRange_ok hrange halign _

/-- R196, R222: the access of a load through a window. -/
theorem vecLoadWin_ok {w : Nat × Option Win} {b : State} {v : Nat} {q : Nat × State} (hwin : w = b.winAt (vecAddrOf s o a))
    (hrange : (vecAddrOf s o a).toNat + winBytes w.1 ≤ 819200) (halign : (vecAddrOf s o a).toNat % winBytes w.1 = 0)
    (hv : (b.spLoad (clusterOf b.cur) (vecAddrOf s o a).toNat (winBytes w.1)).1 = v)
    (hq : (b.spLoad (clusterOf b.cur) (vecAddrOf s o a).toNat (winBytes w.1)).2.readScale w.2 (vecAddrOf s o a).toNat = q) :
    vecLoadWin o i b = .ok { lanes := (upTo 16).map (fun j => winDecode w.1 q.1
      (bitsAt v (8 * (winBytes w.1 / 16) * j) (8 * (winBytes w.1 / 16)))) } q.2 := by
  subst hwin hv hq
  unfold vecLoadWin
  rw [vecAddr_eq hx]
  exact spRange_ok hrange halign _

/-- R195: the access of a raw store. -/
theorem vecStoreSp_ok (hrange : (vecAddrOf s o a).toNat + 64 ≤ 819200) (halign : (vecAddrOf s o a).toNat % 16 = 0) {v : VWord}
    (hsrc : i.src = [v]) (b : State) :
    vecStoreSp o i b = b.storeElems i (vecAddrOf s o a).toNat 4 (lanes 32 v) {} := by
  unfold vecStoreSp
  rw [vecAddr_eq hx, hsrc]
  exact spRange_ok hrange halign _

/-- R196: the access of a store through a window of whose lanes none stops. -/
theorem vecStoreWin_ok {w : Nat × Option Win} {b u : State} {d : BitVec 5} {sc : Nat}
    (hwin : w = b.winAt (vecAddrOf s o a))
    (hrange : (vecAddrOf s o a).toNat + winBytes w.1 ≤ 819200) (halign : (vecAddrOf s o a).toNat % winBytes w.1 = 0)
    (hsrc : i.src = [s.vr d])
    (hscale : (if i.en = 0#16 then (127, b) else b.readScale w.2 (vecAddrOf s o a).toNat) = (sc, u))
    (hstop : ∀ j < 16, i.en.getLsbD j = true → (winCode i.env w.1 sc (la s 32 d j).toNat).stop = none) :
    ∃ sat, vecStoreWin o i b = u.storeElems i (vecAddrOf s o a).toNat (winBytes w.1 / 16)
      ((upTo 16).map fun j => (winCode i.env w.1 sc (la s 32 d j).toNat).res) { qsat := sat } := by
  subst hwin
  let outs := (lanes 32 (i.src.headD 0#512)).map (winEncode i.env (b.winAt (vecAddrOf s o a)).1 sc)
  have houts : ∀ {α : Type} (f : FOut → α), outs.map (fun p => f p.1) =
      (upTo 16).map fun j => f (winCode i.env (b.winAt (vecAddrOf s o a)).1 sc (la s 32 d j).toNat) := fun f => by
    simp only [outs, hsrc, List.headD_cons, lanes_map, List.map_map, Function.comp_def, lane_eq_la, winEncode_eq]
  have hfault : laneFault 32 i.en (fun _ _ => 0) (outs.map (·.1)) = none := by
    rw [houts fun x => x]
    refine laneFault_none fun j hj hen => hstop j hj ?_
    rwa [Nat.mul_div_cancel j (by decide)] at hen
  refine ⟨(outs.zipIdx.filter (fun p => i.en.getLsbD p.2 && p.1.2)).length, ?_⟩
  unfold vecStoreWin
  rw [vecAddr_eq hx, ← houts FOut.res]
  refine (spRange_ok hrange halign _).trans ?_
  dsimp only
  rw [hscale]
  show (match laneFault 32 i.en (fun _ _ => 0) (outs.map (·.1)) with
    | some (c, v) => Acc.trap c (v &&& 0xFFFFFFFF#64)
    | none => _) = _
  rw [hfault]
  rfl

end

/-! ### Stores -/

/-- R185: the store of elements, as it would wait in the ring of a thread. -/
def spLate (s : State) (x es : Nat) (l : List Nat) : LateStore :=
  { dest := .sp, at_ := x, bytes := elemBytes (enabledBy s) es l }

/-- R185, R195, R196: what a vector store to the scratchpad leaves whose access ends with the store of its elements. -/
theorem run_storeElems {s u : State} {word : Nat} {pol : Policy} {hold : BitVec 2} {a d : BitVec 5}
    {f : VIn → State → Acc VOut} {x es n sat : Nat} {l : List Nat} {g : Nat → Byte} (hready : storeReady s a d)
    (hf : f ((storeOp word pol hold a d).input s) ((begunHeavy s [xreg a] []).takeV d) =
      u.storeElems ((storeOp word pol hold a d).input s) x es l { qsat := sat })
    (hu : ((begunHeavy s [xreg a] []).takeV d).Accessed u) (hmasks : Masks (elemBytes (enabledBy s) es l) (enabledBy s) es n g) :
    ∃ t, (storeOp word pol hold a d).run s f = .next t ∧
      stores s t hold (fun q => q.dest = .sp ∧ q.at_ = x ∧ latePuts q (maskedOver (enabledBy s) es n g x)) ∧
      ∀ y, if s.th.inFlight ∧ enabledBy s ≠ 0#16 then
          t.byte y = s.byte y ∧ Memory.read t.mine.scratch y = Memory.read s.mine.scratch y
        else t.byte y = u.byte y ∧
          Memory.read t.mine.scratch y = maskedOver (enabledBy s) es n g x y (Memory.read u.mine.scratch y) := by
  have htaken := took_taken s a d
  have hkept := keepsStores_taken s a d
  have hlate : latePuts (spLate s x es l) (maskedOver (enabledBy s) es n g x) := fun m y => hmasks.read m x y
  by_cases hen : enabledBy s = 0#16
  case pos =>
    obtain ⟨t, hrun, hstores, hcur, hbyte, -, hscratch⟩ := run_storeOp (late := fun q => q.dest = .sp ∧ q.at_ = x ∧
      latePuts q (maskedOver (enabledBy s) es n g x)) hready (hf.trans (if_pos hen)) hu rfl rfl (if_pos hen ▸ rfl)
    rw [storeEnd_of_masked hen] at hbyte hscratch
    refine ⟨t, hrun, hstores, fun y => ?_⟩
    have hmine := hscratch.mine (hcur.trans (htaken.accessed.trans hu).cur_eq.symm)
    rw [if_neg fun h => h.2 hen, hmine, hen, maskedOver_masked]
    exact ⟨hbyte y, rfl⟩
  case neg =>
    let u' : State := u.spStore (clusterOf u.cur) x (16 * es) (presentCells (elemBytes (enabledBy s) es l) x)
    have hu' : ((begunHeavy s [xreg a] []).takeV d).Accessed u' := hu.trans (u.accessed_spStore _ _ _ _)
    obtain ⟨t, hrun, hstores, hcur, hbyte, -, hscratch⟩ := run_storeOp (late := fun q => q.dest = .sp ∧ q.at_ = x ∧
      latePuts q (maskedOver (enabledBy s) es n g x)) (s2 := u')
      (out := { qsat := sat, store := some (spLate s x es l) }) hready (hf.trans (if_neg hen)) hu' rfl rfl
      (by rw [if_neg hen]; exact ⟨_, rfl, rfl, rfl, hlate⟩)
    rw [storeEnd_of_enabled hen] at hbyte hscratch
    refine ⟨t, hrun, hstores, fun y => ?_⟩
    simp only [ne_eq, hen, not_false_eq_true, and_true]
    split at hbyte <;> rename_i hwaits
    · rw [if_pos hwaits] at hscratch ⊢
      rw [hscratch.mine (hcur.trans htaken.accessed.cur_eq.symm), hkept.scratch.mine htaken.accessed.cur_eq]
      exact ⟨(hbyte y).trans (htaken.byte y), rfl⟩
    · rw [if_neg hwaits] at hscratch ⊢
      rw [hscratch.mine (hcur.trans (htaken.accessed.trans hu').cur_eq.symm), State.scratch_spStore, hmasks.read]
      exact ⟨(hbyte y).trans (congrArg (Memory.read · y) (u.mem_spStore _ _ _ _)), rfl⟩

end Sys2Proof.Claims

open Sys2Proof Sys2Proof.Machine Sys2Proof.Claims

/-- Settles O26: a load reads the bank as `State.loadedSp_spLoad` says and its lanes are those of `winDecode_eq`; a store is
the store of its elements (`vecStoreSp_ok`, `vecStoreWin_ok`), and what that leaves is `run_storeElems`. -/
theorem vecScratchpadComplete : Obligations.VecScratchpadComplete := by
  unfold Obligations.VecScratchpadComplete
  intro p h o a d s x w n b ld
  have hbcur : b.cur = s.cur := (Use.took_start _ s).keeps.cur
  have hbwin : b.winAt (vecAddrOf s o a) = w := (Use.onlyRegs_start _ s).winAt_eq _
  refine ⟨fun hready hlate => ⟨?rawLoad, ?winLoad⟩, fun hready => ?store⟩
  case rawLoad =>
    intro hrange halign q
    have hload := b.loadedSp_spLoad x 64
    obtain ⟨t, hexec, hloads, hbyte, hscratch⟩ := run_loadOp (word := vw 4 p h o a d 19) (pol := p) (f := vecLoadSp o)
      (elem := fun j => Memory.nat q.mine.scratch x 64 / 2 ^ (32 * j)) hready hlate (vecLoadSp_ok rfl hrange halign b)
      hload.accessed (hload.value ▸ hasLanes_bytes fun _ _ => rfl)
    exact ⟨t, hexec, hloads, hscratch.trans hload.scratch, fun y => (hbyte y).trans (congrArg (Memory.read · y) hload.mem)⟩
  case winLoad =>
    intro hrange halign v q
    have hload := b.loadedSp_spLoad x n
    have haccess := vecLoadWin_ok (i := (loadOp (vw 6 p h o a d 19) p h 1 a d).input s) (q := q) rfl hbwin.symm hrange halign
      hload.value (by rw [hbcur])
    rw [hbcur] at hload
    have hacc : b.Accessed q.2 := hload.accessed.trans (State.accessed_readScale _ _ _)
    obtain ⟨t, hexec, hloads, hbyte, hscratch⟩ := run_loadOp (f := vecLoadWin o) (elem := winLane w.1 q.1 v)
      hready hlate haccess hacc (hasLanes_words fun j _ => congrArg (· % 2 ^ 32) (winDecode_eq _ _ _ j))
    exact ⟨t, hexec, hloads, hscratch, hbyte⟩
  case store =>
    intro late
    have htaken := took_taken s a d
    have hkept := keepsStores_taken s a d
    have hretimed : b.Retimed (b.takeV d) := b.retimed_takeV d
    refine ⟨?raw, ?win⟩
    case raw =>
      intro hrange halign
      obtain ⟨t, hexec, hstores, hbytes⟩ := run_storeElems (word := vw 5 p h o a d 19) (pol := p) (hold := h)
        (f := vecStoreSp o) hready (vecStoreSp_ok rfl hrange halign rfl _) (.refl _) (masks_lanes (enabledBy s) (s.vr d))
      have hscratch : (b.takeV d).mine.scratch = s.mine.scratch := hkept.scratch.mine htaken.accessed.cur_eq
      rw [hscratch] at hbytes
      refine ⟨t, hexec, hstores, fun y => ?_, fun y => ?_⟩ <;> have hy := hbytes y
      · refine Eq.trans ?_ (ite_maskedOver _ (enabledBy s) 4 64 (byteOf (s.vr d).toNat) x y _)
        split at hy <;> rename_i hwaits
        · rw [if_pos hwaits]
          exact hy.2
        · rw [if_neg hwaits]
          exact hy.2
      · rw [htaken.byte] at hy
        split at hy <;> exact hy.1
    case win =>
      intro hrange halign q code f hstop
      obtain ⟨u, hscale, hmem, hscratch, hacc⟩ : ∃ u,
          (if enabledBy s = 0#16 then (127, b.takeV d) else (b.takeV d).readScale w.2 x) = (q.1, u) ∧
            u.mem = q.2.mem ∧ u.mine.scratch = q.2.mine.scratch ∧ (b.takeV d).Accessed u := by
        simp only [q]
        split
        · exact ⟨_, rfl, hretimed.mem_eq, congrArg Cluster.scratch hretimed.mine_eq, .refl _⟩
        · obtain ⟨hsc, hmem, hscratch⟩ := hretimed.readScale w.2 x
          exact ⟨((b.takeV d).readScale w.2 x).2, Prod.ext hsc rfl, hmem, hscratch, State.accessed_readScale _ _ _⟩
      obtain ⟨sat, hf⟩ := vecStoreWin_ok (i := (storeOp (vw 7 p h o a d 19) p h a d).input s) rfl
        (hbwin.symm.trans (hretimed.winAt_eq _).symm) hrange halign rfl hscale hstop
      obtain ⟨hbytes, hpos⟩ := winBytes_eq w.1
      obtain ⟨t, hexec, hstores, hstored⟩ := run_storeElems hready hf hacc
        ((masks_elemBytes (n := n) (enabledBy s) hpos (by simpa [upTo] using hbytes)).congr
          (g' := fun k => byteOf (code (k / (n / 16))).res (k % (n / 16)))
          (fun k hk => by rw [getD_map_upTo _ (Nat.div_lt_of_lt_mul (hbytes ▸ hk))]; rfl))
      refine ⟨t, hexec, hstores, fun y => ?_⟩
      have hy := hstored y
      rw [hscratch, show u.byte y = q.2.byte y from congrArg (Memory.read · y) hmem] at hy
      exact hy

end

section
/-! SUPPORT. Why a fault record need not be that of the walk without regard to pending pages (R353, R354, R407): a device on
which the walk of an access stops at a page of its page table that another fault is pending on. -/

namespace Sys2Proof.Machine

/-- A posted fault of the root on its page 1, for which a thread of the root waits. -/
def tableFault : FaultRange := {
  fid := 0#32, owner := 0, stage := 0, level := 0, page := 1, npg := 1, nrec := 1, r := true, w := false, x := false
  eng := false, who := ⟨1, 0#8, 0, 0⟩, waits := [(0, 0, 1)] }

/-- A child of the root with an empty page table in that page. -/
def tableChild : Ctx := {
  parent := some (0, 0), depth := 1, atp := (10#64 <<< 60) ||| 1#64
  windows := [(0, { base := 0x1000, size := 0x1000, r := true, w := true, x := false })] }

/-- Slot 0 runs a thread of the child while the fault is not yet done. -/
def tablePending : State := { State.reset with
  ctxs := [(0, {}), (1, tableChild)]
  slots := [(0, { st := .run, th := { ctx := 1 } })]
  fields := [(0, { ranges := [tableFault] })] }

/-- R353: the access waits with the fault on its page table, and no record of its own page enters the batch. -/
theorem faultRecord_tablePending : ∃ t, exec (.faultRecord 0 0 0) tablePending = .next t ∧ (t.field 0).batch = [] ∧
    (t.field 0).ranges = [{ tableFault with waits := [(0, 0, 1), (0, 1, 0)] }] :=
  ⟨_, rfl, by decide +kernel, by decide +kernel⟩

end Sys2Proof.Machine

open Sys2Proof Sys2Proof.Machine Sys2Proof.Claims

/-- Refutes O48: its second clause takes the fault from `State.translate`, which regards no pending page. In `tablePending`
that walk ends at the invalid entry of page 0 of context 1, whose page has no fault, yet the walk of the access (R353,
`State.translateFor`) stops before, at the page of the table, and joins the fault there (`faultRecord_tablePending`). -/
theorem not_faultEvents : ¬ Obligations.FaultEvents := by
  unfold Obligations.FaultEvents
  rintro ⟨-, hrecord, -⟩
  obtain ⟨t, hexec, hbatch, -⟩ := hrecord 0 0 0 1 4 0 (Kind.ofCode 0) _ tablePending (by decide) rfl
  obtain ⟨u, hjoined, hempty, -⟩ := faultRecord_tablePending
  obtain rfl : u = t := Host.Outcome.next.inj (hjoined.symm.trans hexec)
  have hnew := hbatch (by decide +kernel) (by decide +kernel)
  rw [show fieldOf (clusterOf 0) = 0 from rfl, hempty] at hnew
  exact List.append_ne_nil_of_right_ne_nil _ (List.cons_ne_nil _ _) hnew.symm

end

section
/-! SUPPORT. The barrier registers (R268 to R270): the fields of the words that an advance and a write give them, and what the
events of an instance leave of its clusters. -/

namespace Sys2Proof.Machine

/-! ### Barrier words -/

/-- R268: a barrier word with ARR 0: its low 24 bits, its phase, EN and T. -/
def hbWord (lo phase : Nat) (en t : Bool) : Word := w64 (lo + phase * 2 ^ 32 + b2n en * 2 ^ 40 + b2n t * 2 ^ 41)

theorem hbAdvance_eq (w : Word) (t : Bool) :
    hbAdvance w t = hbWord (bitsAt w.toNat 0 24) ((hbPhase w + 1) % 256) (hbEn w) t := rfl

/-- R268: a write that is not accepted leaves the register. -/
theorem hbWrite_refused {old new : Word} (h : hbArr old ≠ 0 ∨ (hbEn new = true ∧ (hbCnt new = 0 ∨ hbCnt new > 128))) :
    hbWrite old new = old := if_pos h

theorem hbWrite_accepted {old new : Word} (h : ¬ (hbArr old ≠ 0 ∨ (hbEn new = true ∧ (hbCnt new = 0 ∨ hbCnt new > 128)))) :
    hbWrite old new =
      hbWord (bitsAt new.toNat 0 8 + bitsAt new.toNat 16 8 * 2 ^ 16) (hbPhase old) (hbEn new) (hbT old) := if_neg h

theorem bitsAt_lt (n lo len : Nat) : bitsAt n lo len < 2 ^ len := Nat.mod_lt _ (Nat.two_pow_pos _)

section
variable {lo phase : Nat} (hlo : lo < 2 ^ 24) (hphase : phase < 256) (en t : Bool)
include hlo hphase

theorem toNat_hbWord : (hbWord lo phase en t).toNat = lo + phase * 2 ^ 32 + b2n en * 2 ^ 40 + b2n t * 2 ^ 41 := by
  have hen : b2n en ≤ 1 := by cases en <;> decide
  have ht : b2n t ≤ 1 := by cases t <;> decide
  refine (BitVec.toNat_ofNat _ _).trans (Nat.mod_eq_of_lt ?_)
  omega

theorem hbCnt_hbWord : hbCnt (hbWord lo phase en t) = lo % 256 := by
  unfold hbCnt bitsAt
  rw [toNat_hbWord hlo hphase]
  omega

theorem hbArr_hbWord : hbArr (hbWord lo phase en t) = 0 := by
  unfold hbArr bitsAt
  rw [toNat_hbWord hlo hphase]
  omega

theorem hbPhase_hbWord : hbPhase (hbWord lo phase en t) = phase := by
  unfold hbPhase bitsAt
  rw [toNat_hbWord hlo hphase]
  omega

theorem hbEn_hbWord : hbEn (hbWord lo phase en t) = en := by
  unfold hbEn
  rw [← bitAt_toNat, toNat_hbWord hlo hphase, bitAt]
  have hdiv : (lo + phase * 2 ^ 32 + b2n en * 2 ^ 40 + b2n t * 2 ^ 41) / 2 ^ 40 = b2n en + b2n t * 2 := by omega
  rw [hdiv]
  cases en <;> cases t <;> rfl

theorem hbT_hbWord : hbT (hbWord lo phase en t) = t := by
  have hen : b2n en ≤ 1 := by cases en <;> decide
  unfold hbT
  rw [← bitAt_toNat, toNat_hbWord hlo hphase, bitAt, show (lo + phase * 2 ^ 32 + b2n en * 2 ^ 40 + b2n t * 2 ^ 41) / 2 ^ 41 =
    b2n t by omega]
  cases t <;> rfl

end

/-! ### The advance (R269) -/

theorem hbPhase_hbAdvance (w : Word) (t : Bool) : hbPhase (hbAdvance w t) = (hbPhase w + 1) % 256 := by
  rw [hbAdvance_eq, hbPhase_hbWord (bitsAt_lt _ _ _) (Nat.mod_lt _ (by decide))]

/-- R269: a word that has advanced from another, once or more, with T as given. -/
structure HbAdvanced (t : Bool) (w w' : Word) : Prop where
  arr : hbArr w' = 0
  timedOut : hbT w' = t
  cnt : hbCnt w' = hbCnt w

theorem hbAdvanced_hbAdvance (w : Word) (t : Bool) : HbAdvanced t w (hbAdvance w t) := by
  have hlo : bitsAt w.toNat 0 24 < 2 ^ 24 := bitsAt_lt _ _ _
  have hphase : (hbPhase w + 1) % 256 < 256 := Nat.mod_lt _ (by decide)
  rw [hbAdvance_eq]
  refine ⟨hbArr_hbWord hlo hphase _ _, hbT_hbWord hlo hphase _ _, (hbCnt_hbWord hlo hphase _ _).trans ?_⟩
  simp only [hbCnt, bitsAt]
  omega

/-- R269: a cluster of which an instance advances. -/
def Cluster.hbAdvanced (n : Nat) (t : Bool) (c : Cluster) : Cluster :=
  { c with hbc := vwr c.hbc n (hbAdvance (vrd c.hbc n) t), hbSince := vwr c.hbSince n none }

theorem Cluster.vrd_hbAdvanced (n : Nat) (t : Bool) (c : Cluster) :
    vrd (c.hbAdvanced n t).hbc n = hbAdvance (vrd c.hbc n) t := vrd_vwr_same _ _ _

/-- R269: an instance advances at clusters one after another. -/
def State.advanceClusters (s : State) (n : Nat) (t : Bool) (l : List Nat) : State :=
  l.foldl (fun s cl => s.modCluster cl (Cluster.hbAdvanced n t)) s

theorem State.hbarAdvanceAll_eq (s : State) (die n : Nat) (t : Bool) :
    s.hbarAdvanceAll die n t = s.advanceClusters n t (s.hbarMembers die n) := rfl

theorem State.advanceClusters_eq (s : State) (n : Nat) (t : Bool) (l : List Nat) :
    s.advanceClusters n t l = { s with clusters := (s.advanceClusters n t l).clusters } := by
  induction l generalizing s with
  | nil => rfl
  | cons a l ih => exact (ih (s.modCluster a (Cluster.hbAdvanced n t))).trans rfl

theorem State.cluster_advanceClusters_of_not_mem {l : List Nat} {cl : Nat} (h : cl ∉ l) (s : State) (n : Nat) (t : Bool) :
    (s.advanceClusters n t l).cluster cl = s.cluster cl := by
  induction l generalizing s with
  | nil => rfl
  | cons a l ih =>
    rw [List.mem_cons, not_or] at h
    obtain ⟨hne, hnot⟩ := h
    exact (ih hnot (s.modCluster a (Cluster.hbAdvanced n t))).trans ((s.cluster_modCluster _ _ _).trans (if_neg hne))

/-- R269: each of the clusters has advanced. -/
theorem State.hbAdvanced_advanceClusters {l : List Nat} {cl : Nat} (h : cl ∈ l) (s : State) (n : Nat) (t : Bool) :
    HbAdvanced t (vrd (s.cluster cl).hbc n) (vrd ((s.advanceClusters n t l).cluster cl).hbc n) := by
  induction l generalizing s with
  | nil => exact absurd h List.not_mem_nil
  | cons a l ih =>
    let s1 : State := s.modCluster a (Cluster.hbAdvanced n t)
    have hfirst : cl = a → HbAdvanced t (vrd (s.cluster cl).hbc n) (vrd (s1.cluster cl).hbc n) := by
      rintro rfl
      rw [State.cluster_modCluster, if_pos rfl, Cluster.vrd_hbAdvanced]
      exact hbAdvanced_hbAdvance _ _
    have hcnt : hbCnt (vrd (s1.cluster cl).hbc n) = hbCnt (vrd (s.cluster cl).hbc n) := by
      by_cases ha : cl = a
      · exact (hfirst ha).cnt
      · rw [State.cluster_modCluster, if_neg ha]
    show HbAdvanced t _ (vrd ((s1.advanceClusters n t l).cluster cl).hbc n)
    by_cases hl : cl ∈ l
    · have hrest := ih hl s1
      exact ⟨hrest.arr, hrest.timedOut, hrest.cnt.trans hcnt⟩
    · rw [State.cluster_advanceClusters_of_not_mem hl]
      exact hfirst ((List.mem_cons.1 h).resolve_right hl)

/-- R269: where every member is done, the instance advances. -/
theorem State.hbarStep_of_done {s : State} {die n : Nat} (hne : s.hbarMembers die n ≠ [])
    (hdone : ∀ cl ∈ s.hbarMembers die n, hbArr (vrd (s.cluster cl).hbc n) = hbCnt (vrd (s.cluster cl).hbc n)) :
    s.hbarStep die n = s.advanceClusters n false (s.hbarMembers die n) := by
  refine if_pos ?_
  rw [Bool.and_eq_true, Bool.not_eq_true', List.isEmpty_eq_false_iff, List.all_eq_true]
  exact ⟨hne, fun cl hcl => beq_iff_eq.2 (hdone cl hcl)⟩

/-! ### The time-out (R269) -/

theorem Tab.mem_of_find? {α : Type} {t : Tab α} {n : Nat} {v : α} (h : t.find? n = some v) : (n, v) ∈ t := by
  induction t with
  | nil => exact nomatch h
  | cons p r ih =>
    obtain ⟨k, w⟩ := p
    simp only [Tab.find?] at h
    split at h
    · next hk =>
      obtain rfl := Option.some.inj h
      exact hk ▸ List.mem_cons_self
    · exact List.mem_cons_of_mem _ (ih h)

/-- A cluster that is not listed takes part in no instance. -/
theorem hbEn_default (n : Nat) : hbEn (vrd ({} : Cluster).hbc n) = false := by
  show hbEn ((Vector.replicate 4 0#64)[n % 4]) = false
  rw [Vector.getElem_replicate]
  rfl

/-- R269: a cluster with EN takes part in the instance of its die. -/
theorem State.mem_hbarMembers {s : State} {cl n : Nat} (h : hbEn (vrd (s.cluster cl).hbc n) = true) :
    cl ∈ s.hbarMembers (dieOf cl) n := by
  cases hc : s.clusters.find? cl with
  | none =>
    have hdefault : s.cluster cl = {} := by simp [State.cluster, Tab.get, hc]
    rw [hdefault, hbEn_default] at h
    exact nomatch h
  | some c =>
    have hget : s.cluster cl = c := by simp [State.cluster, Tab.get, hc]
    refine List.mem_map.2 ⟨(cl, c), List.mem_filter.2 ⟨Tab.mem_of_find? hc, ?_⟩, rfl⟩
    rw [Bool.and_eq_true]
    exact ⟨beq_self_eq_true _, hget ▸ h⟩

theorem State.hbEn_of_hbarExpired {s : State} {cl n : Nat} (h : s.hbarExpired cl n = true) :
    hbEn (vrd (s.cluster cl).hbc n) = true := by
  simp only [State.hbarExpired, Bool.and_eq_true] at h
  obtain ⟨⟨⟨hen, -⟩, -⟩, -⟩ := h
  exact hen

end Sys2Proof.Machine

end

section
/-! SUPPORT. Queues and reservations (R225, R275, R277): what the end of a reservation and the performing of a queue fence
leave. -/

namespace Sys2Proof.Machine

/-! ### The reservations of a queue (R275) -/

theorem State.queueCtl_modQueueCtl (s : State) (i : QueueId) (g : QueueCtl → QueueCtl) :
    (s.modQueueCtl i g).queueCtl i = g (s.queueCtl i) := by
  cases i with
  | copy cl q => simp [State.modQueueCtl, State.queueCtl, State.cluster_modCluster]
  | tile cl => simp [State.modQueueCtl, State.queueCtl, State.cluster_modCluster]
  | coll f q => simp [State.modQueueCtl, State.queueCtl, State.field_modField]

theorem State.mem_modQueueCtl (s : State) (i : QueueId) (g : QueueCtl → QueueCtl) : (s.modQueueCtl i g).mem = s.mem := by
  cases i <;> rfl

/-! ### Queue fences (R277) -/

/-- R277: no queue of a fence's mask but its own holds an older entry. -/
theorem none_older {α : Type} {num : α → Nat} {queue : Nat → List α} {k q m e : Nat}
    (h : ∀ j < k, bitAt m j = true → j ≠ q → ∀ o ∈ queue j, e ≤ num o) :
    ¬ ((upTo k).any (fun j => bitAt m j && j != q && (queue j).any (fun o => num o < e)) = true) := by
  intro hany
  obtain ⟨j, hj, hold⟩ := List.any_eq_true.1 hany
  simp only [Bool.and_eq_true, bne_iff_ne, List.any_eq_true, decide_eq_true_eq] at hold
  obtain ⟨⟨hbit, hne⟩, o, ho, hlt⟩ := hold
  exact Nat.not_lt.2 (h j (List.mem_range.1 hj) hbit hne o ho) hlt

theorem State.copyFence_of_none_older {s : State} {cl q m : Nat} {e : CopyEntry} (hhead : s.copyHead cl q = some e)
    (hfence : e.fence = some m)
    (hold : ∀ j < 8, bitAt m j = true → j ≠ q → ∀ o ∈ vrd (s.cluster cl).copyq j, e.num ≤ o.num) :
    s.copyFence cl q = s.popCopy cl q := by
  simp only [State.copyFence, hhead, hfence]
  exact if_neg (none_older hold)

theorem State.collFence_of_none_older {s : State} {f q m : Nat} {e : CollEntry} (hhead : s.collHead f q = some e)
    (hfence : e.fence = some m)
    (hold : ∀ j < 4, bitAt m j = true → j ≠ q → ∀ o ∈ vrd (s.field f).collq j, e.num ≤ o.num) :
    s.collFence f q = s.popColl f q := by
  simp only [State.collFence, hhead, hfence]
  exact if_neg (none_older hold)

theorem State.copyq_popCopy (s : State) (cl q : Nat) :
    vrd ((s.popCopy cl q).cluster cl).copyq q = (vrd (s.cluster cl).copyq q).drop 1 := by
  simp [State.popCopy, State.entryFreed, State.modQueueCtl, State.cluster_modCluster]

theorem State.collq_popColl (s : State) (f q : Nat) :
    vrd ((s.popColl f q).field f).collq q = (vrd (s.field f).collq q).drop 1 := by
  simp [State.popColl, State.entryFreed, State.modQueueCtl, State.field_modField]

/-! ### The reservations of a park table (R225) -/

/-- R225: a cluster whose park table reserves an entry, if an issuer waits for one, up to a cycle. -/
def Cluster.reserved (t : Nat) (c : Cluster) : Cluster :=
  match c.parkRefused.find? (fun r => r.inRing && !c.parkResv.any (fun v => v.1 == r.sid && v.2.1 == r.gen)) with
  | some r => { c with parkResv := c.parkResv ++ [(r.sid, r.gen, t)] }
  | none => c

theorem State.reservePark_eq (s : State) (cl : Nat) :
    s.reservePark cl = s.modCluster cl (Cluster.reserved (s.cycle + 32)) := rfl

theorem Cluster.reserved_eq (t : Nat) (c : Cluster) :
    ∃ l, (∀ v ∈ l, v.2.2 = t) ∧ c.reserved t = { c with parkResv := c.parkResv ++ l } := by
  unfold Cluster.reserved
  split
  · exact ⟨_, fun v hv => List.mem_singleton.1 hv ▸ rfl, rfl⟩
  · exact ⟨[], nofun, by rw [List.append_nil]⟩

/-- R225: a cluster whose park table drops a reservation; its issuer waits behind the others. -/
def Cluster.unreserved (r : Nat × BitVec 8 × Nat) (c : Cluster) : Cluster :=
  { c with
    parkResv := c.parkResv.erase r,
    parkRefused := c.parkRefused.filter (fun q => !(q.sid == r.1 && q.gen == r.2.1)) ++
      c.parkRefused.filter (fun q => q.sid == r.1 && q.gen == r.2.1) }

theorem State.parkExpire_of_standing {s : State} {cl : Nat} (h : ∀ r ∈ (s.cluster cl).parkResv, s.cycle < r.2.2) :
    s.parkExpire cl = s := by
  have hnone : (s.cluster cl).parkResv.find? (fun r => decide (r.2.2 ≤ s.cycle)) = none :=
    List.find?_eq_none.2 fun r hr hout => Nat.not_le.2 (h r hr) (of_decide_eq_true hout)
  simp only [State.parkExpire, hnone]

theorem State.parkExpire_of_out {s : State} {cl : Nat} {r : Nat × BitVec 8 × Nat}
    (h : (s.cluster cl).parkResv.find? (fun r => decide (r.2.2 ≤ s.cycle)) = some r) :
    s.parkExpire cl = (s.modCluster cl (Cluster.unreserved r)).reservePark cl := by
  simp only [State.parkExpire, h]
  rfl

/-- R225: the cluster once a reservation that has run out has passed on. -/
theorem State.cluster_parkExpire {s : State} {cl : Nat} {r : Nat × BitVec 8 × Nat}
    (h : (s.cluster cl).parkResv.find? (fun r => decide (r.2.2 ≤ s.cycle)) = some r) :
    ∃ l, (∀ v ∈ l, v.2.2 = s.cycle + 32) ∧ (s.parkExpire cl).cluster cl =
      { (s.cluster cl).unreserved r with parkResv := (s.cluster cl).parkResv.erase r ++ l } := by
  obtain ⟨l, hl, heq⟩ := ((s.cluster cl).unreserved r).reserved_eq (s.cycle + 32)
  refine ⟨l, hl, ?_⟩
  rw [State.parkExpire_of_out h, State.reservePark_eq, State.cluster_modCluster, if_pos rfl, State.cluster_modCluster,
    if_pos rfl]
  exact heq

end Sys2Proof.Machine

open Sys2Proof Sys2Proof.Machine Sys2Proof.Claims

/-- Settles O45: the barrier events are `State.advanceClusters`, which `State.hbAdvanced_advanceClusters` describes; a
reservation passes on by `State.cluster_parkExpire`, and a fence leaves its queue by `State.copyFence_of_none_older` and
`State.collFence_of_none_older`. -/
theorem queueEvents : Obligations.QueueEvents := by
  unfold Obligations.QueueEvents
  refine ⟨fun die n s hne hdone => ?advance, fun cl n s hout => ?timeout, fun k i q s => ?queue, fun cl s => ?park,
    fun i q m e s hhead hfence hold => ?copy, fun i q m e s hhead hfence hold => ?coll⟩
  case advance =>
    refine ⟨_, congrArg Host.Outcome.next (State.hbarStep_of_done hne hdone), s.advanceClusters_eq _ _ _, fun cl hcl => ?_,
      fun cl hone => ?_⟩
    · obtain ⟨harr, ht, hcnt⟩ := State.hbAdvanced_advanceClusters hcl s n false
      exact ⟨harr, ht, hcnt⟩
    · rw [hone]
      show hbPhase (vrd ((s.modCluster cl (Cluster.hbAdvanced n false)).cluster cl).hbc n) = _
      rw [State.cluster_modCluster, if_pos rfl, Cluster.vrd_hbAdvanced, hbPhase_hbAdvance]
  case timeout =>
    have hmember := State.mem_hbarMembers (State.hbEn_of_hbarExpired hout)
    have hadvanced := State.hbAdvanced_advanceClusters hmember s n true
    exact ⟨_, congrArg Host.Outcome.next (if_pos hout), s.advanceClusters_eq _ _ _, hadvanced.arr, hadvanced.timedOut⟩
  case queue => exact ⟨_, rfl, s.mem_modQueueCtl _ _, s.queueCtl_modQueueCtl _ _⟩
  case park =>
    cases hout : (s.cluster cl).parkResv.find? (fun r => decide (r.2.2 ≤ s.cycle)) with
    | none =>
      have hstand : ∀ r ∈ (s.cluster cl).parkResv, s.cycle < r.2.2 := by simpa using hout
      exact ⟨s, congrArg Host.Outcome.next (State.parkExpire_of_standing hstand), rfl, rfl, fun _ => rfl, nofun⟩
    | some r =>
      obtain ⟨l, hl, hcluster⟩ := State.cluster_parkExpire hout
      refine ⟨s.parkExpire cl, rfl, by rw [State.parkExpire_of_out hout]; rfl, by rw [hcluster]; rfl,
        State.parkExpire_of_standing, fun r' hr => ?_⟩
      obtain rfl := Option.some.inj hr
      rw [hcluster]
      refine ⟨fun v hv => (List.mem_append.1 hv).imp_right fun h => ?_, ?_⟩
      · rw [hl v h]
        exact Nat.lt_add_of_pos_right (by decide)
      · rw [List.length_append]
        exact Nat.le_add_right _ _
  case copy =>
    exact ⟨_, congrArg Host.Outcome.next (State.copyFence_of_none_older hhead hfence hold), rfl, s.copyq_popCopy i q⟩
  case coll =>
    exact ⟨_, congrArg Host.Outcome.next (State.collFence_of_none_older hhead hfence hold), rfl, s.collq_popColl i q⟩

end

section
/-! SUPPORT. Writes of registers that no instruction of a thread makes: what each leaves of its cluster, context, core or
port (R220, R238, R268, R340, R347, R386, R414 to R418, R422, R430). -/

namespace Sys2Proof.Machine

/-! ### The parts of the device that a write changes -/

theorem State.cluster_modCluster_same (s : State) (cl : Nat) (f : Cluster → Cluster) :
    (s.modCluster cl f).cluster cl = f (s.cluster cl) := (s.cluster_modCluster _ _ f).trans (if_pos rfl)

theorem State.cluster_modCluster_ne {k cl : Nat} (h : k ≠ cl) (s : State) (f : Cluster → Cluster) :
    (s.modCluster cl f).cluster k = s.cluster k := (s.cluster_modCluster _ _ f).trans (if_neg h)

theorem State.ctx_modCtx_same (s : State) (a : Nat) (f : Ctx → Ctx) : (s.modCtx a f).ctx a = f (s.ctx a) :=
  (s.ctx_modCtx _ _ f).trans (if_pos rfl)

theorem State.ctx_modCtx_ne {k a : Nat} (h : k ≠ a) (s : State) (f : Ctx → Ctx) : (s.modCtx a f).ctx k = s.ctx k :=
  (s.ctx_modCtx _ _ f).trans (if_neg h)

/-- A table all of whose values have been changed, each by its key. -/
theorem Tab.find?_map {α β : Type} (t : Tab α) (g : Nat → α → β) (n : Nat) :
    Tab.find? (t.map (fun p => (p.1, g p.1 p.2))) n = (t.find? n).map (g n) := by
  induction t with
  | nil => rfl
  | cons p r ih =>
    obtain ⟨k, v⟩ := p
    simp only [List.map_cons, Tab.find?]
    split
    · next h => rw [h]; rfl
    · exact ih

/-! ### CEN (R386) -/

/-- What the freezes and thaws that enter a queue leave: memory, and CEN of every context. -/
structure State.KeepsCen (s t : State) : Prop where
  mem : t.mem = s.mem
  cen : ∀ a, (t.ctx a).cen = (s.ctx a).cen

theorem State.KeepsCen.refl (s : State) : s.KeepsCen s := ⟨rfl, fun _ => rfl⟩

theorem State.keepsCen_pushCtx (s : State) (t : Nat) (op : CtxOp) : s.KeepsCen (s.pushCtx t op) where
  mem := rfl
  cen := fun a => by
    unfold State.pushCtx
    rw [State.ctx_modCtx]
    split
    · next h => rw [h]
    · rfl

theorem State.keepsCen_pushAll (t : Nat) (op : Nat → CtxOp) (l : List Nat) (s : State) :
    s.KeepsCen (l.foldl (fun s c => s.pushCtx t (op c)) s) := by
  induction l generalizing s with
  | nil => exact .refl s
  | cons c l ih =>
    have hfirst := s.keepsCen_pushCtx t (op c)
    have hrest := ih (s.pushCtx t (op c))
    exact ⟨hrest.mem.trans hfirst.mem, fun a => (hrest.cen a).trans (hfirst.cen a)⟩

/-- R386: a write of CEN gives it its new value, and beyond that only pushes operations. -/
theorem State.keepsCen_writeCen (s : State) (t : Nat) (v : Word) (up : BitVec 9) :
    (s.modCtx t (fun c => { c with cen := v.getLsbD 0 })).KeepsCen (s.writeBlock t 3 v up) := by
  simp only [State.writeBlock]
  split
  · exact State.keepsCen_pushAll t CtxOp.freeze _ _
  · split
    · exact State.keepsCen_pushAll t CtxOp.thaw _ _
    · exact .refl _

/-! ### FEAT (R374) -/

theorem State.lineageFrom_congr {s t : State} (h : ∀ a, (t.ctx a).parent = (s.ctx a).parent) (n a : Nat) :
    t.lineageFrom n a = s.lineageFrom n a := by
  induction n generalizing a with
  | zero => rfl
  | succ n ih =>
    simp only [State.lineageFrom, h]
    split
    · rfl
    · rw [ih]

theorem State.within_congr {s t : State} (h : ∀ a, (t.ctx a).parent = (s.ctx a).parent) (a top : Nat) :
    t.within a top = s.within a top := by
  unfold State.within State.lineage
  rw [State.lineageFrom_congr h]

/-- R374: the contexts below one lose what it loses. -/
def State.loseBelow (s : State) (t : Nat) (gone : BitVec 9) : State :=
  { s with ctxs := s.ctxs.map (fun (p : Nat × Ctx) =>
      if p.1 != t && s.within p.1 t then (p.1, { p.2 with feat := p.2.feat &&& ~~~gone }) else p) }

/-- What a context loses below another. -/
def Ctx.lose (c : Ctx) (below : Bool) (gone : BitVec 9) : Ctx := if below then { c with feat := c.feat &&& ~~~gone } else c

theorem Ctx.feat_lose (c : Ctx) (below : Bool) (gone : BitVec 9) :
    (c.lose below gone).feat = if below then c.feat &&& ~~~gone else c.feat := by cases below <;> rfl

/-- R374: FEAT of every context, listed or not: one that is not listed has no feature to lose. -/
theorem State.feat_loseBelow (s : State) (t : Nat) (gone : BitVec 9) (c : Nat) :
    ((s.loseBelow t gone).ctx c).feat =
      if c != t && s.within c t then (s.ctx c).feat &&& ~~~gone else (s.ctx c).feat := by
  have hmap : (s.loseBelow t gone).ctxs = s.ctxs.map (fun p => (p.1, p.2.lose (p.1 != t && s.within p.1 t) gone)) := by
    refine congrArg (s.ctxs.map ·) (funext fun p => ?_)
    unfold Ctx.lose
    split <;> rfl
  unfold State.ctx Tab.get
  rw [hmap, Tab.find?_map s.ctxs (fun k c => c.lose (k != t && s.within k t) gone)]
  cases s.ctxs.find? c with
  | none => simp
  | some k => exact k.feat_lose _ _

theorem State.writeBlock_feat {s : State} {t : Nat} {v : Word} {up : BitVec 9} (h : v.setWidth 9 &&& ~~~up = 0#9) :
    s.writeBlock t 1 v up =
      (s.modCtx t (fun c => { c with feat := v.setWidth 9 })).loseBelow t ((s.ctx t).feat &&& ~~~v.setWidth 9) := by
  simp only [State.writeBlock, h, ne_eq, not_true, if_false]
  rfl

/-! ### Permission maps and allotments (R414 to R416) -/

/-- R414: a map as the model keeps it, a list of its set bits and whether all are set. -/
theorem mapBits_reads (m : BitVec 1024) {d : Nat} (h : d < 1024) :
    ((m == BitVec.allOnes 1024) || (mapBits m).contains d) = m.getLsbD d := by
  have hlist : (mapBits m).contains d = m.getLsbD d := by
    rw [Bool.eq_iff_iff, List.contains_iff_mem]
    unfold mapBits upTo
    rw [List.mem_filter, List.mem_range]
    exact and_iff_right h
  rw [hlist]
  cases hall : m == BitVec.allOnes 1024 with
  | false => rfl
  | true =>
    rw [beq_iff_eq.1 hall, BitVec.getLsbD_allOnes]
    simp [h]

/-! ### Halts (R430) -/

theorem bitAt_bitsAt (n lo len k : Nat) : bitAt (bitsAt n lo len) k = (decide (k < len) && bitAt n (lo + k)) := by
  have hbit (m j : Nat) : bitAt m j = m.testBit j := by rw [Nat.testBit_eq_decide_div_mod_eq]; rfl
  rw [hbit, hbit, bitsAt, Nat.testBit_mod_two_pow, Nat.testBit_div_two_pow, Nat.add_comm]

/-- R430: what a write of DMCTL does to one core of a cluster. -/
def State.dmStep (cl res hlt : Nat) (s : State) (i : Nat) : State :=
  if bitAt res i then s.resumeCore (8 * cl + i) else if bitAt hlt i then s.haltCore (8 * cl + i) else s

/-- R430: DMCTL once it has been written. -/
def dmctlAfter (old v : Word) : Word := (v &&& 0x70000#64) ||| ((old ||| v) &&& 0xFF#64 &&& ~~~(w64 (bitsAt v.toNat 8 8)))

/-- R430: a cluster whose DMCTL is written. -/
def Cluster.dmctlWritten (v : Word) (c : Cluster) : Cluster := { c with dmctl := dmctlAfter c.dmctl v }

theorem State.writeDmctl_eq (s : State) (cl : Nat) (v : Word) : s.writeDmctl cl v =
    (upTo 8).foldl (State.dmStep cl (bitsAt v.toNat 8 8) v.toNat) (s.modCluster cl (Cluster.dmctlWritten v)) := rfl

theorem State.dmStep_eq (cl res hlt : Nat) (s : State) (i : Nat) :
    State.dmStep cl res hlt s i = { s with cores := (State.dmStep cl res hlt s i).cores } := by
  unfold State.dmStep
  split
  · rfl
  · split <;> rfl

theorem State.dmSteps_eq (cl res hlt : Nat) (l : List Nat) (s : State) :
    l.foldl (State.dmStep cl res hlt) s = { s with cores := (l.foldl (State.dmStep cl res hlt) s).cores } := by
  induction l generalizing s with
  | nil => rfl
  | cons i l ih => rw [List.foldl_cons, ih, State.dmStep_eq]

/-- R430: whether a core is halted after its part of the write: a resume wins over a halt. -/
theorem State.halted_dmStep (cl res hlt : Nat) (s : State) (i k : Nat) :
    ((State.dmStep cl res hlt s i).core (8 * cl + k)).halted =
      if k = i then (if bitAt res i then false else bitAt hlt i || (s.core (8 * cl + i)).halted)
      else (s.core (8 * cl + k)).halted := by
  have hcore : 8 * cl + k = 8 * cl + i ↔ k = i := by omega
  unfold State.dmStep State.resumeCore State.haltCore
  by_cases hk : k = i
  · subst hk
    cases bitAt res k <;> cases bitAt hlt k <;> simp [State.core_modCore]
  · cases bitAt res i <;> cases bitAt hlt i <;> simp [State.core_modCore, hk]

theorem State.halted_dmSteps (cl res hlt : Nat) (n : Nat) (s : State) (k : Nat) :
    (((upTo n).foldl (State.dmStep cl res hlt) s).core (8 * cl + k)).halted =
      if k < n then (if bitAt res k then false else bitAt hlt k || (s.core (8 * cl + k)).halted)
      else (s.core (8 * cl + k)).halted := by
  induction n with
  | zero => rfl
  | succ n ih =>
    unfold upTo at ih ⊢
    rw [List.range_succ, List.foldl_append, List.foldl_cons, List.foldl_nil, State.halted_dmStep]
    by_cases hk : k = n
    · subst hk
      rw [if_pos rfl, if_pos (Nat.lt_succ_self k), ih, if_neg (Nat.lt_irrefl k)]
    · rw [if_neg hk, ih]
      exact if_congr (by omega) rfl rfl

/-- R430: what a write of DMCTL leaves. -/
theorem State.writeDmctl_leaves (s : State) (cl : Nat) (v : Word) :
    (s.writeDmctl cl v).mem = s.mem ∧ ((s.writeDmctl cl v).cluster cl).dmctl = dmctlAfter (s.cluster cl).dmctl v ∧
      ∀ k < 8, ((s.writeDmctl cl v).core (8 * cl + k)).halted =
        if v.getLsbD (8 + k) then false else v.getLsbD k || (s.core (8 * cl + k)).halted := by
  refine ⟨?_, ?_, fun k hk => ?_⟩
  · have hmem := congrArg State.mem
      (State.dmSteps_eq cl (bitsAt v.toNat 8 8) v.toNat (upTo 8) (s.modCluster cl (Cluster.dmctlWritten v)))
    exact hmem
  · have hclusters := congrArg State.clusters
      (State.dmSteps_eq cl (bitsAt v.toNat 8 8) v.toNat (upTo 8) (s.modCluster cl (Cluster.dmctlWritten v)))
    have hcluster : (s.writeDmctl cl v).cluster cl = (s.modCluster cl (Cluster.dmctlWritten v)).cluster cl :=
      congrArg (fun t : Tab Cluster => t.get {} cl) hclusters
    rw [hcluster, State.cluster_modCluster_same]
    rfl
  · rw [State.writeDmctl_eq, State.halted_dmSteps, if_pos hk, bitAt_bitsAt, decide_eq_true hk, Bool.true_and, bitAt_toNat,
      bitAt_toNat]
    rfl

/-- R430: the word that resumes core `i` of a cluster, with the enables as they stand. -/
def resumeWord (old : Word) (i : Nat) : Word := (old &&& 0x70000#64) ||| w64 (2 ^ i % 256 * 256)

/-- Of its low 16 bits the resume of core `i` is set alone. -/
theorem getLsbD_resumeWord (old : Word) {i j : Nat} (hi : i < 8) (hj : j < 16) :
    (resumeWord old i).getLsbD j = decide (j = 8 + i) := by
  have henables : (0x70000#64).getLsbD j = false := (by decide : ∀ j < 16, (0x70000#64).getLsbD j = false) j hj
  have hbit : 2 ^ i % 256 * 256 = 2 ^ (8 + i) := by
    rw [Nat.mod_eq_of_lt (Nat.pow_lt_pow_right (by decide) hi : 2 ^ i < 2 ^ 8), Nat.mul_comm, Nat.pow_add]
  unfold resumeWord w64
  rw [BitVec.getLsbD_or, BitVec.getLsbD_and, henables, Bool.and_false, Bool.false_or, hbit, BitVec.getLsbD_ofNat,
    Nat.testBit_two_pow, decide_eq_true (show j < 64 by omega), Bool.true_and]
  exact decide_eq_decide.2 eq_comm

end Sys2Proof.Machine

namespace Sys2Proof.Claims

open Sys2Proof.Machine

/-! ### The statements -/

/-- R340, R347: a write of a register of a context alone. -/
theorem ctxWrite_leaves (s : State) (a : Nat) (f : Ctx → Ctx) :
    (∀ k, k ≠ a → (s.modCtx a f).ctx k = s.ctx k) ∧ (s.modCtx a f).ctx a = f (s.ctx a) :=
  ⟨fun _ h => s.ctx_modCtx_ne h f, s.ctx_modCtx_same a f⟩

theorem blockWriteEvents_holds : blockWriteEvents := by
  unfold blockWriteEvents
  refine ⟨fun cl n v s => ?win, fun a n v s hn => ?scope, fun cl n v s => ?hbc, fun a v s => ⟨?fqb, ?fqh, ?erb, ?erc⟩,
    fun cl v s => ?vseg, fun cl n v s => ⟨?quota, ?umon⟩⟩
  case win =>
    refine ⟨s.writeWin cl n v, rfl, rfl, fun k hk => s.cluster_modCluster_ne hk _, ?_⟩
    unfold State.writeWin
    rw [State.cluster_modCluster_same]
    exact ⟨rfl, if_pos rfl, vrd_vwr_same _ _ _⟩
  case scope =>
    refine ⟨s.writeScope a n v, rfl, rfl, fun k hk => s.ctx_modCtx_ne hk _, ?_⟩
    unfold State.writeScope
    rw [State.ctx_modCtx_same]
    refine ⟨if_pos rfl, (vrd_vwr_same _ _ _).trans ?_⟩
    rw [Nat.mod_eq_of_lt hn]
    unfold scopeWrite
    by_cases hfixed : n < 6
    · simp only [hfixed, if_true, true_or]
    · simp only [hfixed, if_false, false_or]
  case hbc =>
    refine ⟨_, rfl, rfl, fun k hk => s.cluster_modCluster_ne hk _, ?_⟩
    rw [State.cluster_modCluster_same, vrd_vwr_same]
    refine ⟨fun h => hbWrite_refused (.inl h), fun hen hcnt => hbWrite_refused (.inr ⟨hen, hcnt⟩),
      fun harr hen hpos hle => ?_⟩
    rw [hbWrite_accepted (by omega), hen]
    have hcnt : bitsAt v.toNat 0 8 < 2 ^ 8 := bitsAt_lt _ _ _
    have htmo : bitsAt v.toNat 16 8 < 2 ^ 8 := bitsAt_lt _ _ _
    have hlo : bitsAt v.toNat 0 8 + bitsAt v.toNat 16 8 * 2 ^ 16 < 2 ^ 24 := by omega
    have hphase : hbPhase (vrd (s.cluster cl).hbc n) < 256 := bitsAt_lt _ 32 8
    refine ⟨hbEn_hbWord hlo hphase _ _, (hbCnt_hbWord hlo hphase _ _).trans ?_, hbArr_hbWord hlo hphase _ _,
      hbPhase_hbWord hlo hphase _ _⟩
    show _ = bitsAt v.toNat 0 8
    omega
  case fqb =>
    obtain ⟨hothers, hown⟩ := ctxWrite_leaves s a (fun c => c.writeFqb v)
    refine ⟨_, rfl, hothers, ?_⟩
    rw [hown]
    simp only [Ctx.writeFqb, Bool.and_eq_true, beq_iff_eq]
    split <;> rfl
  case fqh =>
    obtain ⟨hothers, hown⟩ := ctxWrite_leaves s a (fun c => c.writeFqh v)
    exact ⟨_, rfl, hothers, congrArg Ctx.fqh hown⟩
  case erb =>
    obtain ⟨hothers, hown⟩ := ctxWrite_leaves s a (fun c => c.writeErb v)
    refine ⟨_, rfl, hothers, ?_⟩
    rw [hown]
    unfold Ctx.writeErb
    split <;> rfl
  case erc =>
    obtain ⟨hothers, hown⟩ := ctxWrite_leaves s a (fun c => c.writeErc v)
    exact ⟨_, rfl, hothers, congrArg Ctx.erc hown⟩
  case vseg =>
    refine ⟨s.writeVseg cl v, rfl, ?_⟩
    simp only [State.writeVseg]
    split
    · rw [State.cluster_modCluster_same]
      exact ⟨rfl, rfl, rfl, rfl⟩
    · rw [State.mem_owe, State.cluster_owe, State.cluster_modCluster_same]
      exact ⟨rfl, rfl, rfl, rfl⟩
  case quota =>
    refine ⟨_, rfl, ?_⟩
    rw [State.cluster_modCluster_same]
    exact ⟨if_pos rfl, (Tab.find?_put _ _ _ _).trans (if_pos rfl)⟩
  case umon =>
    refine ⟨_, rfl, ?_⟩
    rw [State.cluster_modCluster_same]
    exact (Tab.find?_put _ _ _ _).trans (if_pos rfl)

theorem exec_permissionMapWrite {s : State} {cl : Nat} (hcl : cl < 1024) (hquiet : s.inFlightPackets = false) (device : Bool)
    (m : BitVec 1024) : exec (.permissionMapWrite cl device m) s =
      .next ((if device then s.allotDevs cl (mapBits m) else s).modCluster cl (fun c =>
        if device then { c with ptd := mapBits m, ptdAll := m == BitVec.allOnes 1024 }
        else { c with ptc := mapBits m, ptcAll := m == BitVec.allOnes 1024 })) := by
  show execPermissionMapWrite cl device m s = _
  simp only [execPermissionMapWrite, hquiet, Bool.false_eq_true, if_false, Nat.mod_eq_of_lt hcl]
  rfl

theorem controlWriteEvents_holds : controlWriteEvents := by
  unfold controlWriteEvents
  refine ⟨fun a v s => ?cen, fun a p h v s hparent hfeat => ?feat, fun a s => ?rekey, fun cl device m s hcl hquiet => ?map,
    fun k n v s hn => ⟨fun hk hfree => ?hba, fun hk hempty => ?cqa⟩, fun cl i v s hcl hi => ⟨?halt, ?resume⟩,
    fun n s hn => ?port, fun d e s hd hstill => ?device, fun v s => ⟨_, rfl, rfl, rfl⟩⟩
  case cen =>
    have hkept := s.keepsCen_writeCen a v 0#9
    exact ⟨_, rfl, (hkept.cen a).trans (congrArg Ctx.cen (s.ctx_modCtx_same a _)), hkept.mem⟩
  case feat =>
    let u : State := s.modCtx a (fun c => { c with feat := v.setWidth 9 })
    have hparents : ∀ c, (u.ctx c).parent = (s.ctx c).parent := fun c => by
      rw [State.ctx_modCtx]
      split
      · next h => rw [h]
      · rfl
    have hexec : exec (.featWrite a v) s = .next (u.loseBelow a ((s.ctx a).feat &&& ~~~v.setWidth 9)) := by
      show execFeatWrite a v s = _
      simp only [execFeatWrite, hparent, State.writeBlock_feat hfeat]
      rfl
    refine ⟨_, hexec, ?_, fun c hc => ?_⟩
    · rw [State.feat_loseBelow, bne_self_eq_false, Bool.false_and, if_neg Bool.false_ne_true]
      exact congrArg Ctx.feat (s.ctx_modCtx_same a _)
    · rw [State.feat_loseBelow, bne_iff_ne.2 hc, Bool.true_and, State.within_congr hparents, State.ctx_modCtx_ne hc]
  case rekey =>
    refine ⟨_, rfl, ?_, rfl, fun k hk => State.ctx_modCtx_ne hk _ _⟩
    exact congrArg Ctx.secretNo (State.ctx_modCtx_same _ a _)
  case map =>
    refine ⟨_, exec_permissionMapWrite hcl hquiet device m, fun k hk => ?_, fun d hd hother => ?_, ?_⟩
    · rw [State.cluster_modCluster_ne hk]
      cases device <;> rfl
    · cases device with
      | true =>
        show State.permitsDev _ cl d = _
        unfold State.permitsDev
        rw [State.cluster_modCluster_same]
        simp only [if_true]
        exact mapBits_reads m hd
      | false =>
        have hne : (cl == d) = false := beq_eq_false_iff_ne.2 fun h => hother.elim Bool.false_ne_true (fun g => g h.symm)
        show State.permits _ cl d = _
        unfold State.permits
        rw [State.cluster_modCluster_same, hne, Bool.false_or]
        simp only [Bool.false_eq_true, if_false]
        exact mapBits_reads m hd
    · unfold State.permits
      rw [beq_self_eq_true, Bool.true_or, Bool.true_or]
  case hba =>
    have hnone : ¬ (s.clusters.any (fun p => dieOf p.1 == k && hbEn (vrd p.2.hbc n)) = true) := fun hany => by
      obtain ⟨p, hp, hen⟩ := List.any_eq_true.1 hany
      rw [Bool.and_eq_true, beq_iff_eq] at hen
      exact Bool.false_ne_true ((hfree p hp hen.1).symm.trans hen.2)
    refine ⟨{ s with hba := s.hba.put k (allotPut (s.hbaOf k) n v) }, ?_, (Tab.get_put _ _ _ _ _).trans (if_pos rfl)⟩
    show execAllotmentWrite true k n v s = _
    simp only [execAllotmentWrite, Nat.mod_eq_of_lt hk, Nat.mod_eq_of_lt hn, if_true, if_neg hnone]
    rfl
  case cqa =>
    refine ⟨s.modField k (fun f => { f with cqa := allotPut f.cqa n v }), ?_, ?_⟩
    · show execAllotmentWrite false k n v s = _
      simp only [execAllotmentWrite, Nat.mod_eq_of_lt hk, Nat.mod_eq_of_lt hn, Bool.false_eq_true, if_false, hempty,
        List.isEmpty_nil, Bool.not_true]
      rfl
    · rw [State.field_modField, if_pos rfl]
  case halt =>
    obtain ⟨hmem, hdmctl, hhalted⟩ := s.writeDmctl_leaves cl v
    refine ⟨s.writeDmctl cl v, ?_, hmem, hdmctl, hhalted i hi⟩
    show execHalt cl 0 v s = _
    simp only [execHalt, Nat.mod_eq_of_lt hcl]
    rfl
  case resume =>
    obtain ⟨hmem, -, hhalted⟩ := s.writeDmctl_leaves cl (resumeWord (s.cluster cl).dmctl i)
    refine ⟨s.writeDmctl cl (resumeWord (s.cluster cl).dmctl i), ?_, hmem, ?_, fun k hk hne => ?_⟩
    · show execDebugResume cl (2 ^ i) s = _
      simp only [execDebugResume, Nat.mod_eq_of_lt hcl]
      rfl
    · rw [hhalted i hi, getLsbD_resumeWord _ hi (by omega), decide_eq_true rfl, if_pos rfl]
    · rw [hhalted k hk, getLsbD_resumeWord _ hi (by omega), getLsbD_resumeWord _ hi (by omega),
        decide_eq_false (show ¬ 8 + k = 8 + i by omega), decide_eq_false (show ¬ k = 8 + i by omega), Bool.false_or]
      exact if_neg Bool.false_ne_true
  case port =>
    intro p e he
    have hclears : p.clearCounter e.1 = e.2 := by
      simp only [List.mem_cons, List.not_mem_nil, or_false] at he
      rcases he with rfl | rfl | rfl | rfl | rfl <;> rfl
    refine ⟨s.modPort n (fun p => p.clearCounter e.1), ?_, rfl, (Tab.get_upd_same s.ports {} n (fun p => p.clearCounter e.1)).trans hclears⟩
    show execPortCounterClear n e.1 0#64 s = _
    simp only [execPortCounterClear, if_true, Nat.mod_eq_of_lt hn]
    rfl
  case device =>
    have hnone : s.ctxs.any (fun p => p.2.phase == .running) = false := by
      rw [List.any_eq_false]
      intro p hp
      simpa using List.all_eq_true.1 hstill p hp
    refine ⟨{ s with devId := d, route := s.route.put e.1 (e.2 % 18) }, ?_, rfl,
      (Tab.find?_put _ _ _ _).trans (if_pos rfl)⟩
    show execDeviceIdentifierAssignment d [e] s = _
    simp only [execDeviceIdentifierAssignment, hnone, Bool.false_or, decide_eq_false (Nat.not_le.2 hd), Bool.false_eq_true,
      if_false]
    rfl

end Sys2Proof.Claims

open Sys2Proof Sys2Proof.Machine Sys2Proof.Claims

/-- Settles O44: the writes of the registers of clusters and contexts are `blockWriteEvents_holds`, those of the fabric, the
debug module and the module `controlWriteEvents_holds`. -/
theorem registerWriteEvents : Obligations.RegisterWriteEvents := by
  unfold Obligations.RegisterWriteEvents
  exact ⟨blockWriteEvents_holds, controlWriteEvents_holds⟩

end

section
/-! SUPPORT. Pins of lines of the L1 (R207, R267) and the prefetch (R266): what `pin`, `unpin`, `unpin.all` and `pf` leave. -/

namespace Sys2Proof.Machine

open Sys2Proof.Claims

/-! ### The copies of a core -/

theorem State.OnlyRegs.l1 {s t : State} {rs ds : List (BitVec 6)} (h : s.OnlyRegs t rs ds) : t.me.l1 = s.me.l1 := by
  rw [h.core]

/-- What a write of a register and the step to the next instruction leave of the copies. -/
theorem State.l1_setX_advance (s : State) (d : BitVec 6) (v : Word) (n : Nat) :
    ((s.setX d v).advance n).me.l1 = s.me.l1 :=
  ((s.setX d v).onlyRegs_advance n).l1.trans (s.onlyRegs_setX d v).l1

/-- R134: the copy in the L1 once a hold of it has ended. -/
theorem State.find?_releaseHold {s : State} {cid slot line : Nat} {c : L1Line} (h : (s.core cid).l1.find? line = some c) :
    ((s.releaseHold cid slot line).core cid).l1.find? line =
      some { c with holds := c.holds.filter (fun h => h.1 != slot) } := by
  simp only [State.releaseHold, h, State.core_modSlot]
  rw [State.core_modCore, if_pos rfl, Tab.find?_put, if_pos rfl]

/-- R267: a slot's pin on a line of its core is set. -/
def Core.pin (k : Core) (slot line : Nat) : Core :=
  { k with l1 := match k.l1.find? line with
      | some c => k.l1.put line { c with pins := slot :: c.pins }
      | none => k.l1 }

theorem Core.find?_pin {k : Core} {slot line : Nat} {c : L1Line} (h : k.l1.find? line = some c) :
    (k.pin slot line).l1.find? line = some { c with pins := slot :: c.pins } := by
  simp only [Core.pin, h, Tab.find?_put, if_true]

theorem Core.not_mem_pins_unpin {k : Core} {slot line : Nat} {c : L1Line} (h : (k.unpin slot line).l1.find? line = some c) :
    slot ∉ c.pins := by
  unfold Core.unpin at h
  cases hc : k.l1.find? line with
  | none =>
    simp only [hc] at h
    exact nomatch h
  | some c' =>
    simp only [hc, Tab.find?_put, if_true] at h
    obtain rfl := Option.some.inj h
    simp

theorem State.undisturbed_modL1 (s : State) {f : Core → Core} (hf : ∀ k, f k = { k with l1 := (f k).l1 }) :
    s.Undisturbed (s.modMe f) :=
  (s.keepsThreads_modCore _ fun k => by rw [hf k]; exact ⟨rfl, rfl⟩).undisturbed

/-- R267: a slot of the current core pins a line, of which the core has had the copy `c`, where it has not pinned it and the
core has room for a pin. -/
def State.pinned (s : State) (c : L1Line) (slot line : Nat) : State :=
  if c.pins.contains slot then s else if s.me.pinCount < 128 then s.modMe (fun k => k.pin slot line) else s

theorem State.undisturbed_pinned (s : State) (c : L1Line) (slot line : Nat) : s.Undisturbed (s.pinned c slot line) := by
  unfold State.pinned
  split
  · exact .refl s
  · split
    · exact s.undisturbed_modL1 fun _ => rfl
    · exact .refl s

theorem State.mem_pinned (s : State) (c : L1Line) (slot line : Nat) : (s.pinned c slot line).mem = s.mem := by
  unfold State.pinned
  split
  · rfl
  · split <;> rfl

/-- R267: a line is pinned for the slot where it was before, or the core has room for a pin. -/
theorem State.find?_pinned {s : State} {c c0 : L1Line} {slot line : Nat} (hline : s.me.l1.find? line = some c0)
    (hpins : c0.pins = c.pins) (hroom : (c.pins.contains slot || decide (s.me.pinCount < 128)) = true) :
    ∃ c', (s.pinned c slot line).me.l1.find? line = some c' ∧ slot ∈ c'.pins ∧ c'.data = c0.data := by
  unfold State.pinned
  split
  · next hpinned => exact ⟨c0, hline, by rw [hpins]; simpa using hpinned, rfl⟩
  · next hpinned =>
    have hfree : s.me.pinCount < 128 := by
      rw [Bool.or_eq_true, decide_eq_true_eq] at hroom
      exact hroom.resolve_left hpinned
    rw [if_pos hfree, State.me_modMe]
    exact ⟨_, Core.find?_pin hline, List.mem_cons_self, rfl⟩

/-! ### `pin` (R267) -/

/-- An instruction that follows the thread's earlier vector stores, its checks passed. -/
theorem run_memUse {p : Policy} {reads ds : List (BitVec 6)} {s : State} (h : canAct s (reads ++ ds) reads)
    (body : State → Res) :
    (memUse p reads ds).run s body = (memUse p reads ds).finish s (body (begun s reads ds)) := by
  obtain ⟨⟨hunheld, harrived⟩, hlate⟩ := h
  exact Use.run_of (memUse p reads ds) s body nofun nofun hunheld (fun _ => hlate) harrived

/-- R96: what an address that resolves leaves of the state before the instruction. -/
theorem undisturbed_of_resolve {s s2 : State} {reads ds : List (BitVec 6)} {va : Word} {n : Nat} {k : Kind} {e : TlbEntry}
    (h : (begun s reads ds).resolve va n k = .ok e s2) : s.Undisturbed s2 ∧ s2.mem = (begun s reads ds).mem := by
  obtain ⟨-, -, -, -, -, rfl⟩ := State.resolve_eq_ok h
  exact ⟨(Use.undisturbed_start _ s).trans (State.undisturbed_unwait _ _), by rw [State.unwait_eq]⟩

section
variable {p : Policy} {a d : BitVec 6} {s s2 : State} {e : TlbEntry} (hact : canAct s [a, d] [a])
  (hres : (begun s [a] [d]).resolve (s.xr a) 1 (Kind.ofCode 0) = .ok e s2)
include hact hres

/-- R267: `pin` of a line that the L1 holds. -/
theorem exec_pin_of_l1 {m : Nat} {c : L1Line} {q : State} (hm : s2.machineOf (e.sys (s.xr a).toNat) = some m)
    (hup : s2.ownUpdate (m / 64) = false) (hc : s2.me.l1.find? (m / 64) = some c)
    (hq : q = s2.releaseHold (coreOf s.cur) (s.cur % 16) (m / 64)) :
    exec (.pin p a d) s = .next (((q.pinned c (s.cur % 16) (m / 64)).setX d
      (one (c.pins.contains (s.cur % 16) || decide (q.me.pinCount < 128)))).advance 4) := by
  have hcur : s2.cur = s.cur := (undisturbed_of_resolve hres).1.cur
  show Host.Outcome.next ((memUse p [a] [d]).run s _) = _
  rw [run_memUse hact]
  dsimp only
  rw [show (begun s [a] [d]).xr a = s.xr a from Use.xr_start _ s a, hres]
  simp only [Acc.res, hm, hup, Bool.false_eq_true, if_false, hc, hcur, ← hq, State.pinned]
  by_cases hpinned : c.pins.contains (s.cur % 16) = true
  · simp only [hpinned, if_true, Bool.true_or]
    rfl
  · by_cases hfree : q.me.pinCount < 128 <;> simp only [hpinned, hfree, if_true, if_false, decide_true, decide_false,
      Bool.or_true, Bool.or_false] <;> rfl

/-- R267: `pin` of a line that only the slot's bypass line holds. -/
theorem exec_pin_of_bypass {m : Nat} {c : L1Line} (hm : s2.machineOf (e.sys (s.xr a).toNat) = some m)
    (hup : s2.ownUpdate (m / 64) = false) (hnone : s2.me.l1.find? (m / 64) = none)
    (hc : s2.copyFor (coreOf s.cur) (s.cur % 16) (m / 64) s.th.pc = some c) :
    exec (.pin p a d) s = .next
      (((s2.releaseHold (coreOf s.cur) (s.cur % 16) (m / 64)).setX d 0#64).advance 4) := by
  obtain ⟨hs2, -⟩ := undisturbed_of_resolve hres
  show Host.Outcome.next ((memUse p [a] [d]).run s _) = _
  rw [run_memUse hact]
  dsimp only
  rw [show (begun s [a] [d]).xr a = s.xr a from Use.xr_start _ s a, hres]
  simp only [Acc.res, hm, hup, Bool.false_eq_true, if_false, hnone, hs2.cur, hs2.pc, hc]
  rfl

/-- R99, R267: `pin` of a line of another device that the slot's bypass line holds. -/
theorem exec_pin_of_far {c : L1Line} (hm : s2.machineOf (e.sys (s.xr a).toNat) = none)
    (hc : s2.copyFor (coreOf s.cur) (s.cur % 16) (e.sys (s.xr a).toNat / 64) s.th.pc = some c) :
    exec (.pin p a d) s = .next
      ((((s2.releaseHold (coreOf s.cur) (s.cur % 16) (e.sys (s.xr a).toNat / 64)).watch (s.xr a).toNat 8 true false).setX d
        0#64).advance 4) := by
  obtain ⟨hs2, -⟩ := undisturbed_of_resolve hres
  show Host.Outcome.next ((memUse p [a] [d]).run s _) = _
  rw [run_memUse hact]
  dsimp only
  rw [show (begun s [a] [d]).xr a = s.xr a from Use.xr_start _ s a, hres]
  simp only [Acc.res, hm, State.remoteLoad, Nat.mul_div_cancel _ (show 0 < 64 by decide), hs2.cur, hs2.pc, hc]
  rfl

end

/-! ### `unpin` and `unpin.all` (R267) -/

/-- A scalar instruction, its checks passed. -/
theorem run_scalarUse {reads ds : List (BitVec 6)} {s : State} (h : canRun s (reads ++ ds) reads) (body : State → Res) :
    (scalarUse reads ds).run s body = (scalarUse reads ds).finish s (body (begun s reads ds)) := by
  obtain ⟨hunheld, harrived⟩ := h
  exact Use.run_of (scalarUse reads ds) s body nofun nofun hunheld nofun harrived

/-- An instruction that names no register is not held. -/
theorem canRun_nil (s : State) : canRun s [] [] := ⟨⟨nofun, nofun⟩, nofun⟩

/-- R267: what `unpin` leaves that has found a line, or none. -/
def State.unpinned (s : State) (slot : Nat) (at_ : Option Nat) : State :=
  at_.elim s (fun m => s.modMe (fun k => k.unpin slot (m / 64)))

theorem State.undisturbed_unpinned (s : State) (slot : Nat) (at_ : Option Nat) : s.Undisturbed (s.unpinned slot at_) := by
  cases at_ with
  | none => exact .refl s
  | some m => exact s.undisturbed_modL1 (f := fun k => k.unpin slot (m / 64)) fun _ => rfl

theorem State.mem_unpinned (s : State) (slot : Nat) (at_ : Option Nat) : (s.unpinned slot at_).mem = s.mem := by
  cases at_ <;> rfl

theorem State.not_mem_pins_unpinned {s : State} {slot m : Nat} {c : L1Line}
    (h : (s.unpinned slot (some m)).me.l1.find? (m / 64) = some c) : slot ∉ c.pins := by
  unfold State.unpinned at h
  rw [Option.elim_some, State.me_modMe] at h
  exact Core.not_mem_pins_unpin h

theorem exec_unpin {a : BitVec 6} {s : State} (h : canRun s [a] [a]) : exec (.unpin a) s = .next
    (((begun s [a] []).unpinned (s.cur % 16) (pinAt (begun s [a] []) (s.xr a).toNat)).advance 4) := by
  have hcur : (begun s [a] []).cur = s.cur := Use.cur_start _ s
  have hxr : (begun s [a] []).xr a = s.xr a := Use.xr_start _ s a
  show Host.Outcome.next ((scalarUse [a] []).run s _) = _
  rw [run_scalarUse h]
  unfold pinAt
  dsimp only
  rw [hcur, hxr]
  cases (begun s [a] []).xlate (coreOf s.cur) (begun s [a] []).th.ctx (s.xr a).toNat {} with
  | some e =>
    dsimp only [Option.bind_some]
    cases (begun s [a] []).machineOf (e.sys (s.xr a).toNat) <;> rfl
  | none =>
    cases (begun s [a] []).translate false (begun s [a] []).th.ctx (s.xr a).toNat {} with
    | ok w _ =>
      dsimp only [Option.bind_some]
      cases (begun s [a] []).machineOf w.addr <;> rfl
    | fault _ _ _ _ _ => rfl

/-- R267: every pin of a slot on lines of its core is released. -/
def Core.unpinAll (k : Core) (slot : Nat) : Core :=
  { k with l1 := k.l1.map (fun p => (p.1, { p.2 with pins := p.2.pins.filter (· != slot) })) }

theorem Core.not_mem_pins_unpinAll {k : Core} {slot : Nat} {l : Nat × L1Line} (h : l ∈ (k.unpinAll slot).l1) :
    slot ∉ l.2.pins := by
  obtain ⟨l', -, rfl⟩ := List.mem_map.1 h
  simp

theorem exec_unpinAll (s : State) :
    exec .unpinAll s = .next (((begun s [] []).modMe (fun k => k.unpinAll (s.cur % 16))).advance 4) := by
  show Host.Outcome.next ((scalarUse [] []).run s _) = _
  rw [run_scalarUse (canRun_nil s), show (begun s [] []).cur = s.cur from Use.cur_start _ s]
  rfl

/-! ### `pf` (R266) -/

/-- R266: a prefetch at most asks for a line. -/
theorem exec_pf (a : BitVec 6) (s : State) :
    ∃ due, exec (.pf a) s = .next (({ begun s [] [] with due := due } : State).advance 4) := by
  have hasks (j : Job) : ((begun s [] []).owe j).advance 4 =
      ({ begun s [] [] with due := ((begun s [] []).owe j).due } : State).advance 4 :=
    congrArg (State.advance · 4) (State.owe_eq _ j)
  show ∃ due, Host.Outcome.next ((scalarUse [] []).run s _) = _
  rw [run_scalarUse (canRun_nil s)]
  dsimp only
  split
  · exact ⟨_, rfl⟩
  · split
    · exact ⟨_, rfl⟩
    · split
      · split
        · exact ⟨_, congrArg Host.Outcome.next (hasks _)⟩
        · exact ⟨_, rfl⟩
      · exact ⟨_, rfl⟩

end Sys2Proof.Machine

namespace Sys2Proof.Claims

open Sys2Proof.Machine

theorem pinSets_holds : pinSets := by
  unfold pinSets
  intro p a d s s2 e hact hres
  obtain ⟨hs2, hmem⟩ := undisturbed_of_resolve hres
  have hbyte : ∀ x, s2.byte x = s.byte x := fun x =>
    (congrArg (Memory.read · x) hmem).trans ((Use.onlyRegs_start _ s).memory x)
  have hreleased (line : Nat) : s.Undisturbed (s2.releaseHold (coreOf s.cur) (s.cur % 16) line) :=
    hs2.trans (s2.keepsThreads_releaseHold _ _ _).undisturbed
  have hends {q : State} (hq : s.Undisturbed q) (hqmem : q.mem = s2.mem) (v : Word) :
      ((q.setX d v).advance 4).goesOn (s.th.pc + 4#64) ∧ s.KeepsRegs ((q.setX d v).advance 4) [d] ∧
        ((q.setX d v).advance 4).xr d = v ∧ ∀ x, ((q.setX d v).advance 4).byte x = s.byte x := by
    obtain ⟨hx, hpc, hregs, hbytes⟩ := hq.setX_advance d v 4
    exact ⟨hpc, hregs, hx, fun x => (hbytes x).trans ((congrArg (Memory.read · x) hqmem).trans (hbyte x))⟩
  refine ⟨fun m c hm hup hc => ?l1, fun m c hm hup hnone hc => ?bypass, fun c hm hc => ?far⟩
  case l1 =>
    intro room
    let q : State := s2.releaseHold (coreOf s.cur) (s.cur % 16) (m / 64)
    have hline : q.me.l1.find? (m / 64) = some { c with holds := c.holds.filter (fun h => h.1 != s.cur % 16) } := by
      unfold State.me at hc ⊢
      rw [hs2.cur] at hc
      rw [(hreleased _).cur]
      exact State.find?_releaseHold hc
    obtain ⟨hpc, hregs, hx, hbytes⟩ := hends ((hreleased (m / 64)).trans (q.undisturbed_pinned c (s.cur % 16) (m / 64)))
      ((q.mem_pinned _ _ _).trans (State.mem_releaseHold _ _ _ _)) (one room)
    refine ⟨_, exec_pin_of_l1 hact hres hm hup hc rfl, hpc, hregs, hx, hbytes, fun hroom => ?_⟩
    rw [State.l1_setX_advance]
    have hpinned := State.find?_pinned (c := c) hline rfl hroom
    exact hpinned
  case bypass => exact ⟨_, exec_pin_of_bypass hact hres hm hup hnone hc, hends (hreleased _) (State.mem_releaseHold _ _ _ _) _⟩
  case far =>
    have hwatched := State.watched_watch (s2.releaseHold (coreOf s.cur) (s.cur % 16) (e.sys (s.xr a).toNat / 64))
      (s.xr a).toNat 8 true false
    exact ⟨_, exec_pin_of_far hact hres hm hc, hends ((hreleased _).trans hwatched.keepsThreads.undisturbed)
      (hwatched.mem.trans (State.mem_releaseHold _ _ _ _)) _⟩

theorem pinReleases_holds : pinReleases := by
  unfold pinReleases
  intro a s
  refine ⟨fun hrun => ?unpin, ?unpinAll, ?pf⟩
  case unpin =>
    let b : State := begun s [a] []
    let q : State := b.unpinned (s.cur % 16) (pinAt b (s.xr a).toNat)
    have hadv : q.OnlyRegs (q.advance 4) [] [] := q.onlyRegs_advance 4
    obtain ⟨hpc, hregs⟩ := ((Use.undisturbed_start _ s).trans
      (b.undisturbed_unpinned (s.cur % 16) (pinAt b (s.xr a).toNat))).advance 4
    refine ⟨_, exec_unpin hrun, hpc, hregs, fun x => ?_, fun m c hm hc => ?_⟩
    · exact (congrArg (Memory.read · x) (b.mem_unpinned _ _)).trans ((Use.onlyRegs_start _ s).memory x)
    · rw [hadv.l1] at hc
      simp only [q, b, hm] at hc
      exact State.not_mem_pins_unpinned hc
  case unpinAll =>
    let b : State := begun s [] []
    let q : State := b.modMe (fun k => k.unpinAll (s.cur % 16))
    have hadv : q.OnlyRegs (q.advance 4) [] [] := q.onlyRegs_advance 4
    obtain ⟨hpc, hregs⟩ := ((Use.undisturbed_start _ s).trans
      (b.undisturbed_modL1 (f := fun k => k.unpinAll (s.cur % 16)) fun _ => rfl)).advance 4
    refine ⟨_, exec_unpinAll s, hpc, hregs, (Use.onlyRegs_start _ s).memory, fun l hl => ?_⟩
    rw [hadv.l1, show q.me = b.me.unpinAll (s.cur % 16) from State.me_modMe _ _] at hl
    exact Core.not_mem_pins_unpinAll hl
  case pf =>
    obtain ⟨due, hexec⟩ := exec_pf a s
    have hb : s.OnlyRegs (begun s [] []) [] [] := Use.onlyRegs_start _ s
    let q : State := { begun s [] [] with due := due }
    have hadv : q.OnlyRegs (q.advance 4) [] [] := q.onlyRegs_advance 4
    have hkept : (begun s [] []).KeepsThreads q := State.keepsThreads_of_eq rfl rfl rfl
    obtain ⟨hpc, hregs⟩ := ((Use.undisturbed_start _ s).trans hkept.undisturbed).advance 4
    exact ⟨_, hexec, hpc, hregs, fun r => (hadv.arms r List.not_mem_nil List.not_mem_nil).trans
      (hb.arms r List.not_mem_nil List.not_mem_nil), hadv.l1.trans hb.l1, hb.memory⟩

end Sys2Proof.Claims

open Sys2Proof Sys2Proof.Machine Sys2Proof.Claims

/-- Settles O18: `pin` by `exec_pin_of_l1`, `exec_pin_of_bypass` and `exec_pin_of_far`, the releases by `exec_unpin` and
`exec_unpinAll`, and the prefetch by `exec_pf`. -/
theorem pinComplete : Obligations.PinComplete := by
  unfold Obligations.PinComplete
  exact ⟨pinSets_holds, pinReleases_holds⟩

end
